-- ==== Sys2Proof/Word.lean ====
section
/-! DEFINITION. The word types of the JP2604 model: bytes, 32-bit registers, 64-bit words (R10 to R18 of
spec/00_scope.md give the conventions). Everything a test could correct lives in Machine/Ops.lean instead. -/

namespace Sys2Proof

/-- One byte. -/
abbrev Byte := BitVec 8
/-- One 32-bit register. -/
abbrev W32 := BitVec 32
/-- One 64-bit word (granary word, staging word, frame word). -/
abbrev W64 := BitVec 64

end Sys2Proof
end

