-- ==== Sys2Proof/Syntax.lean ====
section
/-! DEFINITION. The commands of the block: one constructor per row of spec/opcode_table.json. A row that stands for
a write of one register carries the value written; a row whose effect depends on data from outside the device (host
memory, ADC codes, a received message, a verify result) carries that data. `none` for host-read data is a failed
read (R365, Table 10-7). -/

namespace Sys2Proof

/-- An error pattern that a DRAM read returns on top of what the DRAM holds (R333, R334): an XOR on the 64 data bytes
(bit 8i+j is bit j of byte i), an XOR on the 16 check bytes, and whether the block came from another address. -/
structure DramErr where
  data : BitVec 512
  check : BitVec 128
  addr : Bool
  deriving DecidableEq, Repr

/-- The configuration the SPD of a channel declares (R314): density code 1 to 4 of Table 9-1 (8, 16, 24, 32 Gb),
ranks per DIMM, DIMMs. -/
structure DimmConf where
  density : Fin 5
  ranks : Fin 4
  dimms : Fin 4
  /-- Width of the DRAM devices (×4, ×8, ×16), registered DIMM, check bits present, refresh management required (R315). -/
  width : Fin 17
  registered : Bool
  checkBits : Bool
  refreshManaged : Bool
  deriving DecidableEq, Repr

/-- A training step of Table 9-2. -/
inductive TrainStep where
  | sideband | config | rcdPmic | interface | check
  deriving DecidableEq, Repr

/-- A unit that fails the start-up self-test (Table 14-2) and the cause coding of R537. -/
inductive SelfTestFail where
  | sram (index : BitVec 16) (noSpare : Bool)
  | thresher (unit : Fin 128)
  | ingest (unit : Fin 32)
  | dose
  | chk (unit : Fin 4)
  deriving DecidableEq, Repr

/-- One ADC sample pair of an encoder channel (R200): 14-bit two's-complement codes. -/
structure EncPair where
  s : BitVec 14
  c : BitVec 14
  deriving DecidableEq, Repr

/-- The instant of the time-stamp point of an Ethernet frame at the balls, on the device's own clock: so many CK_TIME ticks before the
last one, and the part of a tick since then in units of 2⁻³² (R403). -/
structure Stamp where
  back : Byte
  phase : W32
  deriving DecidableEq, Repr

/-- A frame that a port receives as a gang frame: the port, the bytes from the destination address on without FCS (R414), and the
instant of its time-stamp point. -/
structure GangFrame where
  port : Fin 2
  frame : List Byte
  stamp : Stamp
  deriving DecidableEq, Repr

/-- The payload of ARM_READY (Table 8-4). -/
structure ArmReady where
  admitId : W32
  planCrc : W32
  cfgDigest : W32
  tblDigest : W64
  pos : BitVec 48
  posValid : Bool
  speedValid : Bool
  deriving DecidableEq, Repr

/-- The payload of HELLO (Table 8-4). -/
structure Hello where
  serial : W64
  stepping : BitVec 16
  sideB : Bool
  paceMaster : Bool
  expected : W64
  deriving DecidableEq, Repr

/-- The payload of HEARTBEAT (Table 8-4) and its round trip in CK_CORE cycles (TWN_RTT). -/
structure Heartbeat where
  roleGrp : W32
  active : Bool
  stripeState : Fin 16
  threshers : Fin 129
  ingest : Fin 33
  channels : Fin 13
  density : Fin 5
  nbrK : Fin 32
  cfgDigest : W32
  tblDigest : W64
  rtt : BitVec 16
  deriving DecidableEq, Repr

/-- A TABLE message (Table 8-4): a beam table command and the values it carries, one number per beam. -/
structure TableMsg where
  tag : BitVec 16
  trim : Bool
  first : BitVec 18
  count : BitVec 19
  row : W32
  values : List Nat
  deriving DecidableEq, Repr

/-- What the root complex writes into configuration space when the link has come up (Tables 10-1 and 15-1), beside the max payload code:
the max read request code, the addresses of BAR0 and BAR2, MSI-X enable and function mask, power state D3hot. -/
structure PcieConf where
  mrrs : Fin 8
  bar0 : W64
  bar2 : W64
  msixEn : Bool
  msixMask : Bool
  d3hot : Bool
  deriving DecidableEq, Repr

/-- A burst that may start (R386): its chain, and the requesters whose spacing has elapsed, one bit each. -/
structure BurstTurn where
  chain : Fin 16
  spaced : BitVec 17
  deriving DecidableEq, Repr

/-- An alert on ALERT_N (R354): its channel, whether it reports a write CRC error or a CA parity error, and whether the command
sequence was a retry already. -/
structure LoftAlert where
  channel : Fin 12
  writeCrc : Bool
  again : Bool
  deriving DecidableEq, Repr

/-- The commands (DESIGN CHOICE, log 1): the constructors stand in the table's order. -/
inductive Instr where
  | powerOn | sysRstNFall | sysRstNRise | clocksLocked
  | selftestDone (fails : List SelfTestFail)
  | granaryLoadDone (unreadable : List Nat)
  | loftChannelTrained (c : Fin 12) (step : TrainStep) (ok : Bool) (conf : Option DimmConf)
  | loftTrained
  | startupDone (us : W32)
  | pllLockLoss (unit : Byte) (hkRuns : Bool) | supplyFault (unit : Byte) (hkRuns : Bool) | watchdogExpiry (unit : Byte)
  | dieTempRead (t : BitVec 16)
  | pfwNFall | pfwRecognized | pfwSequenceDone
  | pcieLinkReset (cause : Fin 3)
  | pciePerstN (high : Bool)
  | registerWrite (bar2 : Bool) (off : BitVec 24) (len : Nat) (be : Byte) (data : W64) (req : BitVec 16)
  | rwpRegisterWrite (off : BitVec 24) (v : W32) (req : BitVec 16)
  | persistQueueDrain
  | granaryWordWriteDone (ok : Bool)
  | loRegisterRead (bar2 : Bool) (off : BitVec 24) (len : Nat)
  | glbReset (v : W32) (req : BitVec 16)
  | glbSnap
  | thrRetire (v : W32)
  | pacVlimWrite (hiLimit : Bool) (v : W32) (req : BitVec 16)
  | paceLinkEnable (v : W32)
  | encCppIntWrite (v : W32) (req : BitVec 16)
  | encPresetLoad (n : Fin 4) (v : W32)
  | encChannelEnable (n : Fin 4) (v : W32)
  | cmpArm (k : Fin 4) (v : W32) | cmpDisarm (k : Fin 4) (v : W32)
  | cmpTgtHiWrite (k : Fin 4) (v : W32)
  | swlLaneEnable (l : Fin 128) (v : W32) | swlLaneDisable (l : Fin 128) (v : W32)
  | retrain (l : Fin 128) (v : W32) | loopWrite (l : Fin 128) (v : W32)
  | twnLinkEnable (v : W32)
  | lftInval (v : W32) | lftRetire (c : Fin 12) | lftRptClear
  | lftPredWrite (v : W32) (req : BitVec 16)
  | weevilArm (v : W32) | weevilDisarm (v : W32)
  | timIncrHiWrite (d : Fin 2) (v : W32)
  | timLoad (d : Fin 2) (v : W32) | timAdjust (d : Fin 2) (v : W32)
  | timSwitch
  | ptpTxGo (p : Fin 2) (slot : Fin 16)
  | ptpTxDone (p : Fin 2) (stamp : Stamp)
  | timRxPop (p : Fin 2)
  | gangDisable (v : W32)
  | wipe (v : W32) (req : BitVec 16)
  | checkpoint | wearCheckpointTimer
  | grnRawRead (unreadable : Bool)
  | sloFreeze (v : W32) | sloUnfreeze (v : W32)
  | obsCntCfgWrite (i : Fin 512) (v : W32) | obsCntClear (i : Fin 512) (v : W32)
  | obsCntFetch (i : Fin 512)
  | traceEnable (v : W32)
  | traceCounterPeriod | traceAlign | traceLoss
  | hstEnable (v : W32) | hstDisable (v : W32)
  | chainDisable (c : Fin 16) (v : W32)
  | doorbellPoll
  | doorbellPollComplete (data : Option (List Byte))
  | commandFetchComplete (data : Option (List Byte))
  | commandStart (id : Nat)
  | holdQueueDrain | msixModerationTimer
  | descriptorReadComplete (c : Fin 16) (data : Option (List Byte))
  | dmaBurstStart (turn : BurstTurn)
  | dmaBurstEnd (c : Fin 16) (data : Option (List Byte))
  | descriptorEnd (c : Fin 16)
  | nop (id : Nat)
  | sheafLoad (id : Nat)
  | stripeAdmit (id : Nat)
  | admitGuardWaitEnd
  | stripeArm (id : Nat)
  | prerollComplete
  | stripeAbort (id : Nat)
  | makeupArmList (id : Nat)
  | makeupArmArm (id : Nat) (data : Option (List Byte))
  | beamMapSet (id : Nat) (data : Option (List Byte))
  | trimSet (id : Nat) (data : Option (List Byte))
  | tableChangeEffect | tableSwitchRelease
  | scanCheck (id : Nat)
  | readback (id : Nat)
  | calEncMeasure (id : Nat) | calEncStore (id : Nat) | calEncLoad (id : Nat) | calEncRestore (id : Nat)
  | calEncTimeout (id : Nat)
  | twinPair (id : Nat) | twinPairDissolve (id : Nat) | twinPairTimeout
  | twinHandover (id : Nat)
  | gangLaunchCancel (id : Nat) | gangLaunchStart (id : Nat) | gangLaunchAbort (id : Nat) | gangLaunchUser (id : Nat)
  | gangLaunchDue
  | gangFrameSent (stamp0 stamp1 : Stamp)
  | snapshot (id : Nat)
  | snapshotDue
  | timeTick
  | setpointInstant | runUpStart | stopAtRest
  | encSample (p0 p1 p2 p3 : EncPair)
  | speedEdge (n : Fin 4) (cycle : Fin 5)
  | stillTimeout (n : Fin 4)
  | calWindowClose (n : Fin 4) | calSlewEnd (n : Fin 4)
  | slotTrigger (corrected : Nat) (bad : List (Fin 128 × Fin 128))
  | groupQueueOpen
  | runComplete (lane : Fin 256) (check : Option Bool)
  | groupBuilt | round2Built | groupDeadline
  | rleJobComplete (unit : Fin 32)
  | ingestUnitFailure (unit : Fin 32)
  | cribFillComplete
  | loftReadComplete (c : Fin 12) (err : DramErr) (mapErr : Bool)
  | loftRequestIssue (c : Fin 12)
  | loftWriteBatch (c : Fin 12)
  | refreshDue (c : Fin 12)
  | dimmTempRead (c : Fin 12) (t0 t1 : List (Option (BitVec 16)))
  | fillEngineStart | fillEngineDone (e : Fin 8)
  | gleanerRead (err : DramErr) (lapMs : W32) | gleanerLapSlow (secs : W32)
  | loftChannelFault (c : Fin 12) (rcd : Bool)
  | returnStatus (k : Fin 8) (lane : Fin 128) (rx : Fin 4) (high : W32) (map : W32) (crcErr : BitVec 16)
  | returnTapReq (k : Fin 8) (lane : Fin 128) (seq req preset : Byte)
  | returnTrained (k : Fin 8) (lane : Fin 128) (seq : Byte)
  | returnPrbsResult (k : Fin 8) (lane : Fin 128) (errors words : W32)
  | returnIdle (k : Fin 8) (fill : BitVec 96)
  | returnLaneTimeout (k : Fin 8)
  | returnDownSettle (k : Fin 8)
  | frameSettleTimeout (l : Fin 128)
  | laneMessageTimeout (l : Fin 128) | trainTimeout (l : Fin 128) | noPartnerTimeout (l : Fin 128)
  | quadPllUnlock (q : Fin 32) | quadPllRelock (q : Fin 32)
  | amTimer
  | trainBlock (lane : Fin 128 ⊕ Fin 8)
  | dxpDigest (group : W32) (round2 : Bool) (mask : BitVec 128) (digests : List W64)
  | dxpAbort (group : W32) (cause : Byte)
  | dxpHandoverRequest | dxpHandoverPropose (group : W32) | dxpHandoverAccept (group : W32)
  | dxpHandoverCommit (group : W32)
  | dxpArmReady (m : ArmReady)
  | dxpArmResult (status : W32)
  | dxpTable (m : TableMsg)
  | dxpTableReply (tag : BitVec 16) (reply : Fin 3) (status : Byte)
  | dxpTableCommit (tag : BitVec 16)
  | dxpHello (m : Hello)
  | dxpHeartbeat (m : Heartbeat)
  | heartbeatDue | dxpLinkTimeout | dxpQuietEnd | dxpTrainTimeout | dxpNoPartner | twinArmTimeout
  | partnerDead | roleTake
  | ethPortUp (p : Fin 2) | ethPortDown (p : Fin 2)
  | ptpFrameRx (p : Fin 2) (frame : List Byte) (stamp : Stamp)
  | ethFrameDiscard (p : Fin 2) (badFcs : Bool)
  | gangStartRx (f : GangFrame) | gangUserRx (f : GangFrame) | gangAbortRx (f : GangFrame)
  | gangIdClash (f : GangFrame)
  | partnerLive
  | dxpTrainBlockRx (lane : Fin 8) (rxState : Fin 3) (ownRx : Fin 4) (seq req preset : Byte)
  | dxpMessageDiscard
  | returnMessageDiscard (k : Fin 8)
  | alignAm (lane : Option (Fin 128))
  | gangFrameRefused (f : GangFrame)
  | msixVectorUnmask (vec : Fin 64) (v : W32)
  | pfwNRise | pfwNStableHigh
  | loftAlert (alert : LoftAlert)
  | loftRowTimeout (c : Fin 12) (bank : Fin 256)
  | admissionComplete
  | readbackComplete
  | traceRecordSent
  | pcieLinkUp (rate : Fin 6) (width : Fin 17) (mps : Fin 8) (conf : PcieConf)
  deriving DecidableEq, Repr

end Sys2Proof
end

