-- ==== Sys2Proof/Decode.lean ====
section
/-! DEFINITION. The decoder of table words. Every row of spec/opcode_table.json has an empty list of fields and no
bits: the commands are not words (DESIGN CHOICE, log 19). -/

namespace Sys2Proof

/-- The command that the table's bits spell: none, since no row of the table gives bits. -/
def decodeTableWord (_nbits _w : Nat) : Option Instr := none

end Sys2Proof
end

