-- ==== Sys2Proof/Config.lean ====
section
/-! DEFINITION. What an implementation fixes and the spec leaves open: opaque constants without a body, so no
proof can rest on a value of them (each has a row in notes/assumptions/). -/

namespace Sys2Proof.Config

/-- A free value (DESIGN CHOICE, log 4): nothing constrains it. The argument is State.free, which the step advances. -/
opaque freeValue : Nat → BitVec 64
/-- The device's serial number (R361 states where it shows, not its value; DESIGN CHOICE, log 5). -/
opaque serial : BitVec 64
/-- Vendor ID assigned to Tuidex (R494 does not state the number; DESIGN CHOICE, log 5). -/
opaque vendorId : BitVec 16
/-- JEP106 manufacturer identity assigned to Tuidex (R518 does not state the number; DESIGN CHOICE, log 5). -/
opaque jep106 : BitVec 11
/-- Length in 64-byte blocks of the bin of a tile: R93 leaves the layout inside a bin to the device. Arguments:
number of bin entries, payload bytes (DESIGN CHOICE, log 10). -/
opaque binBlocks : Nat → Nat → Nat
/-- The bytes of a bin in the bin area (R93: the layout is the device's own; DESIGN CHOICE, log 10): the argument is the loft address. -/
opaque binByte : Nat → BitVec 8
/-- The order in which the ingest units finish the bands of an admission (R93): the rank of a band. Bins are
placed band by band in that order (DESIGN CHOICE, log 10). Arguments: admission, band. -/
opaque bandRank : Nat → Nat → Nat
/-- The first granary word of the register ring of a persistent item (R428 does not number the items; DESIGN CHOICE, log 11):
the argument is the BAR0 offset of the item's register. -/
opaque ringBase : Nat → Nat
/-- The result class of a block whose error pattern spans three or more devices, or of a pattern for which R334
names two classes (DESIGN CHOICE, log 12): the code decides by the pattern. Arguments: data, check and address mask, poison. -/
opaque errorClass : Nat → Nat → Nat → Bool → Nat
/-- The device, and what is taken from its 8 bytes, when such a pattern equals a single-device pattern (R334, log 12). -/
opaque errorDevice : Nat → Nat → Nat → Bool → Fin 10
opaque errorFix : Nat → Nat → Nat → Bool → BitVec 64
/-- The 16-bit draw of a channel's LFSR at an ACT (R332 gives no polynomial or seed; DESIGN CHOICE, log 13). -/
opaque lfsrDraw : Nat → BitVec 16
/-- Data bytes that DRAM returns for a block of a region whose map word was lost (R345; DESIGN CHOICE, log 12). -/
opaque rawDram : Nat → BitVec 8
/-- The words of the format descriptor, written at manufacture (Table 12-1 gives no content; DESIGN CHOICE, log 33): the argument is the
granary word. -/
opaque formatWord : Nat → BitVec 64
/-- The CHK unit whose frame path serves a frame (the spec does not assign them; DESIGN CHOICE, log 24). Arguments: the path (swath lanes
0 to 127, Dexpin link 128, Ethernet ports 129 and 130) and its alive count. -/
opaque chkUnit : Nat → Nat → Fin 4
/-- Cycles in which the threshers waited on group-fed reads of a group (Table 13-1; DESIGN CHOICE, log 24). Arguments: State.free, the
group. -/
opaque waitCycles : Nat → Nat → BitVec 16

end Sys2Proof.Config
end

