-- ==== Sys2Proof/Machine/State.lean ====
section
/-! DEFINITION. The state of the block as plain data: every register, queue, buffer, counter, mode and pin that
spec/ gives the device, the queue of commands that wait, the outputs driven so far (DESIGN CHOICE, log 3) and the counter of free
values (DESIGN CHOICE, log 4). Fields stand at their reset values; a value the spec does not state is zero (DESIGN CHOICE, log 2). -/

namespace Sys2Proof.Machine

/-- Why the block stops. The spec gives it no stop of its own: this one is the model's (safe, it only stops). -/
inductive Fault where
  /-- Raised by a command whose data operand has a length the interface cannot carry (DESIGN CHOICE, log 1). Safe. -/
  | malformed (what : String)
  deriving DecidableEq, Repr

/-- Why a command has no meaning in the model. -/
inductive Refusal where
  /-- Raised by an arm of Dispatch that has no meaning yet. Safe. -/
  | notModelled (mnemonic : String)
  deriving DecidableEq, Repr

/-- A sparse table in canonical form: keys strictly rise, and no entry holds the table's default value. -/
abbrev Tbl (α : Type) := List (Nat × α)

/-- What the device drives outwards, in the order it happens (DESIGN CHOICE, log 3). -/
inductive Output where
  /-- A swath frame handed to lane `lane` (R241). -/
  | swathFrame (lane : Nat) (bytes : List Byte)
  /-- The lane stops in the middle of its frame and empties its queue (R255). -/
  | swathCut (lane : Nat)
  /-- A control block of a swath lane: AM or TRAIN payload (R250, R265). -/
  | swathBlock (lane : Nat) (bytes : List Byte)
  /-- A Dexpin message, as its words (R287). -/
  | dxpMessage (words : List Nat)
  /-- A control block on a Dexpin lane (R284). -/
  | dxpBlock (lane : Nat) (bytes : List Byte)
  /-- A pace frame (R190). -/
  | paceFrame (bytes : List Byte)
  /-- A write to host memory (R374, R390). -/
  | hostWrite (addr : Nat) (bytes : List Byte)
  /-- A data write with the relaxed-ordering attribute (Table 10-1). -/
  | hostWriteRo (addr : Nat) (bytes : List Byte)
  /-- A failed read reported through Advanced Error Reporting (R365, R368). -/
  | aerReport
  /-- A read of host memory that the device issues. -/
  | hostRead (addr len : Nat)
  /-- An MSI-X message of a vector (R378). -/
  | msix (vec : Nat)
  /-- The completion of a BAR0 read: the bytes, or Completer Abort (R495). -/
  | readData (len value : Nat)
  | completerAbort
  /-- An Ethernet frame sent on a port, without FCS (R402, R414). -/
  | ethFrame (port : Nat) (bytes : List Byte)
  /-- A trace record sent on a lane (R459), and ALIGN blocks (R458). -/
  | traceRecord (lane : Nat) (bytes : List Byte)
  | traceAlign (lane seq : Nat)
  /-- A 1.0 µs low pulse of DEV_FAULT_N (Table 15-11). -/
  | faultPulse
  deriving DecidableEq, Repr

/-- Start-up phase (R470). -/
inductive Phase where
  | reset | clocks | selftest | loading | ready | noLoft | fatal
  deriving DecidableEq, Repr

/-- Pins and power (14, 16). -/
structure Pins where
  /-- The device is powered (R463). -/
  powered : Bool := true
  sysRstN : Bool := false
  perstN : Bool := true
  pfwN : Bool := true
  devReady : Bool := false
  devFaultN : Bool := true
  twinLiveO : Bool := false
  paceClk : Bool := false
  /-- The swath and Dexpin lanes are at electrical idle (R466, R480). -/
  idle : Bool := true
  deriving DecidableEq, Repr

/-- The GLB block (15) and the start-up steps of Table 14-1. -/
structure Glb where
  phase : Phase := .reset
  fatal : Bool := false
  fatalCause : Nat := 0
  early : Bool := false
  range : Bool := false
  badAccess : Bool := false
  badKind : Nat := 0
  badOffset : Nat := 0
  warmCount : Nat := 0
  cause : Nat := 1
  dieMax : BitVec 16 := 0x8000
  dieTemp : BitVec 16 := 0x8000
  dieHot : Bool := false
  startupUs : W32 := 0
  faultCode : Nat := 0
  faultClass : Nat := 0
  faultSeq : Nat := 0
  classCounts : Tbl Nat := []
  clocksOk : Bool := false
  selftestOk : Bool := false
  encOk : Bool := false
  lanesStarted : Bool := false
  deriving DecidableEq, Repr

/-- One entry for the completion and event ring (Table 10-5) before it is written. -/
structure Entry where
  event : Bool
  opClass : Nat
  tagCode : Nat
  status : Nat
  time : Nat
  slot : Nat
  data : List Byte
  deriving DecidableEq, Repr

/-- Phases of a fetched command: it waits (R369), it may start, it runs. -/
inductive CmdPhase where
  | waiting | started | running
  deriving DecidableEq, Repr

/-- A fetched command that has not completed (R367, R368). -/
structure Cmd where
  id : Nat
  opcode : Nat
  flags : Nat
  tag : Nat
  rsv : List Byte
  params : List Byte
  phase : CmdPhase
  deriving DecidableEq, Repr

/-- The HST block beside its RW registers (10). -/
structure Hst where
  linkUp : Bool := false
  rate : Nat := 0
  width : Nat := 0
  mps : Nat := 0
  /-- Max read request size code; PCIe resets it to 512 bytes (PRESUMED, log 100). -/
  mrrs : Nat := 2
  /-- What the root complex has written into configuration space (R359, R360): BAR addresses, MSI-X enable and function
  mask, power state D3hot. -/
  bar0 : Nat := 0
  bar2Base : Nat := 0
  msixEn : Bool := false
  msixMask : Bool := false
  d3hot : Bool := false
  /-- The requester that the round robin granted last: a chain, or 16 (R386). -/
  granted : Nat := 16
  polled : Bool := false
  pollOut : Bool := false
  cmdTail : Nat := 0
  cplHead : Nat := 0
  kicks : Tbl Nat := []
  head : Nat := 0
  fetchLen : Nat := 0
  inflight : List Cmd := []
  nextId : Nat := 0
  tail : Nat := 0
  cyclePhase : Bool := true
  seq : Nat := 0
  hold : List Entry := []
  held18 : Bool := false
  dropRc : Nat := 0
  lostRc : Nat := 0
  dropSince : Nat := 0
  lostSince : Nat := 0
  evLost : Bool := false
  evDrop : Bool := false
  linkDownSeen : Bool := false
  modCount : Nat := 0
  /-- Vectors unmasked: the mask bit of entry v is set unless listed; the message address and data dwords of BAR2. -/
  unmasked : List Nat := []
  bar2 : Tbl W32 := []
  pba : List Nat := []
  deriving DecidableEq, Repr

inductive ChState where
  | idle | run | wait | stopped
  deriving DecidableEq, Repr

/-- A descriptor (Table 10-9) as read. -/
structure Desc where
  next : Nat
  src : Nat
  dst : Nat
  lineLen : Nat
  lineCount : Nat
  srcStride : Nat
  dstStride : Nat
  control : Nat
  user : Nat
  deriving DecidableEq, Repr

/-- One DMA chain (R383 to R389). (DEDUCED, log 89.) -/
structure Chain where
  state : ChState := .idle
  cur : Nat := 0
  desc : Option Desc := none
  /-- A read of the descriptor, or of its next field alone in WAIT, is outstanding. -/
  reading : Bool := false
  rereading : Bool := false
  kickSeen : Nat := 0
  kickAtRead : Nat := 0
  line : Nat := 0
  off : Nat := 0
  burst : Option (Nat × Nat) := none
  withdrawn : Bool := false
  bytes : Nat := 0
  done : Nat := 0
  crc : Nat := 0xFFFFFFFF
  last : Nat := 0
  /-- Loft blocks of the burst that have been read: block, then class and bytes. -/
  got : Tbl (Nat × List Byte) := []
  /-- The data of the burst have arrived and wait for the loft write queue (R385). -/
  landed : Bool := false
  /-- The stored CRC has been handed to the loft (R387). -/
  crcStored : Bool := false
  /-- `user` of the descriptor in HST_CHc_CUR (R389). -/
  user : Nat := 0
  /-- A source block was of an uncorrectable class (R388). -/
  srcUe : Bool := false
  /-- A host read of a burst failed (R388). -/
  failed : Bool := false
  owner : Option Nat := none
  descs : Nat := 0
  moved : Nat := 0
  /-- The next burst has been counted as deferred (Table 13-1). -/
  deferred : Bool := false
  deriving DecidableEq, Repr

/-- A memory scan of a CHK unit (R356, R392): owner code and tag of Table 10-14, the command, the next block, the bytes
still to scan, and what has been found. -/
structure Scan where
  owner : Nat
  tag : Nat
  cmd : Nat := 0
  next : Nat := 0
  left : Nat := 0
  algo : Nat := 0
  stop : Bool := false
  /-- The CRC that COMPARE expects. -/
  expect : Option Nat := none
  crc : Nat := 0
  ce : Nat := 0
  ue : Nat := 0
  first : Nat := 2 ^ 64 - 1
  stopped : Bool := false
  bytes : Nat := 0
  deriving DecidableEq, Repr

/-- A SHEAF_LOAD whose chain has ended (R393, steps 4 and 5): the command, the sheaf's address, what the chain moved, the
header bytes read so far, the worst class, and the next header block. -/
structure Load where
  cmd : Nat
  base : Nat
  verify : Bool
  moved : Nat
  descs : Nat
  header : List Byte := []
  cls : Nat := 0
  deriving DecidableEq, Repr

/-- The CHK units (10). -/
structure Chk where
  good : Nat := 0
  scans : Tbl Scan := []
  /-- Scans of SHEAF_LOAD and of an admission that wait for a unit. -/
  waits : List Scan := []
  loads : List Load := []
  deriving DecidableEq, Repr

/-- Geometry: a trapezoid in stripe sub-pixel X and band-local sub-pixel Y (R66). -/
structure Trap where
  y0 : Int
  y1 : Int
  xl0 : Int
  xr0 : Int
  xl1 : Int
  xr1 : Int
  deriving DecidableEq, Repr

/-- One bin entry (R91). -/
structure BinEntry where
  trap : Trap
  mask : Nat
  layer : Nat
  deriving DecidableEq, Repr

/-- The bin of a tile and its directory entry (R89). -/
structure Bin where
  entries : List BinEntry := []
  dose : Option (List Byte) := none
  rleSteps : Nat := 0
  blocks : Nat := 0
  addr : Nat := 0
  edgeMax : Nat := 0
  edgeSum : Nat := 0
  deriving DecidableEq, Repr

/-- What the sheaf header gives the stripe (R59). -/
structure Header where
  passes : Nat := 4
  pitch : Nat := 32
  redistOff : Bool := false
  bodyCheck : Bool := false
  tileRows : Nat := 1
  unionMask : Nat := 0
  tag : Nat := 0
  deriving DecidableEq, Repr

/-- A segment entry (Table 5-12). -/
structure Seg where
  fGrp : Nat
  fAdm : Nat
  limiter : Nat
  worst : Nat
  deriving DecidableEq, Repr

/-- The plan of an admission or a make-up run. -/
structure Plan where
  segs : List Seg := []
  bwg : Nat := 0
  thr : Nat := 0
  ing : Nat := 0
  nch : Nat := 0
  nbrK : Nat := 0
  runup : Nat := 0
  runout : Nat := 0
  gfReads : Nat := 0
  /-- PAC_FMAX, PAC_FMIN, PAC_AMAX, PAC_JMAX, cpp and k at admission (PLAN_STALE). -/
  regs : List Nat := []
  crc : Nat := 0
  deriving DecidableEq, Repr

/-- What admission plans with. -/
structure PlanIn where
  nThr : Nat := 0
  nIng : Nat := 0
  nch : Nat := 0
  density : Nat := 0
  nbrK : Nat := 0
  fmax : Nat := 0
  fmin : Nat := 0
  amax : Nat := 0
  jmax : Nat := 0
  deriving DecidableEq, Repr

inductive AdmPhase where
  | guardWait | working | held
  deriving DecidableEq, Repr

/-- An admission (R192, R193). -/
structure Admission where
  id : Nat
  cmd : Option Nat
  phase : AdmPhase
  sheaf : Nat
  sheafLen : Nat
  bin : Nat
  binLen : Nat
  report : Nat
  y0 : Nat
  hdr : Header := {}
  bins : Tbl Bin := []
  grid : Tbl Nat := []
  resident : List Nat := []
  placed : List (Nat × Nat) := []
  plan : Plan := {}
  /-- What the admission plans with, as it stood when its work began (R99), and the refusal of step 1 of R192: reason,
  location, aux. -/
  pin : PlanIn := {}
  early : Option (Nat × Nat × Nat) := none
  /-- Bytes of the sheaf read so far, the worst class among them, blocks still to read. -/
  buf : List Byte := []
  cls : Nat := 0
  left : Nat := 0
  /-- The hold of R98 stands. -/
  hold : Bool := true
  /-- A host write or a channel retirement touched the areas since the hold ended (R487). -/
  touched : Bool := false
  /-- A loft channel was retired while the admission was held (R355). -/
  lost : Bool := false
  /-- The table generations of the stripe's own run, by first pixel row (R483). -/
  gens : List (Nat × Nat) := []
  deriving DecidableEq, Repr

/-- A make-up record (Table 14-7). -/
structure MkRec where
  recId : Nat
  baseId : Nat
  tag : Nat
  reason : Nat
  scope : Nat
  pass : Nat
  origin : Nat
  gen : Nat
  slotFirst : Nat
  slotLast : Nat
  beamFirst : Nat
  beamLast : Nat
  deriving DecidableEq, Repr

/-- A run in a thresher lane (R101). -/
structure Run where
  group : Nat
  beam : Nat
  recomp : Bool
  deriving DecidableEq, Repr

/-- One open group (R253, R294 to R298). -/
structure Group where
  /-- Next beam the queue deals; 262,144 once every first computation has been dealt. -/
  next : Nat := 0
  /-- Runs at the head of the queue: returned by a retired thresher (R129), then recomputations (R105). -/
  returned : List Nat := []
  recomp : List Nat := []
  /-- Beams whose run a retirement in this group returned, with the thresher (R130). -/
  retired : List (Nat × Nat) := []
  /-- Runs of the group with a short pass-pixel: beam, and reason·2³² + table generation (R143, R159). -/
  short : List (Nat × Nat) := []
  own1 : Option (List Nat) := none
  own2 : Option (List Nat) := none
  peer1 : Option (List Nat) := none
  peer2 : Option (List Nat) := none
  mask : List Nat := []
  peerMask : List Nat := []
  /-- Final with the outcome: launched or failed. -/
  final : Option Bool := none
  failLane : Nat := 0
  built : Bool := false
  /-- The active role of this twin at the group's first slot, once that slot has issued (R302). -/
  active : Option Bool := none
  deriving DecidableEq, Repr

/-- A dose-tile expansion job or a crib fill (R173): a fill has pass 8 for a resident bin, and a unit once started. -/
structure Job where
  tile : Nat
  pass : Nat
  group : Nat
  unit : Option Nat := none
  /-- The ingest unit whose failure restarted the job (R100). -/
  origin : Nat := 0
  deriving DecidableEq, Repr

/-- A version of the beam table: health 1 dark, 2 bright; trim where it is not 0x800 (R152). -/
structure BeamTable where
  health : Tbl Nat := []
  trim : Tbl Nat := []
  gen : Nat := 0
  deriving DecidableEq, Repr

inductive FrameFate where
  | unsettled | applied | lost | unconfirmed
  deriving DecidableEq, Repr

/-- The accounting of one lane in one stripe (R271, R273). -/
structure LaneAcc where
  frames : List (Nat × FrameFate × Bool) := []
  run : Option (FrameFate × Nat × Nat) := none
  lost : Nat := 0
  unconf : Nat := 0
  deriving DecidableEq, Repr

/-- What the records of a stripe need of it, and its accounting. -/
structure Account where
  id : Nat
  baseId : Nat
  hdr : Header
  /-- First pixel row and generation of each table version, rows rising (R157, R159). -/
  gens : List (Nat × Nat)
  /-- Owed pass-pixels only (R489): the listed records of a make-up run. -/
  makeup : Option (List MkRec)
  /-- The row spans of the admission's own stripe, which bound what the listed records cover (R483). -/
  ownGens : List (Nat × Nat) := []
  bins : Tbl Bin
  grid : Tbl Nat
  /-- The beam table in effect at the arming, which fixes the owed doses of a make-up run. -/
  table : BeamTable
  lanes : Tbl LaneAcc := []
  ended : Bool := false
  deriving DecidableEq, Repr

/-- PAC_STATUS.STATE 3 to 8 (Table 5-17). -/
inductive StripeState where
  | arming | armed | runUp | writing | runOut | stopping
  deriving DecidableEq, Repr

/-- The stop of R185: the instant it began and the profile state there, in units of 2⁻³² slot, slot/s, slot/s². -/
structure Stop where
  k0 : Nat
  pos : Int
  vel : Int
  acc : Int
  deriving DecidableEq, Repr

/-- An armed or running stripe or make-up run (R193, R488). -/
structure Stripe where
  adm : Admission
  id : Nat
  cmd : Option Nat
  state : StripeState
  plan : Plan
  segFirst : Nat
  slotFirst : Nat
  slotEnd : Nat
  makeup : Option (List MkRec)
  /-- Pass-pixels with D > 0 of a make-up run (Table 14-10). -/
  owed : Nat
  domB : Bool
  startAt : Option Nat
  /-- Set-point instants still to pass before the run-up (R196), then instants since it began. -/
  wait : Nat
  k : Nat
  stop : Option Stop
  /-- R213: current target, its fraction, the slot it belongs to; armed. -/
  tgt : Nat
  tgtFrac : Nat
  nextSlot : Nat
  trigArmed : Bool
  tgtFrom : Nat
  due : Option Nat
  lastIssue : Option Nat
  grpStart : Nat
  reversed : Bool
  lastSlot : Option Nat
  lateRun : Option (Nat × Nat)
  groups : Tbl Group
  /-- Round-1 digests of groups that this twin has not opened yet (R296). -/
  peerEarly : Tbl (List Nat)
  nextGroup : Nat
  /-- Groups at or above this never open (abort, R187, R309). -/
  groupLimit : Nat
  jobs : List Job
  fills : List Job
  /-- TILE_PASS losses so far, and the 8-slot losses of group-fed reads: code 0 there; raised when their first group is
  final. -/
  lostTiles : List MkRec
  dY : Nat
  dX : Nat
  failY : Bool
  failX : Bool
  /-- A cross-check is suspended: ENC1 or ENC3 has faulted since STRIPE_ARM (R232). -/
  suspY : Bool := false
  suspX : Bool := false
  overGroups : List Nat
  /-- Cause of the abort and n_u (R188); `cut`: its STRIPE_CUT record has still to be raised. -/
  abort : Option (Nat × Nat)
  cut : Bool
  /-- First slot of the first failed group (R309). -/
  firstFail : Option Nat
  /-- Bins and copies in the crib: tile, and pass or 8 for a resident bin (R109). -/
  crib : List (Nat × Nat)
  doneRaised : Bool
  started : Bool
  mkCount : Nat
  overrunRaised : Bool
  deriving DecidableEq, Repr

/-- The threshers (03) and ingest units (02). -/
structure Units where
  thrOut : List Nat := []
  thrReady : Bool := false
  thrLastCause : Nat := 0
  thrLastUnit : Nat := 0
  lanes : Tbl Run := []
  ingOut : List Nat := []
  deriving DecidableEq, Repr

/-- The DOS block (04). -/
structure Dos where
  ready : Bool := false
  dirty : Bool := false
  gen : Nat := 0
  cur : BeamTable := {}
  waiting : Option BeamTable := none
  prev : Option (Nat × BeamTable) := none
  passes : Nat := 4
  jKind : Nat := 0
  jFirst : Nat := 0
  jCount : Nat := 0
  shortPp : Nat := 0
  deriving DecidableEq, Repr

/-- The PAC block beside its RW registers (05). -/
structure Pac where
  overspeed : Bool := false
  overrun : Bool := false
  abortSlot : Nat := 0xFFFFFFFF
  seq : Nat := 0
  admitCount : Nat := 0
  adm : Option Admission := none
  stripe : Option Stripe := none
  acct : Option Account := none
  prevAcct : Option Account := none
  deriving DecidableEq, Repr

/-- Coefficients of a channel (R201). (DEDUCED, log 9.) -/
structure Coef where
  oc : Int := 0
  os : Int := 0
  gc : Int := 0x6666
  gs : Int := 0x6666
  pa : Int := 0x4000
  pb : Int := 0
  deriving DecidableEq, Repr

/-- A calibration window (R224, R225). -/
structure Window where
  periods : Nat
  counted : Nat := 0
  bins : Tbl (Int × Int) := []
  up : Option Bool := none
  n : Nat := 0
  sc : Int := 0
  ss : Int := 0
  scc : Int := 0
  sss : Int := 0
  ssc : Int := 0
  deriving DecidableEq, Repr

/-- One encoder channel (06). -/
structure EncCh where
  count : Nat := 0
  q : Option Nat := none
  /-- The count after each of the last nine samples, newest first; 0 before them. -/
  hist : List Nat := []
  /-- Samples since the count last jumped: a preset load, or the first sample after EN; 9 stands for all (R205, R207). -/
  calm : Nat := 9
  posValid : Bool := false
  badRadius : Nat := 0
  faulted : Bool := false
  signal : Bool := false
  overspeed : Bool := false
  adcSat : Bool := false
  loadRefused : Bool := false
  preset : Option Nat := none
  coef : Coef := {}
  slew : Option (Coef × Coef × Nat) := none
  heldCoef : Option Coef := none
  /-- The CAL_ENC command that the slew belongs to. -/
  slewCmd : Option Nat := none
  window : Option Window := none
  measure : Option Nat := none
  winFault : Bool := false
  radii : List Nat := []
  radius : Nat := 0
  calCount : Nat := 0
  calSec : Nat := 0
  calNs : Nat := 0
  calLast : Nat := 0
  calGen : Nat := 0
  /-- Speed edges waiting for CK_CORE: multiples crossed, rising (R207). -/
  edges : List (Nat × Bool) := []
  lastUp : Option Bool := none
  spdValid : Bool := false
  spdDown : Bool := false
  still : Bool := true
  spd : Nat := 0
  spdDelta : Nat := 0
  lastStamp : Nat := 0
  deriving DecidableEq, Repr

/-- One compare unit (R221). -/
structure Cmp where
  armed : Bool := false
  late : Bool := false
  fired : Bool := false
  tgt : Nat := 0
  behind : Bool := false
  sec : Nat := 0
  ns : Nat := 0
  deriving DecidableEq, Repr

/-- The ENC block (06). -/
structure Enc where
  ch : Tbl EncCh := []
  cmp : Tbl Cmp := []
  /-- CK_ENC edges since reset (R200). -/
  edge : Nat := 0
  /-- ENC0 moves in −Y: its position sample last fell (R28, R216). -/
  down : Bool := false
  late : Nat := 0
  trigSlot : Nat := 0
  trigDone : Bool := false
  tgt : Nat := 0
  xref : Nat := 0
  /-- CAL_ENC commands in progress, by command: the outcome of each channel, none while it is pending (R231). -/
  calJobs : Tbl (List (Option Nat)) := []
  deriving DecidableEq, Repr

inductive LaneState where
  | disabled | preset | tap | align | active | loopback | pllWait
  deriving DecidableEq, Repr

/-- FFE taps (R264). -/
structure Taps where
  pre : Int := -4
  main : Int := 51
  post : Int := -8
  deriving DecidableEq, Repr

/-- One swath lane (07). -/
structure Lane where
  state : LaneState := .disabled
  /-- Taps in use; before the first entry to PRESET those of SWLl_TAP_INIT (Table 7-19). -/
  taps : Option Taps := none
  ackSeq : Nat := 0
  ack : Nat := 0
  handled : Bool := false
  alive : Nat := 0
  /-- `alive` of the last frame sent (R278). -/
  aliveSent : Nat := 0
  /-- The lane queue: the words of the frame under way, until the last has been handed to the serializer (R254). -/
  queue : List Nat := []
  downCause : Nat := 0
  downSlot : Nat := 0
  trains : Nat := 0
  lbErr : Nat := 0
  lbWords : Nat := 0
  rx : Nat := 0
  crcErr : Nat := 0
  high : Nat := 0
  noPartner : Bool := false
  downSeen : Bool := false
  tapTimeout : Bool := false
  loopRefused : Bool := false
  lastSlot : Nat := 0x7FFFFF
  deriving DecidableEq, Repr

/-- One return lane (07). -/
structure RetLane where
  sync : Bool := false
  good : Nat := 0
  lostSeen : Bool := false
  crcErr : Nat := 0
  msgs : Nat := 0
  deriving DecidableEq, Repr

/-- The SWL block (07): staging words are keyed by their index in the 4 MiB (R252). -/
structure Swl where
  lanes : Tbl Lane := []
  ret : Tbl RetLane := []
  pll : List Nat := []
  amSeq : Nat := 0
  stgCe : Nat := 0
  staging : Tbl Nat := []
  /-- The slot whose frames are under way, and its issue edge (R254; DESIGN CHOICE, log 108). -/
  flight : Option (Nat × Nat) := none
  deriving DecidableEq, Repr

inductive LinkState where
  | disabled | preset | tap | align | up
  deriving DecidableEq, Repr

/-- One Dexpin lane. -/
structure DxpLane where
  taps : Taps := {}
  ackSeq : Nat := 0
  ack : Nat := 0
  handled : Bool := false
  seen : Bool := false
  own : Nat := 0
  partnerTrained : Bool := false
  deriving DecidableEq, Repr

/-- A handover in progress (R304): group, command that asked for it, this twin proposed. -/
structure Handover where
  group : Nat
  cmd : Option Nat
  proposed : Bool
  /-- COMMIT has been sent or received; the role changes at the group (R305). -/
  committed : Bool := false
  deriving DecidableEq, Repr

/-- The beam table command in progress, or the partner's side of one (R162, R310): stage 0 waits for READY or for
TABLE_COMMIT, 1 writes, 2 waits for DONE. `pair`: it is carried out on both twins. -/
structure TableX where
  cmd : Option Nat
  msg : TableMsg
  stage : Nat
  pair : Bool
  /-- Granary words written. -/
  words : Nat := 0
  /-- The versions of the table before the change, once it has been made (R162). -/
  before : Option (BeamTable × Option BeamTable × Option (Nat × BeamTable)) := none
  deriving DecidableEq, Repr

/-- A TWIN_PAIR in progress (R290). -/
structure PairReq where
  cmd : Nat
  sideB : Bool
  master : Bool
  sn : Nat
  deriving DecidableEq, Repr

/-- The TWN block (08). -/
structure Twn where
  link : LinkState := .disabled
  quiet : Bool := false
  paired : Bool := false
  sideB : Bool := false
  master : Bool := true
  active : Bool := true
  roleGrp : Nat := 0
  /-- A role change that applies from a group on: the group, the new role. -/
  roleNext : Option (Nat × Bool) := none
  partnerSn : Nat := 0
  expectSn : Nat := 0
  partnerLive : Bool := false
  partnerDeadSeen : Bool := false
  /-- The pair is split until the stripe ends (R307); `splitSeen` is TWN_STATUS.SPLIT. -/
  split : Bool := false
  splitSeen : Bool := false
  tableSplit : Bool := false
  diverge : Bool := false
  noPartner : Bool := false
  rtt : Nat := 0
  recomp : Nat := 0
  fail : Nat := 0
  lastFail : Nat := 0
  msgErr : Nat := 0
  lanes : Tbl DxpLane := []
  txAlive : Nat := 0
  /-- TABLE messages that wait: command tag and payload (R288). -/
  tables : List (Nat × List Nat) := []
  hello : Option Hello := none
  hb : Option Heartbeat := none
  hbStandby : Nat := 0
  pairReq : Option PairReq := none
  handover : Option Handover := none
  tableX : Option TableX := none
  peerArm : Option ArmReady := none
  armSent : Bool := false
  /-- The ARM_READY that this twin sent (R293). -/
  ownArm : Option ArmReady := none
  /-- Statuses of the ARM_RESULTs of this twin and its partner (R293). -/
  ownResult : Option Nat := none
  peerResult : Option Nat := none
  /-- Round-1 digests that arrived before this twin armed (R295). -/
  early : Tbl (List Nat) := []
  rejoin : Bool := false
  deriving DecidableEq, Repr

/-- What the block code of a block holds beside its data (R334): the XOR that separates the stored data and check
bytes from a codeword, the covered-address mask, and the poison syndrome. -/
structure Mark where
  data : Nat := 0
  check : Nat := 0
  addr : Nat := 0
  poison : Bool := false
  deriving DecidableEq, Repr

/-- Who waits for a loft read (Table 9-4): a real-time client, a chain, a scan of a CHK unit, the header read of a
SHEAF_LOAD, a READBACK, the admission, or a partial write. -/
inductive ReadFor where
  | realTime | chain (c : Nat) | scan (unit : Nat) | load (cmd : Nat) | readback (cmd : Nat) | admission | partial_
  deriving DecidableEq, Repr

/-- A request in a loft channel (Table 9-3): rank 1 to 5, client code of LFT_LAST_ERR_INFO, block address; for a
real-time read its tile, pass and group. -/
structure LftReq where
  rank : Nat
  client : Nat
  addr : Nat
  tile : Nat := 0
  pass : Nat := 0
  group : Nat := 0
  who : ReadFor := .realTime
  /-- Arrival number in the channel (R322). -/
  seq : Nat := 0
  /-- A write: the whole block, and whether it bears the poison syndrome (R339, R340). -/
  data : List Byte := []
  poison : Bool := false
  /-- An issued read: what the DRAM held, or `dry` where it is not accessed (R341). -/
  mark : Mark := {}
  dry : Bool := false
  /-- A write to the block has entered the write queue since this read arrived (R348). -/
  stale : Bool := false
  deriving DecidableEq, Repr

/-- A temperature sensor of a DIMM (R328): its last reading, failed reads in a row, above 95 °C. -/
structure Sensor where
  temp : BitVec 16 := 0x8000
  miss : Nat := 0
  hot : Bool := false
  deriving DecidableEq, Repr

inductive LftChState where
  | absent | training | inService | excluded | retired
  deriving DecidableEq, Repr

/-- One loft channel (09). -/
structure LftCh where
  state : LftChState := .absent
  cause : Nat := 0
  density : Nat := 0
  ranks : Nat := 0
  dimms : Nat := 0
  stepFails : Nat := 0
  steps : Nat := 0
  /-- Sensors, keyed by 256 times the DIMM plus the sensor. -/
  sensors : Tbl Sensor := []
  sensorFail : Bool := false
  overtemp : Bool := false
  x2 : Bool := false
  coolMs : Nat := 0
  owed : Nat := 0
  forced : Nat := 0
  nbr : Nat := 0
  ce : Nat := 0
  ue : Nat := 0
  retry : Nat := 0
  retryRun : Nat := 0
  ceLast : Nat := 0
  /-- Open row and predictive counter of each bank (R323, R324). -/
  rows : Tbl Nat := []
  preds : Tbl Nat := []
  /-- Arrivals so far, and the banks in in-order mode with the arrival number of the write that ends it (R322). -/
  seq : Nat := 0
  inOrder : Tbl Nat := []
  reads : List LftReq := []
  issued : List LftReq := []
  writes : List LftReq := []
  batch : Nat := 0
  deriving DecidableEq, Repr

/-- A fill engine (R342): its region, the blocks that writes have covered, and its place: it has passed the blocks of the
region from `next` on; `busy`: its zero write waits in the write queue (DESIGN CHOICE, log 98). -/
structure FillEng where
  region : Nat
  mask : List Nat
  next : Nat := 16384
  busy : Bool := false
  deriving DecidableEq, Repr

/-- One block's part of a write that has not entered the write queue (R321, R339, R343): the client, the chain that moves it,
whether its block read is outstanding. -/
structure WaitWrite where
  client : Nat
  owner : Option Nat := none
  addr : Nat
  bytes : List Byte
  poison : Bool := false
  reading : Bool := false
  /-- A partial write after its merge (R339, R352). -/
  part : Bool := false
  deriving DecidableEq, Repr

/-- A repeat-table entry (R349). -/
structure Rpt where
  addr : Nat
  locked : Bool := false
  repeats : Nat := 0
  device : Nat := 0
  channel : Nat := 0
  sc : Nat := 0
  cs : Nat := 0
  rewritten : Bool := false
  age : Nat := 0
  deriving DecidableEq, Repr

/-- The LFT block (09). -/
structure Lft where
  ch : Tbl LftCh := []
  trained : Bool := false
  ready : Bool := false
  mapUe : Bool := false
  invalRefused : Bool := false
  mem : List Host.Cell := []
  marks : Tbl Mark := []
  valid : List Nat := []
  /-- Regions whose map word was lost (R345) and the blocks of them written since. -/
  raw : List Nat := []
  rawWritten : List Nat := []
  fills : Tbl FillEng := []
  /-- Writes that wait for a fill engine, a place in a write queue, or the read of their block. -/
  waits : List WaitWrite := []
  ceCount : Nat := 0
  ueCount : Nat := 0
  errAddr : Nat := 0
  errInfo : Nat := 0
  glnPos : Nat := 0
  glnLap : Nat := 0
  glnLaps : Nat := 0
  lapCe : Nat := 0
  lapUe : Nat := 0
  lapSlow : Bool := false
  rpt : Tbl Rpt := []
  rptAge : Nat := 0
  rptOvf : Nat := 0
  rptOvfSeen : Bool := false
  wArmed : Bool := false
  wFired : Bool := false
  wLast : Nat := 0
  deriving DecidableEq, Repr

/-- A time domain (R405): the time in units of 2⁻³² ns, and what waits for the next tick. -/
structure Dom where
  t : Nat := 0
  incr : Nat := 0x400000000
  incrNext : Option Nat := none
  set : Bool := false
  load : Option Nat := none
  adjust : Option Int := none
  refused : Bool := false
  incrRange : Bool := false
  deriving DecidableEq, Repr

/-- A queued gang launch (R420): `late`: its time had passed when it was queued, or a step passed it (R419). -/
structure Launch where
  cmd : Nat
  tag : Nat
  kind : Nat
  ports : Nat
  domB : Bool
  at_ : Nat
  sec : Nat
  ns : Nat
  body : List Byte
  late : Bool
  due : Bool
  /-- Count of CK_CORE cycles at the tick that made it due. -/
  dueAt : Nat := 0
  deriving DecidableEq, Repr

/-- Gang frames on their way (R420): the command, the sequence number, the ports, LATE. -/
structure Sent where
  cmd : Nat
  seq : Nat
  ports : Nat
  late : Bool
  deriving DecidableEq, Repr

/-- An ABORT frame of R418 that waits behind a launch (R419): its ports, its cause, its sequence number once it has
started on a port. -/
structure WaitAbort where
  ports : Nat
  cause : Nat
  seq : Option Nat
  deriving DecidableEq, Repr

/-- What is kept of a gang source (R416). -/
structure Src where
  seq : Nat
  alive0 : Option Nat := none
  alive1 : Option Nat := none
  deriving DecidableEq, Repr

/-- One Ethernet port (R398 to R402). Slots are 512 bytes each, kept sparse by byte offset. -/
structure Port where
  up : Bool := false
  lock : Bool := false
  downSeen : Bool := false
  discard : Nat := 0
  badFcs : Nat := 0
  ovf : Nat := 0
  rxOldest : Nat := 0
  rxCount : Nat := 0
  rxSeq : Nat := 0
  txSeq : Nat := 0
  slots : Tbl Byte := []
  goOrder : List Nat := []
  alive : Nat := 0
  /-- Count of CK_CORE cycles up to which an ABORT frame occupies the port (R414, R419). -/
  abortTill : Nat := 0
  deriving DecidableEq, Repr

/-- The TIM block (11). -/
structure Tim where
  a : Dom := {}
  b : Dom := {}
  switchReq : Bool := false
  swDone : Bool := false
  swRefused : Bool := false
  swStep : Nat := 0
  /-- CK_CORE cycles counted by the ticks (5 per tick). -/
  core : Nat := 0
  /-- Set-point instants due and not taken; the index of the last that fell due, and the domain of the grid (R410). -/
  setDue : Nat := 0
  setLast : Nat := 0
  setDomB : Bool := false
  txSeq : Nat := 0
  launches : List Launch := []
  sent : List Sent := []
  aborts : List WaitAbort := []
  srcs : Tbl Src := []
  clash : Bool := false
  dup : Nat := 0
  gap : Nat := 0
  ports : Tbl Port := []
  deriving DecidableEq, Repr

/-- A granary word write under way (R425): where it belongs, the word, the attempts made. -/
structure WordWrite where
  word : Nat
  value : Nat
  tries : Nat
  /-- Register ring write: BAR0 offset of the item, entry and how many entries were tried. -/
  item : Option (Nat × Nat × Nat)
  req : Nat := 0
  deriving DecidableEq, Repr

/-- A write that waits (R427, R444): `part`: it covers not all 4 bytes, and its first byte stands at `first` (R495). -/
structure HeldWrite where
  off : Nat
  v : W32
  req : Nat
  part : Bool := false
  first : Nat := 0
  deriving DecidableEq, Repr

/-- A store under way in the granary (R153, R154, R430): words still to write with their role (0 table word, 1 word
of the opening journal record, 2 word of a closing or other record). -/
structure GrnJob where
  /-- 0 a word that FATAL leaves of a job, 1 beam table command, 2 calibration record, 3 wear record. -/
  kind : Nat
  cmd : Option Nat
  todo : List (Nat × Nat × Nat)
  written : Nat
  failed : Bool
  /-- Payload of a calibration or wear record until the job is first in line and its words are laid out; for a
  calibration record, the channels it names (R230). -/
  pay : Option (List Nat) := none
  names : Nat := 0
  deriving DecidableEq, Repr

/-- The GRN block (12): words that do not read as erased, register rings keyed by BAR0 offset (DESIGN CHOICE, log 6); `ones`:
words written with all bits 1 (R153, log 21); `supplyOut`: the supply monitor has reported a fault since the last reset (R424;
DESIGN CHOICE, log 112). -/
structure Grn where
  words : Tbl Nat := []
  ones : List Nat := []
  supplyOut : Bool := false
  rings : Tbl (List Nat) := []
  loaded : Bool := false
  readUe : Bool := false
  tableUe : Bool := false
  writeFail : Bool := false
  wipeRefused : Bool := false
  pfwDone : Bool := false
  pfwActive : Bool := false
  pfwFall : Bool := false
  pfwLow : Bool := false
  startHold : Bool := false
  failAddr : Nat := 0
  rawUe : Bool := false
  wear : Tbl Nat := []
  wearWarned : List Nat := []
  /-- The persist queue: item, value, requester of the write (R427, R443). -/
  queue : List (Nat × Nat × Nat) := []
  held : List HeldWrite := []
  writing : List WordWrite := []
  jobs : List GrnJob := []
  badWords : List Nat := []
  wipeKey : W32 := 0
  deriving DecidableEq, Repr

/-- A silo entry (Table 12-6). -/
structure SiloEntry where
  time : Nat
  cls : Nat
  flags : Nat
  code : Nat
  slot : Nat
  seq : Nat
  payload : List Byte
  deriving DecidableEq, Repr

/-- The silo (12) and the make-up store (14): they survive every reset but power-on. -/
structure Slo where
  entries : Tbl SiloEntry := []
  head : Nat := 0
  seq : Nat := 0
  count : Nat := 0
  missed : Nat := 0
  frozen : Bool := false
  frozenBy : Nat := 0
  deriving DecidableEq, Repr

/-- The make-up store (R482): oldest first. -/
structure MkStore where
  recs : List MkRec := []
  nextId : Nat := 1
  full : Bool := false
  deriving DecidableEq, Repr

/-- A timed snapshot (R457). -/
structure TimedSnap where
  cmd : Nat
  domB : Bool
  at_ : Nat
  late : Bool
  due : Bool
  dma : Option Nat
  deriving DecidableEq, Repr

/-- The OBS block (13). -/
structure Obs where
  cnt : Tbl Nat := []
  ovf : List Nat := []
  snapCnt : Tbl Nat := []
  snapOvf : List Nat := []
  snapValid : Bool := false
  snapSeq : Nat := 0
  snapSlot : Nat := 0
  snapTime : Nat := 0
  snapMissed : Nat := 0
  timed : Option TimedSnap := none
  /-- Trace records waiting: kind, time, body bytes (R461). -/
  trq : List (Nat × Nat × List Byte) := []
  trSeq : Nat := 0
  trLost : Nat := 0
  trLostSince : Nat := 0
  trSent : Nat := 0
  lossSeen : Bool := false
  deriving DecidableEq, Repr

/-- A READBACK that computes (R394): the admission and the table versions at its start. -/
structure ReadbackJob where
  cmd : Nat
  gen : Nat
  adm : Admission
  cur : BeamTable
  prev : Option (Nat × BeamTable)
  /-- Loft blocks still to read (R396), and the worst class among those read. -/
  todo : List Nat := []
  cls : Nat := 0
  deriving DecidableEq, Repr

/-- The state of the block. -/
structure State where
  /-- Commands that wait, first in, first out. -/
  pending : List Instr := []
  /-- Outputs so far, newest first (DESIGN CHOICE, log 3). -/
  outs : List Output := []
  /-- The model's own counter of free values drawn (DESIGN CHOICE, log 4). -/
  free : Nat := 0
  pins : Pins := {}
  glb : Glb := {}
  /-- RW and RWP registers that hold a value other than their reset value, keyed by BAR0 offset. -/
  regs : Tbl W32 := []
  /-- HI halves latched by a LO read, keyed by the BAR0 offset of the latched register (R499). -/
  latch : Tbl W32 := []
  /-- Halves held for a committing write, keyed by their BAR0 offset (R501). -/
  halves : Tbl W32 := []
  hst : Hst := {}
  chains : Tbl Chain := []
  chk : Chk := {}
  units : Units := {}
  dos : Dos := {}
  pac : Pac := {}
  enc : Enc := {}
  swl : Swl := {}
  twn : Twn := {}
  lft : Lft := {}
  tim : Tim := {}
  grn : Grn := {}
  slo : Slo := {}
  store : MkStore := {}
  obs : Obs := {}
  readbacks : List ReadbackJob := []
  deriving DecidableEq, Repr

/-- The block right after power-on, held in reset (DESIGN CHOICE, log 2 names the values the spec does not state). -/
def State.reset : State := {}

end Sys2Proof.Machine
end

