-- ==== Sys2Proof/Machine/Ops.lean ====
section
/-! DEFINITION. Named operations over tables, memory, bits and bytes, the CRC algorithms (R392), the register store,
and the accessors of the parts of State. Everything a test could correct stands here or in a sibling file. -/

namespace Sys2Proof.Machine

/-! ### Sparse tables -/

/-- The value of key `k`, `d` where the table lists none. -/
def tget {α : Type} : Tbl α → Nat → α → α
  | [], _, d => d
  | (i, v) :: t, k, d => if i = k then v else tget t k d

/-- Whether the table lists key `k`. -/
def thas {α : Type} (t : Tbl α) (k : Nat) : Bool := t.any (fun p => p.1 == k)

/-- Remove key `k`. -/
def tdel {α : Type} (t : Tbl α) (k : Nat) : Tbl α := t.filter (fun p => p.1 != k)

/-- Insert or replace key `k`, keys rising. -/
def tput {α : Type} : Tbl α → Nat → α → Tbl α
  | [], k, v => [(k, v)]
  | (i, w) :: t, k, v =>
    if k < i then (k, v) :: (i, w) :: t
    else if k = i then (k, v) :: t
    else (i, w) :: tput t k v

/-- Set key `k` to `v` in a table whose unlisted keys hold `d`. -/
def tset {α : Type} [DecidableEq α] (t : Tbl α) (k : Nat) (v d : α) : Tbl α :=
  if v = d then tdel t k else tput t k v

/-- The value of key `k` if listed. -/
def tfind {α : Type} : Tbl α → Nat → Option α
  | [], _ => none
  | (i, v) :: t, k => if i = k then some v else tfind t k

/-- Canonical form: keys strictly rise and no entry holds `d`. -/
def tableWf {α : Type} [DecidableEq α] (d : α) : Tbl α → Bool
  | [] => true
  | [(_, v)] => v != d
  | (i, v) :: (j, w) :: t => v != d && decide (i < j) && tableWf d ((j, w) :: t)

/-! ### Loft memory: bytes in canonical form, unlisted bytes 0 (R341, R342, DEDUCED, log 14) -/

/-- The form of loft memory: addresses rise, no listed byte is 0. -/
def Memory.wf (m : List Host.Cell) : Bool := tableWf (0 : Byte) m

/-- Read one byte. -/
def memGet (m : List Host.Cell) (a : Nat) : Byte := tget m a 0

/-- Write one byte. -/
def memSet (m : List Host.Cell) (a : Nat) (v : Byte) : List Host.Cell := tset m a v 0

/-- Read `n` bytes upwards from `a`. -/
def memRead (m : List Host.Cell) (a n : Nat) : List Byte := (List.range n).map (fun i => memGet m (a + i))

/-- Write bytes upwards from `a`. -/
def memWrite (m : List Host.Cell) : Nat → List Byte → List Host.Cell
  | _, [] => m
  | a, b :: bs => memWrite (memSet m a b) (a + 1) bs

/-! ### Bits and bytes -/

/-- Bits [hi:lo] of a number. -/
def bits (v hi lo : Nat) : Nat := (v >>> lo) % 2 ^ (hi + 1 - lo)

/-- Bit `i` of a number. -/
def bitAt (v i : Nat) : Bool := v.testBit i

/-- A flag as bit `i`. -/
def flag (b : Bool) (i : Nat) : Nat := if b then 2 ^ i else 0

/-- A signed reading of the low `w` bits. -/
def signed (w v : Nat) : Int := let u := v % 2 ^ w; if u < 2 ^ (w - 1) then (u : Int) else (u : Int) - 2 ^ w

/-- The low `w` bits of an integer, two's complement. -/
def unsigned (w : Nat) (v : Int) : Nat := (v % (2 ^ w : Int)).toNat

/-- `n` bytes, least significant first (R16). -/
def le : Nat → Nat → List Byte
  | 0, _ => []
  | n + 1, v => BitVec.ofNat 8 v :: le n (v / 256)

/-- The number that bytes spell, least significant first. -/
def ofLe : List Byte → Nat
  | [] => 0
  | b :: bs => b.toNat + 256 * ofLe bs

/-- The little-endian field of `n` bytes at offset `o`. -/
def fld (bs : List Byte) (o n : Nat) : Nat := ofLe ((bs.drop o).take n)

/-- Bytes cut or padded with zeros to length `n`. -/
def fit (n : Nat) (bs : List Byte) : List Byte := bs.take n ++ List.replicate (n - bs.length) 0

def allZero (bs : List Byte) : Bool := bs.all (fun b => b == 0)

def max32 : Nat := 0xFFFFFFFF
/-- A counter that saturates at 0xFFFF_FFFF. -/
def sat32 (v : Nat) : Nat := min v max32
/-- A counter that wraps at 2³². -/
def wrap32 (v : Nat) : Nat := v % 2 ^ 32

def clampI (v lo hi : Int) : Int := if v < lo then lo else if hi < v then hi else v
def clampN (v lo hi : Nat) : Nat := if v < lo then lo else if hi < v then hi else v

def ceilDiv (a b : Nat) : Nat := (a + b - 1) / b

/-- Round v / 2^k half to even (Table 0-4). -/
def roundHalfEven (v k : Nat) : Nat :=
  let q := v / 2 ^ k
  let r := v % 2 ^ k
  if 2 * r > 2 ^ k ∨ (2 * r = 2 ^ k ∧ q % 2 = 1) then q + 1 else q

/-- Integer square root by bits: the greatest r below 2^n with r·r ≤ v. -/
def isqrtBits : Nat → Nat → Nat → Nat
  | 0, _, r => r
  | n + 1, v, r => let r' := r + 2 ^ n; if r' * r' ≤ v then isqrtBits n v r' else isqrtBits n v r

def isqrt (v : Nat) : Nat := isqrtBits 64 v 0
/-- The least s with s·s ≥ a (R180). -/
def isqrtCeil (a : Nat) : Nat := let r := isqrt a; if r * r = a then r else r + 1

/-- Signed 48-bit difference of two positions (R204). -/
def posDiff (a b : Nat) : Int := signed 48 ((a + 2 ^ 48 - b % 2 ^ 48) % 2 ^ 48)
/-- Position `a` is at or beyond `b` in +Y (R204). -/
def atOrBeyond (a b : Nat) : Bool := decide (0 ≤ posDiff a b)

/-- Place the items of a payload: an item goes to the next multiple of its alignment (R475). -/
def packItems : List (Nat × Nat) → List Byte → List Byte
  | [], acc => acc
  | (size, v) :: t, acc =>
    let al := if size > 8 then 8 else size
    let pad := (al - acc.length % al) % al
    packItems t (acc ++ List.replicate pad 0 ++ le size v)

/-- The 40-byte payload of an event (R475). -/
def payload (items : List (Nat × Nat)) : List Byte := fit 40 (packItems items [])

/-! ### CRC (R392, Table 10-13): algorithm codes 0 to 3 -/

def crcWidth : Nat → Nat
  | 2 => 64
  | 3 => 16
  | _ => 32

/-- The polynomial; reversed where the algorithm reflects. -/
def crcPoly : Nat → Nat
  | 0 => 0x82F63B78
  | 1 => 0xEDB88320
  | 2 => 0x42F0E1EBA9EA3693
  | _ => 0x1021

def crcInit : Nat → Nat
  | 2 => 0
  | 3 => 0xFFFF
  | _ => 0xFFFFFFFF

def crcReflect (a : Nat) : Bool := decide (a < 2)

def crcShift (a : Nat) : Nat → Nat → Nat
  | 0, st => st
  | n + 1, st =>
    if crcReflect a then crcShift a n (if st % 2 = 1 then (st / 2) ^^^ crcPoly a else st / 2)
    else
      let w := crcWidth a
      let sh := (st * 2) % 2 ^ w
      crcShift a n (if st.testBit (w - 1) then sh ^^^ crcPoly a else sh)

def crcByte (a st : Nat) (b : Byte) : Nat :=
  crcShift a 8 (if crcReflect a then st ^^^ b.toNat else st ^^^ (b.toNat <<< (crcWidth a - 8)))

/-- The running register after more bytes. -/
def crcFeed (a : Nat) (st : Nat) (bs : List Byte) : Nat := bs.foldl (crcByte a) st

/-- The value a finished register shows. -/
def crcFinish (a st : Nat) : Nat := if a < 2 then st ^^^ 0xFFFFFFFF else st

/-- CRC of a byte string by algorithm code. -/
def crcOf (a : Nat) (bs : List Byte) : Nat := crcFinish a (crcFeed a (crcInit a) bs)

def crc32c (bs : List Byte) : Nat := crcOf 0 bs
def crc64 (bs : List Byte) : Nat := crcOf 2 bs
def crc16 (bs : List Byte) : Nat := crcOf 3 bs

/-! ### Registers that software stores (RW and RWP) -/

/-- Reset setting of OBS_CNTi_CFG (Table 13-1): EVENT in [7:0], PARAM in [23:16]. -/
def cntReset (i : Nat) : Nat :=
  let cfg (e p : Nat) := p * 65536 + e
  if i < 16 then cfg 5 i else if i < 32 then cfg 6 (i - 16)
  else if i < 36 then cfg 1 (i - 32) else if i < 48 then 0
  else if i < 80 then cfg 4 (i - 48)
  else if i < 144 then cfg 2 (0x80 + (i - 80))
  else if i = 144 then cfg 1 0 else if i = 145 then cfg 2 0 else if i < 176 then 0
  else if i = 176 then cfg 1 0 else if i < 192 then 0
  else if i = 192 then cfg 2 0 else if i = 193 then cfg 3 0 else if i < 224 then 0
  else if i < 352 then cfg 1 (i - 224)
  else if i = 352 then cfg 3 0 else if i = 353 then cfg 4 0 else if i < 384 then 0
  else if i < 480 then cfg ((i - 384) % 8 + 1) ((i - 384) / 8)
  else if i = 480 then cfg 1 0 else if i = 481 then cfg 1 1 else if i < 496 then 0
  else if i = 496 then cfg 1 0xFF else if i = 497 then cfg 3 0 else 0

/-- Writable mask and reset value of each register that holds a value software writes, keyed by BAR0 offset.
A reserved field reads 0 (R502). RWP registers show here the value a granary without a value gives (R497). -/
def rwInfo (off : Nat) : Option (Nat × Nat) :=
  let blk := off / 65536
  let o := off % 65536
  if off % 4 ≠ 0 then none
  else if blk = 0x00 then
    if o = 0x24 then some (3, 0) else if o = 0x3C then some (max32, 0) else none
  else if blk = 0x01 then
    if o = 0x00 then some (7, 0)
    else if o = 0x08 ∨ o = 0x14 then some (0xFFFFFFC0, 0)
    else if o = 0x0C ∨ o = 0x18 ∨ o = 0x24 then some (max32, 0)
    else if o = 0x10 ∨ o = 0x1C then some (0x1F, 8)
    else if o = 0x20 then some (0xFFFFFF80, 0)
    else if o = 0x28 then some (0xFFFF, 100)
    else if o = 0x2C then some (0xFFFFFF, 0x10000)
    else if 0x1000 ≤ o ∧ o < 0x1400 then
      let r := o % 0x40
      if r = 0 then some (0xFF31, 1)
      else if r = 8 then some (0xFFFFFFC0, 0) else if r = 0xC then some (max32, 0) else none
    else none
  else if blk = 0x06 then
    if o = 0x00 then some (1, 0) else if o = 0x08 then some (0x1FFF, 6000) else if o = 0x0C then some (0x1FFF, 100)
    else if o = 0x10 then some (0x7FFFFFFF, 0)
    else if o = 0x14 ∨ o = 0x18 ∨ o = 0x20 then some (max32, 0)
    else if o = 0x1C ∨ o = 0x24 then some (0xFFFF, 0)
    else if o = 0x28 then some (0xFFFFFF, 0x100) else none
  else if blk = 0x07 then
    if o < 0x400 then
      let r := o % 0x100
      if r = 0 then some (0x1F07, 0xC04) else if r = 0x18 then some (max32, 0) else if r = 0x1C then some (0xFFFF, 0)
      else if r = 0x40 then some (0xFFFF0007, 0x04000004) else none
    else if o = 0x400 then some (max32, 0) else if o = 0x404 then some (0xFFFF, 0)
    else if o = 0x418 then some (max32, 0) else if o = 0x41C then some (0xFFFF, 0)
    else if o = 0x420 then some (0xFFFFFF, 0x40) else if o = 0x424 then some (7, 4)
    else if o = 0x428 then some (0xFFFFFF, 10000)
    else if 0x500 ≤ o ∧ o < 0x580 then
      let r := o % 0x20
      if r = 0 then some (0x38, 0) else if r = 8 then some (max32, 0) else if r = 0xC then some (0xFFFF, 0) else none
    else none
  else if blk = 0x10 ∨ blk = 0x11 then
    let r := (off - 0x100000) % 0x400
    if off = 0x100200 then some (0x1FFFF, 0xC8) else if off = 0x100204 then some (0xFFFF00FF, 0x01F40064)
    else if r = 0 then some (0x31, 1) else if r = 0xC then some (0xFFFFFF, 0x00F833FC) else none
  else if blk = 0x12 then
    if o = 0 then some (1, 1) else if o = 0x10 then some (0xFFFF00FF, 0x01F40064)
    else if o = 0x14 then some (0xFFFFFF, 4) else if o = 0x18 then some (0xFFFF, 1000)
    else if 0x40 ≤ o ∧ o < 0x60 then some (0xFFFFFF, 0x00F833FC) else none
  else if blk = 0x13 then
    if o = 0xC000 then some (0x101, 1) else if o = 0xC010 then some (0x1F, 10)
    else if o = 0xC014 then some (0x8003FFFF, 0) else if o = 0xC02C then some (0x1FFFFF, 0)
    else if o = 0xC030 then some (0x1FFFFF, 0) else if o = 0xC040 then some (0x1007F, 0x10010)
    else if o = 0xC054 then some (max32, 3600) else if o = 0xC080 then some (0xF1, 0)
    else if o = 0xC084 then some (max32, 0) else if o = 0xC088 then some (0x1FF, 0)
    else if o = 0xC094 then some (max32, 0)
    else if 0xC0C0 ≤ o ∧ o < 0xC110 then some (max32, 0) else none
  else if blk = 0x15 then
    if o < 0x200 then
      let r := o % 0x100
      if r = 0x18 ∨ r = 0x1C ∨ r = 0x24 ∨ r = 0x28 then some (max32, 0)
      else if r = 0x20 then some (0x3FFFFFFF, 0) else none
    else if o = 0x210 then some (0x3FFF, 100) else if o = 0x220 then some (0xFFF, 0)
    else if o = 0x224 then some (0xFFFF, 0) else if o = 0x228 then some (max32, 0)
    else if o = 0x22C then some (0xFFFF, 0) else if o = 0x230 then some (7, 0)
    else if 0x400 ≤ o ∧ o < 0x600 then
      let r := o % 0x100
      if r = 0 then some (1, 1) else if r = 8 then some (max32, 0) else if r = 0xC then some (0xFFFF, 0)
      else if r = 0x10 ∨ r = 0x14 then some (max32, 0) else none
    else none
  else if blk = 0x16 then
    if o = 0x18 then some (0x1FFFF, 0) else if o = 0x28 then some (max32, 0x1DCD6500) else none
  else if blk = 0x17 then if o = 0x14 then some (0x31C00, 0) else none
  else if blk = 0x18 then
    if o = 0 then some (1, 0) else if o = 0x100 then some (0x80003F03, 0x3F00)
    else if o = 0x108 then some (0x01FFFFFF, 0x01FFFFFF) else if o = 0x10C then some (0xFFFF, 1000)
    else if 0x1000 ≤ o ∧ o < 0x3000 ∧ o % 0x10 = 0 then some (0x40FF00FF, cntReset ((o - 0x1000) / 0x10))
    else none
  else none

def rwReset (off : Nat) : Nat := match rwInfo off with
  | some (_, r) => r
  | none => 0

/-- The stored value of a software register. -/
def regGet (s : State) (off : Nat) : Nat := (tget s.regs off (BitVec.ofNat 32 (rwReset off))).toNat

/-- Store a register value, in canonical form. -/
def regSet (s : State) (off v : Nat) : State :=
  { s with regs := tset s.regs off (BitVec.ofNat 32 v) (BitVec.ofNat 32 (rwReset off)) }

/-- A pair HI:LO of stored registers. -/
def regPair (s : State) (lo hi : Nat) : Nat := regGet s lo + 2 ^ 32 * regGet s hi

/-- Registers of access RWP (R497), by BAR0 offset. -/
def isRwp (off : Nat) : Bool :=
  (off ∈ [0x60010, 0x60014, 0x60018, 0x6001C, 0x60020, 0x60024, 0x70400, 0x70404, 0x13C010, 0x13C014,
    0x150220, 0x150224, 0x150228, 0x15022C, 0x150408, 0x15040C, 0x150410, 0x150414, 0x150508, 0x15050C,
    0x150510, 0x150514]) ||
  (decide (0x120040 ≤ off ∧ off < 0x120060) && off % 4 == 0) ||
  (decide (0x100000 ≤ off ∧ off < 0x120000) && off % 0x400 == 0xC)

/-! ### Outputs, free values and accessors -/

def emit (o : Output) (s : State) : State := { s with outs := o :: s.outs }
def emitAll (os : List Output) (s : State) : State := os.foldl (fun s o => emit o s) s

/-- Draw a free value (DESIGN CHOICE, log 4). -/
def drawFree (s : State) : BitVec 64 × State := (Config.freeValue s.free, { s with free := s.free + 1 })

def chainGet (s : State) (c : Nat) : Chain := tget s.chains c {}
def chainSet (s : State) (c : Nat) (x : Chain) : State := { s with chains := tset s.chains c x {} }
def encGet (s : State) (n : Nat) : EncCh := tget s.enc.ch n {}
def encSet (s : State) (n : Nat) (x : EncCh) : State := { s with enc := { s.enc with ch := tset s.enc.ch n x {} } }
def cmpGet (s : State) (k : Nat) : Cmp := tget s.enc.cmp k {}
def cmpSet (s : State) (k : Nat) (x : Cmp) : State := { s with enc := { s.enc with cmp := tset s.enc.cmp k x {} } }
def laneGet (s : State) (l : Nat) : Lane := tget s.swl.lanes l {}
def laneSet (s : State) (l : Nat) (x : Lane) : State := { s with swl := { s.swl with lanes := tset s.swl.lanes l x {} } }
def retGet (s : State) (k : Nat) : RetLane := tget s.swl.ret k {}
def retSet (s : State) (k : Nat) (x : RetLane) : State := { s with swl := { s.swl with ret := tset s.swl.ret k x {} } }
def dxpGet (s : State) (k : Nat) : DxpLane := tget s.twn.lanes k {}
def dxpSet (s : State) (k : Nat) (x : DxpLane) : State := { s with twn := { s.twn with lanes := tset s.twn.lanes k x {} } }
def lftGet (s : State) (c : Nat) : LftCh := tget s.lft.ch c {}
def lftSet (s : State) (c : Nat) (x : LftCh) : State := { s with lft := { s.lft with ch := tset s.lft.ch c x {} } }
def portGet (s : State) (p : Nat) : Port := tget s.tim.ports p {}
def portSet (s : State) (p : Nat) (x : Port) : State := { s with tim := { s.tim with ports := tset s.tim.ports p x {} } }
def domGet (s : State) (b : Bool) : Dom := if b then s.tim.b else s.tim.a
def domSet (s : State) (b : Bool) (x : Dom) : State :=
  { s with tim := if b then { s.tim with b := x } else { s.tim with a := x } }

/-! ### Time (R405) -/

def nsUnit : Nat := 2 ^ 32
def secUnit : Nat := 1000000000 * 2 ^ 32
def timeMod : Nat := 2 ^ 64 * secUnit

def secOf (t : Nat) : Nat := t / secUnit % 2 ^ 64
def nsOf (t : Nat) : Nat := t / nsUnit % 1000000000
def fracOf (t : Nat) : Nat := t % nsUnit / 65536
/-- Time in units of 2⁻³² ns from seconds and nanoseconds. -/
def timeOf (sec ns : Nat) : Nat := sec * secUnit + ns * nsUnit
/-- The ring `time` format (R372). -/
def ringTime (t : Nat) : Nat := secOf t % 2 ^ 34 * 2 ^ 30 + nsOf t

/-- Domain A now. -/
def nowA (s : State) : Nat := s.tim.a.t

/-! ### Units in service -/

def numThr (s : State) : Nat := 128 - s.units.thrOut.length
def numIng (s : State) : Nat := 32 - s.units.ingOut.length
def inService (s : State) : List Nat := (List.range 12).filter (fun c => (lftGet s c).state = .inService)
def numCh (s : State) : Nat := (inService s).length

/-- The slot of the latest issue edge of the armed or running stripe (R372). -/
def slotNow (s : State) : Nat := match s.pac.stripe with
  | some st => st.lastSlot.getD 0xFFFFFFFF
  | none => 0xFFFFFFFF

end Sys2Proof.Machine
end

