-- ==== Sys2Proof/Machine/Flags.lean ====
section
/-! DEFINITION. Events and status: performance counters (R448 to R456), trace records (R459 to R461), the silo (R439
to R441), the completion and event ring with its hold queue and vectors (R371 to R379), and raising an event
(R474, R510). -/

namespace Sys2Proof.Machine

/-! ### Counters (R449, R450) -/

/-- Whether PARAM selects unit `u` (R449); `thr`: the THR coding. -/
def paramHits (thr : Bool) (p : Nat) : Option Nat → Bool
  | none => true
  | some u => p == 0xFF || (if thr && decide (p ≥ 0x80) then decide (p ≤ 0xBF) && (p - 0x80 == u / 2) else p == u)

/-- Add `n` to counter `i` (R450). -/
def cntAdd (o : Obs) (i n : Nat) : Obs :=
  let v := tget o.cnt i 0 + n
  { o with cnt := tset o.cnt i (v % 2 ^ 48) 0, ovf := if v ≥ 2 ^ 48 ∧ i ∉ o.ovf then i :: o.ovf else o.ovf }

/-- Count `n` events `ev` of unit `u` in counters lo to hi (Table 13-1). -/
def obsCount (lo hi ev : Nat) (u : Option Nat) (n : Nat) (s : State) : State :=
  if n = 0 then s else
  let hit (i : Nat) : Bool :=
    let c := regGet s (0x181000 + 0x10 * i)
    c % 256 == ev && paramHits (lo == 80) (bits c 23 16) u
  { s with obs := ((List.range (hi + 1 - lo)).filter (fun k => hit (lo + k))).foldl (fun o k => cntAdd o (lo + k) n) s.obs }

def cntHst := obsCount 0 31
def cntChk := obsCount 32 47
/-- A CHK unit appends to a frame of a path (event 1) or finds that it fails its check (event 2). -/
def chkFrame (ev path n : Nat) (s : State) : State := cntChk ev (some (Config.chkUnit path n)) 1 s

def cntShv := obsCount 48 79
def cntThr := obsCount 80 143
def cntDos := obsCount 144 175
def cntPac := obsCount 176 191
def cntEnc := obsCount 192 223
def cntSwl := obsCount 224 351
def cntTwn := obsCount 352 383
def cntLft := obsCount 384 479
def cntTim := obsCount 480 495
def cntGrn := obsCount 496 511

/-! ### Snapshots (R454 to R456) -/

def snapLocked (s : State) : Bool := bitAt (regGet s 0x180000) 0

/-- Capture the bank (R455). -/
def takeSnap (s : State) : State :=
  { s with obs := { s.obs with
      snapCnt := s.obs.cnt, snapOvf := s.obs.ovf, snapValid := true,
      snapSeq := wrap32 (s.obs.snapSeq + 1), snapSlot := slotNow s, snapTime := ringTime (nowA s) } }

/-- A start from the GLB trigger or a FATAL event (R456). -/
def trySnap (s : State) : State :=
  if snapLocked s then { s with obs := { s.obs with snapMissed := sat32 (s.obs.snapMissed + 1) } } else takeSnap s

/-! ### Trace records (R459 to R461) -/

def trcCtrl (s : State) : Nat := regGet s 0x180100
def trcOn (s : State) : Bool := bitAt (trcCtrl s) 31

/-- The `time` field of a trace record (Table 13-5). -/
def trcTime (s : State) : Nat := secOf (nowA s) % 4 * 2 ^ 30 + nsOf (nowA s)

/-- Queue a record; a full queue discards it (R461). Records enter in the order in which the device raises what they report (R460;
DEDUCED, log 117). -/
def trcPush (kind : Nat) (body : List Byte) (s : State) : State :=
  if ¬ trcOn s then s
  else if s.obs.trq.length ≥ 4096 then
    { s with obs := { s.obs with trLost := sat32 (s.obs.trLost + 1), trLostSince := s.obs.trLostSince + 1, lossSeen := true } }
  else { s with obs := { s.obs with trq := s.obs.trq ++ [(kind, trcTime s, fit 8 body)] } }

/-- A SYNC record (Table 13-6). -/
def trcSync (s : State) : State := trcPush 5 (le 8 (secOf (nowA s))) s

/-! ### Silo (R439 to R441) -/

/-- Enter one entry, or count it as missed while frozen. -/
def siloEnter (cls flags code : Nat) (p : List Byte) (s : State) : State :=
  if s.slo.frozen then { s with slo := { s.slo with missed := sat32 (s.slo.missed + 1) } }
  else
    let q := wrap32 (s.slo.seq + 1)
    let e : SiloEntry := { time := ringTime (nowA s), cls := cls, flags := flags + flag (decide (p.length > 12)) 1,
                           code := code, slot := slotNow s, seq := q, payload := fit 12 p }
    cntGrn 3 none 1
    { s with slo := { s.slo with entries := tput s.slo.entries s.slo.head e, head := (s.slo.head + 1) % 8192,
                                 seq := q, count := min 8192 (s.slo.count + 1) } }

/-- A silo-only record: class INFO, EVENT clear (R443). -/
def siloRecord (code : Nat) (p : List Byte) (s : State) : State := siloEnter 0 0 code p s

/-- Freeze with a cause (R441). -/
def siloFreeze (cause : Nat) (s : State) : State := { s with slo := { s.slo with frozen := true, frozenBy := cause } }

/-! ### MSI-X vectors (R378, R379, R493) -/

/-- The device may send requests: the link is up and its power state is D0 (Table 10-1; PRESUMED, log 100). -/
def linkLive (s : State) : Bool := s.hst.linkUp && !s.hst.d3hot

/-- A vector's message may go: MSI-X is enabled and neither the function nor the vector is masked, as PCIe lays down (R379). -/
def vecOpen (s : State) (vec : Nat) : Bool := linkLive s && s.hst.msixEn && !s.hst.msixMask && s.hst.unmasked.contains vec

/-- Signal a vector: its message, or its PBA bit while masked. -/
def signal (vec : Nat) (s : State) : State :=
  if vecOpen s vec then emit (.msix vec) s
  else if vec ∈ s.hst.pba then s
  else { s with hst := { s.hst with pba := vec :: s.hst.pba } }

/-! ### The completion and event ring (R371 to R375) -/

def ringSize (v : Nat) : Nat := 2 ^ clampN (v % 32) 6 16
def cplSize (s : State) : Nat := ringSize (regGet s 0x1001C)
def cmdSize (s : State) : Nat := ringSize (regGet s 0x10010)
def hstEn (s : State) : Bool := bitAt (regGet s 0x10000) 0

/-- An entry can be written now (R371). -/
def ringOpen (s : State) : Bool :=
  hstEn s && s.hst.polled && linkLive s && decide ((s.hst.tail + 1) % cplSize s ≠ s.hst.cplHead)

/-- The 64 bytes of an entry (Table 10-5). -/
def entryBytes (s : State) (e : Entry) : List Byte :=
  le 1 (flag s.hst.cyclePhase 7 + flag e.event 0) ++ le 1 e.opClass ++ le 2 e.tagCode ++ le 2 e.status ++ le 2 s.hst.head ++
  le 8 e.time ++ le 4 e.slot ++ le 4 s.hst.seq ++ fit 40 e.data

/-- Write the entry at the tail (R371, R374, R379). (DESIGN CHOICE, log 55.) -/
def writeEntry (e : Entry) (s : State) : State :=
  let base := regPair s 0x10014 0x10018 + 64 * s.hst.tail
  let bs := entryBytes s e
  let s1 := if bitAt (regGet s 0x10000) 1
    then emit (.hostWrite base (bs.take 4)) (emit (.hostWrite (base + 4) (bs.drop 4)) s)
    else emit (.hostWrite base bs) s
  let t := (s.hst.tail + 1) % cplSize s
  let cnt := s.hst.modCount + 1
  let lim := max 1 (bits (regGet s 0x1002C) 23 16)
  let s2 := cntHst 2 none 1 { s1 with hst := { s1.hst with
                                         tail := t, cyclePhase := (if t = 0 then !s1.hst.cyclePhase else s1.hst.cyclePhase),
                                         seq := wrap32 (s1.hst.seq + 1), modCount := if cnt ≥ lim then 0 else cnt } }
  if cnt ≥ lim then signal 0 s2 else s2

/-- An INFO or WARN event, to which the cap of 256 places applies (R375). -/
def Entry.minor (e : Entry) : Bool := e.event && decide (e.opClass ≤ 1)

/-- Hold an entry under the two caps (R375). -/
def holdEntry (e : Entry) (s : State) : State :=
  let sig (s : State) : State := if s.hst.held18 then s else signal 18 { s with hst := { s.hst with held18 := true } }
  if e.minor ∧ (s.hst.hold.filter Entry.minor).length ≥ 256 then
    sig { s with hst := { s.hst with dropRc := sat32 (s.hst.dropRc + 1), dropSince := s.hst.dropSince + 1, evDrop := true } }
  else if s.hst.hold.length ≥ 1024 then
    sig { s with hst := { s.hst with lostRc := sat32 (s.hst.lostRc + 1), lostSince := s.hst.lostSince + 1, evLost := true } }
  else sig (cntHst 3 none 1 { s with hst := { s.hst with hold := s.hst.hold ++ [e] } })

/-- Send an entry to the ring, or hold it behind those already held. -/
def pushEntry (e : Entry) (s : State) : State :=
  if s.hst.hold.isEmpty ∧ ringOpen s then writeEntry e s else holdEntry e s

/-! ### Raising an event (R474, R475, R510) -/

/-- GLB_FAULT_LAST, GLB_FAULT_SEQ and GLB_CLASS_COUNTc (R510). -/
def glbCount (code cls : Nat) (g : Glb) : Glb :=
  let g1 := { g with classCounts := tset g.classCounts cls (sat32 (tget g.classCounts cls 0 + 1)) 0 }
  if cls ≥ 4 then { g1 with faultCode := code, faultClass := cls, faultSeq := wrap32 (g1.faultSeq + 1) } else g1

/-- Raise an event: counters, silo, ring, vector 1, fault pin, snapshot option, trace. `p` holds the packed items. -/
def raise (code cls : Nat) (p : List Byte) (s : State) : State :=
  let s0 := { s with glb := glbCount code cls s.glb }
  let s1 := siloEnter cls 1 code p s0
  let s2 := pushEntry { event := true, opClass := cls, tagCode := code, status := 0, time := ringTime (nowA s), slot := slotNow s, data := fit 40 p } s1
  let s3 := if cls ≥ 4 then signal 1 s2 else s2
  let s4 := if cls = 4 ∧ bitAt (regGet s 0x24) 0 ∧ ¬ s.glb.fatal then emit .faultPulse s3 else s3
  let s5 := if cls = 4 ∧ bitAt (regGet s 0x24) 1 then trySnap s4 else s4
  if bitAt (trcCtrl s) (8 + cls) ∧ bitAt (regGet s 0x180108) (code / 256) then
    trcPush 1 (le 2 code ++ le 1 cls ++ le 1 0 ++ fit 4 p) s5
  else s5

/-- Raise an event whose payload is a list of items (size, value). -/
def raiseItems (code cls : Nat) (items : List (Nat × Nat)) (s : State) : State := raise code cls (packItems items []) s

/-- Once the hold queue empties after a drop or a loss, EV_RING_OVERFLOW is written (R375). -/
def overflowReport (s : State) : State :=
  if s.hst.hold.isEmpty then
    let s1 := { s with hst := { s.hst with held18 := false } }
    if s.hst.dropSince + s.hst.lostSince > 0 then
      raiseItems 0x0103 1 [(4, s.hst.dropSince), (4, s.hst.lostSince)]
        { s1 with hst := { s1.hst with dropSince := 0, lostSince := 0 } }
    else s1
  else s

/-- Write held entries, at most `n`, while the ring has room (R375). -/
def drainHold : Nat → State → State
  | 0, s => s
  | n + 1, s => match s.hst.hold with
    | [] => s
    | e :: t => if ringOpen s then drainHold n (writeEntry e { s with hst := { s.hst with hold := t } }) else s

/-! ### Command completion (R370, R376) -/

def cmdFind (s : State) (id : Nat) : Option Cmd := s.hst.inflight.find? (fun c => c.id == id)

/-- Mark a command as running, so that it completes later. -/
def cmdRun (id : Nat) (s : State) : State :=
  { s with hst := { s.hst with inflight := s.hst.inflight.map (fun c => if c.id = id then { c with phase := .running } else c) } }

/-- Write the one completion of command `id` and retire it; nothing for an id that is not in flight. -/
def complete (id status : Nat) (data : List Byte) (s : State) : State :=
  match cmdFind s id with
  | none => s
  | some c =>
    pushEntry { event := false, opClass := c.opcode, tagCode := c.tag, status := status, time := ringTime (nowA s), slot := slotNow s,
                data := fit 40 data }
      { s with hst := { s.hst with inflight := s.hst.inflight.filter (fun d => d.id != id) } }

/-- Complete a command that may have been given by nobody. -/
def completeOpt (id : Option Nat) (status : Nat) (data : List Byte) (s : State) : State :=
  match id with
  | none => s
  | some i => complete i status data s

/-! ### Make-up records (R482) -/

/-- The 40 bytes of a record (Table 14-7). -/
def MkRec.bytes (r : MkRec) : List Byte :=
  le 4 r.recId ++ le 4 r.baseId ++ le 8 r.tag ++ le 1 r.reason ++ le 1 r.scope ++ le 1 r.pass ++ le 1 r.origin ++ le 4 r.gen ++
  le 4 r.slotFirst ++ le 4 r.slotLast ++ le 4 r.beamFirst ++ le 4 r.beamLast

/-- Raise a record: number it, store it, raise EV_MAKEUP; a full store sets FULL and reports once. -/
def pushRecord (r : MkRec) (s : State) : State :=
  let r' := { r with recId := s.store.nextId }
  let full := decide (s.store.recs.length ≥ 16384)
  let s1 := { s with store := { s.store with recs := if full then s.store.recs else s.store.recs ++ [r'],
                                             nextId := s.store.nextId + 1, full := s.store.full || full } }
  let s2 := raise 0x0005 2 r'.bytes s1
  let s3 := if full ∧ ¬ s.store.full then raiseItems 0x0006 4 [(4, r'.recId)] s2 else s2
  match s3.pac.stripe with
  | some st => { s3 with pac := { s3.pac with stripe := some { st with mkCount := st.mkCount + 1 } } }
  | none => s3

end Sys2Proof.Machine
end

