-- ==== Sys2Proof/Machine/Coverage.lean ====
section
/-! DEFINITION. The writing model's maps (R21 to R45) and the reference coverage algorithm of the threshers
(R112 to R122), in exact integers. -/

namespace Sys2Proof.Machine

/-! ### Stripe geometry (R23 to R31) -/

def Header.S (h : Header) : Nat := 512 / h.passes
/-- W/64, the tile columns (Table 1-1). -/
def Header.cols (h : Header) : Nat := 8 * h.S
def Header.W (h : Header) : Nat := 512 * h.S
def Header.L (h : Header) : Nat := 64 * h.tileRows
def Header.N (h : Header) : Nat := h.L + 511 * h.pitch
def Header.K (h : Header) : Nat := ceilDiv h.N 1024
def numBeams : Nat := 262144

/-- Beam b in slot n: pixel column, pixel row, pass, inside the stripe (R41). -/
def beamSlot (h : Header) (b n : Nat) : Nat × Int × Nat × Bool :=
  let r := b / 512
  let c := b % 512
  let y : Int := (n : Int) - (r * h.pitch : Nat)
  (c * h.S + r % h.S, y, r / h.S, decide (0 ≤ y ∧ y < h.L))

/-- Pass-pixel (x, y, p): its beam and slot (R41). -/
def passpixBeam (h : Header) (x p : Nat) : Nat := (p * h.S + x % h.S) * 512 + x / h.S
def passpixSlot (h : Header) (x y p : Nat) : Nat := y + (p * h.S + x % h.S) * h.pitch

/-- n_first and n_last of tile-pass (t_x, t_y, p) (R107). -/
def nFirst (h : Header) (tx ty p : Nat) : Nat := 64 * ty + (p * h.S + (64 * tx) % h.S) * h.pitch
def nLast (h : Header) (tx ty p : Nat) : Nat := nFirst h tx ty p + 63 + 63 * h.pitch

/-- The rows of run (b, j) lie partly inside the stripe, so it is dealt (R101, R102). -/
def runDealt (h : Header) (b j : Nat) : Bool :=
  let y : Int := (8 * j : Nat) - (b / 512 * h.pitch : Nat)
  decide (0 ≤ y + 7 ∧ y < h.L)

/-! ### Coverage of one trapezoid (R114) -/

/-- q + r/d with 0 ≤ r < d. -/
structure Part where
  q : Int
  r : Int
  d : Int
  deriving DecidableEq, Repr

/-- 2·∫ max(s, 0) over a span of height h, s linear from a to b (R114). -/
def gPos (a b h B : Int) : Part :=
  let d := if B = 0 then 1 else B
  if 0 ≤ a ∧ 0 ≤ b then ⟨h * (a + b), 0, d⟩
  else if a ≤ 0 ∧ b ≤ 0 then ⟨0, 0, d⟩
  else
    let t := if 0 < a then a else b
    ⟨t * t / B, t * t % B, d⟩

/-- 2·D·F of one edge (R114). -/
def edgePart (xa xb y0 D ya h X0 : Int) : Part :=
  let B := xb - xa
  let Bm := if B < 0 then -B else B
  let a := (xa - X0) * D + B * (ya - y0)
  let b := a + B * h
  let p1 := gPos a b h Bm
  let p2 := gPos (a - 64 * D) (b - 64 * D) h Bm
  if p2.r ≤ p1.r then ⟨p1.q - p2.q, p1.r - p2.r, p1.d⟩
  else ⟨p1.q - p2.q - 1, p1.r + p1.d - p2.r, p1.d⟩

/-- Coverage of a trapezoid in the pixel at (X0, Yb), 0 to 4,096 (R113, R114). -/
def trapCoverage (t : Trap) (X0 Yb : Int) : Nat :=
  let ya := max t.y0 Yb
  let yb := min t.y1 (Yb + 64)
  if ya ≥ yb then 0 else
  let D := t.y1 - t.y0
  let h := yb - ya
  let R := edgePart t.xr0 t.xr1 t.y0 D ya h X0
  let L := edgePart t.xl0 t.xl1 t.y0 D ya h X0
  let u := R.r * L.d
  let w := L.r * R.d
  let M := if w ≤ u then R.q - L.q else R.q - L.q - 1
  let fracZero := decide (u = w)
  let q := M / (2 * D)
  let m := M % (2 * D)
  let q' := if m > D ∨ (m = D ∧ ¬ fracZero) then q + 1 else if m = D then q + q % 2 else q
  q'.toNat

/-! ### Layers and the pixel total (R118 to R121) -/

/-- n/d rounded half to even, d > 0. -/
def divRhe (n d : Int) : Int :=
  let q := n / d
  let r := n - q * d
  if 2 * r > d ∨ (2 * r = d ∧ q % 2 = 1) then q + 1 else q

/-- x of an edge on the midline of strip s, in 1/256 sub-pixel from X0 (R121). -/
def midX (xa xb y0 D s X0 : Int) : Int :=
  clampI (divRhe (256 * ((xa - X0) * 2 * D + (xb - xa) * (2 * (s - y0) + 1))) (2 * D)) 0 16384

/-- The interval of a trapezoid on strip s, if it has one. -/
def stripIv (t : Trap) (s X0 : Int) : Option (Int × Int) :=
  if t.y0 > s ∨ t.y1 < s + 1 then none
  else
    let D := t.y1 - t.y0
    let l := midX t.xl0 t.xl1 t.y0 D s X0
    let r := midX t.xr0 t.xr1 t.y0 D s X0
    if r > l then some (l, r) else none

def ivLe (a b : Int × Int) : Bool := decide (a.1 < b.1 ∨ (a.1 = b.1 ∧ a.2 ≤ b.2))
def ivInsert (a : Int × Int) : List (Int × Int) → List (Int × Int)
  | [] => [a]
  | b :: t => if ivLe a b then a :: b :: t else b :: ivInsert a t
def ivSort (l : List (Int × Int)) : List (Int × Int) := l.foldr ivInsert []

/-- Length of the union of intervals sorted by their left ends. -/
def ivCover : List (Int × Int) → Int → Int
  | [], _ => 0
  | (l, r) :: t, e => if r > e then (r - max l e) + ivCover t r else ivCover t e

/-- A union layer's contribution (R119, R121). -/
def unionLayer (ts : List Trap) (X0 Yb : Int) : Nat :=
  let sumC := (ts.map (fun t => trapCoverage t X0 Yb)).sum
  let vf := ((List.range 64).map (fun (i : Nat) =>
    let ivs := ivSort (ts.filterMap (fun t => stripIv t (Yb + i) X0))
    (ivs.map (fun p => p.2 - p.1)).sum - ivCover ivs 0)).sum
  let v := roundHalfEven vf.toNat 8
  min (sumC - v) 4096

/-- The entries of a bin that apply to pass p in layer i (R112). -/
def applying (es : List BinEntry) (p i : Nat) : List Trap :=
  (es.filter (fun e => e.layer == i && (e.mask == 0 || e.mask.testBit p))).map BinEntry.trap

/-- Coverage C of pass-pixel (x, y, p) from the entries of its tile's bin (R120, R121). -/
def pixelCoverage (es : List BinEntry) (x y p unionMask : Nat) : Nat :=
  let X0 : Int := 64 * (x : Int)
  let Yb : Int := 64 * ((y % 64 : Nat) : Int)
  min 4096 (((List.range 16).map (fun i =>
    let ts := applying es p i
    if unionMask.testBit i then unionLayer ts.eraseDups X0 Yb
    else (ts.map (fun t => trapCoverage t X0 Yb)).sum)).sum)

/-! ### Run weight (R123, R124) -/

/-- An entry is incident on the run's rows y0 to y1 of tile row ty (R123). -/
def incident (e : BinEntry) (x p : Nat) (yLo yHi : Nat) : Bool :=
  let X0 : Int := 64 * (x : Int)
  let lo : Int := 64 * ((yLo % 64 : Nat) : Int)
  let hi : Int := 64 * ((yHi % 64 : Nat) : Int) + 64
  (e.mask == 0 || e.mask.testBit p) &&
  decide (min e.trap.xl0 e.trap.xl1 < X0 + 64 ∧ X0 < max e.trap.xr0 e.trap.xr1) &&
  decide (e.trap.y0 < hi ∧ lo < e.trap.y1)

def entryWeight (unionMask : Nat) (e : BinEntry) : Nat := if unionMask.testBit e.layer then 2 else 1

/-- The in-stripe rows of run (b, j), split by tile row: (tile row, first row, last row). -/
def runRows (h : Header) (b j : Nat) : List (Nat × Nat × Nat) :=
  let y : Int := (8 * j : Nat) - (b / 512 * h.pitch : Nat)
  let lo := (max y 0).toNat
  let hi := (min (y + 7) ((h.L : Int) - 1)).toNat
  if ¬ runDealt h b j then []
  else if lo / 64 = hi / 64 then [(lo / 64, lo, hi)]
  else [(lo / 64, lo, lo / 64 * 64 + 63), (hi / 64, hi / 64 * 64, hi)]

/-- The weight k of run (b, j) (R123). -/
def runWeight (h : Header) (bins : Tbl Bin) (b j : Nat) : Nat :=
  let r := b / 512
  let x := b % 512 * h.S + r % h.S
  let p := r / h.S
  ((runRows h b j).map (fun (ty, lo, hi) =>
    let es := (tget bins (ty * h.cols + x / 64) {}).entries
    ((es.filter (fun e => incident e x p lo hi)).map (entryWeight h.unionMask)).sum)).sum

/-- ℓ of a run: max(1, ⌈k/2⌉) (R124). -/
def runCycles (k : Nat) : Nat := max 1 ((k + 1) / 2)

end Sys2Proof.Machine
end

