-- ==== Sys2Proof/Machine/Dose.lean ====
section
/-! DEFINITION. The reference dose arithmetic (R134 to R148), dose-tile expansion (R79 to R83), the beam table and its
derived fields (R150 to R153). -/

namespace Sys2Proof.Machine

/-! ### Dose tiles (R79 to R83) -/

/-- The expansion of a payload: samples so far (reversed), steps; `none` for a case of R80. -/
def rleGo : Nat → List Byte → Nat → Nat → List Byte → Nat → Option (List Byte × Nat)
  | 0, _, _, _, _, _ => none
  | fuel + 1, pl, k, i, out, steps =>
    match pl.drop k with
    | [] => none
    | b0 :: rest =>
      let b := b0.toNat
      let fin (k' n : Nat) (vals : List Byte) (writes : Bool) : Option (List Byte × Nat) :=
        if n = 0 ∨ i + n > 4096 then none
        else
          let st := steps + 1 + (if k / 64 ≠ (k' - 1) / 64 then 1 else 0) +
                    (if writes then (i + n - 1) / 64 - i / 64 else 0)
          rleGo fuel pl k' (i + n) (vals.reverse ++ out) st
      if b = 0xFF then (if rest.isEmpty then some ((List.replicate (4096 - i) 0 ++ out).reverse, steps + 1) else none)
      else if b < 0x40 then fin (k + 1) (b + 1) (List.replicate (b + 1) 0) false
      else if b < 0x80 then
        match rest with
        | v :: _ => fin (k + 2) (b % 64 + 1) (List.replicate (b % 64 + 1) v) true
        | [] => none
      else if b < 0xC0 then
        let n := b % 64 + 1
        if rest.length < n then none else fin (k + 1 + n) n (rest.take n) true
      else if b = 0xC0 then
        if rest.length < 2 then none else let n := fld rest 0 2; fin (k + 3) n (List.replicate n 0) false
      else if b = 0xC1 then
        if rest.length < 3 then none else let n := fld rest 1 2; fin (k + 4) n (List.replicate n (rest.headD 0)) true
      else none

/-- Expand a dose-tile payload to 4,096 samples and its step count (R83). -/
def rleExpand (pl : List Byte) : Option (List Byte × Nat) := rleGo (pl.length + 1) pl 0 0 [] 0

/-- The sample of pixel (x, y) of a bin's dose tile (R135). -/
def doseSample (b : Bin) (x y : Nat) : Int :=
  match b.dose with
  | none => 0
  | some pl => match rleExpand pl with
    | some (samples, _) => ((samples.getD (64 * (y % 64) + x % 64) 0).toInt)
    | none => 0

/-! ### Correction (R136) -/

/-- Grid value at a corner: 0x4000 where the section sets none (R86). -/
def gridAt (g : Tbl Nat) (h : Header) (gx gy : Nat) : Nat := tget g (gy * (h.cols + 1) + gx) 0x4000

/-- k at the pixel centre (R148). -/
def corrK (g : Tbl Nat) (h : Header) (x y : Nat) : Nat :=
  let tx := x / 64
  let ty := y / 64
  let wx := 2 * (x % 64) + 1
  let wy := 2 * (y % 64) + 1
  roundHalfEven (gridAt g h tx ty * (128 - wx) * (128 - wy) + gridAt g h (tx + 1) ty * wx * (128 - wy)
    + gridAt g h tx (ty + 1) * (128 - wx) * wy + gridAt g h (tx + 1) (ty + 1) * wx * wy) 14

/-! ### The beam table (R150 to R153) -/

def BeamTable.healthOf (t : BeamTable) (b : Nat) : Nat := tget t.health b 0
def BeamTable.trimOf (t : BeamTable) (b : Nat) : Nat := tget t.trim b 0x800

/-- The beams of the column group of beam b for P passes, in increasing pass (R146). -/
def columnGroup (P b : Nat) : List Nat :=
  let S := 512 / P
  (List.range P).map (fun q => (q * S + b / 512 % S) * 512 + b % 512)

/-- SIB_BRIGHT (R150). -/
def BeamTable.sibBright (t : BeamTable) (P b : Nat) : Bool := (columnGroup P b).any (fun x => t.healthOf x == 2)

/-- DARK_SIB (R150). -/
def BeamTable.darkSib (t : BeamTable) (P b : Nat) : Nat :=
  (((List.range P).zip (columnGroup P b)).map (fun (q, x) => if t.healthOf x = 1 then 2 ^ q else 0)).sum

/-- The window entry of beam b (Table 4-3). -/
def BeamTable.entry (t : BeamTable) (P b : Nat) : Nat :=
  t.healthOf b * 2 ^ 30 + flag (t.sibBright P b) 29 + t.darkSib P b * 2 ^ 16 + t.trimOf b

/-! ### Pass code (R137 to R148) -/

/-- Table 4-2. -/
def ditherRows : List (List Nat) :=
  [[0, 32, 8, 40, 2, 34, 10, 42], [48, 16, 56, 24, 50, 18, 58, 26], [12, 44, 4, 36, 14, 46, 6, 38],
   [60, 28, 52, 20, 62, 30, 54, 22], [3, 35, 11, 43, 1, 33, 9, 41], [51, 19, 59, 27, 49, 17, 57, 25],
   [15, 47, 7, 39, 13, 45, 5, 37], [63, 31, 55, 23, 61, 29, 53, 21]]

def dither (x y p : Nat) : Nat := (ditherRows.getD ((y + p) % 8) []).getD ((x + 3 * p) % 8) 0

/-- What the path returns for one pass-pixel. -/
structure PassOut where
  code : Nat := 0
  delivered : Nat := 0
  missed : Nat := 0
  deriving DecidableEq, Repr

def popcount (v n : Nat) : Nat := ((List.range n).filter (fun i => v.testBit i)).length

/-- The share s of pass p (R137 to R139). -/
def passShare (C k : Nat) (a : Int) (darkMask p P : Nat) : Nat :=
  let e := roundHalfEven (10 * k * C) 16
  let E := ((P * e : Nat) + 256 * a).toNat
  let nl := P - popcount darkMask P
  let rank := p - popcount darkMask p
  E / nl + (if E % nl > rank then 1 else 0)

/-- Largest share that trim t can deliver (R142). -/
def passCap (t : Nat) : Nat := 125829120 / (6144 + t)

/-- The code of a share (R142, R145). -/
def shareCode (s t x y p : Nat) : PassOut :=
  let d := min s (passCap t)
  let th := (2 * dither x y p + 1) * 65536
  { code := (d * (6144 + t) + th) / 2 ^ 23, delivered := d, missed := s - d }

/-- The reference pass code (R148): `owed` is the owed dose D of a make-up run in place of s (R489). -/
def passCode (C k : Nat) (a : Int) (t : BeamTable) (b x y p P : Nat) (redistOff : Bool) (owed : Option Nat) : PassOut :=
  if t.sibBright P b then {}
  else if t.healthOf b = 1 then {}
  else
    let s := passShare C k a (if redistOff then 0 else t.darkSib P b) p P
    shareCode (owed.getD s) (t.trimOf b) x y p

/-- Pass-pixel (x, y, p) of an admission under a beam table version (R135). -/
def pixelOut (h : Header) (bins : Tbl Bin) (grid : Tbl Nat) (t : BeamTable) (x y p : Nat) (owed : Option Nat) : PassOut :=
  let bin := tget bins (y / 64 * h.cols + x / 64) {}
  passCode (pixelCoverage bin.entries x y p h.unionMask) (corrK grid h x y) (doseSample bin x y) t (passpixBeam h x p) x y p
    h.passes h.redistOff owed

/-! ### Granary packing (R153) -/

/-- Granary word holding the health of beams 32w to 32w + 31: word index 8,704 + w. -/
def healthWord (t : BeamTable) (w : Nat) : Nat :=
  ((List.range 32).map (fun j => t.healthOf (32 * w + j) * 4 ^ j)).sum

/-- Granary word w of the trim field: bits [64w + 63 : 64w] of the packed trims. -/
def trimWord (t : BeamTable) (w : Nat) : Nat :=
  let b0 := 64 * w / 12
  let v := ((List.range 7).map (fun j => t.trimOf (b0 + j) * 2 ^ (12 * j))).sum
  v / 2 ^ (64 * w - 12 * b0) % 2 ^ 64

/-- The table digest (R293). -/
def tableDigest (t : BeamTable) : Nat :=
  crcFinish 2 ((List.range numBeams).foldl (fun st b => crcFeed 2 st (le 2 (t.healthOf b * 4096 + t.trimOf b))) (crcInit 2))

end Sys2Proof.Machine
end

