-- ==== Sys2Proof/Machine/Sheaf.lean ====
section
/-! DEFINITION. Reading a sheaf (R54 to R97): header checks, records, expansion of placements, binning, the tile
directory and the correction grid. `rd o n` reads n bytes at offset o of the sheaf. -/

namespace Sys2Proof.Machine

/-- A refusal: reason (Table 2-15, Table 5-11), location, location_aux. -/
structure Refuse where
  reason : Nat
  loc : Nat
  aux : Nat := 0
  deriving DecidableEq, Repr

/-- The earlier of two located constructs (R97): lower offset, then lower band, then lower reason (DEDUCED, log 15). -/
def Refuse.min (a b : Refuse) : Refuse :=
  if a.loc < b.loc ∨ (a.loc = b.loc ∧ (a.aux < b.aux ∨ (a.aux = b.aux ∧ a.reason ≤ b.reason))) then a else b

def firstOf (l : List Refuse) : Option Refuse := match l with
  | [] => none
  | a :: t => some (t.foldl Refuse.min a)

/-! ### Header (R59 to R62) -/

def hdrOf (hb : List Byte) : Header :=
  let p := fld hb 8 1
  let g := fld hb 9 1
  { passes := if p = 0 then 4 else p, pitch := if g = 0 then 32 else g, redistOff := bitAt (fld hb 0xA 1) 0,
    bodyCheck := bitAt (fld hb 0xA 1) 1, tileRows := fld hb 0xC 4, unionMask := fld hb 0x10 2, tag := fld hb 0x18 8 }

/-- magic, version and header_size, header_crc, in the order of R60. -/
def hdrBasic (hb : List Byte) : Option Refuse :=
  if fld hb 0 4 ≠ 0x4648534A then some ⟨0x20, 0, 0⟩
  else if fld hb 4 2 ≠ 0x0200 ∨ fld hb 6 2 ≠ 256 then some ⟨0x21, 4, 0⟩
  else if fld hb 0xFC 4 ≠ crc32c (hb.take 0xFC) then some ⟨0x22, 0xFC, 0⟩
  else none

/-- Geometry in the order of R61. -/
def hdrGeometry (hb : List Byte) : Option Refuse :=
  let h := hdrOf hb
  if h.passes ∉ [1, 2, 4, 8] then some ⟨0x10, 8, 0⟩
  else if h.pitch > 64 then some ⟨0x10, 9, 0⟩
  else if h.passes = 1 ∧ ¬ h.redistOff then some ⟨0x10, 0xA, 0⟩
  else if h.tileRows = 0 ∨ h.cols * h.tileRows > 2 ^ 25 then some ⟨0x10, 0xC, 0⟩
  else none

/-- Ranges [a, a+n) and [b, b+m) overlap. -/
def overlaps (a n b m : Nat) : Bool := decide (0 < n ∧ 0 < m ∧ a < b + m ∧ b < a + n)

/-- Section bounds (Table 2-15, 0x24): `room` is the number of loft bytes from the sheaf base on. -/
def hdrBounds (hb : List Byte) (room : Nat) : Option Refuse :=
  let len := fld hb 0x20 8
  let cc := fld hb 0x14 4
  let co := fld hb 0x28 8
  let cl := fld hb 0x30 8
  let bd := fld hb 0x38 8
  let bl := 16 * fld hb 0xC 4
  let ko := fld hb 0x40 8
  let kl := fld hb 0x48 8
  let bad (b : Bool) (loc : Nat) : List Refuse := if b then [⟨0x24, loc, 0⟩] else []
  let sect (o n al oLoc nLoc lo : Nat) : List Refuse :=
    bad (o % al ≠ 0 || decide (o ≥ len) || overlaps o 1 0 256) oLoc ++
    bad (decide (n < lo) || (decide (o < len) && decide (o + n > len)) || overlaps o n 0 256 || overlaps o n bd bl) nLoc
  firstOf (
    bad (decide (fld hb 0xA 1 ≥ 4)) 0xA ++ bad (fld hb 0xB 1 ≠ 0) 0xB ++ bad (fld hb 0x12 2 ≠ 0) 0x12 ++
    bad (decide (cc > 16777216) || (cc == 0 && (co != 0 || cl != 0))) 0x14 ++
    bad (decide (len < 256) || len % 64 ≠ 0 || decide (len > room)) 0x20 ++
    (if cc = 0 then [] else sect co cl 64 0x28 0x30 16) ++
    bad (bd % 64 ≠ 0 || decide (bd + bl > len) || overlaps bd bl 0 256) 0x38 ++
    sect ko kl 64 0x40 0x48 8 ++
    bad (¬ allZero ((hb.drop 0x54).take 168)) 0x54)

/-- Directory entries (R62). -/
def dirBounds (rd : Nat → Nat → List Byte) (hb : List Byte) : Option Refuse :=
  let len := fld hb 0x20 8
  let bd := fld hb 0x38 8
  let bl := 16 * fld hb 0xC 4
  firstOf ((List.range (fld hb 0xC 4)).filterMap (fun k =>
    let e := rd (bd + 16 * k) 16
    let o := fld e 0 8
    let n := fld e 8 4
    if o % 8 ≠ 0 ∨ n % 8 ≠ 0 ∨ n < 8 ∨ o + n > len ∨ overlaps o n 0 256 ∨ overlaps o n bd bl ∨ fld e 0xC 4 ≠ 0
    then some ⟨0x24, bd + 16 * k, 0⟩ else none))

/-! ### Splitting a stream into records (R58, R63 to R65) -/

inductive StreamKind where
  | cells | band | corr
  deriving DecidableEq, Repr

def typeAllowed (k : StreamKind) (t : Nat) : Bool := match k with
  | .cells => t ∈ [0x10, 0x11, 0x12, 0x13, 0x1F, 0x7F]
  | .band => t ∈ [0x01, 0x02, 0x03, 0x08, 0x20, 0x7F]
  | .corr => t ∈ [0x30, 0x31, 0x7F]

/-- Bytes of the record that begins with these 8 (Table 2-4). -/
def recSize (w : List Byte) : Nat :=
  let t := fld w 0 1
  if t = 0x01 ∨ t = 0x02 ∨ t = 0x12 then 24 else if t = 0x03 ∨ t = 0x13 then 40
  else if t = 0x11 then 32 else if t = 0x30 then 16
  else if t = 0x20 then 8 + (fld w 4 2 + 7) / 8 * 8
  else if t = 0x31 then 16 + (2 * fld w 2 2 + 7) / 8 * 8
  else 8

/-- Records of a stream (offset, bytes) and the error that ends the split. A stream that leaves less than one word behind its last record
has no END: RECORD_BOUNDS at that record (DESIGN CHOICE, log 101). -/
def splitRecs (rd : Nat → Nat → List Byte) (k : StreamKind) : Nat → Nat → Nat → Nat → List (Nat × List Byte) × Option Refuse
  | 0, _, _, last => ([], some ⟨0x26, last, 0⟩)
  | fuel + 1, pos, stop, last =>
    if pos + 8 > stop then ([], some ⟨0x26, last, 0⟩)
    else
      let w := rd pos 8
      let n := recSize w
      if ¬ typeAllowed k (fld w 0 1) then ([], some ⟨0x25, pos, 0⟩)
      else if pos + n > stop then ([], some ⟨0x26, pos, 0⟩)
      else
        let r := (pos, rd pos n)
        if fld w 0 1 = 0x7F then ([r], if pos + 8 = stop then none else some ⟨0x26, pos, 0⟩)
        else
          let (rs, e) := splitRecs rd k fuel (pos + n) stop pos
          (r :: rs, e)

/-- Split the stream of `len` bytes at `pos`. -/
def splitStream (rd : Nat → Nat → List Byte) (k : StreamKind) (pos len : Nat) : List (Nat × List Byte) × Option Refuse :=
  splitRecs rd k (len / 8 + 1) pos (pos + len) pos

def isEnd (r : List Byte) : Bool := fld r 0 1 == 0x7F

/-- END: reserved bytes and the record count (R65). -/
def endErrs (n : Nat) (o : Nat) (r : List Byte) : List Refuse :=
  (if fld r 4 4 ≠ n then [⟨0x27, o, 0⟩] else []) ++ (if fld r 1 3 ≠ 0 then [⟨0x28, o, 0⟩] else [])

/-! ### Cells (R70 to R75) -/

/-- A placement or an array; a placement has nx = ny = 1. -/
structure PlaceRec where
  cell : Nat
  orient : Nat
  ox : Int
  oy : Int
  nx : Nat
  ny : Nat
  dx : Int
  dy : Int
  deriving DecidableEq, Repr

inductive CellItem where
  | trap (t : Trap)
  | place (p : PlaceRec)
  deriving DecidableEq, Repr

structure CellDef where
  items : List CellItem := []
  depth : Nat := 1
  deriving DecidableEq, Repr

def i32 (r : List Byte) (o : Nat) : Int := signed 32 (fld r o 4)

def placeOf (r : List Byte) : PlaceRec :=
  let arr := r.length > 24
  { cell := fld r 4 3, orient := fld r 1 1 % 4, ox := i32 r 8, oy := i32 r 0xC,
    nx := if arr then fld r 0x18 2 else 1, ny := if arr then fld r 0x1A 2 else 1,
    dx := if arr then i32 r 0x20 else 0, dy := if arr then i32 r 0x24 else 0 }

/-- Reserved fields of a placement record; `cellRec`: CPLACE and CARRAY, whose pass_mask is reserved (R72). -/
def placeReserved (r : List Byte) (cellRec : Bool) : Bool :=
  decide (fld r 1 1 ≥ 4) || (cellRec && fld r 2 1 != 0) || fld r 3 1 != 0 || fld r 7 1 != 0 || fld r 0x10 8 != 0 ||
  (decide (r.length > 24) && fld r 0x1C 4 != 0)

def trapOrdered (t : Trap) : Bool := decide (t.y0 < t.y1 ∧ t.xl0 ≤ t.xr0 ∧ t.xl1 ≤ t.xr1)

def ctrapOf (r : List Byte) : Trap :=
  { y0 := i32 r 4, y1 := i32 r 8, xl0 := i32 r 0xC, xr0 := i32 r 0x10, xl1 := i32 r 0x14, xr1 := i32 r 0x18 }

def errIf (b : Bool) (reason loc : Nat) : List Refuse := if b then [⟨reason, loc, 0⟩] else []

/-- Walk the records of the cell table: cells so far, the open definition, errors. CELL_END bytes that Table 2-8 gives as 0 are reserved:
RESERVED_NONZERO (DESIGN CHOICE, log 101). -/
def cellStep (acc : Tbl CellDef × Option CellDef × List Refuse × Nat) (or : Nat × List Byte) :
    Tbl CellDef × Option CellDef × List Refuse × Nat :=
  let (cells, cur, errs, n) := acc
  let (o, r) := or
  let t := fld r 0 1
  let id := cells.length
  match t, cur with
  | 0x10, none => (cells, some {}, errs ++ errIf (fld r 1 3 ≠ 0 || fld r 7 1 ≠ 0) 0x28 o ++ errIf (fld r 4 3 ≠ id) 0x2C o, n + 1)
  | 0x1F, some d => (cells ++ [(id, d)], none, errs ++ errIf (fld r 1 7 ≠ 0) 0x28 o, n + 1)
  | 0x11, some d =>
    (cells, some { d with items := d.items ++ [.trap (ctrapOf r)] },
     errs ++ errIf (fld r 1 3 ≠ 0 || fld r 0x1C 4 ≠ 0) 0x28 o ++ errIf (¬ trapOrdered (ctrapOf r)) 0x29 o, n + 1)
  | 0x7F, none => (cells, none, errs ++ endErrs n o r, n)
  | 0x7F, some d => (cells, some d, errs ++ [⟨0x25, o, 0⟩], n)
  | _, none => (cells, none, errs ++ [⟨0x25, o, 0⟩], n + 1)
  | 0x10, some d => (cells, some d, errs ++ [⟨0x25, o, 0⟩], n + 1)
  | _, some d =>
    let p := placeOf r
    (cells, some { items := d.items ++ [.place p], depth := max d.depth (1 + (tget cells p.cell {}).depth) },
     errs ++ errIf (placeReserved r true) 0x28 o ++ errIf (decide (p.cell ≥ id)) 0x2C o ++
       errIf (p.nx == 0 || p.ny == 0) 0x2E o, n + 1)

/-- The cell table (R70): its cells and its first error. -/
def readCells (rd : Nat → Nat → List Byte) (hb : List Byte) : Tbl CellDef × List Refuse :=
  if fld hb 0x14 4 = 0 then ([], [])
  else
    let (rs, e) := splitStream rd .cells (fld hb 0x28 8) (fld hb 0x30 8)
    let (cells, _, errs, _) := rs.foldl cellStep ([], none, [], 0)
    let cnt := match rs.getLast? with
      | some (o, r) => errIf (isEnd r && cells.length != fld hb 0x14 4) 0x27 o
      | none => []
    (cells, errs ++ cnt ++ e.toList)

/-! ### Expansion (R76) -/

structure Xform where
  ox : Int
  oy : Int
  o : Nat
  deriving DecidableEq, Repr

def Xform.tx (t : Xform) (x : Int) : Int := t.ox + (if t.o.testBit 0 then -x else x)
def Xform.ty (t : Xform) (y : Int) : Int := t.oy + (if t.o.testBit 1 then -y else y)
def Xform.compose (t : Xform) (ix iy : Int) (io : Nat) : Xform := ⟨t.tx ix, t.ty iy, t.o ^^^ io⟩

def Xform.apply (t : Xform) (c : Trap) : Trap :=
  let a : Trap := ⟨t.ty c.y0, t.ty c.y1, t.tx c.xl0, t.tx c.xr0, t.tx c.xl1, t.tx c.xr1⟩
  let b : Trap := if t.o.testBit 0 then ⟨a.y0, a.y1, a.xr0, a.xl0, a.xr1, a.xl1⟩ else a
  if t.o.testBit 1 then ⟨b.y1, b.y0, b.xl1, b.xr1, b.xl0, b.xr0⟩ else b

/-- The trapezoids of a cell; the fuel is the depth (R75). -/
def expandCell (cells : Tbl CellDef) : Nat → Nat → Xform → List Trap
  | 0, _, _ => []
  | fuel + 1, id, t =>
    (tget cells id {}).items.flatMap (fun e => match e with
      | .trap c => [t.apply c]
      | .place p => (List.range p.ny).flatMap (fun (j : Nat) => (List.range p.nx).flatMap (fun (i : Nat) =>
          expandCell cells fuel p.cell (t.compose (p.ox + i * p.dx) (p.oy + j * p.dy) p.orient))))

/-- The trapezoids of a top-level PLACE or ARRAY. -/
def expandPlace (cells : Tbl CellDef) (p : PlaceRec) : List Trap :=
  (List.range p.ny).flatMap (fun (j : Nat) => (List.range p.nx).flatMap (fun (i : Nat) =>
    expandCell cells 8 p.cell ⟨p.ox + i * p.dx, p.oy + j * p.dy, p.orient⟩))

/-! ### Band streams (R66 to R81) -/

/-- What a band stream yields so far. -/
structure BandAcc where
  layer : Nat := 0
  entries : List BinEntry := []
  doses : Tbl (List Byte) := []
  errs : List Refuse := []
  n : Nat := 0
  deriving DecidableEq, Repr

def inBand (h : Header) (t : Trap) : Bool :=
  let W : Int := 64 * h.W
  decide (0 ≤ t.y0 ∧ t.y0 < t.y1 ∧ t.y1 ≤ 4096 ∧ 0 ≤ t.xl0 ∧ t.xr0 ≤ W ∧ 0 ≤ t.xl1 ∧ t.xr1 ≤ W)

def trapOf (r : List Byte) : Trap :=
  { y0 := fld r 4 2, y1 := fld r 6 2, xl0 := fld r 8 4 % 2 ^ 25, xr0 := fld r 0xC 4 % 2 ^ 25,
    xl1 := fld r 0x10 4 % 2 ^ 25, xr1 := fld r 0x14 4 % 2 ^ 25 }

def bandStep (h : Header) (cells : Tbl CellDef) (cellCount : Nat) (a : BandAcc) (or : Nat × List Byte) : BandAcc :=
  let (o, r) := or
  let t := fld r 0 1
  let mask := fld r 2 1
  let a := { a with n := a.n + 1 }
  let badMask := decide (mask ≥ 2 ^ h.passes)
  if t = 0x01 then
    let q := trapOf r
    { a with
      entries := a.entries ++ [⟨q, mask, a.layer⟩],
      errs := a.errs ++ errIf (fld r 1 1 ≠ 0 || fld r 3 1 ≠ 0 ||
          [8, 0xC, 0x10, 0x14].any (fun i => decide (fld r i 4 ≥ 2 ^ 25))) 0x28 o ++
        errIf (¬ trapOrdered q) 0x29 o ++ errIf (¬ inBand h q) 0x2A o ++ errIf badMask 0x2B o }
  else if t = 0x08 then
    { a with layer := fld r 1 1 % 16, errs := a.errs ++ errIf (fld r 2 6 ≠ 0) 0x28 o ++ errIf (decide (fld r 1 1 > 15)) 0x2F o }
  else if t = 0x02 ∨ t = 0x03 then
    let p := placeOf r
    let ts := expandPlace cells p
    { a with
      entries := a.entries ++ ts.map (fun q => ⟨q, mask, a.layer⟩),
      errs := a.errs ++ errIf (placeReserved r false) 0x28 o ++ errIf (¬ ts.all (inBand h)) 0x2A o ++ errIf badMask 0x2B o ++
        errIf (decide (p.cell ≥ cellCount)) 0x2C o ++ errIf (decide ((tget cells p.cell {}).depth > 8)) 0x2D o ++
        errIf (p.nx == 0 || p.ny == 0) 0x2E o }
  else if t = 0x20 then
    let tx := fld r 2 2
    let pl := (r.drop 8).take (fld r 4 2)
    { a with
      doses := tput a.doses tx pl,
      errs := a.errs ++ errIf (fld r 1 1 ≠ 0 || fld r 6 2 ≠ 0) 0x28 o ++ errIf (thas a.doses tx || decide (tx ≥ h.cols)) 0x30 o ++
        errIf (fld r 4 2 == 0 || decide (fld r 4 2 > 16385) || (rleExpand pl).isNone) 0x31 o }
  else { a with errs := a.errs ++ endErrs (a.n - 1) o r }

/-- The stream of band k. -/
def readBand (rd : Nat → Nat → List Byte) (hb : List Byte) (h : Header) (cells : Tbl CellDef) (k : Nat) : BandAcc :=
  let e := rd (fld hb 0x38 8 + 16 * k) 16
  let (rs, err) := splitStream rd .band (fld e 0 8) (fld e 8 4)
  let a := rs.foldl (bandStep h cells (fld hb 0x14 4)) {}
  { a with errs := (a.errs ++ err.toList).map (fun x => { x with aux := k }) }

/-! ### Correction section (R86, R87) -/

def corrStep (h : Header) (acc : Tbl Nat × List Refuse × Nat) (or : Nat × List Byte) : Tbl Nat × List Refuse × Nat :=
  let (g, errs, n) := acc
  let (o, r) := or
  let t := fld r 0 1
  let gw := h.cols + 1
  let put (g : Tbl Nat) (x y v : Nat) : Tbl Nat := if x ≤ h.cols ∧ y ≤ h.tileRows then tset g (y * gw + x) v 0x4000 else g
  let x0 := fld r 4 2
  let x1 := fld r 6 2
  let y0 := fld r 8 4
  let y1 := fld r 0xC 4
  let v := fld r 2 2
  if t = 0x30 then
    let bad := decide (x0 > x1 ∨ y0 > y1 ∨ x1 > h.cols ∨ y1 > h.tileRows)
    (if bad then g else (List.range (y1 + 1 - y0)).foldl (fun g j => (List.range (x1 + 1 - x0)).foldl (fun g i => put g (x0 + i) (y0 + j) v) g) g,
     errs ++ errIf (fld r 1 1 ≠ 0) 0x28 o ++ errIf bad 0x32 o, n + 1)
  else if t = 0x31 then
    let bad := v == 0 || decide (x0 + v > h.cols + 1 ∨ y0 > h.tileRows)
    (if bad then g else (List.range v).foldl (fun g i => put g (x0 + i) y0 (fld r (0x10 + 2 * i) 2)) g,
     errs ++ errIf (fld r 1 1 ≠ 0 || x1 ≠ 0 || y1 ≠ 0) 0x28 o ++ errIf bad 0x32 o, n + 1)
  else (g, errs ++ endErrs n o r, n)

def readCorr (rd : Nat → Nat → List Byte) (hb : List Byte) (h : Header) : Tbl Nat × List Refuse :=
  let (rs, e) := splitStream rd .corr (fld hb 0x40 8) (fld hb 0x48 8)
  let (g, errs, _) := rs.foldl (corrStep h) ([], [], 0)
  (g, errs ++ e.toList)

/-! ### Binning (R88 to R92) -/

/-- Edges of a trapezoid (R90). -/
def trapEdges (t : Trap) : Nat := 2 + (if t.xl0 < t.xr0 then 1 else 0) + (if t.xl1 < t.xr1 then 1 else 0)

/-- Tile columns of a trapezoid with area (R68, R91): first and last. -/
def trapTiles (t : Trap) : Option (Nat × Nat) :=
  if t.xl0 = t.xr0 ∧ t.xl1 = t.xr1 then none
  else some ((min t.xl0 t.xl1 / 4096).toNat, ((max t.xr0 t.xr1 - 1) / 4096).toNat)

/-- The edge count of pass p of a bin's entries. -/
def passEdges (es : List BinEntry) (p : Nat) : Nat :=
  ((es.filter (fun e => e.mask == 0 || e.mask.testBit p)).map (fun e => trapEdges e.trap)).sum

/-- The bin of tile column tx from the entries of its band. -/
def makeBin (h : Header) (a : BandAcc) (tx : Nat) : Bin :=
  let es := a.entries.filter (fun e => match trapTiles e.trap with
    | some (lo, hi) => decide (lo ≤ tx ∧ tx ≤ hi)
    | none => false)
  let dose := tfind a.doses tx
  let steps := match dose with
    | some pl => match rleExpand pl with
      | some (_, n) => n
      | none => 0
    | none => 0
  let pe := (List.range h.passes).map (passEdges es)
  { entries := es, dose := dose, rleSteps := steps,
    blocks := if es.isEmpty ∧ dose.isNone then 0 else max 1 (Config.binBlocks es.length (dose.getD []).length),
    edgeMax := pe.foldl max 0, edgeSum := pe.sum }

/-- Directory bytes, grid bytes and the start of the bins within the bin area (R88). -/
def gridStart (h : Header) : Nat := ceilDiv (16 * h.cols * h.tileRows) 64 * 64
def binStart (h : Header) : Nat := ceilDiv (gridStart h + 2 * (h.cols + 1) * (h.tileRows + 1)) 64 * 64

/-- Bands in the order in which their bins are placed (R93). -/
def rankInsert (id k : Nat) : List Nat → List Nat
  | [] => [k]
  | j :: t => if Config.bandRank id k < Config.bandRank id j then k :: j :: t else j :: rankInsert id k t
def bandOrder (id n : Nat) : List Nat := (List.range n).foldl (fun l k => rankInsert id k l) []

/-- The bins in the order in which they are placed. -/
def placeOrder (h : Header) (id : Nat) (bins : Tbl Bin) : List (Nat × Bin) :=
  (bandOrder id h.tileRows).flatMap (fun k => (List.range h.cols).filterMap (fun tx =>
    (tfind bins (k * h.cols + tx)).map (fun b => (k * h.cols + tx, b))))

/-- The first tile whose bin does not fit, bins placed upwards from offset `u` of the area (R92). -/
def firstFull (binLen : Nat) : Nat → List (Nat × Bin) → Option Nat
  | _, [] => none
  | u, (i, b) :: t => if u + 64 * b.blocks > binLen then some i else firstFull binLen (u + 64 * b.blocks) t

/-- Overflow and space checks of R92; the bin area fills in the order of placement. -/
def binErrs (h : Header) (id : Nat) (bins : Tbl Bin) (binLen : Nat) : List Refuse :=
  let tooBig := bins.filterMap (fun (i, b) => if b.blocks > 16384 ∨ b.edgeMax > 16777215 then some (⟨0x33, i, i⟩ : Refuse) else none)
  let nt := h.cols * h.tileRows
  let full : List Refuse :=
    if gridStart h + 2 * (h.cols + 1) * (h.tileRows + 1) > binLen then [⟨0x34, nt, nt⟩]
    else match firstFull binLen (binStart h) (placeOrder h id bins) with
      | some i => [⟨0x34, i, i⟩]
      | none => []
  tooBig ++ full

/-- Give every bin its address; the address of an empty bin is 0 (DESIGN CHOICE, log 101). -/
def placeBins (h : Header) (id base : Nat) (bins : Tbl Bin) : Tbl Bin :=
  ((placeOrder h id bins).foldl (fun (acc : Nat × Tbl Bin) (ib : Nat × Bin) =>
    (acc.1 + 64 * ib.2.blocks, tput acc.2 ib.1 { ib.2 with addr := acc.1 })) (base + binStart h, bins)).2

/-- A directory entry (Table 2-14). -/
def dirEntry (b : Bin) : List Byte :=
  le 8 (b.rleSteps * 2 ^ 50 + b.blocks * 2 ^ 35 + b.addr / 64) ++ le 4 (flag b.dose.isSome 24 + b.edgeMax) ++ le 4 b.edgeSum

/-- What step 3 of R192 makes of a sheaf. -/
structure SheafOut where
  hdr : Header
  bins : Tbl Bin
  grid : Tbl Nat
  hasDose : Bool
  /-- Trapezoids that the records yield. -/
  traps : Nat
  deriving DecidableEq, Repr

/-- Records in the streams of a sheaf. -/
def recordCount (rd : Nat → Nat → List Byte) : Nat :=
  let hb := rd 0 256
  let n (k : StreamKind) (o l : Nat) : Nat := (splitStream rd k o l).1.length
  (if fld hb 0x14 4 = 0 then 0 else n .cells (fld hb 0x28 8) (fld hb 0x30 8)) + n .corr (fld hb 0x40 8) (fld hb 0x48 8) +
  ((List.range (fld hb 0xC 4)).map (fun k => let e := rd (fld hb 0x38 8 + 16 * k) 16; n .band (fld e 0 8) (fld e 8 4))).sum

/-- Step 3 of R192: the sheaf checks, expansion and binning. `nIng`: ingest units in service; INGEST_UNITS for a dose tile on one unit stands
behind every other refusal of the sheaf (DESIGN CHOICE, log 101). -/
def readSheaf (rd : Nat → Nat → List Byte) (room id base binLen nIng : Nat) : Refuse ⊕ SheafOut :=
  let hb := rd 0 256
  match hdrBasic hb with
  | some e => .inl e
  | none => match hdrGeometry hb with
    | some e => .inl e
    | none => match hdrBounds hb room with
      | some e => .inl e
      | none => match dirBounds rd hb with
        | some e => .inl e
        | none =>
          let h := hdrOf hb
          let len := fld hb 0x20 8
          if h.bodyCheck ∧ crc32c (rd 256 (len - 256)) ≠ fld hb 0x50 4 then .inl ⟨0x23, 0x50, 0⟩
          else
            let (cells, e1) := readCells rd hb
            let bands := (List.range h.tileRows).map (readBand rd hb h cells)
            let (grid, e2) := readCorr rd hb h
            match firstOf (e1 ++ e2 ++ bands.flatMap BandAcc.errs) with
            | some e => .inl (if e.reason = 0x2A ∨ e.reason = 0x30 then e else { e with aux := 0 })
            | none =>
              let bins := ((List.range h.tileRows).zip bands).flatMap (fun (k, a) =>
                (List.range h.cols).filterMap (fun tx =>
                  let b := makeBin h a tx
                  if b.blocks = 0 then none else some (k * h.cols + tx, b)))
              let dose := bands.any (fun a => !a.doses.isEmpty)
              match firstOf (binErrs h id bins binLen) with
              | some e => .inl e
              | none =>
                if dose ∧ nIng < 2 then .inl ⟨0x35, 0, 0⟩
                else .inr ⟨h, placeBins h id base bins, grid, dose, (bands.map (fun a => a.entries.length)).sum⟩

end Sys2Proof.Machine
end

