-- ==== Sys2Proof/Machine/Plan.lean ====
section
/-! DEFINITION. The cost walk, window tests and velocity plan of admission (R94 to R111, R167 to R184), the profile
at an instant and the stop of R185. -/

namespace Sys2Proof.Machine

/-! ### Bandwidth and rates (R167, R172) -/

/-- tRFC of a density code (Table 5-2). -/
def trfc (density : Nat) : Nat := if density = 1 then 195 else if density = 2 then 295 else 410

/-- BW_g in MB/s: the product of R167 over the common denominator 10·1950·1000·2^k. -/
def bwG (nch density k : Nat) : Nat :=
  nch * 51200 * 8 * (1950 - trfc density) * (1000 * 2 ^ k - 15 * 64) / (10 * 1950 * 1000 * 2 ^ k)

def PlanIn.bw (p : PlanIn) : Nat := bwG p.nch p.density p.nbrK
def PlanIn.J (p : PlanIn) : Nat := 256 * p.jmax

/-! ### Crib residency and placement (R94, R107 to R110) -/

def tileX (h : Header) (i : Nat) : Nat := i % h.cols
def tileY (h : Header) (i : Nat) : Nat := i / h.cols
/-- First and last group of tile-pass (i, p). -/
def spanOf (h : Header) (i p : Nat) : Nat × Nat := (nFirst h (tileX h i) (tileY h i) p / 8, nLast h (tileX h i) (tileY h i) p / 8)
def firstUse (h : Header) (i : Nat) : Nat := (spanOf h i 0).1
def lastUse (h : Header) (i : Nat) : Nat := (spanOf h i (h.passes - 1)).2

/-- Insertion by a key, stable. -/
def keyInsert {α : Type} (key : α → Nat × Nat) (a : α) : List α → List α
  | [] => [a]
  | b :: t => if (key a).1 < (key b).1 ∨ ((key a).1 = (key b).1 ∧ (key a).2 < (key b).2) then a :: b :: t else b :: keyInsert key a t
def keySort {α : Type} (key : α → Nat × Nat) (l : List α) : List α := l.foldl (fun acc a => keyInsert key a acc) []

def cribBlocks : Nat := 1048576

/-- The resident bins (R94). -/
def markResident (h : Header) (bins : Tbl Bin) : List Nat :=
  (keySort (fun ib => (firstUse h ib.1, ib.1)) bins).foldl (fun (res : List Nat) (i, b) =>
    let used := ((res.filter (fun j => decide (lastUse h j + 2 ≥ firstUse h i))).map (fun j => (tget bins j {}).blocks)).sum
    if used + b.blocks ≤ cribBlocks then res ++ [i] else res) []

/-- Crib blocks counted at group g (R109, R110). -/
def cribAt (h : Header) (bins : Tbl Bin) (res : List Nat) (placed : List (Nat × Nat)) (g : Nat) : Nat :=
  ((res.filter (fun i => decide (firstUse h i ≤ g ∧ g ≤ lastUse h i + 2))).map (fun i => (tget bins i {}).blocks)).sum +
  ((placed.filter (fun (i, p) => decide ((spanOf h i p).1 ≤ g ∧ g ≤ (spanOf h i p).2 + 2))).map (fun (i, _) => (tget bins i {}).blocks)).sum

/-- The placed transient copies (R110). -/
def placeCopies (h : Header) (bins : Tbl Bin) (res : List Nat) : List (Nat × Nat) :=
  let trans := (bins.filter (fun (i, _) => i ∉ res)).flatMap (fun (i, _) => (List.range h.passes).map (fun p => (i, p)))
  (keySort (fun ip => ((spanOf h ip.1 ip.2).1, ip.1 * 8 + ip.2)) trans).foldl (fun pl (i, p) =>
    let (a, b) := spanOf h i p
    if (List.range (b + 3 - a)).all (fun d => decide (cribAt h bins res pl (a + d) + (tget bins i {}).blocks ≤ cribBlocks))
    then pl ++ [(i, p)] else pl) []

/-- Some dealt run of group j needs tile-pass (i, p) (R103, R110). -/
def groupNeeds (h : Header) (i p j : Nat) : Bool :=
  (List.range 64).any (fun u =>
    let r := p * h.S + (64 * tileX h i + u) % h.S
    let y : Int := (8 * j : Nat) - (r * h.pitch : Nat)
    decide (y + 7 ≥ (64 * tileY h i : Nat) ∧ y < (64 * tileY h i + 64 : Nat)))

/-- The group-fed reads of group j (R110, R111). -/
def groupFed (h : Header) (bins : Tbl Bin) (res : List Nat) (placed : List (Nat × Nat)) (j : Nat) : List (Nat × Nat) :=
  (bins.filter (fun (i, _) => i ∉ res)).flatMap (fun (i, _) =>
    ((List.range h.passes).filter (fun p => (i, p) ∉ placed && groupNeeds h i p j)).map (fun p => (i, p)))

/-! ### Cost of a group (R170, R172) -/

/-- Λ_j and ℓ_max of group j. -/
def groupLoad (h : Header) (bins : Tbl Bin) (j : Nat) : Nat × Nat :=
  (List.range numBeams).foldl (fun (acc : Nat × Nat) b =>
    if runDealt h b j then let l := runCycles (runWeight h bins b j); (acc.1 + l, max acc.2 l) else acc) (0, 0)

/-- Cost of the group-fed reads of Y bytes (R170). -/
def missCost (p : PlanIn) (y : Nat) : Nat := if y = 0 then 0 else 250 + ceilDiv (5 * trfc p.density) 4 + ceilDiv (1250 * y) p.bw

/-- B_j (R170). -/
def buildCost (p : PlanIn) (load lmax y : Nat) : Nat := 52 + ceilDiv load (2 * (p.nThr - 1)) + lmax + missCost p y

/-- f_j in kHz (R172). -/
def groupRate (p : PlanIn) (b : Nat) : Nat := min p.fmax (9000000 / b)

/-! ### Transitions and the plateau plan (R179, R180) -/

def absDiff (a b : Nat) : Nat := if a > b then a - b else b - a

/-- Duration of a transition in µs (R180). -/
def transTime (v0 v1 A J : Nat) : Nat :=
  let dv := absDiff v0 v1
  if dv = 0 then 0
  else if dv * J ≥ A * A then ceilDiv (dv * 1000000) A + ceilDiv (A * 1000000) J
  else 2 * isqrtCeil (ceilDiv (dv * 1000000000000) J)

/-- Distance of a transition in slots (R180). -/
def transSlots (v0 v1 A J : Nat) : Nat := ((v0 + v1) * transTime v0 v1 A J + 1999999) / 2000000

/-- Plateaus of a rate list: (first segment, last segment, rate). -/
def plateaus : List Nat → Nat → List (Nat × Nat × Nat)
  | [], _ => []
  | w :: t, k => match plateaus t (k + 1) with
    | (a, b, v) :: r => if v = w ∧ a = k + 1 then (k, b, v) :: r else (k, k, w) :: (a, b, v) :: r
    | [] => [(k, k, w)]

/-- The first plateau that cannot hold its transitions, with its new rate (R180). -/
def failing (A J slots0 N : Nat) : Option Nat → List (Nat × Nat × Nat) → Option (Nat × Nat × Nat)
  | _, [] => none
  | prev, (a, b, w) :: t =>
    let next := match t with
      | (_, _, v) :: _ => some v
      | [] => none
    let lower (o : Option Nat) : Option Nat := match o with
      | some v => if v < w then some v else none
      | none => none
    let din := match lower prev with
      | some v => transSlots (1000 * v) (1000 * w) A J
      | none => 0
    let dout := match lower next with
      | some v => transSlots (1000 * w) (1000 * v) A J
      | none => 0
    let len := min (1024 * (slots0 + b + 1)) N - 1024 * (slots0 + a)
    if din + dout > len then some (a, b, max ((lower prev).getD 0) ((lower next).getD 0))
    else failing A J slots0 N (some w) t

/-- The plateau plan (R180); the fuel bounds the merges by the number of segments. -/
def planPlateaus (A J slots0 N : Nat) : Nat → List Nat → List Nat
  | 0, w => w
  | fuel + 1, w => match failing A J slots0 N none (plateaus w 0) with
    | none => w
    | some (a, b, nv) =>
      planPlateaus A J slots0 N fuel ((w.zipIdx).map (fun (v, k) => if a ≤ k ∧ k ≤ b then nv else v))

/-! ### Window tests (R173, R174, R178) -/

/-- What step 1 of R178 knows of each group: rate, group-fed bytes, cost set by a group-fed read. -/
structure GroupCost where
  rate : Nat
  fed : Nat
  deriving DecidableEq, Repr

/-- Expansion jobs: tile, pass and steps by first group (R173). -/
def jobLoad (h : Header) (bins : Tbl Bin) (j : Nat) : Nat :=
  (bins.map (fun (i, b) => if b.dose.isSome then
    (((List.range h.passes).filter (fun p => (spanOf h i p).1 == j)).map (fun _ => b.rleSteps)).sum else 0)).sum

/-- Fill bytes by first group (R173). -/
def fillLoad (h : Header) (bins : Tbl Bin) (res : List Nat) (placed : List (Nat × Nat)) (j : Nat) : Nat :=
  ((res.filter (fun i => firstUse h i == j)).map (fun i => 64 * (tget bins i {}).blocks)).sum +
  ((placed.filter (fun (i, p) => (spanOf h i p).1 == j)).map (fun (i, _) => 64 * (tget bins i {}).blocks)).sum

def windowSum (f : Nat → Nat) (a n : Nat) : Nat := ((List.range n).map (fun d => f (a + d))).sum

/-- Window test at j: 0 when both hold, 3 when the ingest test fails, 4 when the loft test fails (R174). -/
def windowFails (p : PlanIn) (jobs fills fed : Nat → Nat) (rate : Nat → Nat) (j : Nat) : Nat :=
  if windowSum jobs j 16 > (p.nIng - 1) * windowSum (fun i => 9000000 / rate i) (j - 16) 16 then 3
  else if windowSum fills j 16 + windowSum fed (j - 16) 16 > windowSum (fun i => 7200 * p.bw / rate i) (j - 16) 16 then 4
  else 0

/-- The segment to lower: that of the highest rate among groups j − 16 to j − 1, the lower index on a tie. -/
def lowerAt (rates : List Nat) (j : Nat) : Nat :=
  ((List.range 16).foldl (fun (best : Nat × Nat) d =>
    let k := (j - 16 + d) / 128
    let r := rates.getD k 0
    if r > best.2 then (k, r) else best) ((j - 16) / 128, 0)).1

/-- Step 2 of R178 over the groups from `j` on; rates and limiters by segment. -/
def lowerWindows (p : PlanIn) (jobs fills fed : Nat → Nat) : Nat → Nat → Nat → List Nat × List Nat → List Nat × List Nat
  | 0, _, _, st => st
  | fuel + 1, j, jEnd, (r, l) =>
    if j ≥ jEnd then (r, l)
    else
      let f := windowFails p jobs fills fed (fun i => r.getD (i / 128) 1) j
      if f = 0 then lowerWindows p jobs fills fed fuel (j + 1) jEnd (r, l)
      else
        let k := lowerAt r j
        if r.getD k 0 ≤ p.fmin then (r.set k (r.getD k 0 - 1), l.set k f)
        else lowerWindows p jobs fills fed fuel j jEnd (r.set k (r.getD k 0 - 1), l.set k f)

/-- Group-fed reads of the stripe (R111). -/
def fedReads (h : Header) (bins : Tbl Bin) (res : List Nat) (placed : List (Nat × Nat)) : Nat :=
  ((List.range (ceilDiv h.N 8)).map (fun j => (groupFed h bins res placed j).length)).sum

/-- The plan of steps 4 and 5 of R192, or the refusal. -/
def makePlan (p : PlanIn) (h : Header) (bins : Tbl Bin) (res : List Nat) (placed : List (Nat × Nat)) (regs : List Nat) :
    Refuse ⊕ Plan :=
  let nG := ceilDiv h.N 8
  let fedOf (j : Nat) : Nat := ((groupFed h bins res placed j).map (fun (i, _) => 64 * (tget bins i {}).blocks)).sum
  let costs : List GroupCost := (List.range nG).map (fun j =>
    let (ld, lm) := groupLoad h bins j
    let y := fedOf j
    ⟨groupRate p (buildCost p ld lm y), y⟩)
  let segs : List (Nat × Nat × Nat) := (List.range h.K).map (fun k =>
    let gs := (costs.drop (128 * k)).take 128
    let (w, f, y, _) := gs.foldl (fun (acc : Nat × Nat × Nat × Nat) c =>
      let (w, f, y, i) := acc
      if c.rate < f then (i, c.rate, c.fed, i + 1) else (w, f, y, i + 1)) (0, p.fmax + 1, 0, 0)
    (f, w, if f = p.fmax then 0 else if y > 0 then 2 else 1))
  let r0 := segs.map (fun s => s.1)
  let (r1, l1) := lowerWindows p (jobLoad h bins) (fillLoad h bins res placed) (fun j => (costs.getD j ⟨1, 0⟩).fed)
    (nG + h.K * 6001) 16 nG (r0, segs.map (fun s => s.2.2))
  match (r1.zipIdx).find? (fun (r, _) => decide (r < p.fmin)) with
  | some (_, k) => .inl ⟨0x12, k, 0⟩
  | none =>
    let w := planPlateaus p.amax p.J 0 h.N (h.K + 1) r1
    let seg (k : Nat) : Seg :=
      { fGrp := r0.getD k 0, fAdm := w.getD k 0, limiter := if w.getD k 0 < r1.getD k 0 then 5 else l1.getD k 0,
        worst := (segs.getD k (0, 0, 0)).2.1 }
    .inr { segs := (List.range h.K).map seg, bwg := p.bw, thr := p.nThr - 1, ing := p.nIng - 1, nch := p.nch, nbrK := p.nbrK,
           runup := transSlots 0 (1000 * w.headD 0) p.amax p.J, runout := transSlots (1000 * w.getLastD 0) 0 p.amax p.J,
           gfReads := fedReads h bins res placed, regs := regs }

/-! ### The profile (R179, R181 to R183) -/

/-- A piece of the profile: a cruise at v over a distance, or a transition. -/
inductive Piece where
  | cruise (v : Nat) (len : Rat)
  | trans (v0 v1 t r : Nat)
  deriving DecidableEq, Repr

def Piece.duration : Piece → Rat
  | .cruise v len => if v = 0 then 0 else len * 1000000 / (v : Rat)
  | .trans _ _ t _ => (t : Rat)

def Piece.length : Piece → Rat
  | .cruise _ len => len
  | .trans v0 v1 t _ => ((v0 + v1) * t : Nat) / 2000000

/-- A transition with its ramp time (R179): A/J in whole µs, or half the duration. -/
def transPiece (v0 v1 A J : Nat) : Piece :=
  let t := transTime v0 v1 A J
  .trans v0 v1 t (if absDiff v0 v1 * J ≥ A * A then ceilDiv (A * 1000000) J else t / 2)

/-- A transition and the part row at the higher velocity, on the higher side (R179). -/
def transPieces (v0 v1 A J : Nat) : List Piece :=
  if v0 = v1 then [] else
  let tp := transPiece v0 v1 A J
  let rest : Rat := (transSlots v0 v1 A J : Nat) - tp.length
  if v0 < v1 then [tp, .cruise v1 rest] else [.cruise v0 rest, tp]

/-- The pieces of plateaus, each with its entry and exit transitions. -/
def plateauPieces (A J slots0 N : Nat) : Nat → List (Nat × Nat × Nat) → List Piece
  | _, [] => []
  | prev, (a, b, w) :: t =>
    let next := match t with
      | (_, _, v) :: _ => v
      | [] => w
    let entry := if prev < w then transPieces (1000 * prev) (1000 * w) A J else []
    let leave := if next < w then transPieces (1000 * w) (1000 * next) A J else []
    let din := if prev < w then transSlots (1000 * prev) (1000 * w) A J else 0
    let dout := if next < w then transSlots (1000 * w) (1000 * next) A J else 0
    let len := min (1024 * (slots0 + b + 1)) N - 1024 * (slots0 + a)
    entry ++ [.cruise (1000 * w) ((len - din - dout : Nat) : Rat)] ++ leave ++ plateauPieces A J slots0 N w t

/-- The whole profile: run-up, plateaus, run-out (R181). -/
def profilePieces (A J slots0 N : Nat) (w : List Nat) : List Piece :=
  transPieces 0 (1000 * w.headD 0) A J ++ plateauPieces A J slots0 N (w.headD 0) (plateaus w 0) ++
  transPieces (1000 * w.getLastD 0) 0 A J

/-- Position (slots), velocity (slots/s) and acceleration (slots/s²) at `τ` µs into a piece. -/
def Piece.at (p : Piece) (τ : Rat) : Rat × Rat × Rat := match p with
  | .cruise v _ => ((v : Rat) * τ / 1000000, v, 0)
  | .trans v0 v1 t r =>
    let T : Rat := t
    let R : Rat := r
    let dv : Rat := (v1 : Rat) - (v0 : Rat)
    let a : Rat := if T = R then 0 else dv / (T - R)
    if τ ≤ R then
      (((v0 : Rat) * τ + (if R = 0 then 0 else a * τ * τ * τ / (6 * R))) / 1000000, v0 + (if R = 0 then 0 else a * τ * τ / (2 * R)),
       if R = 0 then 0 else a * τ / R * 1000000)
    else if τ ≤ T - R then
      (((v0 : Rat) * τ + a * (τ * τ / 2 - R * τ / 2 + R * R / 6)) / 1000000, v0 + a * (τ - R / 2), a * 1000000)
    else
      let u := T - τ
      (p.length - ((v1 : Rat) * u - a * u * u * u / (6 * R)) / 1000000, v1 - a * u * u / (2 * R), a * u / R * 1000000)

/-- The profile at `τ` µs from its origin: position from `x`, velocity, acceleration, still moving. -/
def profileAt : List Piece → Rat → Rat → Rat × Rat × Rat × Bool
  | [], x, _ => (x, 0, 0, false)
  | p :: t, x, τ =>
    if τ < p.duration then let (dx, v, a) := p.at τ; (x + dx, v, a, true)
    else profileAt t (x + p.length) (τ - p.duration)

/-! ### The stop of R185 -/

/-- The jerk-limited stop from velocity v, acceleration a: peak deceleration, ramp to it, hold, ramp back (seconds). -/
structure StopPlan where
  peak : Rat
  t1 : Rat
  hold : Rat
  t3 : Rat
  deriving DecidableEq, Repr

/-- Square root of a non-negative rational to 2⁻¹⁶ (the peak need not be rational; DESIGN CHOICE, log 16). -/
def ratSqrt (x : Rat) : Rat := (isqrt ((x * 4294967296).floor.toNat) : Nat) / 65536

def stopPlan (v a A J : Rat) : StopPlan :=
  if J = 0 ∨ A = 0 then ⟨0, 0, 0, 0⟩ else
  let e := v + a * a / (2 * J)
  let peak := if e * J ≥ A * A then A else ratSqrt (max 0 (e * J))
  let hold := if peak = A then (e - A * A / J) / A else 0
  ⟨peak, max 0 ((a + peak) / J), hold, peak / J⟩

/-- State of the stop `τ` seconds after it began: position gained, velocity, acceleration, still moving. -/
def stopAt (v a J : Rat) (sp : StopPlan) (τ : Rat) : Rat × Rat × Rat × Bool :=
  let ph (v a j τ : Rat) : Rat × Rat × Rat := (v * τ + a * τ * τ / 2 + j * τ * τ * τ / 6, v + a * τ + j * τ * τ / 2, a + j * τ)
  if τ ≤ sp.t1 then let (x, v', a') := ph v a (-J) τ; (x, v', a', true)
  else
    let (x1, v1, _) := ph v a (-J) sp.t1
    if τ ≤ sp.t1 + sp.hold then let (x, v', a') := ph v1 (-sp.peak) 0 (τ - sp.t1); (x1 + x, v', a', true)
    else
      let (x2, v2, _) := ph v1 (-sp.peak) 0 sp.hold
      let τ3 := τ - sp.t1 - sp.hold
      if τ3 < sp.t3 then let (x, v', a') := ph v2 (-sp.peak) J τ3; (x1 + x2 + x, v', a', true)
      else let (x, _, _) := ph v2 (-sp.peak) J sp.t3; (x1 + x2 + x, 0, 0, false)

/-- Distance of the whole stop. -/
def stopDistance (v a A J : Rat) : Rat := let sp := stopPlan v a A J; (stopAt v a J sp (sp.t1 + sp.hold + sp.t3 + 1)).1

end Sys2Proof.Machine
end

