-- ==== Sys2Proof/Machine/Loft.lean ====
section
/-! DEFINITION. The loft as memory (R314 to R353): address map, block code classes, reads and writes with partial
merges, the region-valid map and fill engines, the repeat table, the weevil, and the channel scheduler. A write takes
effect on the DRAM when it is issued, a read takes its block when it is issued, and the scheduler keeps the order of R322
(DEDUCED, log 17). A write that cannot enter a write queue waits in Lft.waits (DESIGN CHOICE, log 98). -/

namespace Sys2Proof.Machine

/-! ### Population and address map (R314 to R319) -/

/-- The configuration the channels in service carry: that of the lowest one (R314, R318). -/
def refCh (s : State) : LftCh := match inService s with
  | c :: _ => lftGet s c
  | [] => {}

/-- Capacity of one channel in MiB (Table 9-1). -/
def chCap (x : LftCh) : Nat := 16384 * x.density * x.ranks * x.dimms
/-- LFT_CAP in MiB (R319, R355). -/
def loftCap (s : State) : Nat := if s.lft.trained then numCh s * chCap (refCh s) else 0
def loftBytes (s : State) : Nat := loftCap s * 2 ^ 20

/-- DRAM coordinates of a block (R316). -/
structure Coord where
  ch : Nat
  cs : Nat
  sc : Nat
  bg : Nat
  ba : Nat
  row : Nat
  col : Nat
  deriving DecidableEq, Repr

/-- The map of R316: `svc` channels in service in increasing index. -/
def loftDecode (a : Nat) (svc : List Nat) (bankBits csBits : Nat) : Coord :=
  let beta := a / 64
  let c := beta / 4
  let n := max 1 svc.length
  let g := c / n * 4 + beta % 4
  let low := 7 + bankBits
  let q := g / 2 ^ (low + 4)
  let row := q / 2 ^ csBits
  { ch := svc.getD (c % n) 0, sc := g % 2, cs := q % 2 ^ csBits, ba := g / 128 % 2 ^ bankBits, row := row,
    bg := (g / 16 % 8) ^^^ (row % 8), col := g / 2 ^ low % 16 * 8 + g / 2 % 8 }

def log2Ranks (n : Nat) : Nat := if n ≥ 4 then 2 else if n ≥ 2 then 1 else 0

/-- Coordinates of a loft address in the present population. -/
def coordOf (s : State) (a : Nat) : Coord :=
  let r := refCh s
  loftDecode a (inService s) (if r.density = 1 then 1 else 2) (log2Ranks (r.ranks * r.dimms))

/-- The covered address of a block (R317). -/
def covered (d : Coord) : Nat :=
  d.cs * 2 ^ 32 + d.sc * 2 ^ 31 + d.bg * 2 ^ 28 + d.ba * 2 ^ 26 + d.row * 2 ^ 7 + d.col

def bankKey (d : Coord) : Nat := ((d.cs * 2 + d.sc) * 8 + d.bg) * 4 + d.ba

/-! ### Block classes (R334) -/

/-- Devices that an error touches: bytes 8d to 8d + 7 of data for d below 8, check bytes for 8 and 9. -/
def Mark.devices (m : Mark) : List Nat :=
  (List.range 10).filter (fun d => if d < 8 then bits m.data (64 * d + 63) (64 * d) != 0
                                   else bits m.check (64 * (d - 8) + 63) (64 * (d - 8)) != 0)

/-- Class of a block: 0 clean, 1 CE, 2 UE_MULTI, 3 UE_ADDR, 4 POISON. What R334 leaves to the code is a free function of the
pattern. -/
def Mark.cls (m : Mark) : Nat :=
  let n := m.devices.length
  let pick := Config.errorClass m.data m.check m.addr m.poison
  if m.poison then (if n = 0 ∧ m.addr = 0 then 4 else if n ≤ 1 ∧ m.addr = 0 then (if pick % 2 = 0 then 4 else 2) else 2 + pick % 3)
  else if m.addr ≠ 0 then (if n = 0 then 3 else 2 + pick % 2)
  else if n = 0 then 0 else if n = 1 then 1 else if n = 2 then 2 else pick % 5

/-- XOR of a 64-byte block with a 512-bit mask. -/
def xorBytes (bs : List Byte) (m : Nat) : List Byte := bs.zipIdx.map (fun (b, i) => b ^^^ BitVec.ofNat 8 (m / 2 ^ (8 * i)))

/-- The device that a CE names, and the data it delivers: the pattern of one device taken away, or what the code takes away from a
wider pattern that it mistakes for one (R334). -/
def Mark.fix (m : Mark) (raw : List Byte) : Nat × List Byte :=
  match m.devices with
  | [d] => (d, xorBytes raw m.data)
  | _ =>
    let d := (Config.errorDevice m.data m.check m.addr m.poison).val
    (d, if d < 8 then xorBytes raw ((Config.errorFix m.data m.check m.addr m.poison).toNat * 2 ^ (64 * d)) else raw)

/-! ### Regions (R341 to R344) -/

def regionOf (a : Nat) : Nat := a / 2 ^ 20

/-- The fill engine that works on a region. -/
def fillOf (s : State) (r : Nat) : Option (Nat × FillEng) := s.lft.fills.find? (fun p => p.2.region == r)

def natInsert (k : Nat) : List Nat → List Nat
  | [] => [k]
  | j :: t => if k < j then k :: j :: t else if k = j then j :: t else j :: natInsert k t

/-- The engine has passed block `n` of its region: its zero write has been issued, or it was covered. -/
def FillEng.passed (f : FillEng) (n : Nat) : Bool := decide (f.next + (if f.busy then 1 else 0) ≤ n)

/-- The block reads from DRAM: its region is valid, or being filled with the block in the mask or passed (R341, R343). -/
def blockLive (s : State) (blk : Nat) : Bool :=
  s.lft.valid.contains (blk / 16384) ||
  match fillOf s (blk / 16384) with
  | some (_, f) => f.mask.contains blk || f.passed (blk % 16384)
  | none => false

/-! ### The weevil (R352, R353) -/

def wCtrl (s : State) : Nat := regGet s 0x13C080
def wAddr (s : State) : Nat := (regGet s 0x13C084 + 2 ^ 32 * regGet s 0x13C088) / 64 * 64
def wData (s : State) : Nat := ((List.range 16).map (fun i => regGet s (0x13C0C0 + 4 * i) * 2 ^ (32 * i))).sum
def wCheck (s : State) : Nat := ((List.range 4).map (fun i => regGet s (0x13C100 + 4 * i) * 2 ^ (32 * i))).sum

/-- The armed weevil selects a write to this block. -/
def weevilHits (s : State) (blk : Nat) : Bool :=
  s.lft.wArmed && (if bitAt (wCtrl s) 0 then (coordOf s (64 * blk)).ch == bits (wCtrl s) 7 4 else wAddr s == 64 * blk)

/-! ### Writes: the DRAM (R340, R345, R349, R352) -/

def rptFind (s : State) (a : Nat) : Option (Nat × Rpt) := s.lft.rpt.find? (fun p => p.2.addr == a)
def rptPut (s : State) (i : Nat) (r : Rpt) : State := { s with lft := { s.lft with rpt := tput s.lft.rpt i r } }

/-- An issued write reaches the DRAM with fresh check bytes, or with the poison syndrome; the weevil may strike (R340, R352). -/
def putBlock (w : LftReq) (s : State) : State :=
  let blk := w.addr / 64
  let hit := weevilHits s blk
  let m : Mark := if hit then { data := wData s, check := wCheck s, addr := regGet s 0x13C094, poison := w.poison } else { poison := w.poison }
  let out := if hit then xorBytes w.data (wData s) else w.data
  let s1 := { s with lft := { s.lft with
      mem := memWrite s.lft.mem (64 * blk) out, marks := tset s.lft.marks blk m {},
      rawWritten := if s.lft.raw.contains (blk / 16384) then natInsert blk s.lft.rawWritten else s.lft.rawWritten } }
  let s2 := match rptFind s1 (64 * blk) with
    | some (i, r) => rptPut s1 i { r with rewritten := true }
    | none => s1
  if hit then
    raiseItems 0x130D 0 [(8, 64 * blk), (1, w.client)]
      { s2 with lft := { s2.lft with wArmed := false, wFired := true, wLast := 64 * blk } }
  else s2

/-- Raw content and code state of a block as DRAM holds it. -/
def rawBlock (s : State) (blk : Nat) : List Byte × Mark :=
  if s.lft.raw.contains (blk / 16384) ∧ ¬ s.lft.rawWritten.contains blk then
    ((List.range 64).map (fun i => Config.rawDram (64 * blk + i)), { poison := true })
  else (memRead s.lft.mem (64 * blk) 64, tget s.lft.marks blk {})

/-! ### Requests enter the queues (R320 to R322) -/

/-- A stripe is armed or running, so that admission traffic is of class GL (R320). -/
def stripeArmed (s : State) : Bool := match s.pac.stripe with
  | some st => st.state ≠ .arming
  | none => false

/-- The rank of a request at this moment (R320). -/
def rankNow (s : State) (r : LftReq) : Nat := if r.client = 3 ∧ stripeArmed s then 5 else r.rank

/-- A read request enters its channel's queue (Table 9-3); behind a waiting write to its row its bank goes into in-order mode until
that write has been issued (R322). -/
def queueRead (r : LftReq) (s : State) : State :=
  let d := coordOf s r.addr
  let x := lftGet s d.ch
  let before := x.writes.filter (fun w => let e := coordOf s w.addr; bankKey e == bankKey d && e.row == d.row)
  lftSet s d.ch { x with
    reads := x.reads ++ [{ r with seq := x.seq }], seq := x.seq + 1,
    inOrder := match before.getLast? with
      | some w => tput x.inOrder (bankKey d) w.seq
      | none => x.inOrder }

/-- The write queue of the block's channel has a place (R321). -/
def writeRoom (s : State) (blk : Nat) : Bool := decide ((lftGet s (coordOf s (64 * blk)).ch).writes.length < 64)

/-- Fill engine of a region: the block is covered (R342). -/
def coverBlock (blk : Nat) (s : State) : State := match fillOf s (blk / 16384) with
  | some (e, f) => { s with lft := { s.lft with fills := tput s.lft.fills e { f with mask := natInsert blk f.mask } } }
  | none => s

/-- A write of a whole block enters the write queue of its channel; earlier reads of the block will not rewrite it (R321, R348). -/
def enterWrite (client blk : Nat) (data : List Byte) (poison : Bool) (s : State) : State :=
  let a := 64 * blk
  let c := (coordOf s a).ch
  let x := lftGet s c
  let old (l : List LftReq) : List LftReq := l.map (fun r => if r.addr = a then { r with stale := true } else r)
  lftSet s c { x with
    writes := x.writes ++ [{ rank := 4, client := client, addr := a, seq := x.seq, data := data, poison := poison }], seq := x.seq + 1,
    reads := old x.reads, issued := old x.issued }

/-- The highest block of a region below `n` that no write has covered. -/
def fillFree (f : FillEng) : Nat → Option Nat
  | 0 => none
  | n + 1 => if f.mask.contains (f.region * 16384 + n) then fillFree f n else some n

/-- A fill engine whose zero write has been issued goes on to the next block that the mask does not hold, from the last downwards
(R342); it waits while the write queue is full. -/
def fillStep (e : Nat) (s : State) : State := match tfind s.lft.fills e with
  | none => s
  | some f =>
    if f.busy then s
    else match fillFree f f.next with
      | none => { s with lft := { s.lft with fills := tput s.lft.fills e { f with next := 0 } } }
      | some n =>
        let blk := f.region * 16384 + n
        if writeRoom s blk then
          enterWrite 6 blk (List.replicate 64 0) false { s with lft := { s.lft with fills := tput s.lft.fills e { f with next := n, busy := true } } }
        else s

/-- The bytes of a part of a block laid over the block. -/
def mergePart (old : List Byte) (o : Nat) (bs : List Byte) : List Byte := old.take o ++ bs ++ old.drop (o + bs.length)

/-- EV_LFT_POISON_WRITE where a block is written with the poison syndrome (R339, R388). -/
def notePoison (poison : Bool) (blk : Nat) (s : State) : State := if poison then raiseItems 0x1304 4 [(8, 64 * blk)] s else s

/-- One waiting write tries to enter its write queue: what still waits of it, and the state (R321, R339, R342, R343). -/
def tryWrite (w : WaitWrite) (s : State) : Option WaitWrite × State :=
  let blk := w.addr / 64
  let r := regionOf w.addr
  let whole := decide (w.addr % 64 = 0 ∧ w.bytes.length = 64)
  let served := s.lft.valid.contains r || (fillOf s r).isSome
  match (if served then some s else match (List.range 8).find? (fun e => !thas s.lft.fills e) with
    | some e => some { s with lft := { s.lft with fills := tput s.lft.fills e { region := r, mask := [] } } }
    | none => none) with
  | none => (some w, s)
  | some s1 =>
    if w.reading then (some w, s1)
    else if whole then
      if writeRoom s1 blk then (none, notePoison w.poison blk (enterWrite (if w.part then 2 else w.client) blk w.bytes w.poison (coverBlock blk s1))) else (some w, s1)
    else if blockLive s1 blk then (some { w with reading := true }, queueRead { rank := 3, client := 2, addr := 64 * blk, who := .partial_ } s1)
    else if writeRoom s1 blk then
      (none, notePoison w.poison blk (enterWrite 2 blk (mergePart (List.replicate 64 0) (w.addr % 64) w.bytes) w.poison (coverBlock blk s1)))
    else (some w, s1)

/-- Two waiting writes go in order: they touch one region, or one mover issued both. -/
def WaitWrite.follows (v w : WaitWrite) : Bool :=
  decide (regionOf v.addr = regionOf w.addr) || (v.client == w.client && v.owner == w.owner && v.client != 7)

/-- Waiting writes enter in order, each behind the waiting writes that it follows. -/
def pushGo : List WaitWrite → List WaitWrite → State → State
  | [], kept, s => { s with lft := { s.lft with waits := kept } }
  | w :: t, kept, s =>
    if kept.any (fun v => v.follows w) then pushGo t (kept ++ [w]) s
    else match tryWrite w s with
      | (none, s1) => pushGo t kept s1
      | (some w1, s1) => pushGo t (kept ++ [w1]) s1

def pushWaits (s : State) : State := pushGo s.lft.waits [] s

/-- The fill engines and then the waiting writes go on as far as they can. -/
def loftGoOn (s : State) : State := pushWaits ((List.range 8).foldl (fun s e => fillStep e s) s)

/-- The parts of a write, block by block in increasing address. -/
def writeParts (client : Nat) (owner : Option Nat) (poison : Bool) : Nat → Nat → List Byte → List WaitWrite
  | 0, _, _ => []
  | fuel + 1, a, bs =>
    if bs.isEmpty then []
    else
      let b := bs.take (64 - a % 64)
      { client := client, owner := owner, addr := a, bytes := b, poison := poison } ::
        writeParts client owner poison fuel (a + b.length) (bs.drop (64 - a % 64))

/-- Hand a write of bytes to the loft. -/
def loftWrite (client : Nat) (owner : Option Nat) (poison : Bool) (a : Nat) (bs : List Byte) (s : State) : State :=
  loftGoOn { s with lft := { s.lft with waits := s.lft.waits ++ writeParts client owner poison (bs.length + 1) a bs } }

/-- A correction rewrite: it is dropped when a newer write to the block has entered, or waits (R348). -/
def rewriteBlock (blk : Nat) (data : List Byte) (stale : Bool) (s : State) : State :=
  if stale ∨ s.lft.waits.any (fun w => w.addr / 64 == blk) then s
  else pushWaits { s with lft := { s.lft with waits := s.lft.waits ++ [{ client := 7, addr := 64 * blk, bytes := data }] } }

/-! ### Corrected and uncorrectable blocks (R337, R348 to R350) -/

/-- The entry to take for a new address (R349): a free one, else the unlocked one with fewest REPEATS, oldest first. -/
def rptSlot (s : State) : Option Nat :=
  match (List.range 16).find? (fun i => !thas s.lft.rpt i) with
  | some i => some i
  | none => (((s.lft.rpt.filter (fun p => !p.2.locked)).foldl (fun (best : Option (Nat × Rpt)) p => match best with
      | none => some p
      | some q => if p.2.repeats < q.2.repeats ∨ (p.2.repeats = q.2.repeats ∧ p.2.age < q.2.age) then some p else some q) none).map Prod.fst)

/-- Account a CE (R337, R349, R350) on device `dev`; `first`: the reader queues a correction rewrite of an address that the table does
not hold; `part`: the reader writes the block itself (R339); `stale`: a newer write has entered (R348). -/
def noteCe (blk dev : Nat) (data : List Byte) (first part stale : Bool) (s : State) : State :=
  let d := coordOf s (64 * blk)
  let x := lftGet s d.ch
  let s1 := lftSet s d.ch { x with ce := sat32 (x.ce + 1), ceLast := dev * 65536 + d.sc * 32768 + d.cs }
  let s2 := cntLft 8 (some d.ch) 1 { s1 with lft := { s1.lft with ceCount := sat32 (s1.lft.ceCount + 1), lapCe := s1.lft.lapCe + 1 } }
  let fix (due : Bool) (s : State) : State := if due ∧ ¬ part then rewriteBlock blk data stale s else s
  match rptFind s2 (64 * blk) with
  | none => match rptSlot s2 with
    | some i =>
      let s3 := rptPut s2 i { addr := 64 * blk, device := dev, channel := d.ch, sc := d.sc, cs := d.cs, age := s2.lft.rptAge }
      fix first { s3 with lft := { s3.lft with rptAge := s2.lft.rptAge + 1 } }
    | none =>
      let s3 := { s2 with lft := { s2.lft with rptOvf := sat32 (s2.lft.rptOvf + 1), rptOvfSeen := true } }
      fix first (if s2.lft.rptOvfSeen then s3 else raiseItems 0x1306 1 [(8, 64 * blk)] s3)
  | some (i, r) =>
    if r.locked then s2
    else if r.rewritten then
      if r.repeats + 1 ≥ 3 then
        raiseItems 0x1305 4 [(8, 64 * blk), (1, d.ch), (1, d.cs), (1, d.sc), (1, dev)]
          (rptPut s2 i { r with repeats := 3, rewritten := false, locked := true })
      else fix true (rptPut s2 i { r with repeats := r.repeats + 1, rewritten := false })
    else s2

/-- Account a UE (R337). -/
def noteUe (blk cls client : Nat) (s : State) : State :=
  let c := (coordOf s (64 * blk)).ch
  let x := lftGet s c
  let s1 := lftSet s c { x with ue := sat32 (x.ue + 1) }
  raiseItems 0x1303 4 [(8, 64 * blk), (1, cls), (1, client)]
    { s1 with lft := { s1.lft with ueCount := sat32 (s1.lft.ueCount + 1), lapUe := s1.lft.lapUe + 1, errAddr := 64 * blk,
                                   errInfo := cls * 2 ^ 29 + client * 2 ^ 25 + c * 2 ^ 17 } }

/-- A clean read frees an unlocked rewritten entry (R350). -/
def noteClean (blk : Nat) (s : State) : State := match rptFind s (64 * blk) with
  | some (i, r) => if r.rewritten ∧ ¬ r.locked then { s with lft := { s.lft with rpt := tdel s.lft.rpt i } } else s
  | none => s

/-! ### Reads (R334, R337, R341, R345) -/

/-- The outcome of a block with its code state for a reader: class, the bytes delivered (corrected, or raw when uncorrectable), the
accounts (Table 9-4). -/
def decodeBlock (client blk : Nat) (raw : List Byte) (m : Mark) (stale : Bool) (s : State) : Nat × List Byte × State :=
  if m.cls = 0 then (0, raw, noteClean blk s)
  else if m.cls = 1 then
    let (dev, data) := m.fix raw
    (1, data, noteCe blk dev data (client ≠ 3) (client = 2) stale s)
  else (m.cls, raw, noteUe blk m.cls client s)

/-- The pattern stays in the DRAM until the block is written again; an address fault does not. (DEDUCED, log 59.) -/
def strikeBlock (blk : Nat) (e : DramErr) (s : State) : State :=
  if e.data = 0 ∧ e.check = 0 then s
  else
    let (raw, m) := rawBlock s blk
    { s with lft := { s.lft with
        mem := memWrite s.lft.mem (64 * blk) (xorBytes raw e.data.toNat),
        marks := tset s.lft.marks blk { m with data := m.data ^^^ e.data.toNat, check := m.check ^^^ e.check.toNat } {} } }

/-- What a read returns with an error pattern on top of what the DRAM held. -/
def struck (raw : List Byte) (m : Mark) (e : DramErr) : List Byte × Mark :=
  (xorBytes raw e.data.toNat, { m with data := m.data ^^^ e.data.toNat, check := m.check ^^^ e.check.toNat,
                                       addr := if e.addr then (if m.addr = 0 then 1 else m.addr) else m.addr })

/-- The newest write of a block that waits in its write queue or for it. -/
def pendingBlock (s : State) (blk : Nat) : Option (List Byte × Bool) :=
  (((lftGet s (coordOf s (64 * blk)).ch).writes.filter (fun w => w.addr == 64 * blk)).getLast?).map (fun w => (w.data, w.poison))

/-- The class and bytes of a block at this moment, behind every write that has entered, without a request: the header read inside
the step STRIPE_ADMIT (DEDUCED, log 99). -/
def peekBlock (s : State) (blk : Nat) : List Byte × Mark :=
  if ¬ blockLive s blk then (List.replicate 64 0, {})
  else match pendingBlock s blk with
    | some (data, poison) => (data, { poison := poison })
    | none => rawBlock s blk

/-- Read `n` blocks inside one step: the worst class, the bytes, the state. -/
def readBlocks (client : Nat) : Nat → Nat → State → Nat × List Byte × State
  | 0, _, s => (0, [], s)
  | n + 1, blk, s =>
    let c := (coordOf s (64 * blk)).ch
    let (raw, m) := peekBlock s blk
    let (k, bs, s1) := decodeBlock client blk raw m true (cntLft 3 (some c) 1 s)
    let (k', bs', s2) := readBlocks client n (blk + 1) s1
    (if k ≥ 2 then k else if k' ≥ 2 then k' else max k k', bs ++ bs', s2)

/-- FILL_ENGINE_DONE: an engine whose zero write of the region's first block has been issued, or that the mask spared it,
makes the region valid and is free (R342). -/
def fillRegion (e : Nat) (s : State) : State := match tfind s.lft.fills e with
  | none => s
  | some f =>
    if f.next = 0 ∧ ¬ f.busy then { s with lft := { s.lft with valid := natInsert f.region s.lft.valid, fills := tdel s.lft.fills e } } else s

/-! ### The channel scheduler (R320 to R332) -/

/-- A request hits the open row of its bank. -/
def rowHit (s : State) (x : LftCh) (r : LftReq) : Bool := let d := coordOf s r.addr; tfind x.rows (bankKey d) == some d.row

/-- The next of a class: a row hit before older requests (R321). -/
def pickReq (s : State) (x : LftCh) (l : List LftReq) : Option LftReq := match l.find? (rowHit s x) with
  | some r => some r
  | none => l.head?

/-- Rows per bank (Table 9-1). -/
def rowsOf (density : Nat) : Nat := if density = 3 then 98304 else if density = 4 then 131072 else 65536

/-- Neighbour rows that exist (R332). -/
def rowsNear (density row : Nat) : Nat := (if row = 0 then 0 else 1) + (if row + 1 ≥ rowsOf density then 0 else 1)

/-- The open row, the predictive counter and the neighbour refresh of one column access (R323, R324, R332); `r` has left its queue. -/
def accessRow (c : Nat) (r : LftReq) (s : State) : State :=
  let x := lftGet s c
  let d := coordOf s r.addr
  let k := bankKey d
  let pred := regGet s 0x13C014
  let hit := rowHit s x r
  let ctr := tget x.preds k 0
  let ctr' := if hit then ctr - 1 else if thas x.rows k then min 3 (ctr + 1) else ctr
  let nbrK := bits (regGet s 0x13C010) 4 0
  let strike := ¬ hit ∧ (Config.lfsrDraw s.free).toNat % 2 ^ nbrK = 0
  let rows1 := tput x.rows k d.row
  let queued := (x.reads ++ x.writes).any (fun q => let e := coordOf s q.addr; bankKey e == k && e.row == d.row)
  let close := (bitAt pred 31 && !queued && decide (ctr' ≥ max 1 (bits pred 17 16))) || decide strike
  let s1 := lftSet { s with free := s.free + 1 } c { x with
    rows := if close then tdel rows1 k else rows1,
    preds := if bitAt pred 31 then tset x.preds k ctr' 0 else x.preds,
    nbr := if strike then wrap32 (x.nbr + rowsNear x.density d.row) else x.nbr }
  if hit then s1 else cntLft 6 (some c) 1 s1

/-- Remove one request of a queue. -/
def eraseReq (l : List LftReq) (r : LftReq) : List LftReq := l.filter (fun q => q.seq != r.seq)

/-- The oldest request of a bank. -/
def oldestIn (s : State) (x : LftCh) (k : Nat) : Option LftReq :=
  (x.reads ++ x.writes).foldl (fun (best : Option LftReq) q =>
    if bankKey (coordOf s q.addr) = k then (match best with
      | none => some q
      | some b => if q.seq < b.seq then some q else some b) else best) none

/-- The request that goes for `r`: in a bank in in-order mode the oldest of the bank (R322). -/
def inOrderFor (s : State) (x : LftCh) (r : LftReq) : LftReq :=
  let k := bankKey (coordOf s r.addr)
  if thas x.inOrder k then (oldestIn s x k).getD r else r

/-- A write may go: no earlier read of its block waits, and an in-order bank serves its oldest request first (R322). -/
def writeMay (s : State) (x : LftCh) (w : LftReq) : Bool :=
  !(x.reads.any (fun r => r.addr == w.addr && decide (r.seq < w.seq))) && (inOrderFor s x w).seq == w.seq

/-- Issue a write: it leaves its queue, reaches the DRAM, ends the in-order mode that waits for it, and frees the place of a fill
engine. -/
def issueWrite (c : Nat) (w : LftReq) (s : State) : State :=
  let x := lftGet s c
  let k := bankKey (coordOf s w.addr)
  let s1 := accessRow c w (lftSet s c { x with
    writes := eraseReq x.writes w, retryRun := 0,
    inOrder := if tfind x.inOrder k = some w.seq then tdel x.inOrder k else x.inOrder })
  let s2 := putBlock w (cntLft (rankNow s w) (some c) 1 s1)
  if w.client = 6 then match fillOf s2 (regionOf w.addr) with
    | some (e, f) => { s2 with lft := { s2.lft with fills := tput s2.lft.fills e { f with busy := false } } }
    | none => s2
  else s2

/-- Issue a read: it leaves its queue with what the DRAM holds, or without an access where its region is invalid (R341). -/
def issueRead (c : Nat) (r : LftReq) (s : State) : State :=
  let x := lftGet s c
  let live := blockLive s (r.addr / 64)
  let (raw, m) := rawBlock s (r.addr / 64)
  let s1 := lftSet s c { x with
    reads := eraseReq x.reads r, retryRun := 0, issued := x.issued ++ [{ r with data := if live then raw else [], mark := if live then m else {}, dry := !live }] }
  cntLft (rankNow s r) (some c) 1 (if live then accessRow c r s1 else s1)

/-- Issue the request that goes for `r`. -/
def issueFor (c : Nat) (r : LftReq) (s : State) : State :=
  let q := inOrderFor s (lftGet s c) r
  if (lftGet s c).reads.contains q then issueRead c q s else issueWrite c q s

/-- LOFT_REQUEST_ISSUE: the best class of reads; a running batch of writes behind the real-time reads; then admission traffic of class GL
(R320, R321). A batch under way runs to its end. -/
def issueNext (c : Nat) (s : State) : State :=
  let x := lftGet s c
  let wr := x.writes.filter (fun w => rankNow s w == 4 && writeMay s x w)
  if x.batch > 0 then match pickReq s x wr with
    | some w => issueWrite c w (lftSet s c { x with batch := x.batch - 1 })
    | none => lftSet s c { x with batch := 0 }
  else
    let ranked := [1, 2, 3].filterMap (fun k => pickReq s x (x.reads.filter (fun r => rankNow s r == k)))
    match ranked.head? with
    | some r => issueFor c r s
    | none =>
      if x.writes.any (fun w => rankNow s w == 4) then s
      else match pickReq s x (x.reads.filter (fun r => rankNow s r == 5) ++ x.writes.filter (fun w => rankNow s w == 5 && writeMay s x w)) with
        | some r => issueFor c r s
        | none => s

/-- LOFT_WRITE_BATCH: a batch of up to 16 writes starts (R321). -/
def startBatch (c : Nat) (s : State) : State :=
  let x := lftGet s c
  let n := (x.writes.filter (fun w => rankNow s w == 4)).length
  let idle := !(x.reads.any (fun r => decide (rankNow s r ≤ 3)))
  if x.batch = 0 ∧ n > 0 ∧ (idle ∨ x.writes.length ≥ 56) then lftSet s c { x with batch := min 16 n } else s

/-- Real-time reads are pending on the channel, or have not completed (R171, R329). -/
def rtPending (x : LftCh) : Bool := (x.reads ++ x.issued).any (fun r => decide (r.rank ≤ 2))

/-- Owed refreshes are issued as soon as no real-time read is pending; a refresh closes every row (R327, R329). -/
def payOwed (c : Nat) (s : State) : State :=
  let x := lftGet s c
  if x.state = .inService ∧ x.owed > 0 ∧ ¬ rtPending x then cntLft 7 (some c) x.owed (lftSet s c { x with owed := 0, rows := [] }) else s

/-- REFRESH_DUE: issued with what is owed when no real-time read is pending, else postponed up to 4, then forced;
a refresh closes every row (R327 to R330). -/
def refreshTick (c : Nat) (s : State) : State :=
  let x := lftGet s c
  if x.state ≠ .inService then s
  else if ¬ rtPending x then cntLft 7 (some c) (x.owed + 1) (lftSet s c { x with owed := 0, rows := [] })
  else if x.owed < 4 then lftSet s c { x with owed := x.owed + 1 }
  else cntLft 7 (some c) 1 (lftSet s c { x with forced := min 65535 (x.forced + 1), rows := [] })

/-- A change of the refresh rate (R328, R331). -/
def setRate2x (c : Nat) (on : Bool) (s : State) : State :=
  let x := lftGet s c
  if x.x2 = on then s
  else
    let extra := if on then x.owed - 2 else 0
    let s1 := lftSet s c { x with x2 := on, owed := x.owed - extra, forced := min 65535 (x.forced + extra),
                                  rows := if extra > 0 then [] else x.rows }
    raiseItems 0x1307 0 [(1, c), (1, if on then 1 else 0)] (cntLft 7 (some c) extra s1)

/-- The reading of one sensor, or a failed read; its miss count, hot latch and events (R328). -/
def sensorRead (c dimm n : Nat) (t : Option (BitVec 16)) (s : State) : State :=
  let x := lftGet s c
  let q := tget x.sensors (256 * dimm + n) {}
  let put (x : LftCh) (q : Sensor) : LftCh := { x with sensors := tput x.sensors (256 * dimm + n) q }
  if dimm ≥ x.dimms then s
  else match t with
    | none =>
      let s1 := lftSet s c (put { x with sensorFail := x.sensorFail || decide (q.miss + 1 = 3) } { q with miss := min 3 (q.miss + 1) })
      if q.miss + 1 = 3 then raiseItems 0x1309 1 [(1, c), (1, dimm)] s1 else s1
    | some v =>
      let hotNow := decide (v.toInt > 95 * 16)
      let s1 := lftSet s c (put { x with overtemp := x.overtemp || (hotNow && !q.hot) }
        { temp := v, miss := 0, hot := if hotNow then true else if v.toInt ≤ 93 * 16 then false else q.hot })
      if hotNow ∧ ¬ q.hot then raiseItems 0x1308 4 [(1, c), (1, dimm), (2, v.toNat)] s1 else s1

/-- Every sensor is at or below `lim` sixteenths, failed sensors counting as hot. -/
def sensorsBelow (x : LftCh) (lim : Int) : Bool := x.sensors.all (fun p => decide (p.2.miss < 3) && decide (p.2.temp.toInt ≤ lim))

/-- The hotter sensor of a DIMM; 0x8000 when absent or unread (Table 9-10). -/
def dimmTemp (x : LftCh) (dimm : Nat) : BitVec 16 :=
  (x.sensors.filter (fun p => p.1 / 256 == dimm)).foldl (fun m p => if m.toInt < p.2.temp.toInt then p.2.temp else m) 0x8000

/-- The rate that the sensors and FORCE_2X ask for (R328). -/
def rateTick (c : Nat) (s : State) : State :=
  let x := lftGet s c
  if bitAt (regGet s 0x13C000) 8 ∨ ¬ sensorsBelow x (85 * 16) then setRate2x c true s
  else if x.x2 ∧ x.coolMs ≥ 100 then setRate2x c false s else s

/-- DIMM_TEMP_READ: the millisecond reading of the sensors of both DIMMs of a channel (R328). -/
def tempTick (c : Nat) (t0 t1 : List (Option (BitVec 16))) (s : State) : State :=
  if (lftGet s c).state ≠ .inService then s
  else
    let s1 := t1.zipIdx.foldl (fun s p => sensorRead c 1 p.2 p.1 s) (t0.zipIdx.foldl (fun s p => sensorRead c 0 p.2 p.1 s) s)
    let x := lftGet s1 c
    rateTick c (lftSet s1 c { x with coolMs := if sensorsBelow x (83 * 16) then min 100 (x.coolMs + 1) else 0 })

end Sys2Proof.Machine
end

