-- ==== Sys2Proof/Machine/Granary.lean ====
section
/-! DEFINITION. The granary as memory (R423 to R438): words, records in two copies, register rings, the beam table in
granary words, stores in progress, what start-up loads, and the silo saves. -/

namespace Sys2Proof.Machine

/-! ### Words (R423, R435, R436) -/

/-- An erased word (R423). -/
def erasedWord : Nat := 2 ^ 64 - 1

/-- A word of the granary outside the register rings. -/
def grnWord (s : State) (w : Nat) : Nat := tget s.grn.words w erasedWord

/-- Count a word write in its page; the threshold of R436. -/
def wearAdd (w : Nat) (s : State) : State :=
  let p := w / 512
  let n := sat32 (tget s.grn.wear p 0 + 1)
  let s1 := cntGrn 1 (some p) 1 { s with grn := { s.grn with wear := tput s.grn.wear p n } }
  if n ≥ regGet s 0x160028 ∧ p ∉ s.grn.wearWarned then
    raiseItems 0x1603 1 [(4, p), (4, n)] { s1 with grn := { s1.grn with wearWarned := p :: s1.grn.wearWarned } }
  else s1

/-- Store a verified word. -/
def grnStore (w v : Nat) (s : State) : State :=
  { s with grn := { s.grn with
      words := tset s.grn.words w v erasedWord, badWords := s.grn.badWords.filter (· != w),
      ones := if v = erasedWord then natInsert w s.grn.ones else s.grn.ones.filter (· != w) } }

/-- The word has not been written since it was erased (log 21). -/
def isErased (s : State) (w : Nat) : Bool := grnWord s w == erasedWord && !s.grn.ones.contains w

/-- A granary write failed for the third time (R425). (DEDUCED, log 76.) -/
def writeFailed (w : Nat) (s : State) : State :=
  let (area, s0) := drawFree s
  raiseItems 0x1601 4 [(4, w), (1, area.toNat % 256)] { s0 with grn := { s0.grn with writeFail := true, failAddr := w } }

/-- Up to `n` attempts at a word inside the power-fail sequence: each counts, and whether its verify passes is free
(DESIGN CHOICE, log 20). Answers whether one passed; the word is not stored yet (R425). -/
def tryWord (w : Nat) : Nat → State → Bool × State
  | 0, s => (false, writeFailed w s)
  | n + 1, s =>
    let (v, s1) := drawFree (wearAdd w s)
    if v.toNat.testBit 0 then (true, s1) else tryWord w n s1

/-- Write a word inside the power-fail sequence; answers whether it holds its value now. -/
def putWord (w v n : Nat) (s : State) : Bool × State :=
  let (good, s1) := tryWord w n s
  (good, if good then grnStore w v s1 else s1)

/-- Write the words of a record copy, the commit word last: the first that fails ends the store (R430, R437). -/
def putRecord : List (Nat × Nat) → State → State
  | [], s => s
  | (w, v) :: t, s =>
    let (good, s1) := putWord w v 3 s
    if good then putRecord t s1 else s1

/-! ### Records (R429, R430) -/

/-- The words of a record copy: header, payload, CRC, commit word. -/
def recordWords (base kind gen : Nat) (p : List Nat) : List (Nat × Nat) :=
  let body := (gen * 2 ^ 32 + p.length * 65536 + kind) :: p
  let all := body ++ [crc64 (body.flatMap (le 8)), gen * 2 ^ 32 + (gen ^^^ 0xA5A5A5A5)]
  all.zipIdx.map (fun (v, i) => (base + i, v))

/-- A complete copy: generation and payload. -/
def readCopy (s : State) (base kind : Nat) : Option (Nat × List Nat) :=
  let h := grnWord s base
  let n := bits h 31 16
  let gen := h / 2 ^ 32
  let body := (List.range (n + 1)).map (fun i => grnWord s (base + i))
  if h ≠ erasedWord ∧ h % 65536 = kind ∧ n ≤ 4608 - 3 ∧
     ¬ (List.range (n + 3)).any (fun i => s.grn.badWords.contains (base + i)) ∧
     grnWord s (base + n + 1) = crc64 (body.flatMap (le 8)) ∧
     grnWord s (base + n + 2) = gen * 2 ^ 32 + (gen ^^^ 0xA5A5A5A5) then some (gen, body.drop 1) else none

/-- Base words of copies X and Y of a record kind (Table 12-1). -/
def copyBases (kind : Nat) : Nat × Nat :=
  if kind = 1 then (66048, 66560) else if kind = 2 then (67072, 67584) else if kind = 3 then (68096, 68608) else (69120, 73728)

/-- The newest complete copy: its base, generation and payload; and the other complete copy. -/
def newestCopy (s : State) (kind : Nat) : Option (Nat × Nat × List Nat) × Option (Nat × Nat × List Nat) :=
  let (bx, bY) := copyBases kind
  match readCopy s bx kind, readCopy s bY kind with
  | some (g, p), some (g', p') => if g ≥ g' then (some (bx, g, p), some (bY, g', p')) else (some (bY, g', p'), some (bx, g, p))
  | some (g, p), none => (some (bx, g, p), none)
  | none, some (g, p) => (some (bY, g, p), none)
  | none, none => (none, none)

/-- The words of the next store of a record (R430); `from_`: the copy state that an earlier store of the job leaves. -/
def nextStore (s : State) (kind : Nat) (p : List Nat) : List (Nat × Nat) :=
  let (bx, bY) := copyBases kind
  match (newestCopy s kind).1 with
  | some (b, g, _) => recordWords (if b = bx then bY else bx) kind (g + 1) p
  | none => recordWords bx kind 1 p

/-- The store after the next one: it writes the other copy. -/
def secondStore (s : State) (kind : Nat) (p : List Nat) : List (Nat × Nat) :=
  match (newestCopy s kind).1 with
  | some (b, g, _) => recordWords b kind (g + 2) p
  | none => recordWords (copyBases kind).2 kind 2 p

/-- The journal payload (R431). -/
def journalWord (state kind first count : Nat) : Nat := state * 2 ^ 62 + kind * 2 ^ 56 + first * 2 ^ 38 + count * 2 ^ 19

/-! ### Register rings (R427, R428) -/

/-- The offset that keys an item: the committing register of a pair. -/
def itemOf (off : Nat) : Nat :=
  if off ∈ [0x60018, 0x60020, 0x70400, 0x150228, 0x150408, 0x150508] then off + 4 else off

/-- The item is a committed pair. -/
def itemPair (item : Nat) : Bool := item ∈ [0x6001C, 0x60024, 0x70404, 0x15022C, 0x15040C, 0x15050C]

/-- The value an item persists. -/
def itemValue (s : State) (item : Nat) : Nat :=
  if itemPair item then regGet s item % 65536 * 2 ^ 32 + regGet s (item - 4) else regGet s item

def ringOf (s : State) (item : Nat) : List Nat := tget s.grn.rings item (List.replicate 8 erasedWord)

/-- Index of the newest entry of a ring; unreadable words count as empty. -/
def ringNewest (s : State) (item : Nat) : Option Nat :=
  let r := ringOf s item
  let q (e : Nat) : Nat := if s.grn.badWords.contains (Config.ringBase item + e % 8) then 15 else r.getD (e % 8) erasedWord / 2 ^ 60
  (List.range 8).find? (fun e => q e != 15 && q (e + 1) != (q e + 1) % 15)

/-- Start a ring write: the entry after the newest, the newest seq plus 1. -/
def ringWrite (s : State) (item v req : Nat) : WordWrite :=
  let (e, q) := match ringNewest s item with
    | some i => ((i + 1) % 8, (ringOf s item).getD i 0 / 2 ^ 60 + 1)
    | none => (0, 0)
  { word := Config.ringBase item + e, value := q % 15 * 2 ^ 60 + v % 2 ^ 48, tries := 0, item := some (item, e, 1), req := req }

/-- A ring word of the item is under way: where its next value goes depends on its outcome (R428). -/
def ringBusy (s : State) (item : Nat) : Bool := s.grn.writing.any (fun x => x.item.any (fun i => i.1 == item))

/-- Enter an RWP write into the persist queue. -/
def persist (off req : Nat) (s : State) : State :=
  let item := itemOf off
  cntGrn 2 none 1 { s with grn := { s.grn with queue := s.grn.queue ++ [(item, itemValue s item, req)] } }

/-! ### Beam table words (R153, R431, R434) -/

def healthBase : Nat := 8704
def trimBase : Nat := 16896

/-- The granary holds a beam table: a journal record exists (R431). -/
def hasTable (s : State) : Bool := (newestCopy s 1).1.isSome

/-- Beams a table word holds: kind, first beam, count. -/
def wordBeams (w : Nat) : Nat × Nat × Nat :=
  if w < trimBase then (1, 32 * (w - healthBase), 32)
  else
    let i := w - trimBase
    (2, 64 * i / 12, (64 * i + 63) / 12 + 1 - 64 * i / 12)

/-- Table words found unreadable and not yet rewritten, lowest first. -/
def badTable (s : State) : List Nat :=
  (s.grn.badWords.filter (fun w => decide (healthBase ≤ w ∧ w < 66048))).foldl (fun l w => natInsert w l) []

/-- The table that the granary holds (R152, R153, R434); a word never written since it was erased holds defaults (DEDUCED, log 21). -/
def loadTable (s : State) : BeamTable :=
  if ¬ hasTable s then {}
  else
    let lostBeam (b : Nat) : Bool := (badTable s).any (fun w => let (_, f, n) := wordBeams w; decide (f ≤ b ∧ b < f + n))
    let h := s.grn.words.flatMap (fun (w, v) =>
      if healthBase ≤ w ∧ w < trimBase then (List.range 32).map (fun j => (32 * (w - healthBase) + j, bits v (2 * j + 1) (2 * j))) else [])
    let health := h.foldl (fun t (b, v) => if lostBeam b then t else tset t b (if v = 3 then 0 else v) 0) []
    let touched := ((s.grn.words.map (fun p => p.1) ++ s.grn.ones).flatMap (fun w =>
      if trimBase ≤ w ∧ w < 66048 then let (_, f, n) := wordBeams w; (List.range n).map (fun j => f + j) else [])).foldl (fun l b => natInsert b l) []
    let trim := touched.foldl (fun t b =>
      let lo := 12 * b / 64
      let hi := (12 * b + 11) / 64
      if lostBeam b ∨ isErased s (trimBase + lo) ∨ isErased s (trimBase + hi) then t
      else
        let v := grnWord s (trimBase + lo) + 2 ^ 64 * grnWord s (trimBase + hi)
        tset t b (if lo = hi then bits (grnWord s (trimBase + lo)) (12 * b + 11 - 64 * lo) (12 * b - 64 * lo) else bits v (12 * b + 11 - 64 * lo) (12 * b - 64 * lo)) 0x800) []
    { health := health, trim := trim, gen := 0 }

/-- Words of a command's range and their new values: those whose content changes (R153, R434). -/
def changedWords (s : State) (trim : Bool) (first count : Nat) (t : BeamTable) : List (Nat × Nat) :=
  let lo := if trim then 12 * first / 64 else first / 32
  let hi := if trim then (12 * (first + count) - 1) / 64 else (first + count - 1) / 32
  (List.range (hi + 1 - lo)).filterMap (fun d =>
    let w := (if trim then trimBase else healthBase) + lo + d
    let v := if trim then trimWord t (lo + d) else healthWord t (lo + d)
    if grnWord s w ≠ v ∨ s.grn.badWords.contains w ∨ (v = erasedWord ∧ isErased s w) then some (w, v) else none)

/-- The newest version of the table, in effect or waiting (R156). -/
def latestTable (s : State) : BeamTable := s.dos.waiting.getD s.dos.cur

/-- Change a range of a table; `vals` one value per beam. -/
def setBeams (trim : Bool) (t : BeamTable) (first : Nat) (vals : List Nat) (gen : Nat) : BeamTable :=
  let u := vals.zipIdx.foldl (fun (u : BeamTable) (v, i) =>
    if trim then { u with trim := tset u.trim (first + i) v 0x800 } else { u with health := tset u.health (first + i) v 0 }) t
  { u with gen := gen }

/-- The job of a beam table command: journal OPEN, changed words, journal CLOSED. -/
def tableJob (s : State) (cmd : Option Nat) (trim : Bool) (first count : Nat) (t : BeamTable) : GrnJob :=
  let k := if trim then 2 else 1
  let words := changedWords s trim first count t
  { kind := 1, cmd := cmd, written := 0, failed := false,
    todo := (nextStore s 1 [journalWord 1 k first count]).map (fun (w, v) => (w, v, 1)) ++ words.map (fun (w, v) => (w, v, 0)) ++
            (secondStore s 1 [journalWord 2 k first count]).map (fun (w, v) => (w, v, 2)) }

/-! ### Stores in progress -/

/-- The coefficients of a calibration payload (R432). -/
def coefOf (p : List Nat) (n : Nat) : Coef :=
  let half (w : Nat) : Nat := p.getD w 0 / 2 ^ (32 * (n % 2)) % 2 ^ 32
  let a := half (n / 2)
  let b := half (2 + n / 2)
  let c := half (4 + n / 2)
  { oc := signed 16 a, os := signed 16 (a / 65536), gc := b % 65536, gs := b / 65536, pa := signed 16 c, pb := signed 16 (c / 65536) }

/-- The calibration payload of four coefficient sets. -/
def coefPayload (f : Nat → Coef) : List Nat :=
  let w (lo hi : Coef → Int) (k : Nat) : Nat :=
    let half (c : Coef) : Nat := unsigned 16 (lo c) + 65536 * unsigned 16 (hi c)
    half (f (2 * k)) + 2 ^ 32 * half (f (2 * k + 1))
  (List.range 2).map (w Coef.oc Coef.os) ++ (List.range 2).map (w Coef.gc Coef.gs) ++ (List.range 2).map (w Coef.pa Coef.pb)

/-- The set that the newest calibration record holds for a channel (R230). -/
def storedCoef (s : State) (n : Nat) : Coef := match (newestCopy s 2).1 with
  | some (_, _, p) => coefOf p n
  | none => {}

/-- The words of a record job that has come to the front. -/
def layOut (s : State) (j : GrnJob) : GrnJob := match j.pay with
  | none => j
  | some p =>
    let q := if j.kind = 2 then coefPayload (fun n => if bitAt j.names n then coefOf p n else storedCoef s n) else p
    { j with pay := none, todo := (nextStore s j.kind q).map (fun (w, v) => (w, v, 2)) }

/-- A word of a job may start: the supplies are within their limits, the granary is loaded, no power-fail sequence runs (R424, R444,
R468) and no word of the job is under way. -/
def mayStartWord (s : State) : Bool :=
  !s.grn.supplyOut && !s.grn.pfwActive && !s.grn.pfwLow && !s.grn.startHold && s.grn.loaded && !s.grn.writing.any (fun x => x.item.isNone)

/-- Start the next word of the first job, if one may start. -/
def startJobWord (s : State) : State := match s.grn.jobs with
  | [] => s
  | j0 :: rest =>
    let j := layOut s j0
    let s := { s with grn := { s.grn with jobs := j :: rest } }
    if ¬ mayStartWord s then s
    else match j.todo with
      | [] => s
      | (w, v, _) :: _ => { s with grn := { s.grn with writing := s.grn.writing ++ [{ word := w, value := v, tries := 0, item := none }] } }

/-- After the first word of the first job has been written (ok) or has failed for good. -/
def advanceJob (ok : Bool) (s : State) : State := match s.grn.jobs with
  | [] => s
  | j :: t => match j.todo with
    | [] => s
    | (_, _, a) :: rest =>
      let j' : GrnJob :=
        if ok then
          let rest' := if j.failed ∧ rest.all (fun q => q.2.2 == 2) ∧ a ≠ 2 then [] else rest
          { j with todo := rest', written := j.written + (if a = 0 then 1 else 0) }
        else if a = 0 then { j with failed := true, todo := if rest.all (fun q => q.2.2 == 2) then [] else rest }
        else if a = 1 then { j with failed := true, todo := rest.filter (fun q => q.2.2 == 0) }
        else { j with failed := true, todo := [] }
      { s with grn := { s.grn with jobs := j' :: t } }

/-! ### Silo saves and the wear record (R435, R444) -/

/-- The 32 bytes of a silo entry (Table 12-6). -/
def SiloEntry.bytes (e : SiloEntry) : List Byte :=
  le 8 e.time ++ le 1 e.cls ++ le 1 e.flags ++ le 2 e.code ++ le 4 e.slot ++ le 4 e.seq ++ fit 12 e.payload

/-- The newest min(1,024, count) entries, oldest first. -/
def siloNewest (s : State) : List SiloEntry :=
  let n := min 1024 s.slo.count
  (List.range n).filterMap (fun i => tfind s.slo.entries ((s.slo.head + 8192 - n + i) % 8192))

/-- The payload of a silo save (R444 step 4). -/
def savePayload (s : State) : List Nat :=
  (s.slo.missed * 2 ^ 32 + s.slo.frozenBy * 64 + (if s.slo.frozen then 1 else 0)) ::
  (siloNewest s).flatMap (fun e => (List.range 4).map (fun i => fld e.bytes (8 * i) 8))

/-- A wear record holds the counts before its own words (DEDUCED, log 77). -/
def wearPayload (s : State) : List Nat := (List.range 256).map (fun p => tget s.grn.wear p 0)

/-- A wear record store as a job. -/
def wearJob (s : State) : GrnJob :=
  { kind := 3, cmd := none, written := 0, failed := false, todo := [], pay := some (wearPayload s) }

/-- Queue a store. -/
def queueJob (j : GrnJob) (s : State) : State := startJobWord { s with grn := { s.grn with jobs := s.grn.jobs ++ [j] } }

/-- Start the write of the oldest persist queue entry, once no word of its ring is under way and while the supplies stand (R424,
R428). -/
def drainOne (s : State) : State := match s.grn.queue with
  | [] => s
  | (item, v, q) :: t =>
    if s.grn.supplyOut ∨ ringBusy s item then s
    else { s with grn := { s.grn with queue := t, writing := s.grn.writing ++ [ringWrite s item v q] } }

/-- Put a finished ring word in its ring. -/
def ringStore (item e v : Nat) (s : State) : State :=
  { s with grn := { s.grn with
      rings := tput s.grn.rings item ((ringOf s item).set e v), badWords := s.grn.badWords.filter (· != Config.ringBase item + e) } }

/-- The next entry of a ring after a failed one; the third failure leaves the old value (Table 12-5). -/
def ringRetry (x : WordWrite) : Option WordWrite := match x.item with
  | some (item, e, n) =>
    if n ≥ 3 then none
    else let e' := (e + 1) % 8
         some { word := Config.ringBase item + e', value := x.value, tries := 0, item := some (item, e', n + 1), req := x.req }
  | none => none

/-- The record of a persistent write that all three entries refused (R437, Table 12-7): flag WRITE_FAIL (DEDUCED, log 30). -/
def lostPersist (x : WordWrite) (s : State) : State := match x.item with
  | some (item, _, _) =>
    let v := x.value % 2 ^ 48
    siloRecord 0x1605 (le 4 item ++ le 4 (if itemPair item then v / 2 ^ 32 else v) ++ le 2 x.req ++ le 2 8) s
  | none => s

/-- A ring word inside the power-fail sequence: the attempts that are left, then up to `n` further entries (R425, R437). -/
def putRing : Nat → WordWrite → State → State
  | 0, x, s => lostPersist x s
  | n + 1, x, s => match x.item with
    | none => s
    | some (item, e, _) =>
      let (good, s1) := tryWord x.word (3 - x.tries) s
      if good then ringStore item e x.value s1
      else match ringRetry x with
        | some y => putRing n y s1
        | none => lostPersist x s1

/-- A word that was under way when the warning came ends (R424). -/
def finishWord (s : State) (x : WordWrite) : State :=
  if x.item.isSome then putRing 3 x s
  else
    let (good, s1) := putWord x.word x.value (3 - x.tries) s
    advanceJob good s1

/-- Every word under way ends, and the persist queue drains (R444 steps 2 and 3); with the supplies out none of its words starts (R424). -/
def finishWrites (s : State) : State :=
  let s1 := s.grn.writing.foldl finishWord { s with grn := { s.grn with writing := [] } }
  let s2 := { s1 with grn := { s1.grn with queue := [] } }
  if s.grn.supplyOut then s2 else s1.grn.queue.foldl (fun s (item, v, q) => putRing 3 (ringWrite s item v q) s) s2

/-- A wear record that the warning interrupted starts again with the counts of then (R430, R444). -/
def relayWear (s : State) (j : GrnJob) : GrnJob := if j.kind = 3 ∧ ¬ j.todo.isEmpty then { j with todo := [], pay := some (wearPayload s) } else j

/-- What FATAL leaves of the jobs: the jobs of commands end (R162, R377), but a word of theirs that is under way completes (R424). -/
def fatalJobs (g : Grn) : List GrnJob :=
  let kept (j : GrnJob) : Bool := j.cmd.isNone && j.kind != 1
  match g.jobs with
  | [] => []
  | j :: t =>
    if kept j ∨ ¬ g.writing.any (fun x => x.item.isNone) then (j :: t).filter kept
    else { j with kind := 0, cmd := none, pay := none, todo := j.todo.take 1 } :: t.filter kept

/-! ### What start-up loads (R433, R434, R155) -/

/-- Values of the register rings. -/
def loadRings (s : State) : State :=
  s.grn.rings.foldl (fun s (item, r) => match ringNewest s item with
    | none => s
    | some e =>
      let v := r.getD e 0 % 2 ^ 48
      if itemPair item then regSet (regSet s (item - 4) (v % 2 ^ 32)) item (v / 2 ^ 32) else regSet s item v) s

/-- The open journal record: kind, first beam, count. -/
def openJournal (s : State) : Option (Nat × Nat × Nat) := match (newestCopy s 1).1 with
  | some (_, _, [w]) => if bits w 63 62 = 1 then some (bits w 57 56, bits w 55 38, bits w 37 19) else none
  | _ => none

/-- DIRTY follows from the open journal and the unreadable words (R155, R434). -/
def setDirty (s : State) : State := { s with dos := { s.dos with dirty := s.dos.jKind ≠ 0 || !(badTable s).isEmpty } }

/-- What DOS_JOURNAL shows. (DEDUCED, log 54.) -/
def journalShown (s : State) : Nat × Nat × Nat :=
  if s.dos.jKind ≠ 0 then (s.dos.jKind, s.dos.jFirst, s.dos.jCount)
  else match badTable s with
    | w :: _ => wordBeams w
    | [] => (0, 0, 0)

def raiseDirty (s : State) : State := let (k, f, n) := journalShown s; raiseItems 0x0504 4 [(1, k), (4, f), (4, n)] s

end Sys2Proof.Machine
end

