-- ==== Sys2Proof/Machine/Stripe.lean ====
section
/-! DEFINITION. Operations on the armed or running stripe that several families share: gang and Dexpin sending,
make-up records by table generation (R159, R482 to R484), the frame accounting (R271 to R273), the profile at an
instant, abort and discard (R187, R188, R197, R355), FATAL (R479 to R481). -/

namespace Sys2Proof.Machine

/-! ### Gang frames (R414, R415) -/

def gangCtrl (s : State) : Nat := regGet s 0x150230
def gangOn (s : State) : Bool := bitAt (gangCtrl s) 2

/-- MAC bytes 0 to 5 from a HI:LO pair (byte 0 in HI[15:8]). -/
def macBytes (hi lo : Nat) : List Byte := (le 2 hi).reverse ++ (le 4 lo).reverse

def portMac (s : State) (p : Nat) : List Byte := macBytes (regGet s (0x15040C + 0x100 * p)) (regGet s (0x150408 + 0x100 * p))

/-- The Ethernet frame of a gang frame, without FCS. -/
def gangFrame (s : State) (p kind flags seq sec ns : Nat) (body : List Byte) (alive : Nat) : List Byte :=
  let pay := le 2 0x0100 ++ le 2 (regGet s 0x150224) ++ le 2 (regGet s 0x150220 % 4096) ++ le 1 kind ++ le 1 flags ++ le 4 seq ++
    le 8 sec ++ le 4 ns ++ List.replicate 8 0 ++ fit 24 body ++ le 2 alive
  macBytes (regGet s 0x15022C) (regGet s 0x150228) ++ portMac s p ++ [0x88, 0xB5] ++ pay ++ le 4 (crc32c pay)

/-- Ports of a mask that are up. -/
def upPorts (ports : Nat) (s : State) : List Nat := (List.range 2).filter (fun p => bitAt ports p && (portGet s p).up)

/-- One gang frame on one port. -/
def gangOnPort (kind seq sec ns : Nat) (late : Bool) (body : List Byte) (p : Nat) (s : State) : State :=
  let x := portGet s p
  let al := (x.alive + 1) % 65536
  chkFrame 1 (129 + p) al (cntTim 2 (some p) 1 (emit (.ethFrame p (gangFrame s p kind (flag late 1 + flag (seq = 1) 0) seq sec ns body al))
    (portSet s p { x with alive := al })))

/-- Send a gang frame on the given ports, with the next sequence number or a given one; a frame sent on no port
takes no number (R415); `late`: LATE by port. Answers the number, 0 when it was sent on no port. -/
def gangSend (kind : Nat) (late : Nat → Bool) (sec ns : Nat) (body : List Byte) (given : Option Nat) (on : List Nat) (s : State) : State × Nat :=
  if on.isEmpty then (s, 0)
  else
    let seq := given.getD (if s.tim.txSeq = max32 then 1 else s.tim.txSeq + 1)
    let s1 := if given.isSome then s else { s with tim := { s.tim with txSeq := seq } }
    (on.foldl (fun s p => gangOnPort kind seq sec ns (late p) body p s) s1, seq)

/-- A launch is due on port p, or within 300 ns, or a launched frame is on its way there (R419): no PTP frame and no
ABORT frame starts. -/
def portGuarded (s : State) (p : Nat) : Bool :=
  s.tim.launches.any (fun l => bitAt l.ports p && (l.due || decide (l.at_ ≤ (domGet s l.domB).t + 300 * nsUnit))) ||
  s.tim.sent.any (fun x => bitAt x.ports p)

/-- The mask of a list of ports. -/
def portMask (l : List Nat) : Nat := (l.map (fun p => 2 ^ p)).sum

/-- Send an ABORT frame on the ports where it may start, each for the 70.4 ns (88 cycles of CK_CORE) it lasts; it waits for the others (R414, R418, R419). (DEDUCED, log 83.) -/
def abortFrame (w : WaitAbort) (s : State) : State :=
  let up := upPorts w.ports s
  let now := up.filter (fun p => !portGuarded s p)
  let held := up.filter (fun p => portGuarded s p)
  let (s0, q) := gangSend 2 (fun _ => false) 0 0 (le 1 w.cause) w.seq now s
  let s1 := now.foldl (fun s p => portSet s p { portGet s p with abortTill := s.tim.core + 88 }) s0
  if held.isEmpty then s1
  else { s1 with tim := { s1.tim with aborts := s1.tim.aborts ++ [{ w with ports := portMask held, seq := if q = 0 then w.seq else some q }] } }

/-- The ABORT frame of R418. -/
def gangAbort (cause : Nat) (s : State) : State :=
  if gangOn s ∧ bitAt (gangCtrl s) 1 then abortFrame { ports := 3, cause := cause, seq := none } s else s

/-- Waiting ABORT frames start once their port is free. -/
def flushAborts (s : State) : State :=
  if gangOn s then s.tim.aborts.foldl (fun s w => abortFrame w s) { s with tim := { s.tim with aborts := [] } }
  else { s with tim := { s.tim with aborts := [] } }

/-! ### Dexpin messages (R287, Table 8-3) -/

/-- The words of a message with payload words `p`. -/
def dxpWords (alive ty arg : Nat) (p : List Nat) : List Nat :=
  let w0 := arg % 2 ^ 32 * 2 ^ 32 + (p.length + 2) * 65536 + ty * 256 + 0x33
  w0 :: p ++ [crc32c ((w0 :: p).flatMap (le 8)) * 65536 + alive]

/-- Send a message while the link is UP. (DESIGN CHOICE, log 61.) -/
def dxpSend (ty arg : Nat) (p : List Nat) (s : State) : State :=
  if s.twn.link = .up then
    let al := (s.twn.txAlive + 1) % 65536
    chkFrame 1 128 al (cntTwn 1 (some ty) 1 (emit (.dxpMessage (dxpWords al ty arg p)) { s with twn := { s.twn with txAlive := al } }))
  else s

/-- The pair works as a pair now: formed, not split, link UP. -/
def voting (s : State) : Bool := s.twn.paired && !s.twn.split && decide (s.twn.link = .up)

/-- This device holds the active role for group j (R304, R306); solo always. -/
def roleAt (s : State) (j : Nat) : Bool :=
  if ¬ s.twn.paired then true
  else match s.twn.roleNext with
    | some (g, r) => if j ≥ g then r else s.twn.active
    | none => s.twn.active

/-- The active role for the records of group j: the role held at its first slot (R302). -/
def groupRole (s : State) (j : Nat) : Bool := ((s.pac.stripe.bind (fun st => tfind st.groups j)).bind Group.active).getD (roleAt s j)

/-- This device raises the frame and cut records of group j: it holds its role, or its partner is dead (R302, R307, R308). -/
def recordRole (s : State) (j : Nat) : Bool := groupRole s j || (s.twn.paired && s.twn.partnerDeadSeen)

/-! ### Beam table versions (R135, R157) -/

/-- The version for pixel row y. -/
def tableAt (s : State) (y : Nat) : BeamTable := match s.dos.prev with
  | some (ye, t) => if y < ye then t else s.dos.cur
  | none => s.dos.cur

/-! ### Coverage of records (R483, R484) -/

/-- Row spans of the generations: first row, row past the last, generation. (DEDUCED, log 57.) -/
def genSpans (L : Nat) : List (Nat × Nat) → List (Nat × Nat × Nat)
  | [] => []
  | [(y, g)] => [(y, L, g)]
  | (y, g) :: (y', g') :: t => (y, y', g) :: genSpans L ((y', g') :: t)

/-- The record names pass-pixel (x, y, p), before the removals of R483. -/
def MkRec.names (r : MkRec) (h : Header) (x y p : Nat) : Bool :=
  let n := passpixSlot h x y p
  decide (r.slotFirst ≤ n ∧ n ≤ r.slotLast) &&
  if r.scope = 1 then p == r.pass && y / 64 * h.cols + x / 64 == r.beamFirst
  else let b := passpixBeam h x p; decide (r.beamFirst ≤ b ∧ b ≤ r.beamLast)

/-- Pass-pixels of rows y0 to y1 − 1 that a record names. -/
def MkRec.pixels (r : MkRec) (h : Header) (y0 y1 : Nat) : List (Nat × Nat × Nat) :=
  if r.scope = 1 then
    let tx := tileX h r.beamFirst
    let ty := tileY h r.beamFirst
    (List.range 64).flatMap (fun v => (List.range 64).filterMap (fun u =>
      let x := 64 * tx + u
      let y := 64 * ty + v
      if y0 ≤ y ∧ y < y1 ∧ r.names h x y r.pass then some (x, y, r.pass) else none))
  else
    (List.range (r.beamLast + 1 - r.beamFirst)).flatMap (fun d => (List.range (r.slotLast + 1 - r.slotFirst)).filterMap (fun e =>
      let (x, y, p, ok) := beamSlot h (r.beamFirst + d) (r.slotFirst + e)
      if ok ∧ (y0 : Int) ≤ y ∧ y < (y1 : Int) then some (x, y.toNat, p) else none))

/-- A record touches rows y0 to y1 − 1. -/
def MkRec.touches (r : MkRec) (h : Header) (y0 y1 : Nat) : Bool :=
  if r.scope = 1 then !(r.pixels h y0 y1).isEmpty
  else (List.range (r.beamLast / 512 + 1 - r.beamFirst / 512)).any (fun d =>
    let o : Int := ((r.beamFirst / 512 + d) * h.pitch : Nat)
    decide (max (y0 : Int) ((r.slotFirst : Int) - o) ≤ min ((y1 : Int) - 1) ((r.slotLast : Int) - o)))

/-- The owed dose D of a pass-pixel under listed records (R484). -/
def owedDose (h : Header) (bins : Tbl Bin) (grid : Tbl Nat) (t : BeamTable) (gens : List (Nat × Nat)) (recs : List MkRec) (x y p : Nat) : Nat :=
  let rowGen := (gens.filter (fun q => decide (q.1 ≤ y))).getLast?.map Prod.snd
  let mine := recs.filter (fun r => r.names h x y p && (!(gens.any (fun q => q.2 == r.gen)) || rowGen == some r.gen))
  if mine.isEmpty then 0
  else
    let o := pixelOut h bins grid t x y p none
    (if mine.any (fun r => decide (r.reason ≤ 9)) then o.delivered else 0) + (if mine.any (fun r => decide (r.reason ≥ 10)) then o.missed else 0)

def Account.owed (a : Account) (x y p : Nat) : Nat := match a.makeup with
  | none => 0
  | some rs => owedDose a.hdr a.bins a.grid a.table a.ownGens rs x y p

/-- R489: in a make-up run a loss raises a record only where it touches an owed pass-pixel. -/
def Account.concerns (a : Account) (r : MkRec) (y0 y1 : Nat) : Bool := match a.makeup with
  | none => true
  | some _ => (r.pixels a.hdr y0 y1).any (fun (x, y, p) => decide (a.owed x y p > 0))

/-- A loss of a stripe's account: reason, origin, slots, beams. -/
def lossRect (reason origin n0 n1 b0 b1 : Nat) : MkRec :=
  { recId := 0, baseId := 0, tag := 0, reason := reason, scope := 0, pass := 0, origin := origin, gen := 0, slotFirst := n0, slotLast := n1,
    beamFirst := b0, beamLast := b1 }

/-- The origin byte of make-up records (DEDUCED, log 62). -/
def lossTile (reason origin pass n0 n1 tile : Nat) : MkRec :=
  { recId := 0, baseId := 0, tag := 0, reason := reason, scope := 1, pass := pass, origin := origin, gen := 0, slotFirst := n0, slotLast := n1,
    beamFirst := tile, beamLast := 0 }

/-- Raise the record or records of one loss, one per table generation it touches (R159). -/
def raiseLoss (a : Account) (r : MkRec) (s : State) : State :=
  let spans := genSpans a.hdr.L a.gens
  let hit := spans.filter (fun (y0, y1, _) => r.touches a.hdr y0 y1)
  let use := if hit.isEmpty then (spans.getLast?.map (fun q => [q])).getD [] else hit
  use.foldl (fun s (y0, y1, g) =>
    if a.concerns r y0 y1 then pushRecord { r with baseId := a.baseId, tag := a.hdr.tag, gen := g } s else s) s

/-- Raise a loss of the armed or running stripe. -/
def raiseStripeLoss (r : MkRec) (s : State) : State := match s.pac.acct with
  | some a => raiseLoss a r s
  | none => s

/-! ### Frame accounting (R271 to R273) -/

/-- A frame of slot n on lane l holds an in-stripe pass-pixel. -/
def laneInStripe (h : Header) (l n : Nat) : Bool :=
  (List.range 4).any (fun i => let o := (4 * l + i) * h.pitch; decide (o ≤ n ∧ n < o + h.L))

/-- End the lane's current run of lost or unconfirmed frames with its record. -/
def closeRun (a : Account) (l : Nat) (x : LaneAcc) (s : State) : LaneAcc × State := match x.run with
  | none => (x, s)
  | some (f, n0, n1) =>
    ({ x with run := none }, raiseLoss a (lossRect (if f = .lost then 7 else 8) l n0 n1 (2048 * l) (2048 * l + 2047)) s)

/-- Take the settled frames at the head of the lane's queue into runs. -/
def drainLane (a : Account) (l : Nat) : Nat → LaneAcc → State → LaneAcc × State
  | 0, x, s => (x, s)
  | fuel + 1, x, s => match x.frames with
    | [] => if a.ended then closeRun a l x s else (x, s)
    | (_, .unsettled, _) :: _ => (x, s)
    | (n, f, act) :: t =>
      let x := { x with frames := t, lost := if f = .lost then sat32 (x.lost + 1) else x.lost,
                        unconf := if f = .unconfirmed then sat32 (x.unconf + 1) else x.unconf }
      if f = .applied ∨ ¬ act then
        let (x, s) := closeRun a l x s
        drainLane a l fuel x s
      else match x.run with
        | some (f', n0, _) =>
          if f' = f then drainLane a l fuel { x with run := some (f, n0, n) } s
          else
            let (x, s) := closeRun a l x s
            drainLane a l fuel { x with run := some (f, n, n) } s
        | none => drainLane a l fuel { x with run := some (f, n, n) } s

def laneAcc (a : Account) (l : Nat) : LaneAcc := tget a.lanes l {}
def putLaneAcc (a : Account) (l : Nat) (x : LaneAcc) : Account := { a with lanes := tset a.lanes l x {} }

/-- Change a lane's frames in an account and drain it; `put` stores the account back. -/
def accLane (a : Account) (l : Nat) (f : Nat × FrameFate × Bool → Nat × FrameFate × Bool) (s : State) : Account × State :=
  let x := laneAcc a l
  let (x', s') := drainLane a l (x.frames.length + 1) { x with frames := x.frames.map f } s
  (putLaneAcc a l x', s')

/-- Apply a settlement to one lane of the current (cur) or previous account. -/
def settleLane (cur : Bool) (l : Nat) (f : Nat × FrameFate × Bool → Nat × FrameFate × Bool) (s : State) : State :=
  match if cur then s.pac.acct else s.pac.prevAcct with
  | none => s
  | some a =>
    let (a', s') := accLane a l f s
    { s' with pac := if cur then { s'.pac with acct := some a' } else { s'.pac with prevAcct := some a' } }

/-- Drain every lane of both accounts. -/
def settleAll (s : State) : State :=
  (List.range 128).foldl (fun s l => settleLane false l id (settleLane true l id s)) s

/-- No further frame of the stripe will be sent: open runs end. -/
def endAccount (s : State) : State := match s.pac.acct with
  | none => s
  | some a => settleAll { s with pac := { s.pac with acct := some { a with ended := true } } }

/-! ### The profile of the armed or running stripe (R179 to R183) -/

def Stripe.A (st : Stripe) : Nat := st.plan.regs.getD 2 0
def Stripe.J (st : Stripe) : Nat := 256 * st.plan.regs.getD 3 0
/-- cpp of the plan, in units of 2⁻³² counts. -/
def Stripe.cpp (st : Stripe) : Nat := st.plan.regs.getD 4 0
def Stripe.pieces (st : Stripe) : List Piece :=
  profilePieces st.A st.J st.segFirst st.adm.hdr.N (st.plan.segs.map (fun g => g.fAdm))

def fix32 (x : Rat) : Int := (x * 4294967296).floor
def unfix32 (x : Int) : Rat := (x : Rat) / 4294967296

/-- Slot position, velocity, acceleration, moving, at instant k of the profile. -/
def Stripe.profile (st : Stripe) (k : Nat) : Rat × Rat × Rat × Bool := match st.stop with
  | none => profileAt st.pieces ((st.slotFirst : Rat) - (st.plan.runup : Rat)) ((50 * k : Nat) : Rat)
  | some sp =>
    let v := unfix32 sp.vel
    let a := unfix32 sp.acc
    let (x, v', a', m) := stopAt v a st.J (stopPlan v a st.A st.J) (((50 * (k - sp.k0) : Nat) : Rat) / 1000000)
    (unfix32 sp.pos + x, v', a', m)

/-- ENC0 counts of a slot position (R182). -/
def Stripe.counts (st : Stripe) (x : Rat) : Rat := (st.adm.y0 : Rat) + x * ((st.cpp : Rat) / 4294967296)

/-- States of a stripe that is armed or running. -/
def StripeState.live : StripeState → Bool
  | .arming => false
  | _ => true
/-- R197: in run-up, writing or run-out. -/
def StripeState.moving : StripeState → Bool
  | .runUp | .writing | .runOut => true
  | _ => false

def Stripe.code (st : Stripe) : Nat := match st.state with
  | .arming => 3 | .armed => 4 | .runUp => 5 | .writing => 6 | .runOut => 7 | .stopping => 8

/-- This device's pace link carries the profile (R279, R307). -/
def paceMaster (s : State) : Bool := !s.twn.paired || s.twn.master

/-! ### Ending a stripe -/

/-- A stripe is armed or running, neither complete nor aborted (R229). -/
def stripeHolds (s : State) : Bool := match s.pac.stripe with
  | some st => st.state.live && !st.doneRaised && st.abort.isNone
  | none => false

/-- Outcome of a channel of a CAL_ENC command; with the last one the command completes. -/
def calDone (cmd : Option Nat) (n outcome : Nat) (s : State) : State := match cmd with
  | none => s
  | some id =>
    match tfind s.enc.calJobs id with
    | none => s
    | some l =>
      let l' := l.set n (some outcome)
      if l'.all Option.isSome then
        complete id 0 (l'.map (fun o => BitVec.ofNat 8 (o.getD 0)) ++ le 4 0) { s with enc := { s.enc with calJobs := tdel s.enc.calJobs id } }
      else { s with enc := { s.enc with calJobs := tput s.enc.calJobs id l' } }

/-- Coefficients held under FREEZE begin their slew, in place of one that still runs (R229). -/
def releaseCoefs (s : State) : State :=
  (List.range 4).foldl (fun s n =>
    match (encGet s n).heldCoef with
    | some c =>
      let s1 := calDone (encGet s n).slewCmd n 0 s
      let x := encGet s1 n
      encSet s1 n { x with heldCoef := none, slew := some (x.coef, c, 0), slewCmd := none }
    | none => s) s

/-- A committed handover is over: the role has changed, and its command completes (R305). -/
def handoverDone (s : State) : State := match s.twn.handover with
  | none => s
  | some h => if h.committed then completeOpt h.cmd 0 (le 4 h.group) { s with twn := { s.twn with handover := none } } else s

/-- The stripe is complete or aborted and at rest, or discarded: the hold of R98 ends and nothing of it stays; `keep`: an ARM that ended with
a status leaves the hold as it was before. (DEDUCED, log 72.) -/
def dropStripe (keep : Bool) (s : State) : State := match s.pac.stripe with
  | none => s
  | some st =>
    let adm := match s.pac.adm with
      | some a => if a.id = st.adm.id then
          some { a with hold := keep && st.adm.hold, gens := if st.makeup.isNone ∧ st.started then (s.pac.acct.map (fun q => q.gens)).getD [] else a.gens }
        else some a
      | none => none
    handoverDone { s with
      pac := { s.pac with stripe := none, adm := adm }, units := { s.units with lanes := [] },
      twn := { s.twn with active := (s.twn.roleNext.map Prod.snd).getD s.twn.active, roleNext := none, split := false,
                          paired := s.twn.paired && !s.twn.split, rejoin := s.twn.rejoin || s.twn.split,
                          peerArm := none, armSent := false, ownArm := none, ownResult := none, peerResult := none } }

/-- R197: an armed stripe before its run-up is discarded; an ARM in progress completes with `status`. -/
def discardStripe (keep : Bool) (status : Nat) (s : State) : State := match s.pac.stripe with
  | none => s
  | some st =>
    let s1 := releaseCoefs (endAccount (dropStripe keep s))
    let s2 := if st.state = .arming then { s1 with pac := { s1.pac with acct := s1.pac.prevAcct, prevAcct := none } } else s1
    completeOpt st.cmd status [] s2

/-- n_u of R188 and R309 when an abort is taken: 8·g_c, or the first slot of an earlier failed group; the next slot where no trigger fires
any more. (DEDUCED, log 103.) -/
def Stripe.cutSlot (st : Stripe) (limit : Nat) : Nat :=
  if st.doneRaised then max32 else min (if st.trigArmed then 8 * limit else st.nextSlot) (st.firstFail.getD max32)

/-- Put the stripe record back. -/
def setStripe (st : Stripe) (s : State) : State := { s with pac := { s.pac with stripe := some st } }

/-- Raise the one STRIPE_CUT record of an abort once every slot before n_u has issued; at rest n_u is at most the first slot that was
never triggered (R188). -/
def closeCut (rest : Bool) (s : State) : State := match s.pac.stripe with
  | none => s
  | some st => match st.abort with
    | none => s
    | some (c, nu0) =>
      let nu := if rest then min nu0 st.nextSlot else nu0
      if ¬ rest ∧ nu > st.nextSlot ∧ st.nextSlot < st.slotEnd then s
      else
        let s1 := setStripe { st with cut := false, abort := some (c, nu) } { s with pac := { s.pac with abortSlot := if nu < st.slotEnd then nu else max32 } }
        if st.cut ∧ nu < st.slotEnd ∧ recordRole s (nu / 8) then raiseStripeLoss (lossRect 1 0 nu (st.slotEnd - 1) 0 (numBeams - 1)) s1 else s1

/-- R187, R188, R309, R418: abort the running stripe. `gc`: the group limit of a received ABORT, from which no group stays open; `run`: the
pace link runs the stop; `gang`: an ABORT frame spreads. -/
def abortRunning (cause : Nat) (gc : Option Nat) (run gang : Bool) (s : State) : State := match s.pac.stripe with
  | none => s
  | some st =>
    if ¬ st.state.moving then s
    else
      let limit := gc.getD st.nextGroup
      let nu := st.cutSlot limit
      let shown := if nu < st.slotEnd then nu else max32
      let (x, v, a, _) := st.profile st.k
      let stop : Option Stop := if run ∧ paceMaster s then some ⟨st.k, fix32 x, fix32 v, fix32 a⟩ else st.stop
      let st' := { st with state := .stopping, stop := stop, abort := some (cause, nu), cut := st.started, groupLimit := limit,
                           groups := st.groups.filter (fun p => decide (p.1 < limit)) }
      let s1 := setStripe st' { s with pac := { s.pac with abortSlot := shown },
                                       units := { s.units with lanes := s.units.lanes.filter (fun p => decide (p.2.group < limit)) } }
      let s2 := closeCut false (raiseItems 0x0603 3 [(4, st.id), (1, cause), (4, shown)] s1)
      let s3 := if gc.isNone ∧ voting s then dxpSend 6 limit [cause] s2 else s2
      releaseCoefs (if gang then gangAbort cause s3 else s3)

/-- A twin that is stopping opens the groups below the limit of a received ABORT, too (R309). -/
def widenAbort (gc : Nat) (s : State) : State := match s.pac.stripe with
  | none => s
  | some st => match st.abort with
    | some (c, nu) =>
      if st.state = .stopping ∧ st.groupLimit < gc ∧ nu > st.nextSlot then
        let nu' := st.cutSlot gc
        setStripe { st with groupLimit := gc, abort := some (c, nu') } { s with pac := { s.pac with abortSlot := if nu' < st.slotEnd then nu' else max32 } }
      else s
    | none => s

/-- An abort by a fault of the device's own (cause FAULT). -/
def abortFault (s : State) : State := abortRunning 4 none true true s

/-- A fault that also reaches an armed stripe or one in its pre-roll (R355, R417): running, it aborts; before the
run-up it is discarded. `event`: EV_STRIPE_ABORTED with n_u 0 is raised for the discard. (DEDUCED, log 45.) -/
def abortOrDiscard (cause : Nat) (gang event : Bool) (armStatus : Nat) (s : State) : State := match s.pac.stripe with
  | none => s
  | some st =>
    if st.state.moving then abortRunning cause none true gang s
    else if st.state = .stopping then s
    else
      let s1 := discardStripe false armStatus s
      if event then raiseItems 0x0603 3 [(4, st.id), (1, cause), (4, 0)] { s1 with pac := { s1.pac with abortSlot := 0 } } else s1

/-- The same where the spec gives no status for a STRIPE_ARM cut short in its pre-roll: a free value (DESIGN CHOICE, log 25). -/
def abortOrDiscardFree (cause : Nat) (gang event : Bool) (s : State) : State :=
  let (f, s1) := drawFree s
  abortOrDiscard cause gang event (f.toNat % 65536) s1

/-! ### Late slots (R215) -/

/-- End a run of late slots with its record. -/
def closeLate (s : State) : State := match s.pac.stripe with
  | none => s
  | some st => match st.lateRun with
    | none => s
    | some (a, b) =>
      let s1 := setStripe { st with lateRun := none } s
      if groupRole s (a / 8) then raiseStripeLoss (lossRect 2 0 a b 0 (numBeams - 1)) s1 else s1

/-! ### FATAL (R377, R479 to R481) -/

/-- First slot whose frames have not been handed over whole: n_f (R481). -/
def Stripe.notHanded (st : Stripe) (s : State) : Nat := match s.swl.flight with
  | some (n, _) => n
  | none => st.nextSlot

/-- A frame handed over before slot n and not settled. -/
def openFrame (n : Nat) (f : Nat × FrameFate × Bool) : Bool := f.2.1 == .unsettled && decide (f.1 < n)

/-- Lowest slot with a sent frame not settled: n_c (R481). -/
def firstUnsettled (a : Account) (n : Nat) : Nat :=
  (a.lanes.flatMap (fun p => (p.2.frames.filter (openFrame n)).map (fun f => f.1))).foldl min max32

/-- Records that stand open when FATAL strikes: a run of late slots, and each lane's run of settled frames. -/
def flushRuns (s : State) : State :=
  (List.range 128).foldl (fun s l => match s.pac.acct with
    | none => s
    | some a =>
      let (x, s1) := closeRun a l (laneAcc a l) s
      { s1 with pac := { s1.pac with acct := some (putLaneAcc a l x) } }) (closeLate s)

/-- The records of R481, behind those that stand open. -/
def fatalRecords (s : State) : State := match s.pac.stripe with
  | none => s
  | some st =>
    if ¬ st.started then s
    else
      let nf := st.notHanded s
      let s0 := flushRuns s
      match s0.pac.acct with
      | none => s0
      | some a =>
        let s1 := if nf < st.slotEnd then raiseLoss a (lossRect 1 0 nf (st.slotEnd - 1) 0 (numBeams - 1)) s0 else s0
        (List.range 128).foldl (fun s l =>
          if (laneAcc a l).frames.any (openFrame nf) then
            raiseLoss a (lossRect 8 l (firstUnsettled a nf) (nf - 1) (2048 * l) (2048 * l + 2047)) s
          else s) s1

def msgKind (m : TableMsg) : Nat := if m.trim then 2 else 1

/-- EV_GRN_TABLE_CMD (Table 12-7). -/
def tableRecord (kind status tag first count : Nat) (s : State) : State :=
  siloRecord 0x1606 (le 1 kind ++ le 1 status ++ le 2 tag ++ le 4 first ++ le 4 count) s

def msgRecord (m : TableMsg) (status : Nat) (s : State) : State :=
  tableRecord (msgKind m) status m.tag.toNat m.first.toNat m.count.toNat s

/-- A table command ends in FATAL: no further word of it is written, and the table in use is the one before it (R162).
(DESIGN CHOICE, log 111.) -/
def fatalTable (status : Nat) (s : State) : State :=
  let s1 := startJobWord { s with grn := { s.grn with jobs := fatalJobs s.grn } }
  match s.twn.tableX with
  | none => s1
  | some x =>
    let d := match x.before with
      | some (cur, waiting, prev) => { s.dos with cur := cur, waiting := waiting, prev := prev }
      | none => s.dos
    let s2 := { s1 with dos := d, twn := { s1.twn with tableX := none } }
    if x.cmd.isSome then msgRecord x.msg status s2 else s2

/-- A FATAL cause: the five steps of R480; every command in progress completes with FATAL (R377). `hk`: CK_HK runs, so
that the records of R481 are entered. (DEDUCED, log 85.) -/
def fatalBy (hk : Bool) (cause unit fatalStatus : Nat) (s : State) : State :=
  if s.glb.fatal then s
  else
    let (nf, nc) := match s.pac.stripe, s.pac.acct with
      | some st, some a => if st.started then (if st.notHanded s < st.slotEnd then st.notHanded s else max32, firstUnsettled a (st.notHanded s)) else (max32, max32)
      | _, _ => (max32, max32)
    let s1 := trySnap s
    let s2 := raiseItems 0x0003 5 [(1, cause), (1, unit), (4, slotNow s), (4, nf), (4, nc)] s1
    let s3 := if hk then fatalRecords (siloFreeze 1 s2) else siloFreeze 1 s2
    let s4 := { s3 with
      glb := { s3.glb with fatal := true, fatalCause := cause, phase := .fatal },
      pins := { s3.pins with idle := true, twinLiveO := false, paceClk := false, devFaultN := false },
      pac := { s3.pac with stripe := none },
      swl := { s3.swl with flight := none, lanes := s3.swl.lanes.map (fun (p : Nat × Lane) => (p.1, { p.2 with queue := [] })) },
      hst := { s3.hst with fetchLen := 0 },
      twn := { s3.twn with link := .disabled, tables := [] },
      chk := { s3.chk with scans := [], waits := [], loads := [] },
      tim := { s3.tim with launches := [], sent := [], aborts := [] }, obs := { s3.obs with timed := none }, readbacks := [] }
    (s4.hst.inflight.map Cmd.id).foldl (fun s id => complete id fatalStatus [] s) (fatalTable fatalStatus s4)

/-- A FATAL cause that leaves CK_HK running. -/
def goFatal (cause unit fatalStatus : Nat) (s : State) : State := fatalBy true cause unit fatalStatus s

end Sys2Proof.Machine
end

