-- ==== Sys2Proof/Machine/Encoder.lean ====
section
/-! DEFINITION. Stage feedback (06): phase and count, position samples, faults, speed, slot targets, compare units,
calibration windows and slews, and the operations behind the ENC registers. -/

namespace Sys2Proof.Machine

def encOff (n o : Nat) : Nat := 0x70000 + 0x100 * n + o
def encCfg (s : State) (n : Nat) : Nat := regGet s (encOff n 0)
def encEn (s : State) (n : Nat) : Bool := bitAt (encCfg s n) 0

/-! ### Phase (R201, R202) -/

/-- π in units of 2⁻²⁰⁰. -/
def piFix : Nat := 5048344754617993871973410141242436836214643421488662971535368

/-- Taylor terms of sine or cosine in units of 2⁻²⁰⁰: angle, term, next divisor, terms left. -/
def taylor : Nat → Int → Int → Int → Nat → Int
  | 0, _, _, acc, _ => acc
  | n + 1, x2, term, acc, k => let t := -(term * x2 / 2 ^ 200) / ((k : Int) * (k + 1)); taylor n x2 t (acc + t) (k + 2)

/-- sin and cos of i·2π/4096. -/
def sinFix (i : Nat) : Int := let x : Int := (piFix : Int) * i / 2048; taylor 40 (x * x / 2 ^ 200) x x 2
def cosFix (i : Nat) : Int := let x : Int := (piFix : Int) * i / 2048; taylor 40 (x * x / 2 ^ 200) (2 ^ 200) (2 ^ 200) 1

/-- ⌊4,096·φ/2π⌋ of an angle in the first quadrant, s ≥ 0 and c > 0: the largest i with s·cos θᵢ ≥ c·sin θᵢ. The
margin takes up the error of the series, so that 45° itself counts (DESIGN CHOICE, log 22). -/
def octant : Nat → Int → Int → Nat → Nat
  | 0, _, _, lo => lo
  | n + 1, s, c, lo => let m := lo + 2 ^ n; octant n s c (if s * cosFix m + 2 ^ 80 ≥ c * sinFix m then m else lo)

/-- q of a corrected pair (R202). -/
def phaseOf (s c : Int) : Nat :=
  if s ≥ 0 ∧ c > 0 then octant 10 s c 0
  else if c ≤ 0 ∧ s > 0 then 1024 + octant 10 (-c) s 0
  else if s ≤ 0 ∧ c < 0 then 2048 + octant 10 (-s) (-c) 0
  else if c ≥ 0 ∧ s < 0 then 3072 + octant 10 c (-s) 0
  else 0

/-- Corrected pair (s′, c′) in units of 2⁻³⁰ (R201). -/
def corrected (k : Coef) (p : EncPair) : Int × Int :=
  let u := (4 * p.c.toInt - k.oc) * k.gc
  let w := (4 * p.s.toInt - k.os) * k.gs
  (k.pa * w + k.pb * u, u * 16384)

def radiusSq (sc : Int × Int) : Nat := (sc.1 * sc.1 + sc.2 * sc.2).toNat
def radiusOk (sc : Int × Int) : Bool := let r := radiusSq sc; decide ((3277 * 2 ^ 30) ^ 2 ≤ r ∧ r ≤ (13107 * 2 ^ 30) ^ 2)

/-- Change of q between samples, wraps taken out, in (−2,048, 2,048] (R202). -/
def phaseStep (q0 q1 : Nat) : Int :=
  let d : Int := (q1 : Int) - q0
  if d > 2048 then d - 4096 else if d < -2048 then d + 4096 else d

/-! ### Position samples (R203) -/

/-- P̂ at the CK_ENC edge `off` cycles after the instant of the latest measured sample. -/
def EncCh.posAt (x : EncCh) (off : Nat) : Nat :=
  let pk := x.hist.getD 4 0
  let pk4 := x.hist.getD 8 0
  ((((pk : Int) + posDiff pk pk4 * off / 16) % (2 ^ 48 : Int))).toNat

/-- The position sample that registers show: at the latest edge. -/
def EncCh.pos (x : EncCh) : Nat := x.posAt 19

def encPos (s : State) (n : Nat) : Nat := (encGet s n).pos

/-! ### Speed (R207 to R211) -/

/-- Restart of the speed measurement. -/
def EncCh.speedReset (x : EncCh) : EncCh := { x with spdValid := false, spd := 0, spdDelta := 0, lastUp := none, edges := [] }

/-- The speed a read shows now (R208, R209). -/
def speedNow (s : State) (n : Nat) : Nat :=
  let x := encGet s n
  let et := s.tim.core - x.lastStamp
  if ¬ x.spdValid then 0
  else if et > x.spdDelta then 2 ^ bits (encCfg s n) 12 8 * 1250000000 / max 1 et
  else x.spd

/-- SPEED_EDGE: the oldest waiting edge is stamped in CK_CORE cycle `cycle` of the present tick; the interval is the difference of two stamps
(R208 to R210). -/
def speedEdge (n cycle : Nat) (s : State) : State :=
  let x := encGet s n
  let stamp := s.tim.core + cycle
  let interval := stamp - x.lastStamp
  match x.edges with
  | [] => s
  | (m, up) :: t =>
    let x0 := { x with edges := t, still := false, lastUp := some up, lastStamp := stamp, spdDown := !up }
    let x1 := match x.lastUp with
      | some d =>
        if d = up ∧ interval > 0 then { x0 with spdValid := true, spdDelta := interval, spd := m * 2 ^ bits (encCfg s n) 12 8 * 1250000000 / interval }
        else { x0 with spdValid := false, spd := 0 }
      | none => { x0 with spdValid := false, spd := 0 }
    cntEnc 1 (some n) 1 (encSet s n x1)

/-! ### Calibration (R224 to R231) -/

/-- Settings of ENCn_CAL_CTRL. -/
def calCtrl (s : State) (n : Nat) : Nat := regGet s (encOff n 0x40)
def calPeriods (s : State) (n : Nat) : Nat := max 64 (calCtrl s n / 65536)

/-- Open a continuous window when the mode asks for one and none runs (R227, R229). -/
def reopen (n : Nat) (s : State) : State :=
  let x := encGet s n
  if calCtrl s n % 4 = 1 ∧ x.window.isNone ∧ x.slew.isNone then encSet s n { x with window := some { periods := calPeriods s n } } else s

/-- Accepted coefficients: held under FREEZE during a stripe, else slewed in (R227, R229). (DEDUCED, log 56.) -/
def applyCoef (n : Nat) (c : Coef) (cmd : Option Nat) (s : State) : State :=
  let x := encGet s n
  let s0 := calDone x.slewCmd n 0 s
  let x := encGet s0 n
  if bitAt (calCtrl s n) 2 ∧ stripeHolds s then calDone cmd n 5 (encSet s0 n { x with heldCoef := some c })
  else encSet s0 n { x with slew := some (x.coef, c, 0), slewCmd := cmd }

/-- Coefficient at sample i of a slew (R227). -/
def slewAt (a b : Coef) (i : Nat) : Coef :=
  let f (x y : Int) : Int := x + (y - x) * i / 4096
  { oc := f a.oc b.oc, os := f a.os b.os, gc := f a.gc b.gc, gs := f a.gs b.gs, pa := f a.pa b.pa, pb := f a.pb b.pb }

/-- round(√(a/b)) for b > 0, at most the largest value of a Q2.14 field (DEDUCED, log 109). -/
def sqrtRatio (a b : Nat) : Nat := min 65535 ((isqrt (4 * a / b) + 1) / 2)

/-- round(a/b) for b > 0, halves upwards. -/
def roundDiv (a b : Int) : Int := (2 * a + b) / (2 * b)

/-- R225, R226: new coefficients, or the outcome 2 (amplitude) or 3 (phase) of a rejection. -/
def fitWindow (w : Window) : Nat ⊕ Coef :=
  let M := w.n
  let vc := (M * w.scc - w.sc * w.sc).toNat
  let vs := (M * w.sss - w.ss * w.ss).toNat
  let cov := M * w.ssc - w.ss * w.sc
  let c2 := (cov * cov).toNat
  let X := vc * vs
  let ampOk (v : Nat) : Bool := decide (2048 ^ 2 * M * M ≤ 2 * v ∧ 2 * v ≤ 8192 ^ 2 * M * M)
  if ¬ (ampOk vc && ampOk vs) then .inl 2
  else if 4 * c2 > 2 * X ∨ 3 * X * X > (2 * X - 4 * c2) ^ 2 then .inl 3
  else .inr
    { oc := roundDiv (4 * w.sc) M, os := roundDiv (4 * w.ss) M,
      gc := sqrtRatio ((2 ^ 27 * M) ^ 2) (2 * vc), gs := sqrtRatio ((2 ^ 27 * M) ^ 2) (2 * vs),
      pa := sqrtRatio (2 ^ 28 * X) (X - c2),
      pb := let r : Int := sqrtRatio (2 ^ 28 * c2) (X - c2); if cov > 0 then -r else r }

/-- A sample enters the open window (R224): q, step, raw pair. -/
def Window.take (w : Window) (q : Nat) (wrap : Option Bool) (turn : Bool) (p : EncPair) : Window :=
  if w.counted ≥ w.periods then w
  else
    let w0 : Window := if turn then { w with bins := [], up := none } else w
    let w1 : Window := match wrap with
      | none => w0
      | some d =>
        if w0.up = some d ∧ w0.bins.length = 64 then
          let vs := w0.bins.map Prod.snd
          { w0 with counted := w0.counted + 1, bins := [], n := w0.n + 64,
                    sc := w0.sc + (vs.map Prod.snd).sum, ss := w0.ss + (vs.map Prod.fst).sum,
                    scc := w0.scc + (vs.map (fun v => v.2 * v.2)).sum, sss := w0.sss + (vs.map (fun v => v.1 * v.1)).sum,
                    ssc := w0.ssc + (vs.map (fun v => v.1 * v.2)).sum }
        else { w0 with bins := [], up := some d }
    if w1.up.isNone ∨ thas w1.bins (q / 64) then w1
    else { w1 with bins := tput w1.bins (q / 64) (p.s.toInt, p.c.toInt) }

/-! ### One ADC sample of a channel (R200 to R206) -/

/-- Tracking fault (R206). -/
def trackFault (n cause : Nat) (s : State) : State :=
  let x := encGet s n
  let x1 := { x.speedReset with posValid := false, faulted := true, signal := x.signal || cause == 1, overspeed := x.overspeed || cause == 2,
                                window := if x.measure.isSome then none else x.window.map (fun w => { w with bins := [], up := none }), measure := none }
  let x2 := if x.measure.isSome then { x1 with calLast := 4 } else x1
  raiseItems 0x0701 4 [(1, n), (1, cause)] (calDone x.measure n 4 (reopen n (encSet s n x2)))

/-- A sample of a channel, first part: coefficients of the slew, phase, radius, saturation (R201, R206, R227); the phase before, and whether the
radius has been bad four times. -/
def sampleRaw (x : EncCh) (p : EncPair) : EncCh × Bool :=
  let k := match x.slew with
    | some (a, b, i) => slewAt a b (min 4096 (i + 1))
    | none => x.coef
  let sc := corrected k p
  let sat := p.s = 0x1FFF ∨ p.s = 0x2000 ∨ p.c = 0x1FFF ∨ p.c = 0x2000
  let bad := if radiusOk sc then 0 else x.badRadius + 1
  let radii := (isqrt (radiusSq sc) / 2 ^ 30 :: x.radii).take 4096
  ({ x with coef := k, slew := x.slew.map (fun (a, b, i) => (a, b, min 4096 (i + 1))), adcSat := x.adcSat || decide sat,
            badRadius := min 4 bad, radii := radii, radius := radii.sum / radii.length, q := some (phaseOf sc.1 sc.2) }, decide (bad ≥ 4))

/-- The window takes a sample whose phase was q0 before and is q now (R224). -/
def sampleWindow (x : EncCh) (q0 : Option Nat) (q : Nat) (p : EncPair) : Option Window :=
  let d : Int := match q0 with
    | some a => phaseStep a q
    | none => 0
  let wrap : Option Bool := match q0 with
    | some a => if (q : Int) - a > 2048 then some false else if (q : Int) - a < -2048 then some true else none
    | none => none
  let turn := match x.window.bind (fun w => w.up) with
    | some u => (u && decide (d < 0)) || (!u && decide (d > 0))
    | none => false
  if x.slew.isSome then x.window.map (fun w => { w with bins := [], up := none }) else x.window.map (fun w => w.take q wrap turn p)

/-- Sample a channel: phase, count, load, faults, window, slew (R200 to R206). The fault tests and the window take every sample; a load is
judged by the tracking limits of its sample. (DEDUCED, log 49.) (DEDUCED, log 50.) -/
def sampleCh (n : Nat) (p : EncPair) (s : State) : State :=
  let x := encGet s n
  if ¬ encEn s n then encSet s n { x with hist := (x.count :: x.hist).take 9, calm := min 9 (x.calm + 1) }
  else
    let (x1, low) := sampleRaw x p
    let q := x1.q.getD 0
    let d : Int := match x.q with
      | some a => phaseStep a q
      | none => 0
    let fast := decide (d ≥ 1536 ∨ d ≤ -1536)
    let fault := low || fast
    let d' := if bitAt (encCfg s n) 1 then -d else d
    let c := match x.preset with
      | some v => v
      | none => if x.q.isNone then x.count / 4096 * 4096 + q
                else if x.faulted ∨ fault then x.count
                else (((x.count : Int) + d') % (2 ^ 48 : Int)).toNat
    let x2 := { x1 with count := c, hist := (c :: x.hist).take 9, calm := min 9 (x.calm + 1) }
    let x3 : EncCh := match x.preset with
      | some _ => { x2.speedReset with preset := none, calm := 0, posValid := !fault && x1.badRadius == 0, faulted := x.faulted && fault }
      | none => { x2 with calm := if x.q.isNone then 0 else x2.calm }
    if x3.faulted then encSet s n x3
    else if fault then trackFault n (if fast then 2 else 1) (encSet s n x3)
    else encSet s n { x3 with window := sampleWindow x x.q q p }

/-- The speed edges at one CK_ENC edge: the position sample moved from `a` to `b`; a jump of the count is no crossing (R205, R207; DEDUCED,
log 49). -/
def edgesAt (s : State) (n a b : Nat) : State :=
  let k := bits (encCfg s n) 12 8
  let w := 2 ^ (48 - k)
  let d : Int := signed (48 - k) ((b / 2 ^ k + w - a / 2 ^ k % w) % w)
  if d = 0 ∨ (encGet s n).calm < 9 then s
  else
    let x := encGet s n
    encSet s n { x with edges := x.edges ++ [(d.natAbs, decide (d > 0))] }

/-! ### Compare units (R221 to R223) -/

def cmpCtrl (s : State) (k : Nat) : Nat := regGet s (0x70500 + 0x20 * k)

/-- Channel position is at or beyond the target in the unit's direction. -/
def cmpHit (s : State) (k pos : Nat) : Bool :=
  let t := (cmpGet s k).tgt
  if bitAt (cmpCtrl s k) 3 then atOrBeyond t pos else atOrBeyond pos t

/-- One position sample for a compare unit: one that was armed, or given its target, at or beyond it fires wherever the sample lies (R222). -/
def cmpSample (k pos : Nat) (s : State) : State :=
  let u := cmpGet s k
  let n := bits (cmpCtrl s k) 5 4
  if u.armed ∧ (encGet s n).posValid ∧ (u.behind ∨ cmpHit s k pos) then
    let t := nowA s
    raiseItems 0x0705 0 [(1, k), (8, pos)]
      (cmpSet s k { u with armed := false, fired := true, late := u.late || u.behind, behind := false, sec := secOf t, ns := nsOf t })
  else s

/-- Arm a compare unit (CMPk_CTRL.ARM). -/
def cmpArmOp (k : Nat) (s : State) : State :=
  let u := cmpGet s k
  let n := bits (cmpCtrl s k) 5 4
  cmpSet s k { u with armed := true, behind := (encGet s n).posValid && cmpHit s k (encPos s n) }

def cmpDisarmOp (k : Nat) (s : State) : State := cmpSet s k { cmpGet s k with armed := false, behind := false }

/-- A write of CMPk_TGT_HI commits the target (R222). -/
def cmpCommit (k hi : Nat) (s : State) : State :=
  let u := cmpGet s k
  let n := bits (cmpCtrl s k) 5 4
  let s1 := cmpSet s k { u with tgt := hi % 65536 * 2 ^ 32 + regGet s (0x70508 + 0x20 * k) }
  if u.armed then cmpSet s1 k { cmpGet s1 k with behind := (encGet s n).posValid && cmpHit s1 k (encPos s n) } else s1

/-! ### Slot targets (R213 to R216) -/

/-- The accumulator step: target and fraction of the next slot. -/
def nextTarget (st : Stripe) : Nat × Nat :=
  let f := st.tgtFrac + st.cpp % 2 ^ 32
  ((st.tgt + st.cpp / 2 ^ 32 + f / 2 ^ 32) % 2 ^ 48, f % 2 ^ 32)

/-- T_n and its fraction. -/
def targetOf (st : Stripe) (n : Nat) : Nat × Nat :=
  ((st.adm.y0 + n * st.cpp / 2 ^ 32) % 2 ^ 48, n * st.cpp % 2 ^ 32)

/-- The issue edge of the current target (R214). -/
def issueEdge (st : Stripe) (due : Nat) : Nat := match st.lastIssue with
  | some e => max due (e + 25)
  | none => due

/-- The slot compare at one CK_ENC edge: due at or beyond the target unless ENC0 moves in −Y, and a target whose issue edge has not come is
held while it does (R28, R214, R216). (DEDUCED, log 110.) -/
def slotCompare (e pos : Nat) (down : Bool) (st : Stripe) : Stripe :=
  if down then (if st.due.any (fun d => decide (issueEdge st d ≥ e)) then { st with due := none } else st)
  else if st.trigArmed ∧ st.due.isNone ∧ e ≥ st.tgtFrom ∧ atOrBeyond pos st.tgt then { st with due := some e }
  else st

/-- One CK_ENC edge for the slot compare and the reversal check: EV_ENC_REVERSE each time ENC0 falls more than one cpp below the last issued
target (R216). -/
def targetAt (e pos : Nat) (s : State) : State := match s.pac.stripe with
  | none => s
  | some st0 =>
    let st := slotCompare e pos s.enc.down st0
    let below := st.lastSlot.isSome && decide (posDiff (targetOf st (st.nextSlot - 1)).1 pos * 2 ^ 32 > (st.cpp : Int))
    let s1 := setStripe { st with reversed := below } s
    if below ∧ ¬ st.reversed then raiseItems 0x0703 1 [(4, st.nextSlot), (8, pos)] s1 else s1

/-! ### Checks on every position sample (R186, R218, R232) -/

def vlimLo (s : State) : Nat := regGet s 0x6001C % 65536 * 2 ^ 32 + regGet s 0x60018
def vlimHi (s : State) : Nat := regGet s 0x60024 % 65536 * 2 ^ 32 + regGet s 0x60020

/-- EV_VLIMIT_OVERRUN once per stripe. -/
def raiseOverrun (pos limit : Nat) (s : State) : State := match s.pac.stripe with
  | none => s
  | some st =>
    if st.overrunRaised then s
    else raiseItems 0x0605 4 [(8, pos), (8, limit)]
      (setStripe { st with overrunRaised := true } { s with pac := { s.pac with overrun := true } })

/-- ENC0 reads beyond a limit while a profile runs (R186): `pos` is its position sample. -/
def limitCheck (pos : Nat) (s : State) : State := match s.pac.stripe with
  | none => s
  | some st =>
    let x := encGet s 0
    if ¬ (st.state.moving || st.state == .stopping) ∨ ¬ x.posValid then s
    else if posDiff pos (vlimHi s) > 0 then abortRunning 2 none true true (raiseOverrun pos (vlimHi s) s)
    else if posDiff (vlimLo s) pos > 0 then abortRunning 2 none true true (raiseOverrun pos (vlimLo s) s)
    else s

/-- Cross-checks of R218 on the position samples `p` of one edge; a fault of ENC1 or ENC3 since STRIPE_ARM suspends its check (R232). -/
def crossCheck (p : List Nat) (s : State) : State := match s.pac.stripe with
  | none => s
  | some st =>
    if ¬ (st.state.moving || st.state == .stopping) then s
    else
      let ctl := regGet s 0x70424
      let tol := regGet s 0x70420
      let dy := posDiff ((p.getD 0 0 + 2 ^ 48 - p.getD 1 0) % 2 ^ 48) st.dY
      let dx := posDiff ((p.getD 2 0 + 2 ^ 48 - p.getD 3 0) % 2 ^ 48) st.dX
      let s1 := if bitAt ctl 1 ∧ ¬ st.suspX ∧ ¬ st.failX ∧ dx.natAbs > tol then
        raiseItems 0x0704 4 [(1, 1), (8, unsigned 64 dx)] (setStripe { st with failX := true } s) else s
      if bitAt ctl 0 ∧ ¬ st.suspY ∧ ¬ st.failY ∧ dy.natAbs > tol then
        match s1.pac.stripe with
        | some st1 =>
          let s2 := raiseItems 0x0704 4 [(1, 0), (8, unsigned 64 dy)] (setStripe { st1 with failY := true } s1)
          if bitAt ctl 2 then abortFault s2 else s2
        | none => s1
      else s1

/-- A tracking fault of channel n between two states. -/
def newFault (before after : State) (n : Nat) : Bool := !(encGet before n).faulted && (encGet after n).faulted

/-- R232: a tracking fault of ENC1 or ENC3 suspends its cross-check; one of ENC0 ends the triggers of a stripe and aborts it. -/
def encFaultStripe (before after : State) : State := match after.pac.stripe with
  | none => after
  | some st =>
    let st1 := { st with suspY := st.suspY || newFault before after 1, suspX := st.suspX || newFault before after 3 }
    if ¬ newFault before after 0 then setStripe st1 after
    else
      let s1 := setStripe { st1 with trigArmed := false, due := none } after
      if st.state.moving then abortFault s1
      else if st.state ≠ .stopping then abortOrDiscardFree 4 true true s1
      else s1

/-- One CK_ENC edge: all readers of the positions (`off` = e − t_k; `prev`: the position samples one edge before). (DEDUCED, log 51.) -/
def encEdge (off : Nat) (prev : List Nat) (s : State) : List Nat × State :=
  let now := (List.range 4).map (fun n => (encGet s n).posAt off)
  let dir := posDiff (now.getD 0 0) (prev.getD 0 0)
  let s0 := { s with enc := { s.enc with edge := s.enc.edge + 1, down := if dir = 0 then s.enc.down else decide (dir < 0) } }
  let s1 := (List.range 4).foldl (fun s n => if encEn s n then edgesAt s n (prev.getD n 0) (now.getD n 0) else s) s0
  let s2 := (List.range 4).foldl (fun s k => cmpSample k (now.getD (bits (cmpCtrl s k) 5 4) 0) s) s1
  (now, crossCheck now (limitCheck (now.getD 0 0) (targetAt s2.enc.edge (now.getD 0 0) s2)))

/-! ### Register operations of the block -/

/-- ENCn_PRESET_HI.LOAD (R205). -/
def presetLoad (n : Nat) (s : State) : State :=
  let x := encGet s n
  let v := regGet s (encOff n 0x1C) % 65536 * 2 ^ 32 + regGet s (encOff n 0x18)
  if (n = 0 ∨ n = 2) ∧ s.pac.stripe.any (fun st => st.state.live) then encSet s n { x with loadRefused := true }
  else encSet s n { x with preset := some v }

/-- A change of ENCn_CFG.EN (R202): clearing it clears POS_VALID and ends a period half filled (R224); the next first sample takes its phase, and
from then on the count follows motion, also after a tracking fault. -/
def encEnable (n : Nat) (was : Bool) (s : State) : State :=
  let x := encGet s n
  if encEn s n then (if was then s else encSet s n { x with q := none, faulted := false, badRadius := 0 })
  else encSet s n { x with posValid := false, q := none, window := x.window.map (fun w => { w with bins := [], up := none }) }

end Sys2Proof.Machine
end

