-- ==== Sys2Proof/Machine/Ring.lean ====
section
/-! DEFINITION. The command ring and the DMA chains (R364 to R391): polls, fetches, the start of commands, chain states,
descriptors, bursts, and the end of a descriptor. -/

namespace Sys2Proof.Machine

/-! ### Outcomes of a command of the block -/

/-- The command took place. -/
def ok (s : State) : Host.Outcome State Fault Refusal := .next s

/-- A data operand must have the length of the access it answers (DESIGN CHOICE, log 1). -/
def withLen (data : List Byte) (n : Nat) (k : State) : Host.Outcome State Fault Refusal :=
  if data.length = n then .next k else .fault (.malformed "data length")

/-! ### Command entries (R367, R376) -/

/-- Parameter field of a command. -/
def Cmd.p (c : Cmd) (o n : Nat) : Nat := fld c.params o n

/-- A reserved field outside the parameters the command defines, or FENCE's neighbours, is not 0 (R376). -/
def Cmd.reserved (c : Cmd) (used : Nat) : Bool := decide (c.flags ≥ 2) || !allZero c.rsv || !allZero (c.params.drop used)

/-- A reserved field of the entry's head is not 0 (R376). -/
def Cmd.headBad (c : Cmd) : Bool := decide (c.flags ≥ 2) || !allZero c.rsv
/-- A parameter byte that the command does not define is not 0. -/
def Cmd.tailBad (c : Cmd) (used : Nat) : Bool := !allZero (c.params.drop used)

/-- The started command `id` of an opcode. (DESIGN CHOICE, log 26.) -/
def cmdOp (s : State) (id op : Nat) : Option Cmd :=
  match cmdFind s id with
  | some c => if c.opcode = op ∧ c.phase = .started then some c else none
  | none => none

/-- A ring entry as fetched. -/
def parseCmd (id : Nat) (e : List Byte) : Cmd :=
  { id := id, opcode := fld e 0 1, flags := fld e 1 1, tag := fld e 2 2, rsv := (e.drop 4).take 12, params := (e.drop 16).take 48, phase := .waiting }

/-- Commands before `id` in ring order. -/
def earlier (s : State) (id : Nat) : List Cmd := s.hst.inflight.filter (fun c => decide (c.id < id))

/-- What delays a command no longer holds (R369): FENCE, one table command at a time (R162), a table command behind
a READBACK (R394), four scans (R356). -/
def mayStart (s : State) (c : Cmd) : Bool :=
  let before := earlier s c.id
  let table (d : Cmd) : Bool := d.opcode == 6 || d.opcode == 7
  (c.flags % 2 == 0 || before.isEmpty) &&
  (!table c || !(before.any (fun d => table d || d.opcode == 9))) &&
  (c.opcode ≠ 8 || (decide ((before.filter (fun d => d.opcode == 8)).length < 4) && !(before.any (fun d => d.opcode == 8 && d.phase == .waiting))))

/-- Start a command; an unknown opcode completes at once. -/
def startCmd (id : Nat) (s : State) : State :=
  let s1 := { s with hst := { s.hst with inflight := s.hst.inflight.map (fun c => if c.id = id then { c with phase := .started } else c) } }
  match cmdFind s1 id with
  | some c => if c.opcode > 0x0E then complete id 1 [] s1 else s1
  | none => s1

/-! ### Host accesses (R359) -/

/-- Max read request size in bytes. -/
def maxRead (s : State) : Nat := min 4096 (128 * 2 ^ s.hst.mrrs)

/-- Read requests for a range, none longer than the max read request size (Table 10-1). -/
def readGo (mx : Nat) : Nat → Nat → Nat → List Output
  | 0, _, _ => []
  | fuel + 1, a, n => if n = 0 then [] else .hostRead a (min mx n) :: readGo mx fuel (a + min mx n) (n - min mx n)

def readHost (a n : Nat) (s : State) : State := emitAll (readGo (maxRead s) (n + 1) a n) s

/-- A data write to host memory, with the relaxed-ordering attribute under RO_DATA (Table 10-1). -/
def writeHost (a : Nat) (bs : List Byte) (s : State) : State :=
  emit (if bitAt (regGet s 0x10000) 2 then .hostWriteRo a bs else .hostWrite a bs) s

/-! ### Fetching (R368) -/

/-- Issue the next fetch read, when one may be issued. -/
def issueFetch (s : State) : State :=
  let size := cmdSize s
  let gap := (s.hst.cmdTail + size - s.hst.head % size) % size
  if hstEn s ∧ s.hst.polled ∧ linkLive s ∧ s.hst.fetchLen = 0 ∧ ¬ s.glb.fatal ∧ s.hst.hold.length < 512 ∧
     s.hst.inflight.length < 32 ∧ gap > 0 then
    let n := min (min (min 8 gap) (maxRead s / 64)) (min (32 - s.hst.inflight.length) (size - s.hst.head))
    emit (.hostRead (regPair s 0x10008 0x1000C + 64 * s.hst.head) (64 * n)) { s with hst := { s.hst with fetchLen := n } }
  else s

/-- Take one fetched entry into progress. -/
def acceptEntry (e : List Byte) (s : State) : State :=
  let c := parseCmd s.hst.nextId e
  let s1 := cntHst 1 none 1 { s with hst := { s.hst with
    inflight := s.hst.inflight ++ [c], nextId := s.hst.nextId + 1, head := (s.hst.head + 1) % cmdSize s } }
  if mayStart s1 c then startCmd c.id s1 else s1

/-- The 64-byte entries of a fetch. -/
def entriesOf : Nat → List Byte → List (List Byte)
  | 0, _ => []
  | n + 1, bs => bs.take 64 :: entriesOf n (bs.drop 64)

/-! ### Chains (R380 to R389) -/

def chBase (c : Nat) : Nat := 0x11000 + 0x40 * c
def chCtrl (s : State) (c : Nat) : Nat := regGet s (chBase c)
def chEn (s : State) (c : Nat) : Bool := bitAt (chCtrl s c) 0
def chAlgo (s : State) (c : Nat) : Nat := bits (chCtrl s c) 5 4
def chHead (s : State) (c : Nat) : Nat := regPair s (chBase c + 8) (chBase c + 0xC)
def kickOf (s : State) (c : Nat) : Nat := tget s.hst.kicks c 0

/-- A descriptor as read (Table 10-9). -/
def parseDesc (b : List Byte) : Desc :=
  { next := fld b 0 8, src := fld b 8 8, dst := fld b 0x10 8, lineLen := fld b 0x18 4, lineCount := fld b 0x1C 4,
    srcStride := fld b 0x20 4, dstStride := fld b 0x24 4, control := fld b 0x28 2, user := fld b 0x2C 4 }

def Desc.dir (d : Desc) : Nat := d.control % 4
def Desc.crcEn (d : Desc) : Bool := bitAt d.control 8
def Desc.crcReset (d : Desc) : Bool := bitAt d.control 9
def Desc.crcStore (d : Desc) : Bool := bitAt d.control 10
def Desc.irq (d : Desc) : Bool := bitAt d.control 11
def Desc.last (d : Desc) : Bool := bitAt d.next 0
def Desc.nextAddr (d : Desc) : Nat := d.next / 64 * 64
def Desc.srcLoft (d : Desc) : Bool := d.dir ≠ 0
def Desc.dstLoft (d : Desc) : Bool := d.dir ≠ 1
/-- Length of a range of lines from its first byte to its last. -/
def Desc.span (d : Desc) (stride : Nat) : Nat := (d.lineCount - 1) * stride + d.lineLen

/-- Bytes that the stored CRC takes (R387). -/
def Desc.crcBytes (s : State) (c : Nat) (d : Desc) : Nat := if d.crcStore then crcWidth (chAlgo s c) / 8 else 0

/-- R382, case 2. (DEDUCED, log 35.) -/
def descFormat (b : List Byte) : Bool :=
  let d := parseDesc b
  d.dir == 3 || bits d.next 5 1 != 0 || bits d.control 15 12 != 0 || bits d.control 7 2 != 0 || fld b 0x2A 2 != 0 || fld b 0x30 8 != 0 ||
  d.lineLen == 0 || decide (d.lineLen > 16777216) || d.lineCount == 0 || decide (d.lineCount > 16777216) ||
  (decide (d.lineCount > 1) && decide (d.dstStride < d.lineLen)) ||
  (d.dir == 2 && overlaps d.src (d.span d.srcStride) d.dst (d.span d.dstStride))

/-- The ranges held under R98 (from acceptance, R391). -/
def heldRanges (s : State) : List (Nat × Nat) :=
  let of (a : Admission) : List (Nat × Nat) := [(a.sheaf, a.sheafLen), (a.bin, a.binLen)]
  (match s.pac.adm with
    | some a => if a.hold then of a else []
    | none => []) ++
  (match s.pac.stripe with
    | some st => of st.adm
    | none => [])

/-- A line of the destination, or the stored CRC, overlaps a range. -/
def Desc.writesIn (d : Desc) (tail a n : Nat) : Bool :=
  overlaps d.dst (d.span d.dstStride + tail) a n &&
  ((List.range d.lineCount).any (fun i => overlaps (d.dst + i * d.dstStride) d.lineLen a n) ||
   overlaps (d.dst + d.span d.dstStride) tail a n)

/-- A write of lines overlaps a held range (R382, case 4). -/
def linesHeld (s : State) (d : Desc) (tail : Nat) : Bool := (heldRanges s).any (fun (a, n) => d.writesIn tail a n)

/-- The status with which R382, or R393 for an owned chain, ends a descriptor before it moves a byte. -/
def descCheck (s : State) (c : Nat) (b : List Byte) : Nat :=
  let d := parseDesc b
  let tail := d.crcBytes s c
  if descFormat b then 0x11
  else if (d.srcLoft ∧ d.src + d.span d.srcStride > loftBytes s) ∨ (d.dstLoft ∧ d.dst + d.span d.dstStride + tail > loftBytes s) then 0x12
  else if d.dstLoft ∧ linesHeld s d tail then 0x15
  else match (chainGet s c).owner with
    | some id => match cmdFind s id with
      | some cmd =>
        let base := cmd.p 8 8
        if d.dir ≠ 0 ∨ d.dst < base ∨ d.dst + d.span d.dstStride + tail > base + 2 ^ 40 then 0x17 else 0
      | none => 0
    | none => 0

/-- Run a chain at a descriptor: its read is issued. -/
def startDesc (c addr : Nat) (s : State) : State :=
  let x := chainGet s c
  emit (.hostRead addr 64) (chainSet s c { x with
    state := .run, cur := addr, desc := none, reading := true, rereading := false, kickAtRead := kickOf s c, line := 0, off := 0,
    burst := none, got := [], landed := false, crcStored := false, withdrawn := false, done := 0, srcUe := false, failed := false })

/-- Write the status of the current descriptor and account it (Table 10-9). -/
def endStatus (c status : Nat) (s : State) : State :=
  let x := chainGet s c
  cntHst 6 (some c) 1 (emit (.hostWrite (x.cur + 0x38) (le 8 (x.done * 65536 + status * 256 + 1)))
    (chainSet s c { x with last := status, descs := x.descs + 1, moved := x.moved + x.done }))

/-- The result of a SHEAF_LOAD (Table 10-16). -/
def sheafResult (x : Chain) (len tag crc status : Nat) : List Byte := le 8 len ++ le 8 tag ++ le 8 x.moved ++ le 4 crc ++ le 4 x.descs ++ le 1 status

/-- Step 3 of R393 for an owned chain that a descriptor stopped. -/
def ownerStopped (c status : Nat) (s : State) : State :=
  let x := chainGet s c
  match x.owner with
  | none => s
  | some id => complete id 0x41 (sheafResult x 0 0 0 status) (chainSet s c { x with owner := none })

/-- R389: the chain enters STOPPED. -/
def stopChain (c status : Nat) (s : State) : State :=
  let s1 := endStatus c status s
  let x := chainGet s1 c
  let s2 := raiseItems 0x0102 1 [(1, c), (1, status), (8, x.cur), (4, x.user)]
    (signal (2 + c) (chainSet s1 c { x with state := .stopped, reading := false, rereading := false, burst := none, got := [], landed := false, desc := none }))
  ownerStopped c status s2

/-- R385: the chain is withdrawn; the descriptor under way ends with ABORTED. -/
def withdrawChain (c : Nat) (s : State) : State :=
  let x := chainGet s c
  let s1 := if x.state = .run then endStatus c 0x16 s else s
  let y := chainGet s1 c
  ownerStopped c 0x16 (chainSet s1 c { y with state := .idle, reading := false, rereading := false, burst := none, got := [], landed := false, desc := none, withdrawn := false })

/-! ### Memory scans of the CHK units (R356, R357, R392) -/

/-- The lowest CHK unit without a scan. (DESIGN CHOICE, log 38.) -/
def freeUnit (s : State) : Option Nat := (List.range 4).find? (fun k => !thas s.chk.scans k)

def scanPut (k : Nat) (x : Scan) (s : State) : State := { s with chk := { s.chk with scans := tput s.chk.scans k x } }

/-- The result of a SHEAF_LOAD (Table 10-16). -/
def Load.result (x : Load) (len crc : Nat) : List Byte :=
  le 8 len ++ le 8 (fld x.header 0x18 8) ++ le 8 x.moved ++ le 4 crc ++ le 4 x.descs ++ le 1 0

def loadFind (s : State) (id : Nat) : Option Load := s.chk.loads.find? (fun x => x.cmd == id)
def loadDrop (id : Nat) (s : State) : State := { s with chk := { s.chk with loads := s.chk.loads.filter (fun x => x.cmd != id) } }

/-- The end of the command whose scan has ended (Tables 9-7, 9-8, 10-16, 10-17); an admission takes its body check itself. -/
def scanResult (x : Scan) (s : State) : State :=
  let crc := crcFinish x.algo x.crc
  if x.owner = 1 then
    complete x.cmd (if x.stopped then 0x43 else if x.expect.any (fun e => e != crc) then 0x42 else 0)
      (le 8 crc ++ le 4 x.ce ++ le 4 x.ue ++ le 8 x.first) s
  else match loadFind s x.cmd with
    | none => s
    | some l => complete x.cmd (if x.ue > 0 then 5 else if crc = fld l.header 0x50 4 then 0 else 0x44) (l.result (fld l.header 0x20 8) crc) (loadDrop x.cmd s)

/-- A unit whose scan has not ended reads its next block; the body check of an admission goes with the admission's own read (log 42). -/
def scanRead (k : Nat) (x : Scan) (s : State) : State :=
  queueRead { rank := 3, client := if x.owner = 1 then 4 else if x.owner = 2 then 1 else 3, addr := 64 * x.next,
              who := if x.owner = 3 then .admission else .scan k } s

/-- A scan takes a unit. -/
def scanTake (k : Nat) (x : Scan) (s : State) : State := scanRead k x (scanPut k x s)

/-- A unit is free again; the oldest scan that waits takes it. -/
def scanFree (k : Nat) (s : State) : State :=
  let s1 := { s with chk := { s.chk with scans := tdel s.chk.scans k } }
  match s1.chk.waits with
  | [] => s1
  | x :: t => scanTake k x { s1 with chk := { s1.chk with waits := t } }

/-- A scan takes a unit, or waits for one. -/
def scanStart (x : Scan) (s : State) : State := match freeUnit s with
  | some k => scanTake k x s
  | none => { s with chk := { s.chk with waits := s.chk.waits ++ [x] } }

/-- A block read returns to a scan: a clean or corrected block enters the CRC, an uncorrectable one as read, or ends the scan before it
(R357). (DEDUCED, log 39.) -/
def scanFeed (k cls : Nat) (bs : List Byte) (s : State) : State := match tfind s.chk.scans k with
  | none => s
  | some x =>
    let a := 64 * x.next
    let x1 := if cls ≥ 2 then { x with ue := sat32 (x.ue + 1), first := min x.first a } else if cls = 1 then { x with ce := sat32 (x.ce + 1) } else x
    if cls ≥ 2 ∧ x.stop then scanResult { x1 with stopped := true } (scanFree k s)
    else
      let n := min 64 x.left
      let x2 := { x1 with crc := crcFeed x.algo x.crc (bs.take n), next := x.next + 1, left := x.left - n, bytes := x.bytes + n }
      let s1 := cntChk 3 (some k) n s
      if x2.left = 0 then scanResult x2 (scanFree k s1) else scanRead k x2 (scanPut k x2 s1)

/-! ### SHEAF_LOAD: steps 4 and 5 (R393) -/

/-- The next header block of a SHEAF_LOAD is read. -/
def loadRead (x : Load) (s : State) : State :=
  queueRead { rank := 3, client := 1, addr := x.base + x.header.length, who := .load x.cmd } s

/-- The chain has ended at the END descriptor: it returns to IDLE and the header is read. (DEDUCED, log 37.) -/
def startLoad (id c : Nat) (cmd : Cmd) (s : State) : State :=
  let x := chainGet s c
  let l : Load := { cmd := id, base := cmd.p 8 8, verify := bitAt (cmd.p 0x11 1) 0, moved := x.moved, descs := x.descs }
  let s1 := chainSet s c { x with state := .idle, owner := none, desc := none }
  loadRead l { s1 with chk := { s1.chk with loads := s1.chk.loads ++ [l] } }

/-- The header has been read: HEADER, LENGTH, then the body check when asked for. -/
def loadCheck (x : Load) (s : State) : State :=
  let len := fld x.header 0x20 8
  if x.cls ≥ 2 then complete x.cmd 5 (x.result 0 0) (loadDrop x.cmd s)
  else if (hdrBasic x.header).isSome then complete x.cmd 0x42 (x.result 0 0) (loadDrop x.cmd s)
  else if x.moved ≠ len then complete x.cmd 0x43 (x.result len 0) (loadDrop x.cmd s)
  else if ¬ x.verify then complete x.cmd 0 (x.result len 0) (loadDrop x.cmd s)
  else
    let tag := ((cmdFind s x.cmd).map (fun c => c.tag)).getD 0
    let sc : Scan := { owner := 2, tag := tag, cmd := x.cmd, next := x.base / 64 + 4, left := len - 256, crc := crcInit 0 }
    if len ≤ 256 then scanResult sc s else scanStart sc s

/-- A header block returns to a SHEAF_LOAD. -/
def loadFeed (id cls : Nat) (bs : List Byte) (s : State) : State := match loadFind s id with
  | none => s
  | some x =>
    let y := { x with header := x.header ++ bs, cls := if x.cls ≥ 2 then x.cls else cls }
    let s1 := { s with chk := { s.chk with loads := s.chk.loads.map (fun z => if z.cmd = id then y else z) } }
    if y.header.length ≥ 256 then loadCheck y s1 else loadRead y s1

/-- The running CRC takes bytes (R387). -/
def feedCrc (c : Nat) (d : Desc) (bs : List Byte) (s : State) : State :=
  if d.crcEn then
    let x := chainGet s c
    chainSet s c { x with crc := crcFeed (chAlgo s c) x.crc bs }
  else s

/-- Length of the next burst (R385): at most 4,096 bytes, within a 4,096-byte page of host address. (DESIGN CHOICE, log 36.) -/
def burstLen (x : Chain) (d : Desc) : Nat :=
  let left := d.lineLen - x.off
  if d.dir = 2 then min left 4096
  else
    let ha := if d.dir = 0 then d.src + x.line * d.srcStride + x.off else d.dst + x.line * d.dstStride + x.off
    min left (4096 - ha % 4096)

def burstSrc (x : Chain) (d : Desc) : Nat := d.src + x.line * d.srcStride + x.off
def burstDst (x : Chain) (d : Desc) : Nat := d.dst + x.line * d.dstStride + x.off

/-- A host write of loft bytes by chain c; a write into the areas of an admission whose hold has ended is noted (R487). -/
def hostLoftWrite (c : Nat) (poison : Bool) (a : Nat) (bs : List Byte) (s : State) : State :=
  let s1 := loftWrite 1 (some c) poison a bs s
  match s1.pac.adm with
  | none => s1
  | some m =>
    if ¬ m.hold ∧ (overlaps a bs.length m.sheaf m.sheafLen ∨ overlaps a bs.length m.bin m.binLen) then
      { s1 with pac := { s1.pac with adm := some { m with touched := true } } }
    else s1

/-- Blocks of a range of n bytes. -/
def blocksOf (a n : Nat) : List Nat := (List.range ((a + n - 1) / 64 + 1 - a / 64)).map (fun i => a / 64 + i)

/-- The loft reads of a burst (class RD). -/
def queueBurst (c a n : Nat) (s : State) : State :=
  (blocksOf a n).foldl (fun s b => queueRead { rank := 3, client := 1, addr := 64 * b, who := .chain c } s) s

/-- Every loft block of a burst has been read. -/
def burstRead (x : Chain) (a n : Nat) : Bool := (blocksOf a n).all (fun b => thas x.got b)

/-- The bytes of a burst from its loft blocks. -/
def burstBytes (x : Chain) (a n : Nat) : List Byte :=
  (((blocksOf a n).flatMap (fun b => (tget x.got b (0, [])).2)).drop (a % 64)).take n

/-- A block of the burst was of an uncorrectable class (R388). -/
def burstUe (x : Chain) : Bool := x.got.any (fun p => decide (p.2.1 ≥ 2))

/-- Loft to loft: the bytes go over source block by source block, so that poison follows an uncorrectable block (R388). -/
def copyParts (c : Nat) (x : Chain) : Nat → Nat → Nat → Nat → State → State
  | 0, _, _, _, s => s
  | fuel + 1, src, dst, n, s =>
    if n = 0 then s
    else
      let k := min n (64 - src % 64)
      let (cls, bs) := tget x.got (src / 64) (0, [])
      copyParts c x fuel (src + k) (dst + k) (n - k) (hostLoftWrite c (decide (cls ≥ 2)) dst ((bs.drop (src % 64)).take k) s)

/-- Writes of chain c that have not entered a write queue. -/
def chainWriting (s : State) (c : Nat) : Bool := s.lft.waits.any (fun w => w.owner == some c)

/-- The finished CRC is written behind the last byte, before DONE (R387). -/
def storeCrc (c : Nat) (d : Desc) (s : State) : State :=
  let x := chainGet s c
  if d.crcStore ∧ ¬ x.crcStored ∧ x.line ≥ d.lineCount then
    let a := chAlgo s c
    let crc := le (crcWidth a / 8) (crcFinish a x.crc)
    let at_ := d.dst + d.span d.dstStride
    let s1 := chainSet s c { x with crcStored := true }
    if d.dstLoft then hostLoftWrite c false at_ crc s1 else writeHost at_ crc s1
  else s

/-- Account a finished burst of n bytes and step to the next; behind the last byte the CRC is stored. -/
def burstDone (c n : Nat) (d : Desc) (s : State) : State :=
  let x := chainGet s c
  let atEnd := decide (x.off + n ≥ d.lineLen)
  let s1 := cntHst 5 (some c) n (chainSet s c { x with
    burst := none, got := [], landed := false, srcUe := x.srcUe || burstUe x, done := x.done + n, bytes := (x.bytes + n) % 2 ^ 64,
    line := if atEnd then x.line + 1 else x.line, off := if atEnd then 0 else x.off + n })
  if (chainGet s1 c).withdrawn then withdrawChain c s1 else storeCrc c d s1

/-- The data of a burst have been handed to the loft: the burst ends once they have entered the write queue (R385). -/
def burstLanded (c n : Nat) (d : Desc) (s : State) : State :=
  if chainWriting s c then chainSet s c { chainGet s c with landed := true } else burstDone c n d s

/-- Bursts whose data have entered the write queue by now end. -/
def landBursts (s : State) : State :=
  (List.range 16).foldl (fun s c =>
    let x := chainGet s c
    match x.desc, x.burst with
    | some d, some (_, n) => if x.landed ∧ ¬ chainWriting s c then burstDone c n d s else s
    | _, _ => s) s

/-- Every byte of the descriptor has moved, or its host read failed. -/
def descMoved (x : Chain) : Bool := match x.desc with
  | some d => x.burst.isNone && (decide (x.line ≥ d.lineCount) || x.failed)
  | none => false

/-- R387, R388: the status is written and the chain goes on, waits, stops or ends its command. -/
def endDescriptor (c : Nat) (d : Desc) (s : State) : State :=
  let x := chainGet s c
  if x.failed then
    let s1 := stopChain c 0x13 s
    if x.withdrawn then chainSet s1 c { chainGet s1 c with state := .idle, withdrawn := false } else s1
  else
    if x.srcUe then stopChain c 0x14 s
    else
      let s2 := endStatus c 0 s
      let s3 := if d.irq then signal (2 + c) s2 else s2
      let y := chainGet s3 c
      if ¬ d.last then startDesc c d.nextAddr s3
      else match y.owner with
        | some id => match cmdFind s3 id with
          | some cmd => startLoad id c cmd s3
          | none => chainSet s3 c { y with state := .idle, desc := none, owner := none }
        | none => chainSet s3 c { y with state := .wait, desc := none, kickSeen := y.kickAtRead }

/-! ### Polls (R365, R383) -/

/-- What a poll's kick value does to chain c. -/
def kickChain (first : Bool) (c v : Nat) (s : State) : State :=
  let x := chainGet s c
  if first then chainSet s c { x with kickSeen := v }
  else if x.owner.isSome ∨ ¬ chEn s c ∨ x.kickSeen = v then s
  else match x.state with
    | .idle | .stopped => startDesc c (chHead s c) (chainSet s c { x with kickSeen := v })
    | .wait => if x.rereading then s else emit (.hostRead x.cur 8) (chainSet s c { x with rereading := true, kickAtRead := v })
    | .run => s

/-- A poll with good data takes effect. -/
def applyPoll (b : List Byte) (s : State) : State :=
  let first := !s.hst.polled
  let kick (c : Nat) : Nat := fld b (0x40 + 4 * c) 4
  let s1 := { s with hst := { s.hst with
    pollOut := false, polled := true, cmdTail := fld b 0 4 % cmdSize s, cplHead := fld b 4 4 % cplSize s,
    kicks := (List.range 16).foldl (fun t c => tset t c (kick c) 0) s.hst.kicks } }
  let s2 := (List.range 16).foldl (fun s c => kickChain first c (kick c) s) s1
  issueFetch (overflowReport (drainHold 1024 s2))

end Sys2Proof.Machine
end

