-- ==== Sys2Proof/Machine/HostRows.lean ====
section
/-! DEFINITION. Meanings of the host interface rows (10): polls, fetches, command starts, the hold queue, moderation,
DMA chains, NOP, SHEAF_LOAD, SCAN_CHECK and READBACK. A row whose event cannot occur in the state leaves the state as
it is (DESIGN CHOICE, log 23). -/

namespace Sys2Proof.Machine

/-- DOORBELL_POLL: one read of the doorbell block (R365). -/
def execDoorbellPoll (s : State) : Host.Outcome State Fault Refusal :=
  if hstEn s ∧ linkLive s ∧ ¬ s.hst.pollOut then
    ok (cntHst 4 none 1 (emit (.hostRead (regPair s 0x10020 0x10024) 128) { s with hst := { s.hst with pollOut := true } }))
  else ok s

/-- DOORBELL_POLL_COMPLETE (R365, R371, R383). -/
def execDoorbellPollComplete (data : Option (List Byte)) (s : State) : Host.Outcome State Fault Refusal :=
  if ¬ s.hst.pollOut then ok s
  else match data with
    | none => ok (emit .aerReport { s with hst := { s.hst with pollOut := false } })
    | some b => withLen b 128 (applyPoll b s)

/-- COMMAND_FETCH_COMPLETE (R368). -/
def execCommandFetchComplete (data : Option (List Byte)) (s : State) : Host.Outcome State Fault Refusal :=
  if s.hst.fetchLen = 0 then ok s
  else
    let s1 := { s with hst := { s.hst with fetchLen := 0 } }
    match data with
    | none => ok (emit .aerReport s1)
    | some b => withLen b (64 * s.hst.fetchLen) (issueFetch ((entriesOf s.hst.fetchLen b).foldl (fun s e => acceptEntry e s) s1))

/-- COMMAND_START (R369). -/
def execCommandStart (id : Nat) (s : State) : Host.Outcome State Fault Refusal :=
  match cmdFind s id with
  | some c => if c.phase = .waiting ∧ mayStart s c then ok (startCmd id s) else ok s
  | none => ok s

/-- HOLD_QUEUE_DRAIN (R375). -/
def execHoldQueueDrain (s : State) : Host.Outcome State Fault Refusal :=
  if s.hst.hold.isEmpty then ok s
  else if ringOpen s then ok (overflowReport (drainHold 1024 s))
  else ok s

/-- MSIX_MODERATION_TIMER (R379). -/
def execMsixModerationTimer (s : State) : Host.Outcome State Fault Refusal :=
  if regGet s 0x1002C % 65536 ≠ 0 ∧ s.hst.modCount > 0 then ok (signal 0 { s with hst := { s.hst with modCount := 0 } })
  else ok s

/-- DESCRIPTOR_READ_COMPLETE: a descriptor (64 bytes), or the end mark's `next` again (8 bytes) (R382, R383). -/
def execDescriptorReadComplete (c : Fin 16) (data : Option (List Byte)) (s : State) : Host.Outcome State Fault Refusal :=
  let x := chainGet s c
  if x.rereading then
    match data with
    | none => ok (stopChain c 0x10 s)
    | some b => withLen b 8 (
        if bitAt (fld b 0 8) 0 then chainSet s c { x with rereading := false, kickSeen := x.kickAtRead }
        else startDesc c (fld b 0 8 / 64 * 64) s)
  else if ¬ x.reading then ok s
  else match data with
    | none => ok (stopChain c 0x10 s)
    | some b =>
      let d := parseDesc b
      let st := descCheck s c b
      let s1 := chainSet s c { x with reading := false, desc := some d, user := d.user,
                                      crc := if st = 0 ∧ d.crcReset then crcInit (chAlgo s c) else x.crc }
      withLen b 64 (
        if st = 0 then s1
        else if st = 0x15 then stopChain c st (raiseItems 0x0301 1 [(1, c), (8, x.cur), (8, d.dst)] s1)
        else stopChain c st s1)

/-- Chain c waits for a burst of its descriptor. -/
def burstReady (s : State) (c : Nat) : Bool :=
  let x := chainGet s c
  decide (x.state = .run) && x.burst.isNone && x.desc.any (fun d => d.dir != 2) && !descMoved x && !x.withdrawn

/-- The round robin of host-side bursts behind the requester granted last: `spaced` has bit c set where the spacing of chain c allows a
burst, bit 16 where a command has data to move (R386). -/
def burstGrant (s : State) (c : Nat) (spaced : BitVec 17) : Bool :=
  let asks (k : Nat) : Bool := spaced.getLsbD k && (k == 16 || burstReady s k)
  ((List.range 17).find? (fun i => asks ((s.hst.granted + 1 + i) % 17))).any (fun i => (s.hst.granted + 1 + i) % 17 == c)

/-- The next burst of chain c is put off by R386: counted once (Table 13-1). -/
def deferBurst (c : Nat) (s : State) : State :=
  let x := chainGet s c
  if x.deferred then s else cntHst 7 (some c) 1 (chainSet s c { x with deferred := true })

/-- DMA_BURST_START (R385, R386). -/
def execDmaBurstStart (turn : BurstTurn) (s : State) : Host.Outcome State Fault Refusal :=
  let x := chainGet s turn.chain
  match x.desc with
  | none => ok s
  | some d =>
    if x.state ≠ .run ∨ x.burst.isSome ∨ descMoved x ∨ x.withdrawn then ok s
    else
      let n := burstLen x d
      let s1 := chainSet s turn.chain { x with burst := some (burstSrc x d, n), got := [], landed := false, deferred := false }
      if d.dir = 2 then ok (queueBurst turn.chain (burstSrc x d) n s1)
      else if ¬ linkLive s then ok s
      else if ¬ burstGrant s turn.chain turn.spaced then ok (deferBurst turn.chain s)
      else
        let s2 := { s1 with hst := { s1.hst with granted := turn.chain } }
        ok (if d.dir = 0 then readHost (burstSrc x d) n s2 else queueBurst turn.chain (burstSrc x d) n s2)

/-- DMA_BURST_END (R385, R388): the bytes of the burst have arrived; `data` is what the host read returned. -/
def execDmaBurstEnd (c : Fin 16) (data : Option (List Byte)) (s : State) : Host.Outcome State Fault Refusal :=
  let x := chainGet s c
  match x.desc, x.burst with
  | some d, some (_, n) =>
    if x.landed then ok s
    else if d.dir = 0 then
      match data with
      | none => ok (chainSet s c { x with burst := none, failed := true })
      | some b => withLen b n (burstLanded c n d (feedCrc c d b (hostLoftWrite c false (burstDst x d) b s)))
    else if ¬ burstRead x (burstSrc x d) n then ok s
    else
      let b := burstBytes x (burstSrc x d) n
      if d.dir = 1 then ok (burstDone c n d (feedCrc c d b (writeHost (burstDst x d) b s)))
      else ok (burstLanded c n d (feedCrc c d b (copyParts c x n (burstSrc x d) (burstDst x d) n s)))
  | _, _ => ok s

/-- DESCRIPTOR_END (R387 to R389). -/
def execDescriptorEnd (c : Fin 16) (s : State) : Host.Outcome State Fault Refusal :=
  let x := chainGet s c
  match x.desc with
  | some d => if x.state = .run ∧ descMoved x ∧ ¬ chainWriting s c then ok (endDescriptor c d s) else ok s
  | none => ok s

/-- NOP (R367). -/
def execNop (id : Nat) (s : State) : Host.Outcome State Fault Refusal :=
  match cmdOp s id 0 with
  | none => ok s
  | some c => ok (complete id (if c.reserved 0 then 2 else 0) [] s)

/-- SHEAF_LOAD: steps 1 and 2 of R393; the chain's descriptors do the rest. -/
def execSheafLoad (id : Nat) (s : State) : Host.Outcome State Fault Refusal :=
  match cmdOp s id 1 with
  | none => ok s
  | some c =>
    let ch := c.p 0x10 1
    let x := chainGet s (ch % 16)
    if c.reserved 0x18 ∨ c.p 0x11 1 ≥ 2 ∨ c.p 0x12 6 ≠ 0 ∨ ch ≥ 16 then ok (complete id 2 [] s)
    else if ¬ s.lft.trained then ok (complete id 3 [] s)
    else if x.state = .run ∨ x.state = .wait ∨ x.owner.isSome then ok (complete id 0x40 [] s)
    else
      let a := c.p 0 8 / 64 * 64
      let s1 := regSet (regSet s (chBase ch + 8) (a % 2 ^ 32)) (chBase ch + 0xC) (a / 2 ^ 32)
      ok (startDesc ch a (cmdRun id (chainSet s1 ch { x with owner := some id, descs := 0, moved := 0 })))

/-! ### SCAN_CHECK (R356, R357) -/

/-- SCAN_CHECK (R356, R357). -/
def execScanCheck (id : Nat) (s : State) : Host.Outcome State Fault Refusal :=
  match cmdOp s id 8 with
  | none => ok s
  | some c =>
    let a := c.p 0 8
    let n := c.p 8 8
    let algo := c.p 0x10 1
    let fl := c.p 0x11 1
    if c.headBad then ok (complete id 2 [] s)
    else if ¬ s.lft.trained then ok (complete id 3 [] s)
    else if a % 64 ≠ 0 ∨ n % 64 ≠ 0 ∨ n = 0 ∨ a + n > loftBytes s then ok (complete id 0x40 [] s)
    else if algo > 3 ∨ fl ≥ 4 ∨ c.p 0x12 6 ≠ 0 ∨ c.tailBad 0x20 then ok (complete id 0x41 [] s)
    else
      ok (scanStart { owner := 1, tag := c.tag, cmd := id, next := a / 64, left := n, algo := algo, stop := bitAt fl 1,
                      expect := if bitAt fl 0 then some (c.p 0x18 8 % 2 ^ crcWidth algo) else none, crc := crcInit algo } (cmdRun id s))

/-! ### READBACK (R394 to R396) -/

/-- Selected passes of a mask, rising. -/
def passesOf (mask : Nat) : List Nat := (List.range 8).filter (fun p => mask.testBit p)

/-- The loft blocks that a READBACK reads: directory entries, grid points and bins of the tiles that the rectangle meets (R394, R396). -/
def readbackBlocks (a : Admission) (x0 y0 w h : Nat) : List Nat :=
  let tiles := (List.range ((y0 + h - 1) / 64 + 1 - y0 / 64)).flatMap (fun j => (List.range ((x0 + w - 1) / 64 + 1 - x0 / 64)).map (fun i =>
    (x0 / 64 + i, y0 / 64 + j)))
  tiles.foldl (fun l (tx, ty) =>
    let b := tget a.bins (ty * a.hdr.cols + tx) {}
    let point (gx gy : Nat) : Nat := (a.bin + gridStart a.hdr + 2 * (gy * (a.hdr.cols + 1) + gx)) / 64
    ([(a.bin + 16 * (ty * a.hdr.cols + tx)) / 64, point tx ty, point (tx + 1) ty, point tx (ty + 1), point (tx + 1) (ty + 1)] ++
      (List.range b.blocks).map (fun k => b.addr / 64 + k)).foldl (fun l k => natInsert k l) l) []

/-- The next loft read of a READBACK (class RD). -/
def readbackRead (j : ReadbackJob) (s : State) : State := match j.todo with
  | [] => s
  | b :: _ => queueRead { rank := 3, client := 1, addr := 64 * b, who := .readback j.cmd } s

/-- A loft block returns to a READBACK; an uncorrectable one ends its reading (Table 9-4). -/
def readbackFeed (id cls : Nat) (s : State) : State := match s.readbacks.find? (fun j => j.cmd == id) with
  | none => s
  | some j =>
    let j1 := { j with todo := if cls ≥ 2 then [] else j.todo.drop 1, cls := if cls ≥ 2 then cls else j.cls }
    readbackRead j1 { s with readbacks := s.readbacks.map (fun q => if q.cmd = id then j1 else q) }

/-- READBACK: its checks; the computation ends with READBACK_COMPLETE. (DEDUCED, log 40.) -/
def execReadback (id : Nat) (s : State) : Host.Outcome State Fault Refusal :=
  match cmdOp s id 9 with
  | none => ok s
  | some c =>
    let w := c.p 0xC 2
    let h := c.p 0xE 2
    let mask := c.p 0x10 1
    let fmt := c.p 0x11 1
    if c.reserved 0x20 ∨ c.p 0x12 2 ≠ 0 then ok (complete id 2 [] s)
    else match s.pac.adm with
      | none => ok (complete id 0x40 [] s)
      | some a =>
        if a.phase ≠ .held ∨ (c.p 0 4 ≠ 0 ∧ c.p 0 4 ≠ a.id) then ok (complete id 0x40 [] s)
        else if c.p 4 4 + w > a.hdr.W ∨ c.p 8 4 + h > a.hdr.L ∨ w * h * (passesOf mask).length > 4194304 ∨ w = 0 ∨ h = 0 ∨ w > 4096 ∨ h > 4096 then
          ok (complete id 0x41 [] s)
        else if fmt > 1 ∨ mask = 0 ∨ mask ≥ 2 ^ a.hdr.passes ∨ c.p 0x14 4 < w * (if fmt = 0 then 1 else 16) then ok (complete id 0x42 [] s)
        else
          let j : ReadbackJob := { cmd := id, gen := s.dos.gen, adm := a, cur := s.dos.cur, prev := s.dos.prev,
                                   todo := readbackBlocks a (c.p 4 4) (c.p 8 4) w h }
          ok (readbackRead j (cmdRun id { s with readbacks := s.readbacks ++ [j] }))

/-- The version that applies to row y at the start of a READBACK. -/
def ReadbackJob.table (j : ReadbackJob) (y : Nat) : BeamTable := match j.prev with
  | some (ye, t) => if y < ye then t else j.cur
  | none => j.cur

/-- One element (Table 10-19). -/
def ReadbackJob.element (j : ReadbackJob) (detail : Bool) (x y p : Nat) : List Byte :=
  let h := j.adm.hdr
  let t := j.table y
  let b := passpixBeam h x p
  let o := pixelOut h j.adm.bins j.adm.grid t x y p none
  if ¬ detail then le 1 o.code
  else
    let bin := tget j.adm.bins (y / 64 * h.cols + x / 64) {}
    le 2 (pixelCoverage bin.entries x y p h.unionMask) ++ le 2 (corrK j.adm.grid h x y) ++ le 1 (unsigned 8 (doseSample bin x y)) ++ le 1 o.code ++
    le 1 (flag (decide (o.missed > 0)) 2 + flag (t.sibBright h.passes b) 1 + flag (t.healthOf b == 1) 0) ++ le 1 0 ++ le 4 o.delivered ++ le 4 o.missed

/-- READBACK_COMPLETE: the oldest READBACK whose loft reads have returned writes its lines and completes (R395). -/
def execReadbackComplete (s : State) : Host.Outcome State Fault Refusal :=
  match s.readbacks.find? (fun j => j.todo.isEmpty) with
  | none => ok s
  | some j =>
    let s0 := { s with readbacks := s.readbacks.erase j }
    match cmdFind s j.cmd with
    | none => ok s0
    | some c =>
      if j.cls ≥ 2 then ok (complete j.cmd 5 [] s0)
      else
      let w := c.p 0xC 2
      let h := c.p 0xE 2
      let lines := ((passesOf (c.p 0x10 1)).zipIdx).flatMap (fun (p, q) => (List.range h).map (fun r =>
        (c.p 0x18 8 + (q * h + r) * c.p 0x14 4,
         (List.range w).flatMap (fun i => j.element (c.p 0x11 1 == 1) (c.p 4 4 + i) (c.p 8 4 + r) p))))
      let s1 := lines.foldl (fun s l => writeHost l.1 l.2 s) s0
      let all := lines.flatMap Prod.snd
      ok (complete j.cmd 0 (le 4 j.gen ++ le 4 (w * h * (passesOf (c.p 0x10 1)).length) ++ le 4 (crc32c all)) s1)

end Sys2Proof.Machine
end

