-- ==== Sys2Proof/Machine/Admission.lean ====
section
/-! DEFINITION. Admission (R192 to R195, R98, R391): STRIPE_ADMIT, the guard wait, and the end of the admission with its
report. -/

namespace Sys2Proof.Machine

/-! ### What admission plans with (R127, R85, R167, R292) -/

def pacFmax (s : State) : Nat := regGet s 0x60008
def pacFmin (s : State) : Nat := regGet s 0x6000C
def pacAmax (s : State) : Nat := regGet s 0x60010
def pacJmax (s : State) : Nat := regGet s 0x60014
/-- cpp in units of 2⁻³² counts (R212). -/
def cppOf (s : State) : Nat := regGet s 0x70404 % 65536 * 2 ^ 32 + regGet s 0x70400
def nbrKOf (s : State) : Nat := bits (regGet s 0x13C010) 4 0

/-- The registers that PLAN_STALE compares. -/
def planRegs (s : State) : List Nat := [pacFmax s, pacFmin s, pacAmax s, pacJmax s, cppOf s, nbrKOf s]

/-- The partner's last HEARTBEAT, on a paired twin. -/
def partnerHb (s : State) : Option Heartbeat := if s.twn.paired then s.twn.hb else none

/-- Counts planned with: on a paired twin the lower of both twins' (R292). -/
def planIn (s : State) : PlanIn :=
  let mine : PlanIn := { nThr := numThr s, nIng := numIng s, nch := numCh s, density := (refCh s).density, nbrK := nbrKOf s,
                         fmax := pacFmax s, fmin := pacFmin s, amax := pacAmax s, jmax := pacJmax s }
  match partnerHb s with
  | none => mine
  | some h => { mine with
      nThr := min mine.nThr h.threshers, nIng := min mine.nIng h.ingest, nch := min mine.nch h.channels, density := max mine.density h.density }

/-- Step 1 of R192: the register of the first plan check that fails. -/
def planRegsBad (s : State) : Option Nat :=
  if pacAmax s < 100000 then some 0x60010
  else if pacJmax s < 4000 then some 0x60014
  else if pacFmin s > pacFmax s then some 0x6000C
  else if cppOf s = 0 then some 0x70404
  else match partnerHb s with
    | some h => if (h.nbrK : Nat) ≠ nbrKOf s then some 0x13C010 else none
    | none => none

/-- The refusals of R192 that come before any byte of the sheaf is read (R85, R127). -/
def earlyRefuse (s : State) : Option (Nat × Nat × Nat) := match planRegsBad s with
  | some off => some (0x14, off, 0)
  | none => if (planIn s).nThr < 2 then some (0x11, 0, 0) else if (planIn s).nIng = 0 then some (0x35, 0, 0) else none

/-! ### Acceptance (R192, Table 5-9) -/

/-- Start-up has ended for every block a stripe needs. -/
def blocksUp (s : State) : Bool := s.lft.trained && s.units.thrReady && s.dos.ready

/-- The sheaf range of the ADDRESS checks (R192). -/
def sheafRange (s : State) (base : Nat) (hb : List Byte) : Nat :=
  let len := fld hb 0x20 8
  if len ≥ 256 ∧ len % 64 = 0 ∧ base + len ≤ loftBytes s then len else 256

/-- K of the report that the header allows (Table 5-9). -/
def reportSegs (hb : List Byte) : Nat := if (hdrBasic hb).isNone ∧ (hdrGeometry hb).isNone then (hdrOf hb).K else 0

/-- ADDRESS, but for the tests that need the header. -/
def addressBad (s : State) (c : Cmd) : Bool :=
  let sh := c.p 0 8
  let bn := c.p 8 8
  let bl := c.p 0x10 8
  sh % 64 != 0 || bn % 64 != 0 || bl % 64 != 0 || c.p 0x18 8 % 64 != 0 || decide (sh + 256 > loftBytes s) || decide (bn + bl > loftBytes s)

/-- The overlap tests of ADDRESS. -/
def areasOverlap (s : State) (sh len bn bl : Nat) : Bool :=
  overlaps sh len bn bl ||
  match s.pac.stripe with
  | some st => [(st.adm.sheaf, st.adm.sheafLen), (st.adm.bin, st.adm.binLen)].any (fun (a, n) => overlaps sh len a n || overlaps bn bl a n)
  | none => false

/-- A descriptor that has started writes into the areas of an admission (R391). -/
def guardBusy (s : State) (a : Admission) : Bool :=
  (List.range 16).any (fun c =>
    let x := chainGet s c
    match x.desc with
    | some d => x.state = .run && d.dstLoft && [(a.sheaf, a.sheafLen), (a.bin, a.binLen)].any (fun (b, n) => d.writesIn (d.crcBytes s c) b n)
    | none => false)

/-- The next sheaf block of the admission is read (class RD, or GL in a stripe, R320). -/
def admitRead (a : Admission) (s : State) : State :=
  if a.left = 0 then s else queueRead { rank := 3, client := 3, addr := a.sheaf + a.buf.length, who := .admission } s

def putAdm (a : Admission) (s : State) : State := { s with pac := { s.pac with adm := some a } }

/-- The work of an admission begins: what it plans with is fixed, and the header is read unless step 1 of R192 refuses. -/
def startWork (a : Admission) (s : State) : State :=
  let e := earlyRefuse s
  let a1 := { a with phase := .working, pin := planIn s, early := e, plan := { a.plan with regs := planRegs s }, buf := [], cls := 0,
                     left := if e.isSome then 0 else 4 }
  admitRead a1 (putAdm a1 s)

/-- The admission's scan engine is free again, or no longer asked for (R392). -/
def endScan (s : State) : State :=
  let s1 := { s with chk := { s.chk with waits := s.chk.waits.filter (fun x => x.owner != 3) } }
  (List.range 4).foldl (fun s k => if (tfind s.chk.scans k).any (fun x => x.owner == 3) then scanFree k s else s) s1

/-- Remove the reads of an owner that no longer waits for them. -/
def dropReads (gone : ReadFor → Bool) (s : State) : State :=
  (List.range 12).foldl (fun s c =>
    let x := lftGet s c
    lftSet s c { x with reads := x.reads.filter (fun r => !gone r.who), issued := x.issued.filter (fun r => !gone r.who) }) s

/-- Writes of a client that wait are withdrawn. -/
def dropWaits (client : Nat) (s : State) : State := { s with lft := { s.lft with waits := s.lft.waits.filter (fun w => w.client != client) } }

/-- The scans and reads of an admission end. -/
def endAdmWork (s : State) : State := dropReads (fun w => w == .admission) (endScan s)

/-- A held admission or one in progress goes: one in progress completes with `status` (R193, R197). -/
def dropAdmission (status : Nat) (s : State) : State := match s.pac.adm with
  | none => s
  | some a =>
    let s1 := endAdmWork { s with pac := { s.pac with adm := none } }
    if a.phase = .held then s1 else completeOpt a.cmd status [] (dropWaits 3 s1)

/-- STRIPE_ADMIT: the checks of Table 5-9 and acceptance (R192, R193, R391, R482). -/
def execStripeAdmit (id : Nat) (s : State) : Host.Outcome State Fault Refusal :=
  match cmdOp s id 2 with
  | none => ok s
  | some c =>
    if c.reserved 0x30 ∨ c.p 0x24 4 ≠ 0 ∨ c.p 0x2E 2 ≠ 0 then ok (complete id 2 [] s)
    else if ¬ blocksUp s then ok (complete id 3 [] s)
    else if addressBad s c then ok (complete id 0x41 [] s)
    else
      let (cls, hb, s1) := readBlocks 3 4 (c.p 0 8 / 64) s
      let len := sheafRange s (c.p 0 8) hb
      if cls ≥ 2 then ok (complete id 5 [] s1)
      else if areasOverlap s (c.p 0 8) len (c.p 8 8) (c.p 0x10 8) then ok (complete id 0x41 [] s1)
      else if c.p 0x20 4 < 64 + 8 * reportSegs hb then ok (complete id 0x40 [] s1)
      else
        let s2 := dropAdmission 0x42 s1
        let n := s2.pac.admitCount + 1
        let a : Admission := { id := n, cmd := some id, phase := .guardWait, sheaf := c.p 0 8, sheafLen := len, bin := c.p 8 8,
                               binLen := c.p 0x10 8, report := c.p 0x18 8, y0 := c.p 0x28 6 }
        let s3 := cmdRun id { s2 with
          pac := { s2.pac with admitCount := n, adm := some a },
          store := { s2.store with recs := [], nextId := 1, full := false } }
        ok (if guardBusy s3 a then s3 else startWork a s3)

/-- ADMIT_GUARD_WAIT_END (R391). -/
def execAdmitGuardWaitEnd (s : State) : Host.Outcome State Fault Refusal :=
  match s.pac.adm with
  | some a => if a.phase = .guardWait ∧ ¬ guardBusy s a then ok (startWork a s) else ok s
  | none => ok s

/-! ### The end of an admission -/

/-- Segment entries (Table 5-12). -/
def Plan.entries (p : Plan) : List Byte := p.segs.flatMap (fun g => le 2 g.fGrp ++ le 2 g.fAdm ++ le 1 g.limiter ++ le 1 g.worst ++ le 2 0)

/-- Report header up to its CRC (Table 5-10). (DEDUCED, log 41.) -/
def reportHead (id : Nat) (r : Refuse) (p : Plan) (tag slots : Nat) : List Byte :=
  le 4 0x5244414A ++ le 2 0x0100 ++ le 1 (if r.reason = 0 then 0 else 1) ++ le 1 r.reason ++ le 8 r.loc ++ le 4 r.aux ++ le 4 id ++ le 8 tag ++
  le 4 slots ++ le 4 p.segs.length ++ le 4 p.bwg ++ le 1 p.thr ++ le 1 p.ing ++ le 1 p.nch ++ le 1 p.nbrK ++ le 4 p.runup ++ le 4 p.runout ++
  le 4 p.gfReads

/-- The whole report (R195). -/
def reportBytes (id : Nat) (r : Refuse) (p : Plan) (tag slots : Nat) : List Byte :=
  let h := reportHead id r p tag slots
  h ++ le 4 (crc32c (h ++ p.entries)) ++ p.entries

/-- The plan CRC of R292. -/
def planCrc (p : Plan) (tag slots : Nat) : Nat := crc32c (reportHead 0 ⟨0, 0, 0⟩ p tag slots ++ p.entries)

/-- Limits of R184 for a run around slots a to b: 0 when they hold, else 1 run-up, 2 run-out. -/
def limitPlan (s : State) (y0 cpp a b runup runout : Nat) : Nat :=
  let up : Int := ((a : Int) - runup) * cpp
  let lo : Int := (y0 : Int) + up / 4294967296
  let hi : Int := (y0 : Int) - (-(((b + runout : Nat) : Int) * cpp)) / 4294967296
  let m (x : Int) : Nat := (x % 281474976710656).toNat
  if posDiff (m lo) (vlimLo s) < 0 then 1 else if posDiff (m hi) (vlimHi s) > 0 then 2 else 0

/-- Parsing and binning of the sheaf as read: steps 2 and 3 of R192. -/
def Admission.binned (a : Admission) (cap : Nat) : Refuse ⊕ SheafOut :=
  readSheaf (fun o n => (a.buf.drop o).take n) (cap - a.sheaf) a.id a.bin a.binLen a.pin.nIng

/-- What steps 1 to 6 of R192 come to: a refusal with the plan as far as it is known, or the sheaf and its plan. -/
def admitVerdict (s : State) (a : Admission) : (Refuse × Plan) ⊕ (SheafOut × List Nat × List (Nat × Nat) × Plan) :=
  let pin := a.pin
  let p0 : Plan := { bwg := pin.bw, thr := pin.nThr - 1, ing := pin.nIng - 1, nch := pin.nch, nbrK := pin.nbrK }
  match a.early with
  | some (r, l, x) => .inl (⟨r, l, x⟩, p0)
  | none => match a.binned (loftBytes s) with
    | .inl r => .inl (r, p0)
    | .inr out =>
      let res := markResident out.hdr out.bins
      let placed := placeCopies out.hdr out.bins res
      match makePlan pin out.hdr out.bins res placed a.plan.regs with
      | .inl r => .inl (r, { p0 with gfReads := fedReads out.hdr out.bins res placed })
      | .inr plan => match limitPlan s a.y0 (a.plan.regs.getD 4 0) 0 out.hdr.N plan.runup plan.runout with
        | 0 => .inr (out, res, placed, { plan with crc := planCrc plan out.hdr.tag out.hdr.N })
        | n => .inl (⟨0x13, n - 1, 0⟩, { p0 with runup := plan.runup, runout := plan.runout, gfReads := plan.gfReads })

/-- Directory, grid and bins go to the bin area (R88 to R93). -/
def writeBins (a : Admission) (out : SheafOut) (s : State) : State :=
  let h := out.hdr
  let dir := (List.range (h.cols * h.tileRows)).flatMap (fun i => dirEntry (tget out.bins i {}))
  let grid := (List.range (h.tileRows + 1)).flatMap (fun gy => (List.range (h.cols + 1)).flatMap (fun gx => le 2 (gridAt out.grid h gx gy)))
  let s1 := loftWrite 3 none false (a.bin + gridStart h) grid (loftWrite 3 none false a.bin dir s)
  out.bins.foldl (fun s (_, b) => loftWrite 3 none false b.addr ((List.range (64 * b.blocks)).map (fun i => Config.binByte (b.addr + i))) s) s1

/-- The header has been read: the blocks that follow it, none where a header check refuses the sheaf (R60, R61). -/
def bodyBlocks (s : State) (a : Admission) : Nat :=
  if (hdrBasic a.buf).isSome ∨ (hdrGeometry a.buf).isSome ∨ (hdrBounds a.buf (loftBytes s - a.sheaf)).isSome then 0 else (fld a.buf 0x20 8 - 256) / 64

/-- The sheaf has been read: it is binned, and the bin area is written (steps 2 and 3 of R192). -/
def admitBinned (a : Admission) (s : State) : State :=
  let s1 := endScan s
  if a.cls ≥ 2 then s1
  else match a.binned (loftBytes s) with
    | .inl _ => s1
    | .inr out => writeBins a out s1

/-- A sheaf block returns to the admission. With BODY_CHECK the reads behind the header wait for a scan engine, which takes their bytes
(R392). (DEDUCED, log 42.) -/
def admitFeed (cls : Nat) (bs : List Byte) (s : State) : State := match s.pac.adm with
  | none => s
  | some a0 =>
    let a := { a0 with buf := a0.buf ++ bs, cls := if a0.cls ≥ 2 then a0.cls else cls, left := if cls ≥ 2 then 0 else a0.left - 1 }
    let k := (List.range 4).find? (fun k => (tfind s.chk.scans k).any (fun x => x.owner == 3))
    let s1 := match k with
      | some k => match tfind s.chk.scans k with
        | some x => cntChk 3 (some k) 64 (scanPut k { x with next := x.next + 1, left := x.left - 64, bytes := x.bytes + 64 } s)
        | none => s
      | none => s
    if a.left > 0 then admitRead a (putAdm a s1)
    else if a.cls < 2 ∧ a.buf.length = 256 ∧ bodyBlocks s a > 0 then
      let b := { a with left := bodyBlocks s a }
      if bitAt (fld a.buf 0xA 1) 1 then
        let tag := ((a.cmd.bind (cmdFind s)).map (fun c => c.tag)).getD 0
        scanStart { owner := 3, tag := tag, next := a.sheaf / 64 + 4, left := 64 * b.left } (putAdm b s1)
      else admitRead b (putAdm b s1)
    else admitBinned a (putAdm a s1)

/-- One record parsed (Table 13-1): which ingest unit in service parses it the device chooses (DESIGN CHOICE, log 24). -/
def countRecord (s : State) : State :=
  let (f, s1) := drawFree s
  let units := (List.range 32).filter (fun u => !s.units.ingOut.contains u)
  cntShv 1 (some (units.getD (f.toNat % units.length) 0)) 1 s1

/-- Counters of the sheaf unit over an admission (Table 13-1). -/
def countShv (a : Admission) (out : SheafOut) (s : State) : State :=
  let n := recordCount (fun o n => (a.buf.drop o).take n)
  cntShv 3 none (out.bins.map (fun p => p.2.entries.length)).sum
    (cntShv 2 none out.traps ((List.range n).foldl (fun s _ => countRecord s) s))

/-- The completion of an accepted STRIPE_ADMIT (Table 5-8). -/
def admitDone (a : Admission) (r : Refuse) (p : Plan) (tag slots : Nat) (s : State) : State :=
  let rep := reportBytes a.id r p tag slots
  completeOpt a.cmd 0 (le 4 a.id ++ le 1 (if r.reason = 0 then 0 else 1) ++ le 1 r.reason ++ le 2 0 ++ le 4 rep.length) (writeHost a.report rep s)

/-- ADMISSION_COMPLETE (R192, R193, R195): the sheaf has been read and the bin area is written. -/
def execAdmissionComplete (s : State) : Host.Outcome State Fault Refusal :=
  match s.pac.adm with
  | none => ok s
  | some a =>
    if a.phase ≠ .working ∨ a.left > 0 ∨ s.lft.waits.any (fun w => w.client == 3) then ok s
    else if a.cls ≥ 2 then ok (completeOpt a.cmd 5 [] { s with pac := { s.pac with adm := none } })
    else match admitVerdict s a with
      | .inl (r, p) =>
        let known := decide (a.buf.length ≥ 256) && (hdrBasic a.buf).isNone
        ok (admitDone a r p (if known then fld a.buf 0x18 8 else 0) (if known ∧ (hdrGeometry a.buf).isNone then (hdrOf a.buf).N else 0)
          { s with pac := { s.pac with adm := none } })
      | .inr (out, res, placed, plan) =>
        let a' : Admission := { a with phase := .held, hdr := out.hdr, bins := out.bins, grid := out.grid, resident := res, placed := placed, plan := plan, buf := [] }
        ok (admitDone a ⟨0, 0, 0⟩ plan out.hdr.tag out.hdr.N (putAdm a' (countShv a out s)))

end Sys2Proof.Machine
end

