-- ==== Sys2Proof/Machine/Build.lean ====
section
/-! DEFINITION. The build of groups (R101 to R131, R253, R294 to R303): run queues and lanes, staging, group-fed reads,
expansion jobs and crib fills, digests and the vote, and the moment a group is final. -/

namespace Sys2Proof.Machine

/-! ### Groups of the armed or running stripe -/

def grpGet (st : Stripe) (j : Nat) : Option Group := tfind st.groups j
def grpPut (j : Nat) (g : Group) (s : State) : State := match s.pac.stripe with
  | some st => setStripe { st with groups := tput st.groups j g } s
  | none => s
def Stripe.g0 (st : Stripe) : Nat := st.slotFirst / 8
def Stripe.lastGroup (st : Stripe) : Nat := (st.slotEnd - 1) / 8

/-- The first dealt beam of group j from b on: whether a run is dealt depends on its beam row alone (R102). -/
def nextDealt (h : Header) (j : Nat) : Nat → Nat → Option Nat
  | 0, _ => none
  | fuel + 1, b => if b ≥ numBeams then none else if runDealt h b j then some b else nextDealt h j fuel ((b / 512 + 1) * 512)

/-- The head of a group's queue (R104, R105, R129): the run and the group without it. -/
def takeRun (h : Header) (j : Nat) (g : Group) : Option (Run × Group) := match g.returned with
  | b :: t => some (⟨j, b, false⟩, { g with returned := t })
  | [] => match g.recomp with
    | b :: t => some (⟨j, b, true⟩, { g with recomp := t })
    | [] => match nextDealt h j 513 g.next with
      | some b => some (⟨j, b, false⟩, { g with next := b + 1 })
      | none => none

/-- The first open group with a run to deal. -/
def nextRun (h : Header) : Tbl Group → Option (Run × Nat × Group)
  | [] => none
  | (j, g) :: t => if g.final.isSome then nextRun h t else match takeRun h j g with
    | some (r, g') => some (r, j, g')
    | none => nextRun h t

/-- A lane that is free takes the run at the head of the queue (R104). -/
def dealLane (l : Nat) (s : State) : State := match s.pac.stripe with
  | none => s
  | some st =>
    if thas s.units.lanes l ∨ s.units.thrOut.contains (l / 2) then s
    else match nextRun st.adm.hdr st.groups with
      | none => s
      | some (r, j, g) =>
        let s1 := grpPut j g { s with units := { s.units with lanes := tput s.units.lanes l r } }
        cntThr (if r.recomp then 5 else 1) (some (l / 2)) 1 (if r.recomp then cntThr 1 (some (l / 2)) 1 s1 else s1)

/-- Lanes that are free together are served in increasing number (DESIGN CHOICE, log 102). -/
def dealAll (s : State) : State := (List.range 256).foldl (fun s l => dealLane l s) s

/-- Every first-computation run of the group has been dealt. -/
def allDealt (h : Header) (j : Nat) (g : Group) : Bool := g.returned.isEmpty && (nextDealt h j 513 g.next).isNone
/-- A lane works on the group. -/
def laneBusy (s : State) (j : Nat) : Bool := s.units.lanes.any (fun p => p.2.group == j)
/-- Nothing of the group is left in its queue or on a lane. -/
def groupIdle (s : State) (h : Header) (j : Nat) (g : Group) : Bool := allDealt h j g && g.recomp.isEmpty && !laneBusy s j

/-! ### Staging (R252) -/

def stageIndex (j i l k : Nat) : Nat := j % 4 * 131072 + i * 16384 + l * 128 + k

/-- Put one code into staging (R243). -/
def stageCode (j i b code : Nat) (t : Tbl Nat) : Tbl Nat :=
  let x := b % 2048
  let w := stageIndex j i (b / 2048) (x / 16)
  let v := tget t w 0
  let k := 4 * (x % 16)
  tset t w (v - bits v (k + 3) k * 2 ^ k + code % 16 * 2 ^ k) 0

/-- A loss of a tile-pass fixes code 0 (R100, R338). -/
def tileLost (st : Stripe) (x y p : Nat) : Bool := st.lostTiles.any (fun r => r.names st.adm.hdr x y p)

/-- What run (b, j) computes for its slot i: coverage and dose of one pass-pixel (R101, R135, R489). -/
def runSlot (s : State) (st : Stripe) (b j i : Nat) : PassOut × Option (Nat × Nat × Nat) :=
  let h := st.adm.hdr
  let (x, y, p, ok) := beamSlot h b (8 * j + i)
  if ¬ ok then ({}, none)
  else
    let y := y.toNat
    if tileLost st x y p then ({}, some (x, y, p))
    else
      let owed : Option Nat := match st.makeup, s.pac.acct with
        | some _, some a => some (a.owed x y p)
        | _, _ => none
      (pixelOut h st.adm.bins st.adm.grid (tableAt s y) x y p owed, some (x, y, p))

/-- R143: the short pass-pixels of a run, one entry for each table generation. (DEDUCED, log 58.) -/
def shortOf (s : State) (st : Stripe) (b : Nat) (outs : List (PassOut × Option (Nat × Nat × Nat))) : List (Nat × Nat) :=
  let hit := outs.filterMap (fun (o, q) => match q with
    | some (_, y, _) => if o.missed > 0 then some (tableAt s y) else none
    | none => none)
  let dark := !st.adm.hdr.redistOff && hit.any (fun t => t.darkSib st.adm.hdr.passes b != 0)
  ((hit.map (fun t => t.gen)).eraseDups).map (fun g => (b, (if dark then 10 else 11) * 2 ^ 32 + g))

/-- Deliver run r of a lane: its codes enter staging (R298: only while the group is open), its shortfalls are noted. -/
def deliverRun (thr : Nat) (r : Run) (s : State) : State := match s.pac.stripe with
  | none => s
  | some st => match grpGet st r.group with
    | none => s
    | some g =>
      let h := st.adm.hdr
      let outs := (List.range 8).map (runSlot s st r.beam r.group)
      let seen := outs.filter (fun o => o.2.isSome)
      let count (f : Nat × Nat × Nat → Bool) : Nat := (seen.filter (fun o => o.2.any f)).length
      let short := (seen.filter (fun o => decide (o.1.missed > 0))).length
      let stg := outs.zipIdx.foldl (fun t (o, i) => stageCode r.group i r.beam o.1.code t) s.swl.staging
      let g' := { g with short := if r.recomp then g.short else g.short ++ shortOf s st r.beam outs }
      let s1 := grpPut r.group g' { s with
        swl := { s.swl with staging := stg }, dos := { s.dos with shortPp := if r.recomp then s.dos.shortPp else s.dos.shortPp + short } }
      cntThr 2 (some thr) (runCycles (runWeight h st.adm.bins r.beam r.group))
        (cntThr 3 none seen.length (cntThr 4 none (runWeight h st.adm.bins r.beam r.group)
          (cntDos 1 none seen.length (cntDos 2 none short (cntDos 3 none ((seen.filter (fun o => o.1.code == 15)).length)
            (cntDos 4 none (count (fun q => (tableAt s q.2.1).healthOf r.beam == 1))
              (cntDos 5 none (count (fun q => (tableAt s q.2.1).sibBright h.passes r.beam)) s1)))))))

/-! ### Loft reads that runs wait for (R110, R125) -/

/-- A block request of a tile's group-fed read or crib fill is outstanding. -/
def readPending (s : State) (p : LftReq → Bool) : Bool := s.lft.ch.any (fun c => c.2.reads.any p || c.2.issued.any p)

/-- The run waits for a loft read of one of its tiles. -/
def runWaits (s : State) (st : Stripe) (r : Run) : Bool :=
  let h := st.adm.hdr
  let row := r.beam / 512
  let x := r.beam % 512 * h.S + row % h.S
  let p := row / h.S
  (runRows h r.beam r.group).any (fun (ty, _, _) =>
    readPending s (fun q => q.rank == 1 && q.tile == ty * h.cols + x / 64 && q.pass == p && q.group == r.group))

/-- Queue the block reads of a bin. -/
def queueBin (rank tile pass group : Nat) (b : Bin) (s : State) : State :=
  (List.range b.blocks).foldl (fun s k =>
    queueRead { rank := rank, client := 0, addr := b.addr + 64 * k, tile := tile, pass := pass, group := group } s) s

/-! ### Expansion jobs and crib fills (R82, R109, R173, R175) -/

/-- Work whose first group has come near enough: groups to g₀ + 15 in the pre-roll, then the 16 groups ahead. -/
def nearGroup (st : Stripe) (g : Nat) : Bool :=
  decide (g ≤ match st.lastSlot with
    | some n => n / 8 + 16
    | none => st.g0 + 15)

/-- The jobs of a stripe over its groups, in order of first group, tile and pass. -/
def stripeJobs (h : Header) (bins : Tbl Bin) (g0 g1 : Nat) : List Job :=
  keySort (fun (q : Job) => (q.group, 8 * q.tile + q.pass)) ((bins.filter (fun p => p.2.dose.isSome)).flatMap (fun (i, _) =>
    (List.range h.passes).filterMap (fun p =>
      let (a, b) := spanOf h i p
      if b ≥ g0 ∧ a ≤ g1 then some { tile := i, pass := p, group := max a g0 } else none)))

/-- The crib fills: resident bins (pass 8) and placed copies. -/
def stripeFills (a : Admission) (g0 g1 : Nat) : List Job :=
  let h := a.hdr
  keySort (fun (q : Job) => (q.group, 16 * q.tile + q.pass))
    (a.resident.filterMap (fun i => if lastUse h i ≥ g0 ∧ firstUse h i ≤ g1 then some { tile := i, pass := 8, group := max (firstUse h i) g0 } else none) ++
     a.placed.filterMap (fun (i, p) =>
       let (f, l) := spanOf h i p
       if l ≥ g0 ∧ f ≤ g1 then some { tile := i, pass := p, group := max f g0 } else none))

/-- Give waiting jobs to free ingest units, lowest unit first. -/
def assignJobs (out : List Nat) (near : Nat → Bool) (jobs : List Job) : List Job :=
  jobs.foldl (fun acc j =>
    if j.unit.isSome ∨ ¬ near j.group then acc ++ [j]
    else
      let busy := (jobs.filterMap (fun q => q.unit)) ++ (acc.filterMap (fun q => q.unit))
      acc ++ [{ j with unit := (List.range 32).find? (fun u => !(out.contains u) && !(busy.contains u)) }]) []

/-- Start the jobs and fills that may start. -/
def startWorkUnits (s : State) : State := match s.pac.stripe with
  | none => s
  | some st =>
    let due := st.fills.filter (fun f => f.unit.isNone && nearGroup st f.group)
    let st' := { st with jobs := assignJobs s.units.ingOut (nearGroup st) st.jobs,
                         fills := st.fills.map (fun f => if nearGroup st f.group then { f with unit := some 0 } else f) }
    due.foldl (fun s f => queueBin 2 f.tile f.pass f.group (tget st.adm.bins f.tile {}) s) (setStripe st' s)

/-- The slots of a tile-pass within the stripe or run. -/
def tileSlots (st : Stripe) (i p : Nat) : Nat × Nat :=
  let h := st.adm.hdr
  (max st.slotFirst (nFirst h (tileX h i) (tileY h i) p), min (st.slotEnd - 1) (nLast h (tileX h i) (tileY h i) p))

/-- Jobs whose pass is needed by group j and is not expanded: the tile-pass is lost (R100). -/
def loseJobs (j : Nat) (s : State) : State := match s.pac.stripe with
  | none => s
  | some st =>
    let late := st.jobs.filter (fun q => decide (q.group ≤ j))
    setStripe { st with
      jobs := st.jobs.filter (fun q => decide (q.group > j)),
      lostTiles := st.lostTiles ++ late.map (fun q => let (a, b) := tileSlots st q.tile q.pass; lossTile 4 q.origin q.pass a b q.tile) } s

/-! ### The moment a group is final (R298) -/

/-- First-computation runs of the group that have not been delivered. -/
def undelivered (s : State) (h : Header) (j : Nat) (g : Group) : List Nat :=
  g.returned ++ (s.units.lanes.filter (fun p => p.2.group == j && !p.2.recomp)).map (fun p => p.2.beam) ++
  ((List.range (numBeams - g.next)).filter (fun d => runDealt h (g.next + d) j)).map (fun d => g.next + d)

/-- Records of the group, raised by the twin in the active role (R302). Where two retirements of the group returned one run, the origin is the
later thresher (DESIGN CHOICE, log 102). -/
def groupRecords (st : Stripe) (j : Nat) (g : Group) (launched : Bool) (left : List Nat) (s : State) : State :=
  let n1 := min (8 * j + 7) (st.slotEnd - 1)
  let s1 := left.foldl (fun s b =>
    match g.retired.find? (fun q => q.1 == b) with
    | some (_, t) => raiseStripeLoss (lossRect 3 t (8 * j) n1 b b) s
    | none => raiseStripeLoss (lossRect 2 0 (8 * j) n1 b b) s) s
  let s2 := match s1.pac.acct with
    | some a => g.short.foldl (fun s (b, c) =>
        pushRecord { lossRect (c / 2 ^ 32) 0 (8 * j) n1 b b with baseId := a.baseId, tag := a.hdr.tag, gen := c % 2 ^ 32 } s) s1
    | none => s1
  let s3 := (st.lostTiles.filter (fun r => r.slotFirst / 8 == j)).foldl (fun s r => raiseStripeLoss r s) s2
  if launched then s3 else raiseStripeLoss (lossRect 9 0 (8 * j) n1 0 (numBeams - 1)) s3

/-- Four consecutive failed groups (R301). -/
def fourFailed (st : Stripe) (j : Nat) : Bool :=
  (List.range 4).any (fun a => (List.range 4).all (fun d => decide (j + d ≥ a) && (grpGet st (j + d - a)).bind (fun g => g.final) == some false))

/-- Bins and copies whose last group this is leave the crib (R109). -/
def evict (a : Admission) (j : Nat) (crib : List (Nat × Nat)) : List (Nat × Nat) :=
  crib.filter (fun (i, p) => decide ((if p = 8 then lastUse a.hdr i else (spanOf a.hdr i p).2) ≠ j))

/-- The group is final: launched with its codes, or failed (R296 to R303). -/
def finalGroup (j : Nat) (launched : Bool) (lane failed : Nat) (s : State) : State := match s.pac.stripe with
  | none => s
  | some st => match grpGet st j with
    | none => s
    | some g =>
      if g.final.isSome then s
      else
        let left := undelivered s st.adm.hdr j g
        let role := groupRole s j
        let g1 := { g with final := some launched, failLane := lane, returned := [], recomp := [] }
        let st1 := { st with groups := tput st.groups j g1, crib := evict st.adm j st.crib,
                             firstFail := if launched then st.firstFail else some (min (8 * j) (st.firstFail.getD (8 * j))) }
        let s1 := setStripe st1 { s with units := { s.units with lanes := s.units.lanes.filter (fun p => p.2.group != j) } }
        let s2 := if role then groupRecords st j g launched left s1 else s1
        let s3 := if launched then s2 else cntTwn 4 none failed { s2 with twn := { s2.twn with fail := sat32 (s2.twn.fail + 1) } }
        let s4 := if role ∧ ¬ launched then
            raiseItems 0x1207 4 [(4, j), (1, lane)] { s3 with twn := { s3.twn with lastFail := lane * 2 ^ 20 + j } }
          else s3
        let s5 := match s4.pac.stripe with
          | some st' =>
            if role ∧ ¬ launched ∧ st'.abort.isNone ∧ fourFailed st' j then
              abortOrDiscardFree 4 true true (raiseItems 0x1208 4 [(4, j)] { s4 with twn := { s4.twn with diverge := true } })
            else s4
          | none => s4
        dealAll s5

/-! ### Digests and the vote (R294 to R296) -/

/-- The digest of lane l in group j (R294). -/
def laneDigest (stg : Tbl Nat) (j l : Nat) : Nat :=
  (List.range 1024).foldl (fun d i => d ^^^ crc64 (le 2 i ++ le 8 (tget stg (stageIndex j (i / 128) l (i % 128)) 0))) 0

/-- Lanes whose round-1 digests differ. -/
def differing (a b : List Nat) : List Nat := (List.range 128).filter (fun l => a.getD l 0 != b.getD l 0)

/-- The digest a twin gave for a masked lane in round 2. -/
def round2 (mask ds : List Nat) (l : Nat) : Option Nat := (mask.zip ds).find? (fun q => q.1 == l) |>.map Prod.snd

/-- Masked lanes that Table 8-8 does not agree. -/
def notAgreed (g : Group) : List Nat :=
  g.mask.filter (fun l => match round2 g.mask (g.own2.getD []) l, round2 g.peerMask (g.peer2.getD []) l with
    | some a2, some b2 => !(a2 == b2 && (a2 == (g.own1.getD []).getD l 0 || a2 == (g.peer1.getD []).getD l 0))
    | _, _ => true)

/-- Dealt beams of the lanes of a mask, in increasing order. -/
def laneBeams (h : Header) (j : Nat) (mask : List Nat) : List Nat :=
  mask.flatMap (fun l => ((List.range 2048).map (fun k => 2048 * l + k)).filter (fun b => runDealt h b j))

/-- Settle what the digests in hand allow (R295, R296). -/
def voteGroup (j : Nat) (s : State) : State := match s.pac.stripe with
  | none => s
  | some st => match grpGet st j with
    | none => s
    | some g =>
      if g.final.isSome then s
      else match g.own1, g.peer1 with
        | some a, some b =>
          if g.mask.isEmpty then
            let m := differing a b
            if m.isEmpty then finalGroup j true 0 0 s
            else
              let s1 := grpPut j { g with mask := m, recomp := laneBeams st.adm.hdr j m } s
              let s2 := cntTwn 3 none m.length (cntTwn 5 none 1 { s1 with twn := { s1.twn with recomp := sat32 (s1.twn.recomp + 1) } })
              dealAll (raiseItems 0x1206 0 [(4, j), (4, m.length)] s2)
          else match g.own2, g.peer2 with
            | some _, some _ =>
              let bad := notAgreed g
              finalGroup j bad.isEmpty (bad.headD 0) bad.length s
            | _, _ => s
        | _, _ => s

/-- D_j of a group that is not final: unvoted it launches, voted it fails (R296, R298, R312). -/
def deadline (j : Nat) (s : State) : State := match s.pac.stripe with
  | none => s
  | some st => match grpGet st j with
    | none => s
    | some g =>
      if ¬ voting s then finalGroup j true 0 0 s
      else if g.mask.isEmpty then finalGroup j false 0 128 s
      else
        let bad := notAgreed g
        finalGroup j false (bad.headD 0) bad.length s

/-! ### Rows -/

/-- The buffer of group j is free (R253). -/
def bufferFree (st : Stripe) (j : Nat) : Bool := decide (j < st.g0 + 4) || decide (st.started ∧ st.nextSlot + 25 > 8 * j)

/-- The run queue of the next group opens now (R253): the fills it needs have ended (R109), and in the pre-roll its expansion jobs as well
(R175). -/
def queueOpens (st : Stripe) : Bool :=
  let j := st.nextGroup
  let before : Bool := match grpGet st (j - 1) with
    | some g => g.final.isSome || allDealt st.adm.hdr (j - 1) g
    | none => true
  decide (j < st.groupLimit) && decide (j ≤ st.lastGroup) && bufferFree st j && (decide (j ≤ st.g0) || before) &&
  !(st.fills.any (fun f => decide (f.group ≤ j))) && (decide (st.state ≠ .arming) || !(st.jobs.any (fun q => decide (q.group ≤ j))))

/-- Group j opens: the tile-passes that its jobs have not expanded are lost, its staging buffer is cleared and its group-fed reads are
issued (R253, R110, R100). -/
def openGroup (j : Nat) (s : State) : State :=
  let s1 := loseJobs j s
  match s1.pac.stripe with
  | none => s1
  | some st =>
    let st1 := { st with nextGroup := j + 1, groups := tput (st.groups.filter (fun p => decide (p.1 + 8 > j))) j { peer1 := tfind st.peerEarly j },
                         peerEarly := tdel st.peerEarly j }
    let s2 := setStripe st1 { s1 with swl := { s1.swl with staging := s1.swl.staging.filter (fun p => p.1 / 131072 != j % 4) } }
    (groupFed st.adm.hdr st.adm.bins st.adm.resident st.adm.placed j).foldl (fun s (i, p) => queueBin 1 i p j (tget st.adm.bins i {}) s) s2

/-- GROUP_QUEUE_OPEN (R253). -/
def execGroupQueueOpen (s : State) : Host.Outcome State Fault Refusal :=
  match s.pac.stripe with
  | none => ok s
  | some st => if queueOpens st then ok (dealAll (openGroup st.nextGroup s)) else ok s

/-- A thresher goes out of service (R128, R129); cause as THR_RETIRED_LAST.CAUSE. -/
def retireThresher (t cause : Nat) (s : State) : State :=
  if s.units.thrOut.contains t then s
  else
    let runs := (s.units.lanes.filter (fun p => p.1 / 2 == t)).map Prod.snd
    let s1 := { s with units := { s.units with
      thrOut := natInsert t s.units.thrOut, thrLastCause := cause, thrLastUnit := t, lanes := s.units.lanes.filter (fun p => p.1 / 2 != t) } }
    let s2 := runs.foldl (fun s r => match s.pac.stripe.bind (fun st => grpGet st r.group) with
      | some g => grpPut r.group (if r.recomp then { g with recomp := natInsert r.beam g.recomp }
                                  else { g with returned := natInsert r.beam g.returned, retired := (r.beam, t) :: g.retired }) s
      | none => s) s1
    dealAll (raiseItems 0x0401 4 [(1, t), (1, cause)] s2)

/-- RUN_COMPLETE: the lane's own checks pass, or one fails: residue (false) or crib-port parity (true) (R124, R128). -/
def execRunComplete (lane : Fin 256) (check : Option Bool) (s : State) : Host.Outcome State Fault Refusal :=
  match tfind s.units.lanes lane, s.pac.stripe with
  | some r, some st =>
    if runWaits s st r then ok s
    else match check with
      | some parity => ok (retireThresher (lane / 2) (if parity then 2 else 1) s)
      | none =>
        let s1 := deliverRun (lane / 2) r s
        ok (dealLane lane { s1 with units := { s1.units with lanes := tdel s1.units.lanes lane } })
  | _, _ => ok s

/-- A write of THR_RETIRE (R133). -/
def thrRetireOp (v : Nat) (s : State) : State := if bitAt v 31 then retireThresher (v % 128) 4 s else s

/-- The lowest open group that `p` holds for. -/
def findGroup (st : Stripe) (p : Nat → Group → Bool) : Option (Nat × Group) := st.groups.find? (fun q => q.2.final.isNone && p q.1 q.2)

/-- GROUP_BUILT: the first computation has filled staging (R295, R298, R312). -/
def execGroupBuilt (s : State) : Host.Outcome State Fault Refusal :=
  match s.pac.stripe with
  | none => ok s
  | some st => match findGroup st (fun j g => !g.built && groupIdle s st.adm.hdr j g) with
    | none => ok s
    | some (j, g) =>
      let s := cntThr 6 none (Config.waitCycles s.free j).toNat s
      if voting s then
        let ds := (List.range 128).map (laneDigest s.swl.staging j)
        ok (voteGroup j (dxpSend 3 j (1 :: ds) (grpPut j { g with built := true, own1 := some ds } s)))
      else
        let s1 := grpPut j { g with built := true } s
        ok (if j < st.g0 + 4 then finalGroup j true 0 0 s1 else s1)

/-- ROUND2_BUILT (R295, R296). -/
def execRound2Built (s : State) : Host.Outcome State Fault Refusal :=
  match s.pac.stripe with
  | none => ok s
  | some st => match findGroup st (fun j g => !g.mask.isEmpty && g.own2.isNone && groupIdle s st.adm.hdr j g) with
    | none => ok s
    | some (j, g) =>
      let ds := g.mask.map (laneDigest s.swl.staging j)
      let m := (g.mask.map (fun l => 2 ^ l)).sum
      ok (voteGroup j (dxpSend 3 j ([2, m % 2 ^ 64, m / 2 ^ 64] ++ ds) (grpPut j { g with own2 := some ds } s)))

/-- GROUP_DEADLINE: D_j of the lowest group that is not final (R298). (DEDUCED, log 94.) -/
def execGroupDeadline (s : State) : Host.Outcome State Fault Refusal :=
  match s.pac.stripe with
  | none => ok s
  | some st => match findGroup st (fun j _ => decide (j ≥ st.g0 + 4 ∧ st.started ∧ st.nextSlot + 4 > 8 * j)) with
    | some (j, _) => ok (deadline j s)
    | none => ok s

/-- RLE_JOB_COMPLETE (R82). -/
def execRleJobComplete (unit : Fin 32) (s : State) : Host.Outcome State Fault Refusal :=
  match s.pac.stripe with
  | none => ok s
  | some st => match st.jobs.find? (fun q => q.unit == some unit.val) with
    | none => ok s
    | some q =>
      let s1 := cntShv 4 (some unit) (tget st.adm.bins q.tile {}).rleSteps (setStripe { st with jobs := st.jobs.filter (fun r => r.unit != some unit.val) } s)
      ok (startWorkUnits s1)

/-- The last ingest unit fails while an admission works: it ends with INGEST_UNITS (R85). -/
def admitNoUnits (s : State) : State := match s.pac.adm with
  | some a =>
    if a.phase = .working ∧ numIng s = 0 then putAdm { a with early := some (0x35, 0, 0), left := 0 } (dropWaits 3 (endAdmWork s))
    else s
  | none => s

/-- INGEST_UNIT_FAILURE (R99, R100): cause 2 where no stripe has work on the unit and an admission works, or where neither is in progress
(DESIGN CHOICE, log 102). -/
def execIngestUnitFailure (unit : Fin 32) (s : State) : Host.Outcome State Fault Refusal :=
  if s.units.ingOut.contains unit then ok s
  else
    let s1 := admitNoUnits { s with units := { s.units with ingOut := natInsert unit s.units.ingOut } }
    match s.pac.stripe with
    | none => ok (raiseItems 0x0302 4 [(1, unit), (1, 2)] s1)
    | some st =>
      let n := (st.jobs.filter (fun q => q.unit == some unit.val)).length
      let jobs := st.jobs.map (fun q => if q.unit = some unit.val then { q with unit := none, origin := unit.val } else q)
      let cause := if n = 0 ∧ s.pac.adm.any (fun a => a.phase = .working) then 2 else 3
      let s2 := cntShv 5 none n (raiseItems 0x0302 4 [(1, unit), (1, cause)] (setStripe { st with jobs := jobs } s1))
      if numIng s2 = 0 ∧ ¬ jobs.isEmpty then
        let s3 := loseJobs (st.nextGroup - 1) s2
        let lost := jobs.filter (fun q => decide (q.group < st.nextGroup))
        let s4 := lost.foldl (fun s q => let (a, b) := tileSlots st q.tile q.pass
                                         if (grpGet st (a / 8)).any (fun g => g.final.isSome) then raiseStripeLoss (lossTile 4 unit q.pass a b q.tile) s else s) s3
        ok (abortOrDiscardFree 4 true true s4)
      else ok (startWorkUnits s2)

/-- CRIB_FILL_COMPLETE: the oldest fill whose blocks have all come (R109). -/
def execCribFillComplete (s : State) : Host.Outcome State Fault Refusal :=
  match s.pac.stripe with
  | none => ok s
  | some st => match st.fills.find? (fun f => f.unit.isSome &&
        !(readPending s (fun q => q.rank == 2 && q.tile == f.tile && q.pass == f.pass && q.group == f.group))) with
    | none => ok s
    | some f => ok (setStripe { st with fills := st.fills.erase f, crib := (f.tile, f.pass) :: st.crib } s)

end Sys2Proof.Machine
end

