-- ==== Sys2Proof/Machine/Slots.lean ====
section
/-! DEFINITION. The slot trigger and its frames (R42, R46, R213 to R217, R241 to R256), alignment markers (R250), the end
of a stripe's late runs, and EV_PACE_OVERSPEED. -/

namespace Sys2Proof.Machine

/-! ### Alignment markers (R250) -/

/-- The AM block of a lane (Table 7-6). -/
def amBlock (l seq slot : Nat) : List Byte := le 1 0x55 ++ le 1 l ++ le 2 seq ++ le 3 slot ++ le 1 0 ++ le 8 0x4FB807E25C913DA6

/-- One AM instant: every ACTIVE lane sends an AM. -/
def sendAms (s : State) : State :=
  let q := (s.swl.amSeq + 1) % 65536
  (List.range 128).foldl (fun s l =>
    let x := laneGet s l
    if x.state = .active then cntSwl 4 (some l) 1 (emit (.swathBlock l (amBlock l q x.lastSlot)) s) else s)
    { s with swl := { s.swl with amSeq := q } }

/-! ### One frame (R241 to R245) -/

/-- What the issue edge latches for every frame of a slot (R217, R220). -/
structure SlotInfo where
  n : Nat
  late : Bool
  chaff : Bool
  act : Bool
  rx : Nat
  rxValid : Bool
  stripeSeq : Nat
  side : Bool
  deriving DecidableEq, Repr

/-- The header word (Table 7-4). -/
def SlotInfo.header (i : SlotInfo) (l : Nat) : Nat :=
  i.rx * 2 ^ 48 + i.stripeSeq % 16 * 2 ^ 44 + flag i.side 42 + flag i.rxValid 41 + flag i.chaff 40 + flag i.late 39 + i.n * 2 ^ 16 +
  flag i.act 15 + l * 256 + 0x4B

/-- The code words of lane l: zeros for chaff and for an uncorrectable word (R248, R256). -/
def SlotInfo.words (i : SlotInfo) (stg : Tbl Nat) (bad : List (Nat × Nat)) (l : Nat) : List Nat :=
  (List.range 128).map (fun k => if i.chaff ∨ bad.contains (l, k) then 0 else tget stg (stageIndex (i.n / 8) (i.n % 8) l k) 0)

/-- The 1,040 bytes of a frame (Table 7-3). -/
def frameBytes (i : SlotInfo) (l alive : Nat) (words : List Nat) : List Byte :=
  let b := le 8 (i.header l) ++ words.flatMap (le 8) ++ le 2 alive
  b ++ le 4 (crc32c b) ++ [0, 0]

/-- Words of a byte string, eight bytes each, little-endian. -/
def wordsOfBytes (bs : List Byte) : List Nat := (List.range (ceilDiv bs.length 8)).map (fun i => fld bs (8 * i) 8)

/-- Lane l begins its frame when it is ACTIVE (R247): its words enter the lane queue (R254); a CHK unit of the device's choosing appends
alive and crc. -/
def sendFrame (i : SlotInfo) (bad : List (Nat × Nat)) (l : Nat) (s : State) : State :=
  let x := laneGet s l
  if x.state ≠ .active then s
  else
    let al := (x.alive + 1) % 65536
    let b := frameBytes i l al (i.words s.swl.staging bad l)
    chkFrame 1 l al (laneSet (emit (.swathFrame l b) s) l { x with alive := al, lastSlot := i.n, queue := wordsOfBytes b })

/-- The last word of lane l's frame has been handed to the serializer. -/
def handLane (l : Nat) (s : State) : State :=
  let x := laneGet s l
  if x.state ≠ .active ∨ x.queue.isEmpty then s
  else
    let s1 := laneSet s l { x with queue := [], aliveSent := x.alive }
    cntSwl 1 (some l) 1 (if bitAt (x.queue.headD 0) 40 then cntSwl 2 (some l) 1 s1 else s1)

/-- The frames under way have been handed over; an AM follows those of a slot n with n mod 1,024 = 1,023 (R250). -/
def handOver (s : State) : State := match s.swl.flight with
  | none => s
  | some (n, _) =>
    let s1 := (List.range 128).foldl (fun s l => handLane l s) { s with swl := { s.swl with flight := none } }
    if n % 1024 = 1023 then sendAms s1 else s1

/-- A frame and its AM have left 25 CK_ENC edges after its issue edge, before the next may be issued (R215, R246; DESIGN CHOICE, log 108). -/
def frameFlow (s : State) : State := match s.swl.flight with
  | some (_, e) => if e + 25 ≤ s.enc.edge then handOver s else s
  | none => s

/-- Account the frame of lane l (R271): chaff and frames without an in-stripe pass-pixel need no settling. -/
def accountFrame (i : SlotInfo) (l : Nat) (s : State) : State := match s.pac.acct with
  | none => s
  | some a =>
    if i.chaff ∨ ¬ laneInStripe a.hdr l i.n then s
    else
      let x := laneAcc a l
      let up := decide ((laneGet s l).state = .active)
      let f : FrameFate := if up then .unsettled else .lost
      let s1 := { s with pac := { s.pac with acct := some (putLaneAcc a l { x with frames := x.frames ++ [(i.n, f, recordRole s (i.n / 8))] }) } }
      if up then s1 else settleLane true l id (cntSwl 3 (some l) 1 s1)

/-! ### Late slots (R215) -/

/-- Note a late slot, or end the run before a slot that is not late. -/
def noteLate (n : Nat) (late : Bool) (s : State) : State :=
  if ¬ late then closeLate s
  else match s.pac.stripe with
    | none => s
    | some st =>
      let run := match st.lateRun with
        | some (a, _) => (a, n)
        | none => (n, n)
      cntEnc 3 none 1 (raiseItems 0x0702 4 [(4, n)] (setStripe { st with lateRun := some run } { s with enc := { s.enc with late := s.enc.late + 1 } }))

/-! ### Pace (Table 5-5) -/

/-- The rate over `k` slot intervals of CK_ENC (160 MHz) of the group of slot n against 1.02·f_adm. -/
def paceRate (n k dt : Nat) (s : State) : State := match s.pac.stripe with
  | none => s
  | some st =>
    let seg := n / 1024
    let fadm := (st.plan.segs.getD (seg - st.segFirst) ⟨0, 1, 0, 0⟩).fAdm
    if dt > 0 ∧ 16000000 * k > 102 * fadm * dt then
      let s1 := cntPac 3 none 1 s
      if st.overGroups.contains seg then s1
      else raiseItems 0x0606 1 [(4, seg), (4, 160000 * k / dt)]
        (setStripe { st with overGroups := seg :: st.overGroups } { s1 with pac := { s1.pac with overspeed := true } })
    else s

/-- At the first slot of a group, the group before it is judged over its eight slot intervals; at the last slot of the stripe, the last group
over the intervals it has (DEDUCED, log 27). -/
def paceCheck (n issue : Nat) (s : State) : State := match s.pac.stripe with
  | none => s
  | some st =>
    let s1 := if n % 8 = 0 ∧ n ≠ st.slotFirst then paceRate (n - 8) 8 (issue - st.grpStart) s else s
    let s2 := if n % 8 = 0 then (match s1.pac.stripe with
      | some st1 => setStripe { st1 with grpStart := issue } s1
      | none => s1) else s1
    if n + 1 ≥ st.slotEnd ∧ n % 8 ≠ 0 then paceRate n (n % 8) (issue - st.grpStart) s2 else s2

/-! ### The slot trigger (R213 to R217, R255) -/

/-- r_x and RESID_VALID at an edge (R217). -/
def residual (s : State) (st : Stripe) (edge : Nat) : Nat × Bool :=
  let x := encGet s 2
  let pos := x.posAt (19 - min 3 (s.enc.edge - edge))
  let d := posDiff pos s.enc.xref
  let sat := decide (d < -32768 ∨ d > 32767)
  (unsigned 16 (clampI d (-32768) 32767), x.posValid && !sat && !st.failX)

/-- The next target becomes current at the issue edge; its due edge is the first at or after that one (R214, R215), unless ENC0 moves in −Y. -/
def nextDue (s : State) (st : Stripe) (issue : Nat) : Option Nat :=
  if s.enc.down then none
  else ((List.range 4).map (fun k => s.enc.edge - (3 - k))).find? (fun e => decide (e ≥ issue) &&
    atOrBeyond ((encGet s 0).posAt (19 - (s.enc.edge - e))) st.tgt)

/-- What the slot sends (Table 7-5). -/
def slotChaff (s : State) (n : Nat) (late : Bool) : Bool :=
  late || match s.pac.stripe.bind (fun st => grpGet st (n / 8)) with
    | some g => !(g.final == some true)
    | none => true

/-- A group whose deadline has passed is final before its slots are read; one that never opened opens and closes at once (R165).
(DEDUCED, log 104.) -/
def settleGroup (n : Nat) (s : State) : State := match s.pac.stripe with
  | some st =>
    if n / 8 ≥ st.g0 + 4 then deadline (n / 8) (if n / 8 = st.nextGroup ∧ n / 8 < st.groupLimit then openGroup (n / 8) s else s) else s
  | none => s

/-- The role at a group's first slot is kept (R302). -/
def keepRole (n : Nat) (s : State) : State := match s.pac.stripe with
  | some st => match grpGet st (n / 8) with
    | some g => if g.active.isNone then grpPut (n / 8) { g with active := some (roleAt s (n / 8)) } s else s
    | none => s
  | none => s

/-- A chaff frame before n_u of an abort lowers n_u (R188). -/
def chaffCut (n : Nat) (chaff : Bool) (s : State) : State := match s.pac.stripe with
  | some st => match st.abort with
    | some (c, nu) => if chaff ∧ n < nu ∧ st.cut then setStripe { st with abort := some (c, n) } s else s
    | none => s
  | none => s

/-- Uncorrectable staging words that the slot reads; a word outside the stripe raises no record (R256, R32). -/
def stagingErrors (i : SlotInfo) (bad : List (Nat × Nat)) (s : State) : State :=
  if i.chaff then s
  else bad.foldl (fun s (l, k) =>
    let s1 := raiseItems 0x1008 4 [(4, i.n), (1, l), (1, k)] s
    let b := 2048 * l + 16 * k
    let inside : Bool := match s.pac.stripe with
      | some st => (List.range 16).any (fun m => (beamSlot st.adm.hdr (b + m) i.n).2.2.2)
      | none => false
    if inside ∧ groupRole s (i.n / 8) then raiseStripeLoss (lossRect 6 0 i.n i.n b (b + 15)) s1 else s1) s

/-- The last slot of the stripe has been delivered (R46). -/
def stripeDone (s : State) : State := match s.pac.stripe with
  | none => s
  | some st =>
    let s1 := closeLate s
    if st.abort.isSome then s1
    else
      let tag := st.adm.hdr.tag
      match s1.pac.stripe with
      | none => s1
      | some st1 => releaseCoefs (raiseItems 0x0602 3 [(4, st1.id), (8, tag), (4, st1.mkCount)] (setStripe { st1 with doneRaised := true, state := .runOut } s1))

/-- The slot n fires at `issue`. (DEDUCED, log 52.) -/
def fireSlot (issue due corrected : Nat) (bad : List (Nat × Nat)) (s : State) : State := match s.pac.stripe with
  | none => s
  | some st0 =>
    let n := st0.nextSlot
    let late := decide (issue > due)
    let s1 := keepRole n (settleGroup n s)
    match s1.pac.stripe with
    | none => s1
    | some st =>
      let first := decide (n = st.slotFirst)
      let last := decide (n + 1 ≥ st.slotEnd)
      let (rx, rv) := residual s1 st issue
      let info : SlotInfo := { n := n, late := late, chaff := slotChaff s1 n late, act := roleAt s1 (n / 8), rx := rx, rxValid := rv,
                               stripeSeq := st.id, side := s1.twn.paired && s1.twn.sideB }
      let (tgt, frac) := nextTarget st
      let st1 : Stripe := { st with
        tgt := if last then st.tgt else tgt, tgtFrac := if last then st.tgtFrac else frac, nextSlot := n + 1, tgtFrom := issue,
        trigArmed := st.trigArmed && !last, due := none, lastIssue := some issue, lastSlot := some n,
        started := true, state := if st.state = .runUp then .writing else st.state }
      let st2 : Stripe := { st1 with due := if last ∨ ¬ st1.trigArmed then none else nextDue s1 st1 issue }
      let s2 := setStripe st2 { s1 with
        enc := { s1.enc with trigSlot := n, trigDone := last, tgt := st2.tgt },
        swl := { s1.swl with stgCe := if info.chaff then s1.swl.stgCe else sat32 (s1.swl.stgCe + corrected) } }
      let s3 := if bitAt (trcCtrl s2) 1 then trcPush 3 (le 4 n ++ le 1 (flag info.act 2 + flag info.chaff 1 + flag late 0)) s2 else s2
      let s4 := if first then raiseItems 0x0601 3 [(4, st.id), (8, st.adm.hdr.tag)] s3 else s3
      let s5 := cntEnc 2 none 1 (if first ∨ n % 1024 = 0 then cntPac 2 none 1 s4 else s4)
      let s6 := stagingErrors info bad (noteLate n late (paceCheck n issue s5))
      let s7 := handOver s6
      let s8 := (List.range 128).foldl (fun s l => accountFrame info l (sendFrame info bad l s)) { s7 with swl := { s7.swl with flight := some (n, issue) } }
      let s9 := closeCut false (chaffCut n info.chaff s8)
      startWorkUnits (if last then stripeDone s9 else s9)

/-- A handover whose deadline D_g passes without its exchange has failed; a committed one ends with the first slot of its group (R304, R305). -/
def handoverStep (s : State) : State := match s.twn.handover, s.pac.stripe with
  | some h, some st =>
    if h.committed then (if st.nextSlot > 8 * h.group then handoverDone s else s)
    else if st.started ∧ st.nextSlot + 3 ≥ 8 * h.group ∧ h.group ≠ max32 then completeOpt h.cmd 0x41 [] { s with twn := { s.twn with handover := none } }
    else s
  | _, _ => s

/-- SLOT_TRIGGER: the issue edge of the current slot has come (R214, R255, R256). `corrected`: staging words
corrected; `bad`: uncorrectable ones by lane and word. -/
def execSlotTrigger (corrected : Nat) (bad : List (Fin 128 × Fin 128)) (s : State) : Host.Outcome State Fault Refusal :=
  match s.pac.stripe with
  | none => ok s
  | some st => match st.due with
    | none => ok s
    | some due =>
      let issue := issueEdge st due
      if issue > s.enc.edge then ok s
      else ok (handoverStep (fireSlot issue due corrected (bad.map (fun q => (q.1.val, q.2.val))) s))

end Sys2Proof.Machine
end

