-- ==== Sys2Proof/Machine/Arm.lean ====
section
/-! DEFINITION. Arming (R196, R293, R485 to R491): STRIPE_ARM and MAKEUP_ARM, the end of the pre-roll, the agreement of the
twins, and STRIPE_ABORT (R197). -/

namespace Sys2Proof.Machine

/-! ### Conditions of Table 5-14 -/

/-- ENC0 lies within PAC_START_TOL of the run-up start, which stands `back` pixel rows before slot `first`, at standstill. -/
def atStart (s : State) (y0 cpp first back : Nat) : Bool :=
  let x := encGet s 0
  let t : Int := (y0 : Int) * 4294967296 + ((first : Int) - (back : Int)) * (cpp : Int)
  let d := signed 48 (unsigned 48 ((x.pos : Int) - t / 4294967296)) * 4294967296 - t % 4294967296
  x.posValid && decide (d.natAbs ≤ regGet s 0x60028 * 4294967296) && !x.spdValid

/-- Units in service are fewer than planned, or a channel was retired since the admission (R355). -/
def unitsLost (s : State) (a : Admission) (p : Plan) : Bool := a.lost || decide (numThr s < p.thr ∨ numIng s < p.ing ∨ numCh s < p.nch)

/-- start_ns is VALUE. -/
def startNsBad (ns : Nat) : Bool := ns % 50000 != 0 || decide (ns ≥ 1000000000)

/-- The checks from BEAM_TABLE_DIRTY to NOT_AT_START of a run with plan `p`: the status, 0 for none. -/
def armChecks (s : State) (a : Admission) (p : Plan) (first : Nat) : Nat :=
  if s.dos.dirty then 0x41
  else if s.pac.stripe.isSome then 0x42
  else if unitsLost s a p then 0x43
  else if planRegs s ≠ p.regs then 0x44
  else if ¬ atStart s a.y0 (p.regs.getD 4 0) first p.runup then 0x45
  else 0

/-! ### The beam map report (R147) -/

/-- Pixel columns whose every beam is dark. -/
def darkColumns (t : BeamTable) (P : Nat) : List Nat :=
  let S := 512 / P
  ((t.health.filter (fun (b, h) => h == 1 && decide (b / 512 < S))).filter (fun (b, _) => (columnGroup P b).all (fun x => t.healthOf x == 1))).foldl
    (fun l (b, _) => natInsert (b % 512 * S + b / 512) l) []

def reportBeamMap (P : Nat) (s : State) : State :=
  let t := s.dos.cur
  let S := 512 / P
  let bright := t.health.filter (fun p => p.2 == 2)
  let cols := darkColumns t P
  let s1 := bright.foldl (fun s (b, _) => raiseItems 0x0501 1 [(4, b), (4, b % 512 * S + b / 512 % S), (1, b / 512 / S)] s) s
  let s2 := cols.foldl (fun s x => raiseItems 0x0502 1 [(4, x)] s) s1
  raiseItems 0x0503 0 [(4, (t.health.filter (fun p => p.2 == 1)).length), (4, bright.length), (4, cols.length)] s2

/-! ### The pre-roll -/

/-- What STRIPE_ARM and MAKEUP_ARM hand to the pre-roll. -/
structure ArmReq where
  cmd : Nat
  id : Nat
  plan : Plan
  segFirst : Nat
  slotFirst : Nat
  slotEnd : Nat
  makeup : Option (List MkRec)
  owed : Nat
  domB : Bool
  startAt : Option Nat
  deriving DecidableEq, Repr

/-- Accept an ARM: the beam map is reported and the pre-roll begins (R196, R175, R488). -/
def beginArm (a : Admission) (q : ArmReq) (s : State) : State :=
  let g0 := q.slotFirst / 8
  let g1 := (q.slotEnd - 1) / 8
  let st : Stripe :=
    { adm := a, id := q.id, cmd := some q.cmd, state := .arming, plan := q.plan, segFirst := q.segFirst, slotFirst := q.slotFirst,
      slotEnd := q.slotEnd, makeup := q.makeup, owed := q.owed, domB := q.domB, startAt := q.startAt, wait := 2, k := 0, stop := none,
      tgt := 0, tgtFrac := 0, nextSlot := q.slotFirst, trigArmed := false, tgtFrom := 0, due := none, lastIssue := none,
      grpStart := 0, reversed := false, lastSlot := none, lateRun := none, groups := [], peerEarly := s.twn.early, nextGroup := g0, groupLimit := g1 + 1,
      jobs := stripeJobs a.hdr a.bins g0 g1, fills := stripeFills a g0 g1, lostTiles := [], dY := 0, dX := 0, failY := false, failX := false,
      overGroups := [], abort := none, cut := false, firstFail := none, crib := [], doneRaised := false, started := false, mkCount := 0, overrunRaised := false }
  let acct : Account :=
    { id := q.id, baseId := a.id, hdr := a.hdr, gens := [(0, s.dos.cur.gen)], makeup := q.makeup, ownGens := a.gens, bins := a.bins,
      grid := a.grid, table := s.dos.cur }
  let s1 := { s with
    pac := { s.pac with adm := some { a with hold := true }, stripe := some st, acct := some acct, prevAcct := s.pac.acct, overrun := false, overspeed := false },
    dos := { s.dos with passes := a.hdr.passes, shortPp := 0 },
    enc := { s.enc with late := 0, trigDone := false },
    twn := { s.twn with recomp := 0, fail := 0, peerArm := none, armSent := false, ownArm := none, ownResult := none, peerResult := none, early := [] },
    units := { s.units with lanes := [] } }
  startWorkUnits (reportBeamMap a.hdr.passes (cmdRun q.cmd s1))

/-- Groups 0 to 3 of the run stand in staging, and the early jobs and fills have ended (R175). -/
def prerollDone (s : State) (st : Stripe) : Bool :=
  let early (q : Job) : Bool := decide (q.group ≤ st.g0 + 15)
  (List.range (min 4 (st.lastGroup + 1 - st.g0))).all (fun d => (grpGet st (st.g0 + d)).any (fun g => g.final.isSome || (g.built && !voting s))) &&
  !(st.jobs.any early) && !(st.fills.any early)

/-- The result of the command that armed (Tables 5-13 and 14-10). -/
def armResult (s : State) (st : Stripe) : List Byte := match st.makeup with
  | none => le 4 s.dos.cur.gen
  | some _ => le 4 st.id ++ le 4 st.slotFirst ++ le 4 (st.slotEnd - 1) ++ le 4 st.plan.runup ++ le 4 st.plan.runout ++ le 4 0 ++ le 8 st.owed

/-- The ARM ends: OK arms the stripe, a make-up run with the next admit_id; any other status discards it and leaves the hold of its admission
(R98, R192, R196, R218, R488). -/
def armEnd (status : Nat) (s : State) : State := match s.pac.stripe with
  | none => s
  | some st =>
    if st.state ≠ .arming then s
    else if status ≠ 0 then discardStripe true status s
    else
      let groups := st.groups.map (fun (j, g) => (j, if g.final.isNone ∧ g.built then { g with final := some true } else g))
      let id := if st.makeup.isSome then wrap32 (s.pac.admitCount + 1) else st.id
      let st1 := { st with
        id := id, state := .armed, cmd := none, groups := groups, dY := (encPos s 0 + 2 ^ 48 - encPos s 1) % 2 ^ 48, dX := (encPos s 2 + 2 ^ 48 - encPos s 3) % 2 ^ 48 }
      let s1 := setStripe st1 { s with pac := { s.pac with
        admitCount := if st.makeup.isSome then id else s.pac.admitCount, acct := s.pac.acct.map (fun a => { a with id := id }) } }
      completeOpt st.cmd 0 (armResult s st1) s1

/-! ### The agreement of the twins (R293) -/

/-- The configuration digest. -/
def cfgDigest (s : State) : Nat :=
  crc32c ([0x70400, 0x70404, 0x60008, 0x6000C, 0x60010, 0x60014, 0x60018, 0x6001C, 0x60020, 0x60024].flatMap (fun o => le 4 (regGet s o)))

/-- What this twin says in ARM_READY. -/
def armReadyOf (s : State) (st : Stripe) : ArmReady :=
  let x := encGet s 0
  { admitId := BitVec.ofNat 32 st.id, planCrc := BitVec.ofNat 32 st.plan.crc, cfgDigest := BitVec.ofNat 32 (cfgDigest s),
    tblDigest := BitVec.ofNat 64 (tableDigest s.dos.cur), pos := BitVec.ofNat 48 x.pos, posValid := x.posValid, speedValid := x.spdValid }

/-- The checks of Table 8-7 that compare the two twins. -/
def twinArmStatus (s : State) (a b : ArmReady) : Nat :=
  if a.planCrc ≠ b.planCrc then 0x48
  else if a.cfgDigest ≠ b.cfgDigest ∨ a.tblDigest ≠ b.tblDigest then 0x49
  else if (posDiff a.pos.toNat b.pos.toNat).natAbs > regGet s 0x120014 ∨ ¬ a.posValid ∨ ¬ b.posValid ∨ a.speedValid ∨ b.speedValid then 0x4A
  else 0

/-- The status on which both twins end an arm with ARM_RESULTs `a` (own) and `b` (the partner's): START_PAST and TWIN_TIMEOUT come from a
twin whose arm has already ended with them. (DEDUCED, log 115.) -/
def armStatus (a b : Nat) : Nat := if a = 0 then b else if b = 0 then a else if b = 0x46 ∨ b = 0x4B then b else min a b

/-- Both ARM_RESULTs are known: the arm ends with the same status on both twins. -/
def armBoth (s : State) : State := match s.twn.ownResult, s.twn.peerResult with
  | some a, some b => armEnd (armStatus a b) s
  | _, _ => s

/-- A twin ends its arm by itself; the partner learns the status. -/
def armRefuse (status : Nat) (s : State) : State := armEnd status (if s.twn.paired then dxpSend 5 status [] s else s)

/-- Both ARM_READYs are known: the checks are made and ARM_RESULT is sent. -/
def armConclude (s : State) : State := match s.pac.stripe, s.twn.peerArm with
  | some st, some m =>
    if st.state ≠ .arming ∨ ¬ s.twn.armSent ∨ s.twn.ownResult.isSome then s
    else
      let r := twinArmStatus s (s.twn.ownArm.getD (armReadyOf s st)) m
      armBoth (dxpSend 5 r [] { s with twn := { s.twn with ownResult := some r } })
  | _, _ => s

/-- The pre-roll has completed (R196 step 4, R293). -/
def prerollEnd (st : Stripe) (s : State) : State :=
  if st.startAt.any (fun t => decide ((domGet s st.domB).t > t)) then armRefuse 0x46 s
  else if ¬ s.twn.paired then armEnd 0 s
  else if s.twn.link ≠ .up then armEnd 0x4C s
  else
    let m := armReadyOf s st
    armConclude (dxpSend 4 st.id [m.planCrc.toNat, m.cfgDigest.toNat, m.tblDigest.toNat, m.pos.toNat, flag m.posValid 0, flag m.speedValid 0]
      { s with twn := { s.twn with armSent := true, ownArm := some m } })

/-! ### Rows of STRIPE_ARM -/

/-- STRIPE_ARM (R196). -/
def execStripeArm (id : Nat) (s : State) : Host.Outcome State Fault Refusal :=
  match cmdOp s id 3 with
  | none => ok s
  | some c =>
    if c.headBad then ok (complete id 2 [] s)
    else if c.tailBad 0x18 ∨ c.p 4 4 ≥ 4 ∨ c.p 0x14 4 ≠ 0 ∨ startNsBad (c.p 0x10 4) then ok (complete id 0x47 [] s)
    else match s.pac.adm with
      | none => ok (complete id 0x40 [] s)
      | some a =>
        if a.phase ≠ .held ∨ a.id ≠ c.p 0 4 then ok (complete id 0x40 [] s)
        else
          let r := armChecks s a a.plan 0
          if r ≠ 0 then ok (complete id r [] s)
          else
            let f := c.p 4 4
            ok (beginArm a { cmd := id, id := a.id, plan := a.plan, segFirst := 0, slotFirst := 0, slotEnd := a.hdr.N, makeup := none, owed := 0,
                             domB := bitAt f 1, startAt := if bitAt f 0 then some (timeOf (c.p 8 8) (c.p 0x10 4)) else none } s)

/-- PREROLL_COMPLETE (R175, R196). -/
def execPrerollComplete (s : State) : Host.Outcome State Fault Refusal :=
  match s.pac.stripe with
  | none => ok s
  | some st => if st.state = .arming ∧ ¬ s.twn.armSent ∧ prerollDone s st then ok (prerollEnd st s) else ok s

/-- DXP_ARM_READY (R293). -/
def execDxpArmReady (m : ArmReady) (s : State) : Host.Outcome State Fault Refusal :=
  if s.twn.paired ∧ s.twn.link = .up then ok (armConclude { s with twn := { s.twn with peerArm := some m } }) else ok s

/-- DXP_ARM_RESULT (R293): the partner's refusal ends an arm that has not come to its own result. -/
def execDxpArmResult (status : W32) (s : State) : Host.Outcome State Fault Refusal :=
  if s.twn.paired ∧ s.twn.link = .up then
    let s1 := { s with twn := { s.twn with peerResult := some status.toNat } }
    ok (if status ≠ 0 ∧ s.twn.ownResult.isNone then armEnd status.toNat s1 else armBoth s1)
  else ok s

/-- TWIN_ARM_TIMEOUT (R293, Table 8-7): no ARM_READY has come since the arm began, whether or not this twin has sent its own. (DEDUCED,
log 115.) -/
def execTwinArmTimeout (s : State) : Host.Outcome State Fault Refusal :=
  match s.pac.stripe with
  | none => ok s
  | some st => if st.state = .arming ∧ s.twn.paired ∧ s.twn.peerArm.isNone then ok (armRefuse 0x4B s) else ok s

/-- STRIPE_ABORT (R197): the stripe is aborted, discarded, or already stopping; the result is n_u. -/
def abortStripe (id : Nat) (st : Stripe) (s : State) : State :=
  let s1 :=
    if st.state = .arming then abortOrDiscardFree 1 true true s
    else if st.state = .stopping then s
    else abortOrDiscard 1 true true 0 s
  complete id 0 (le 4 s1.pac.abortSlot) s1

/-- STRIPE_ABORT: a stripe before an admission (R197). -/
def execStripeAbort (id : Nat) (s : State) : Host.Outcome State Fault Refusal :=
  match cmdOp s id 4 with
  | none => ok s
  | some c =>
    let named (n : Nat) : Bool := c.p 0 4 == 0 || c.p 0 4 == n
    if c.reserved 4 then ok (complete id 2 [] s)
    else match s.pac.stripe.filter (fun st => named st.id) with
      | some st => ok (abortStripe id st s)
      | none =>
        if s.pac.adm.any (fun a => named a.id) then ok (complete id 0 (le 4 max32) (dropAdmission 0x42 s))
        else ok (complete id 0x40 [] s)

/-! ### MAKEUP_ARM (R485 to R491) -/

/-- RESERVED and VALUE of R491: 2, 0x47, or 0. -/
def makeupParams (c : Cmd) : Nat :=
  if c.reserved 0x24 ∨ c.p 2 2 ≠ 0 ∨ c.p 0x14 4 ≠ 0 ∨ c.p 1 1 ≥ 8 ∨ (c.p 0 1 = 1 ∧ c.p 4 4 ≠ 0) then 2
  else if c.p 0 1 > 1 ∨ c.p 0x10 4 = 0 ∨ c.p 0x10 4 > 16384 ∨ c.p 8 8 % 8 ≠ 0 ∨ (c.p 0 1 = 1 ∧ startNsBad (c.p 0x20 4)) then 0x47
  else 0

/-- MAKEUP_ARM with op LIST. -/
def execMakeupArmList (id : Nat) (s : State) : Host.Outcome State Fault Refusal :=
  match cmdOp s id 5 with
  | none => ok s
  | some c =>
    if c.p 0 1 = 1 then ok s
    else
      let r := makeupParams c
      if r ≠ 0 then ok (complete id r [] s)
      else
        let recs := (s.store.recs.drop (c.p 4 4)).take (c.p 0x10 4)
        let s1 := if recs.isEmpty then s else emit (.hostWrite (c.p 8 8) (recs.flatMap MkRec.bytes)) s
        ok (complete id 0 (le 4 recs.length ++ le 4 s.store.recs.length ++ le 4 (if s.store.full then 1 else 0)) s1)

/-- A record as read from a list (Table 14-7). -/
def parseRec (b : List Byte) : MkRec :=
  { recId := fld b 0 4, baseId := fld b 4 4, tag := fld b 8 8, reason := fld b 0x10 1, scope := fld b 0x11 1, pass := fld b 0x12 1,
    origin := fld b 0x13 1, gen := fld b 0x14 4, slotFirst := fld b 0x18 4, slotLast := fld b 0x1C 4, beamFirst := fld b 0x20 4,
    beamLast := fld b 0x24 4 }

def recordsOf : Nat → List Byte → List MkRec
  | 0, _ => []
  | n + 1, b => parseRec (b.take 40) :: recordsOf n (b.drop 40)

/-- A record meets R486, but for its table_gen. -/
def MkRec.fits (r : MkRec) (a : Admission) (rebase : Bool) : Bool :=
  (if rebase then r.tag == a.hdr.tag else r.baseId == a.id) && decide (1 ≤ r.reason ∧ r.reason ≤ 11) &&
  decide (r.slotFirst ≤ r.slotLast ∧ r.slotLast < a.hdr.N) &&
  (if r.reason = 4 ∨ r.reason = 5 then
    r.scope == 1 && decide (r.pass < a.hdr.passes ∧ r.beamFirst < a.hdr.cols * a.hdr.tileRows) && r.beamLast == 0
  else r.scope == 0 && r.pass == 0 && decide (r.beamFirst ≤ r.beamLast ∧ r.beamLast < numBeams))

/-- Slots of the pass-pixels that the listed records cover (R483). -/
def coveredSlots (a : Admission) (t : BeamTable) (recs : List MkRec) : List Nat :=
  let h := a.hdr
  recs.flatMap (fun r => (r.pixels h 0 h.L).filterMap (fun (x, y, p) =>
    let rowGen := ((a.gens.filter (fun q => decide (q.1 ≤ y))).getLast?).map Prod.snd
    let b := passpixBeam h x p
    if (a.gens.any (fun q => q.2 == r.gen) ∧ rowGen ≠ some r.gen) ∨ t.sibBright h.passes b ∨ t.healthOf b = 1 then none
    else some (passpixSlot h x y p)))

/-- Pass-pixels with D > 0. -/
def owedCount (a : Admission) (t : BeamTable) (recs : List MkRec) : Nat :=
  let h := a.hdr
  ((List.range h.L).map (fun y => ((List.range h.W).map (fun x => ((List.range h.passes).filter (fun p =>
    decide (owedDose h a.bins a.grid t a.gens recs x y p > 0))).length)).sum)).sum

/-- The plan of a make-up run over segments ka to kb (R488). (DEDUCED, log 60.) -/
def makeupPlan (p : Plan) (tag N ka kb : Nat) : Plan :=
  let J := 256 * p.regs.getD 3 0
  let A := p.regs.getD 2 0
  let segs := (p.segs.drop ka).take (kb + 1 - ka)
  let w := planPlateaus A J ka N (segs.length + 1) (segs.map (fun g => g.fAdm))
  let q : Plan := { p with
    segs := (segs.zip w).map (fun (g, v) => { g with fAdm := v }),
    runup := transSlots 0 (1000 * w.headD 0) A J, runout := transSlots (1000 * w.getLastD 0) 0 A J }
  { q with crc := planCrc q tag (min (1024 * (kb + 1)) N - 1024 * ka) }

/-- An ARM whose list has been read: the checks of R491 in order, then the pre-roll. -/
def armMakeup (id : Nat) (c : Cmd) (a : Admission) (recs : List MkRec) (s : State) : State :=
  let rebase := bitAt (c.p 1 1) 2
  let t := s.dos.cur
  if ¬ recs.all (fun r => r.fits a rebase) then complete id 0x50 [] s
  else if ¬ rebase ∧ recs.any (fun r => r.gen != s.dos.gen) then complete id 0x51 [] s
  else if a.touched then complete id 0x52 [] s
  else
    let slots := coveredSlots a t recs
    match slots with
    | [] => complete id 0x54 [] s
    | n :: _ =>
      let ka := slots.foldl min n / 1024
      let kb := slots.foldl max n / 1024
      let last := min (1024 * (kb + 1)) a.hdr.N
      let q := makeupPlan a.plan a.hdr.tag a.hdr.N ka kb
      let owed := owedCount a t recs
      if limitPlan s a.y0 (q.regs.getD 4 0) (1024 * ka) last q.runup q.runout ≠ 0 then complete id 0x53 [] s
      else if owed = 0 then complete id 0x54 [] s
      else
        let r := armChecks s a q (1024 * ka)
        if r ≠ 0 then complete id r [] s
        else
          let f := c.p 1 1
          beginArm a { cmd := id, id := s.pac.admitCount + 1, plan := q, segFirst := ka, slotFirst := 1024 * ka, slotEnd := last, makeup := some recs,
                       owed := owed, domB := bitAt f 1, startAt := if bitAt f 0 then some (timeOf (c.p 0x18 8) (c.p 0x20 4)) else none } s

/-- MAKEUP_ARM with op ARM; `data` is the list read from host memory. -/
def execMakeupArmArm (id : Nat) (data : Option (List Byte)) (s : State) : Host.Outcome State Fault Refusal :=
  match cmdOp s id 5 with
  | none => ok s
  | some c =>
    if c.p 0 1 ≠ 1 then ok s
    else
      let r := makeupParams c
      if r ≠ 0 then ok (complete id r [] s)
      else match s.pac.adm with
        | none => ok (complete id 0x40 [] s)
        | some a =>
          if a.phase ≠ .held then ok (complete id 0x40 [] s)
          else match data with
            | none => ok (complete id 4 [] s)
            | some b => withLen b (40 * c.p 0x10 4) (armMakeup id c a (recordsOf (c.p 0x10 4) b) s)

end Sys2Proof.Machine
end

