-- ==== Sys2Proof/Machine/Pace.lean ====
section
/-! DEFINITION. Stage pacing (R183 to R191, R196): set-point instants and pace frames, the run-up, the brake at a virtual
limit, and the end of a stop. -/

namespace Sys2Proof.Machine

/-! ### Pace frames (R190, R191) -/

def paceOn (s : State) : Bool := bitAt (regGet s 0x60000) 0

/-- The fields of a frame after `seq`: position (48.16), velocity and acceleration (48.16), slot (Table 5-6). -/
structure SetPoint where
  phase : Nat
  pos : Int
  vel : Int
  acc : Int
  slot : Nat
  deriving DecidableEq, Repr

/-- The 40 bytes of a frame. -/
def paceBytes (seq : Nat) (m : Option SetPoint) : List Byte :=
  let b := match m with
    | none => le 2 0x5AA5 ++ le 2 0 ++ le 4 seq ++ List.replicate 30 0
    | some p => le 2 0x5AA5 ++ le 1 1 ++ le 1 p.phase ++ le 4 seq ++ le 6 (unsigned 48 (p.pos / 65536)) ++ le 2 (unsigned 16 p.pos) ++
        le 8 (unsigned 64 p.vel) ++ le 8 (unsigned 64 p.acc) ++ le 4 p.slot ++ le 2 0
  b ++ le 2 (crc16 b)

/-- Send one frame when the link is enabled. -/
def sendPace (m : Option SetPoint) (s : State) : State :=
  if paceOn s ∧ ¬ s.glb.fatal then
    let q := wrap32 (s.pac.seq + 1)
    cntPac 1 none 1 (emit (.paceFrame (paceBytes q m)) { s with pac := { s.pac with seq := q } })
  else s

/-- Phase of a slot position (Table 5-6). -/
def Stripe.phaseAt (st : Stripe) (x : Rat) : Nat :=
  if st.stop.isSome then 4 else if x < (st.slotFirst : Rat) then 1 else if x < (st.slotEnd : Rat) then 2 else 3

/-- The set-point of instant k, none once the profile has ended (R182, R183). (DESIGN CHOICE, log 43.) -/
def Stripe.setPoint (st : Stripe) (k : Nat) : Option SetPoint :=
  let (x, v, a, moving) := st.profile k
  let c : Rat := (st.cpp : Rat) / 65536
  if moving then some { phase := st.phaseAt x, pos := ((st.adm.y0 : Rat) * 65536 + x * c).floor, vel := (v * c).floor, acc := (a * c).floor,
                        slot := x.floor.toNat % 2 ^ 23 }
  else none

/-! ### The brake of R185 -/

/-- The stopping point of a stop from instant k, in counts, rounded up. -/
def Stripe.stopPoint (st : Stripe) (k : Nat) : Int :=
  let (x, v, a, _) := st.profile k
  (st.counts (x + stopDistance v a st.A st.J)).ceil

/-- A point in counts lies beyond a limit (R204). -/
def beyond (p : Int) (limit : Nat) : Bool := decide (posDiff (unsigned 48 p) limit > 0)

/-- Where the stop that runs will end. -/
def Stripe.stopEnd (st : Stripe) : Option Int := match st.stop with
  | none => none
  | some sp => some (st.counts (unfix32 sp.pos + stopDistance (unfix32 sp.vel) (unfix32 sp.acc) st.A st.J)).ceil

/-- R185, R186 at a set-point instant: the stop begins when its end, or that of a stop from the next instant, would pass
the upper limit; a limit moved behind the stopping point is an overrun. (DEDUCED, log 44.) -/
def brakeCheck (s : State) : State := match s.pac.stripe with
  | none => s
  | some st =>
    let hi := vlimHi s
    if ¬ paceMaster s then s
    else if st.state.moving then
      let now := st.stopPoint st.k
      if beyond now hi ∨ beyond (st.stopPoint (st.k + 1)) hi then
        let s1 := abortRunning 2 none true true (raiseItems 0x0604 4 [(8, unsigned 48 now), (8, hi)] s)
        if beyond now hi then raiseOverrun (encPos s 0) hi s1 else s1
      else s
    else match st.stopEnd with
      | some e => if beyond e hi then raiseOverrun (encPos s 0) hi s else s
      | none => s

/-! ### Rows -/

/-- The run-up begins at this instant (R196): the second after completion, or the first at or after the start time. -/
def runUpDue (s : State) (st : Stripe) : Bool :=
  decide (st.state = .armed) && decide (s.tim.setDue > 0) &&
  match st.startAt with
  | some t => decide ((domGet s st.domB).t ≥ t)
  | none => decide (st.wait ≤ 1)

/-- SETPOINT_INSTANT (R183, R185, R190). -/
def execSetpointInstant (s : State) : Host.Outcome State Fault Refusal :=
  if s.tim.setDue = 0 ∨ s.pac.stripe.any (runUpDue s) then ok s
  else
    let s1 := { s with tim := { s.tim with setDue := s.tim.setDue - 1 } }
    match s1.pac.stripe with
    | none => ok (sendPace none s1)
    | some st =>
      if st.state = .arming then ok (sendPace none s1)
      else if st.state = .armed then ok (sendPace none (setStripe { st with wait := st.wait - 1 } s1))
      else
        let s2 := brakeCheck s1
        match s2.pac.stripe with
        | none => ok s2
        | some st2 =>
          let s3 := sendPace (if paceMaster s2 then st2.setPoint st2.k else none) s2
          ok (setStripe { st2 with k := st2.k + 1 } s3)

/-- RUN_UP_START (R196, R213). -/
def execRunUpStart (s : State) : Host.Outcome State Fault Refusal :=
  match s.pac.stripe with
  | none => ok s
  | some st =>
    if ¬ runUpDue s st then ok s
    else if paceMaster s ∧ ¬ atStart s st.adm.y0 st.cpp st.slotFirst st.plan.runup then
      let s1 := if voting s then dxpSend 6 st.nextGroup [3] s else s
      let s2 := discardStripe false 0 s1
      ok (raiseItems 0x0603 3 [(4, st.id), (1, 3), (4, 0)] { s2 with pac := { s2.pac with abortSlot := 0 } })
    else
      let (t, f) := targetOf st st.slotFirst
      ok (setStripe { st with state := .runUp, k := 0, trigArmed := true, tgt := t, tgtFrac := f, tgtFrom := s.enc.edge }
        { s with enc := { s.enc with tgt := t, trigDone := false } })

/-- The stop, or the run-out, has ended. -/
def atRest (s : State) (st : Stripe) : Bool :=
  (st.doneRaised || st.abort.isSome) && (!paceMaster s || !(st.profile st.k).2.2.2)

/-- STOP_AT_REST: the stage has come to rest after a stripe or its abort (R189, R250). -/
def execStopAtRest (s : State) : Host.Outcome State Fault Refusal :=
  match s.pac.stripe with
  | none => ok s
  | some st => if atRest s st then ok (dropStripe false (endAccount (closeCut true (closeLate s)))) else ok s

/-- DXP_ABORT (R309). -/
def execDxpAbort (group : W32) (cause : Byte) (s : State) : Host.Outcome State Fault Refusal :=
  if ¬ voting s then ok s
  else if s.pac.stripe.any (fun st => st.state.moving) then ok (abortRunning cause.toNat (some group.toNat) true true s)
  else if s.pac.stripe.any (fun st => st.state = .stopping) then ok (widenAbort group.toNat s)
  else ok (abortOrDiscardFree cause.toNat false true s)

/-- PAC_CTRL written with LINK_EN (R191). -/
def paceLinkOp (s : State) : State := { s with pins := { s.pins with paceClk := paceOn s && !s.glb.fatal } }

end Sys2Proof.Machine
end

