-- ==== Sys2Proof/Machine/Stage.lean ====
section
/-! DEFINITION. Meanings of the encoder rows (06): samples, speed edges, standstill, calibration windows and slews, and
CAL_ENC. -/

namespace Sys2Proof.Machine

/-- ENC_SAMPLE: one ADC sample of every channel and the four CK_ENC edges up to the next one (R200 to R206, R213 to R218,
R221). -/
def execEncSample (p0 p1 p2 p3 : EncPair) (s : State) : Host.Outcome State Fault Refusal :=
  if ¬ s.glb.clocksOk ∨ s.glb.fatal then ok s
  else
    let before := (List.range 4).map (encPos s)
    let s1 := ([p0, p1, p2, p3].zipIdx).foldl (fun s (p, n) => sampleCh n p s) s
    let s2 := encFaultStripe s s1
    ok (frameFlow ([16, 17, 18, 19].foldl (fun (q : List Nat × State) off => encEdge off q.1 q.2) (before, s2)).2)

/-- SPEED_EDGE (R207 to R210). -/
def execSpeedEdge (n : Fin 4) (cycle : Fin 5) (s : State) : Host.Outcome State Fault Refusal := ok (speedEdge n cycle s)

/-- STILL_TIMEOUT (R211). -/
def execStillTimeout (n : Fin 4) (s : State) : Host.Outcome State Fault Refusal :=
  let x := encGet s n
  if ¬ x.still ∧ s.tim.core - x.lastStamp ≥ 1250 * regGet s 0x70428 then
    ok (encSet s n { x with still := true, spdValid := false, spd := 0, lastUp := none })
  else ok s

/-- CAL_WINDOW_CLOSE: the window has counted its periods (R224 to R229). -/
def execCalWindowClose (n : Fin 4) (s : State) : Host.Outcome State Fault Refusal :=
  let x := encGet s n
  match x.window with
  | none => ok s
  | some w =>
    if w.counted < w.periods then ok s
    else
      let s1 := encSet s n { x with window := none, measure := none }
      match fitWindow w with
      | .inl o => ok (reopen n (cntEnc 5 (some n) 1 (calDone x.measure n o (encSet s1 n { encGet s1 n with calLast := o }))))
      | .inr c =>
        let held := bitAt (calCtrl s n) 2 && stripeHolds s
        ok (reopen n (cntEnc 4 (some n) 1 (applyCoef n c x.measure (encSet s1 n { encGet s1 n with calLast := if held then 5 else 0 }))))

/-- CAL_SLEW_END: the last sample of a slew has passed (R227, R228). -/
def execCalSlewEnd (n : Fin 4) (s : State) : Host.Outcome State Fault Refusal :=
  let x := encGet s n
  match x.slew with
  | none => ok s
  | some (_, c, i) =>
    if i < 4096 then ok s
    else
      let t := nowA s
      let count := sat32 (x.calCount + 1)
      let s1 := encSet s n { x with coef := c, slew := none, slewCmd := none, calCount := count, calSec := secOf t, calNs := nsOf t }
      ok (reopen n (calDone x.slewCmd n 0 (raiseItems 0x0706 0 [(1, n), (4, count)] s1)))

/-! ### CAL_ENC (R231) -/

/-- Channels named. -/
def calNames (c : Cmd) : List Nat := (List.range 4).filter (fun n => bitAt (c.p 0 1) n)

/-- RESERVED, NOT_READY before step 8 of start-up, VALUE and CAL_BUSY for CAL_ENC; `bad`: a field of the operation is out of range. (DEDUCED,
log 63.) -/
def calCheck (s : State) (c : Cmd) (bad : Bool) : Nat :=
  if c.reserved 0x14 ∨ c.p 0 1 ≥ 16 then 2
  else if ¬ s.glb.encOk then 3
  else if c.p 0 1 = 0 ∨ bad then 0x40
  else if (calNames c).any (fun n => (encGet s n).measure.isSome) then 0x41
  else 0

/-- The outcomes as a command starts: pending where named, 0xFF elsewhere (Table 6-7). -/
def calOpen (id : Nat) (c : Cmd) (s : State) : State :=
  cmdRun id { s with enc := { s.enc with
    calJobs := tput s.enc.calJobs id ((List.range 4).map (fun n => if bitAt (c.p 0 1) n then none else some 0xFF)) } }

/-- CAL_ENC MEASURE, and an operation that Table 6-6 does not list. -/
def execCalEncMeasure (id : Nat) (s : State) : Host.Outcome State Fault Refusal :=
  match cmdOp s id 0x0A with
  | none => ok s
  | some c =>
    let op := c.p 1 1
    let per := c.p 2 2
    if 2 ≤ op ∧ op ≤ 4 then ok s
    else
      let r := calCheck s c (op ≠ 1 || (per ≠ 0 && decide (per < 64)) || c.p 4 4 == 0 || decide (c.p 4 4 > 60000))
      if r ≠ 0 then ok (complete id r [] s)
      else ok ((calNames c).foldl (fun s n =>
        encSet s n { encGet s n with window := some { periods := if per = 0 then calPeriods s n else per }, measure := some id }) (calOpen id c s))

/-- CAL_ENC STORE (R230): the record is written to the granary; the command completes with the last word. -/
def execCalEncStore (id : Nat) (s : State) : Host.Outcome State Fault Refusal :=
  match cmdOp s id 0x0A with
  | none => ok s
  | some c =>
    if c.p 1 1 ≠ 2 then ok s
    else
      let r := calCheck s c false
      if r ≠ 0 then ok (complete id r [] s)
      else if ¬ s.grn.loaded then ok (complete id 3 [] s)
      else ok (queueJob { kind := 2, cmd := some id, todo := [], written := 0, failed := false, names := c.p 0 1,
                          pay := some (coefPayload (fun n => (encGet s n).coef)) } (cmdRun id s))

/-- The set of a LOAD. -/
def loadCoef (c : Cmd) : Coef :=
  { oc := signed 16 (c.p 8 2), os := signed 16 (c.p 0xA 2), gc := c.p 0xC 2, gs := c.p 0xE 2, pa := c.p 0x10 2, pb := signed 16 (c.p 0x12 2) }

/-- CAL_ENC LOAD. -/
def execCalEncLoad (id : Nat) (s : State) : Host.Outcome State Fault Refusal :=
  match cmdOp s id 0x0A with
  | none => ok s
  | some c =>
    if c.p 1 1 ≠ 3 then ok s
    else
      let k := loadCoef c
      let r := calCheck s c (decide (k.gc = 0 ∨ k.gs = 0 ∨ k.pa < 0x4000 ∨ k.pa > 0x4242 ∨ k.pb < -4390 ∨ k.pb > 4390))
      if r ≠ 0 then ok (complete id r [] s)
      else ok ((calNames c).foldl (fun s n => applyCoef n k (some id) s) (calOpen id c s))

/-- CAL_ENC RESTORE. -/
def execCalEncRestore (id : Nat) (s : State) : Host.Outcome State Fault Refusal :=
  match cmdOp s id 0x0A with
  | none => ok s
  | some c =>
    if c.p 1 1 ≠ 4 then ok s
    else
      let r := calCheck s c false
      if r ≠ 0 then ok (complete id r [] s)
      else if ¬ s.grn.loaded then ok (complete id 3 [] s)
      else match (newestCopy s 2).1 with
        | none => ok (complete id 0x42 [] s)
        | some _ => ok ((calNames c).foldl (fun s n => applyCoef n (storedCoef s n) (some id) s) (calOpen id c s))

/-- CAL_ENC_TIMEOUT: the windows that a MEASURE still runs end with outcome 1 (R231). -/
def execCalEncTimeout (id : Nat) (s : State) : Host.Outcome State Fault Refusal :=
  ok ((List.range 4).foldl (fun s n =>
    let x := encGet s n
    if x.measure = some id then calDone (some id) n 1 (reopen n (encSet s n { x with window := none, measure := none, calLast := 1 })) else s) s)

end Sys2Proof.Machine
end

