-- ==== Sys2Proof/Machine/Swath.lean ====
section
/-! DEFINITION. Swath and return lanes (R257 to R278): lane states, training, return messages, settling of frames, PLLs,
markers and loopback. -/

namespace Sys2Proof.Machine

/-! ### Taps (R264, Table 7-12) -/

def Taps.legal (t : Taps) : Bool :=
  decide (-16 ≤ t.pre ∧ t.pre ≤ 0 ∧ 24 ≤ t.main ∧ t.main ≤ 63 ∧ -24 ≤ t.post ∧ t.post ≤ 0 ∧
          -t.pre + t.main - t.post ≤ 63 ∧ t.main + t.pre + t.post ≥ 16)

def presetTaps (n : Nat) : Taps :=
  ([⟨0, 63, 0⟩, ⟨0, 55, -8⟩, ⟨0, 47, -16⟩, ⟨-4, 51, -8⟩, ⟨-4, 43, -16⟩, ⟨-8, 47, -8⟩, ⟨-8, 41, -14⟩, ⟨-2, 41, -20⟩] : List Taps).getD n {}

/-- Taps as a register shows them (Table 7-19), and back. -/
def Taps.word (t : Taps) : Nat := unsigned 8 t.post * 65536 + unsigned 8 t.main * 256 + unsigned 8 t.pre
def tapsOf (v : Nat) : Taps := { pre := signed 8 v, main := (v / 256 % 256 : Nat), post := signed 8 (v / 65536) }

/-- One change of a request (0 hold, 1 up, 2 down in magnitude; 3 counts as hold): the taps and its acknowledgement. -/
def judgeTap (code : Nat) (up : Taps) (down : Taps) (t : Taps) : Taps × Nat :=
  if code = 1 then (if up.legal then (up, 0) else (t, 1))
  else if code = 2 then (if down.legal then (down, 0) else (t, 1))
  else (t, 2)

/-- A tap request judged pre, main, post: new taps and `ack`. (DEDUCED, log 65.) -/
def applyReq (t : Taps) (req preset : Nat) : Taps × Nat :=
  if preset < 8 then (presetTaps preset, 0x40)
  else
    let (t1, a) := judgeTap (bits req 1 0) { t with pre := t.pre - 1 } { t with pre := t.pre + 1 } t
    let (t2, b) := judgeTap (bits req 3 2) { t1 with main := t1.main + 1 } { t1 with main := t1.main - 1 } t1
    let (t3, c) := judgeTap (bits req 5 4) { t2 with post := t2.post - 1 } { t2 with post := t2.post + 1 } t2
    (t3, c * 16 + b * 4 + a)

/-! ### Settling (R271) -/

/-- The fate that a STATUS gives a frame: HIGH and `map`, `below`: frames up to HIGH settle, `lost`: the rest are lost. -/
def statusFate (h map : Nat) (below lost : Bool) (q : Nat × FrameFate × Bool) : Nat × FrameFate × Bool :=
  let (n, f, act) := q
  if f ≠ .unsettled then q
  else if below ∧ n ≤ h then (n, if h - n < 32 ∧ map.testBit (h - n) then .applied else .lost, act)
  else if lost then (n, .lost, act)
  else q

/-- Frames of a lane that are lost so far but not yet drained. -/
def lostOpen (x : LaneAcc) : Nat := (x.frames.filter (fun q => q.2.1 == .lost)).length

/-- Settle frames of a lane in one account and count those that are newly lost (Table 13-1). -/
def settleFrames (cur : Bool) (l : Nat) (f : Nat × FrameFate × Bool → Nat × FrameFate × Bool) (s : State) : State :=
  match if cur then s.pac.acct else s.pac.prevAcct with
  | none => s
  | some a =>
    let x := laneAcc a l
    let n := lostOpen { x with frames := x.frames.map f } - lostOpen x
    settleLane cur l f (cntSwl 3 (some l) n s)

/-! ### Lane states (R267, R270) -/

def swlOff (l o : Nat) : Nat := 0x100000 + 0x400 * l + o
def tapInit (s : State) (l : Nat) : Taps := tapsOf (regGet s (swlOff l 0xC))
def laneEn (s : State) (l : Nat) : Bool := bitAt (regGet s (swlOff l 0)) 0
def laneLoop (s : State) (l : Nat) : Nat := bits (regGet s (swlOff l 0)) 5 4

/-- First slot that a lane leaving ACTIVE now does not send (R270). (DEDUCED, log 67.) -/
def downSlotNow (s : State) : Nat := match s.pac.stripe with
  | some st => if st.state.live ∧ ¬ st.doneRaised then st.nextSlot else 0x7FFFFF
  | none => 0x7FFFFF

/-- The taps that a lane uses. -/
def lTaps (s : State) (l : Nat) : Taps := (laneGet s l).taps.getD (tapInit s l)

/-- The slot that a lane leaving ACTIVE names: that of the frame it cuts short, else the next. -/
def downSlotOf (s : State) (l : Nat) : Nat := match s.swl.flight with
  | some (n, _) => if (laneGet s l).queue.isEmpty then downSlotNow s else n
  | none => downSlotNow s

/-- A lane that leaves ACTIVE stops sending at once and empties its queue; the partial frame counts as not sent (R255, R271). -/
def cutFrame (l : Nat) (s : State) : State :=
  let x := laneGet s l
  if x.queue.isEmpty then s
  else
    let s1 := emit (.swathCut l) (laneSet s l { x with queue := [] })
    match s.swl.flight with
    | some (n, _) => settleFrames true l (fun q => if q.1 = n ∧ q.2.1 = .unsettled then (q.1, .lost, q.2.2) else q) s1
    | none => s1

/-- Move a lane to a state, with what entering or leaving it does. `cause`: the reason for leaving ACTIVE. -/
def laneTo (l : Nat) (goal : LaneState) (cause : Nat) (s : State) : State :=
  let x := laneGet s l
  let enter (x : Lane) : Lane :=
    let x1 : Lane := { x with state := goal, noPartner := if goal = .preset then x.noPartner else false }
    if goal = .preset then { x1 with taps := some (tapInit s l), ackSeq := 0, ack := 0, handled := false, noPartner := false } else x1
  if goal = .active then
    raiseItems 0x1001 0 [(1, l)] (laneSet s l { enter x with alive := 0, trains := sat32 (x.trains + 1), lastSlot := 0x7FFFFF })
  else if x.state = .active then
    let n := downSlotOf s l
    let s1 := cutFrame l s
    raiseItems 0x1002 4 [(1, l), (1, cause), (4, n)] (laneSet s1 l { enter (laneGet s1 l) with downSeen := true, downCause := cause, downSlot := n })
  else laneSet s l (enter x)

/-- A lane in near-end loopback, whose words the quad checker checks (R276). -/
def nearEnd (s : State) (l : Nat) : Bool := decide ((laneGet s l).state = .loopback) && (laneLoop s l == 1 || laneLoop s l == 2)

/-- What the quad checker has counted since the counts were last taken: words and errors that the spec gives no value (R277; DESIGN CHOICE,
log 68). -/
def takeChecked (l : Nat) (s : State) : State :=
  if nearEnd s l then
    let (e, s1) := drawFree s
    let (w, s2) := drawFree s1
    let x := laneGet s2 l
    laneSet s2 l { x with lbErr := sat32 (x.lbErr + e.toNat % 2 ^ 32), lbWords := sat32 (x.lbWords + w.toNat % 2 ^ 32) }
  else s

/-- The swath block runs: start-up has reached the lanes. -/
def swathUp (s : State) : Bool := s.glb.lanesStarted && !s.glb.fatal && !s.pins.idle

/-- The PLL of lane l's quad is locked (R259). -/
def quadLocked (s : State) (l : Nat) : Bool := s.swl.pll.contains (l / 4)

/-- A write of SWLl_CTRL after its bits are stored: `old` is the value before, `v` the value written (Table 7-17). (DEDUCED, log 66.) -/
def laneCtrl (l old v : Nat) (s : State) : State :=
  let stripe := s.pac.stripe.any (fun st => st.state.live)
  let refuse := decide (bits v 5 4 ≠ 0) && stripe
  let sa := takeChecked l s
  let s0 := if refuse then laneSet (regSet sa (swlOff l 0) (v % 2 + bits old 5 4 * 16)) l { laneGet sa l with loopRefused := true }
            else regSet sa (swlOff l 0) (v % 2 + bits v 5 4 * 16)
  let s1 := if v % 2 = 0 then (if (laneGet s0 l).state = .disabled then s0 else laneTo l .disabled 4 s0)
            else if (laneGet s0 l).state = .disabled ∧ swathUp s0 ∧ quadLocked s0 l then laneTo l .preset 0 s0 else s0
  let s2 := if bitAt v 7 ∧ (laneGet s1 l).state = .active then laneTo l .tap 4 s1 else s1
  let st := (laneGet s2 l).state
  if refuse then s2
  else if bits v 5 4 = 0 then (if st = .loopback then laneTo l .tap 0 s2 else s2)
  else if st = .disabled ∨ st = .loopback then s2
  else laneTo l .loopback 5 s2

/-! ### Return messages (R260 to R263) -/

/-- A good message on return lane k. -/
def goodReturn (k : Nat) (s : State) : State :=
  let x := retGet s k
  let s1 := retSet s k { x with msgs := wrap32 (x.msgs + 1), good := min 4 (x.good + 1), sync := x.sync || decide (x.good + 1 ≥ 4) }
  if ¬ x.sync ∧ x.good + 1 ≥ 4 then raiseItems 0x1006 0 [(1, k)] s1 else s1

/-- A discarded message (R260). -/
def badReturn (k : Nat) (s : State) : State :=
  let x := retGet s k
  retSet s k { x with crcErr := sat32 (x.crcErr + 1), good := if x.sync then x.good else 0 }

/-- A message that names lane l: discarded outside the return lane's 16; else the sign of life that moves PRESET to
TAP, and `act` on the lane while its return lane is not DOWN. (DEDUCED, log 64.) -/
def laneMsg (k l : Nat) (act : State → State) (s : State) : Host.Outcome State Fault Refusal :=
  if ¬ swathUp s then ok s
  else if l / 16 ≠ k then ok (badReturn k s)
  else
    let s1 := goodReturn k s
    if ¬ (retGet s1 k).sync then ok s1
    else ok (act (if (laneGet s1 l).state = .preset then laneTo l .tap 0 s1 else s1))

/-! ### What a STATUS settles (R271) -/

/-- What a STATUS settles. (DEDUCED, log 47.) -/
def settleStatus (l rx high map : Nat) (s : State) : State :=
  let lost := decide (rx = 0 ∨ rx = 3)
  let valid := bitAt high 23
  let h := high % 2 ^ 23
  let seq := bits high 27 24
  let isCur := s.pac.acct.any (fun a => a.id % 16 == seq)
  let isPrev := !isCur && s.pac.prevAcct.any (fun a => a.id % 16 == seq)
  if ¬ valid then (if lost then settleFrames true l (statusFate 0 0 false true) (settleFrames false l (statusFate 0 0 false true) s) else s)
  else if isCur then
    let s1 := settleFrames true l (statusFate h map true lost) s
    if lost then settleFrames false l (statusFate 0 0 false true) s1 else s1
  else if isPrev then
    let s1 := settleFrames false l (statusFate h map true lost) s
    if lost then settleFrames true l (statusFate 0 0 false true) s1 else s1
  else s

/-- RETURN_STATUS (R262, R267, R271). -/
def statusOp (l rx high map crcErr : Nat) (s : State) : State :=
  let st := (laneGet s l).state
  if st ≠ .align ∧ st ≠ .active then s
  else
    let s1 := settleStatus l rx high map (laneSet s l { laneGet s l with rx := rx, crcErr := crcErr, high := high % 2 ^ 24 })
    if st = .align then (if rx = 2 then laneTo l .active 0 s1 else s1)
    else if rx = 0 ∨ rx = 3 then laneTo l .tap 1 s1 else s1

/-- RETURN_STATUS. -/
def execReturnStatus (k : Fin 8) (lane : Fin 128) (rx : Fin 4) (high map : W32) (crcErr : BitVec 16) (s : State) :
    Host.Outcome State Fault Refusal :=
  laneMsg k lane (statusOp lane rx high.toNat map.toNat crcErr.toNat) s

/-- RETURN_TAP_REQ (R264, R266). -/
def tapReq (l seq req preset : Nat) (s : State) : State :=
  let x := laneGet s l
  if x.state ≠ .tap ∨ (x.handled ∧ x.ackSeq = seq) then s
  else
    let (t, a) := applyReq (lTaps s l) req preset
    laneSet s l { x with taps := some t, ack := a, ackSeq := seq, handled := true }

/-- RETURN_TAP_REQ. -/
def execReturnTapReq (k : Fin 8) (lane : Fin 128) (seq req preset : Byte) (s : State) : Host.Outcome State Fault Refusal :=
  laneMsg k lane (tapReq lane seq.toNat req.toNat preset.toNat) s

/-- RETURN_TRAINED (R267). -/
def execReturnTrained (k : Fin 8) (lane : Fin 128) (_seq : Byte) (s : State) : Host.Outcome State Fault Refusal :=
  laneMsg k lane (fun s => if (laneGet s lane).state = .tap then laneTo lane .align 0 s else s) s

/-- RETURN_PRBS_RESULT (R277). -/
def execReturnPrbsResult (k : Fin 8) (lane : Fin 128) (errors words : W32) (s : State) : Host.Outcome State Fault Refusal :=
  laneMsg k lane (fun s =>
    let x := laneGet s lane
    if x.state = .loopback ∧ laneLoop s lane = 3 then
      laneSet s lane { x with lbErr := sat32 (x.lbErr + errors.toNat), lbWords := sat32 (x.lbWords + words.toNat) }
    else s) s

/-- RETURN_IDLE (R261): a good message that names no lane, so that it counts for the return lane alone (R263); R260 has the device look at
no byte of its fill. (DEDUCED, log 64.) -/
def execReturnIdle (k : Fin 8) (_fill : BitVec 96) (s : State) : Host.Outcome State Fault Refusal := if swathUp s then ok (goodReturn k s) else ok s

/-- RETURN_MESSAGE_DISCARD (R260). -/
def execReturnMessageDiscard (k : Fin 8) (s : State) : Host.Outcome State Fault Refusal :=
  if swathUp s then ok (badReturn k s) else ok s

/-- RETURN_LANE_TIMEOUT (R263). -/
def execReturnLaneTimeout (k : Fin 8) (s : State) : Host.Outcome State Fault Refusal :=
  let x := retGet s k
  if ¬ x.sync then ok s
  else ok (raiseItems 0x1005 4 [(1, k)] (retSet s k { x with sync := false, good := 0, lostSeen := true }))

/-- RETURN_DOWN_SETTLE (R272). -/
def execReturnDownSettle (k : Fin 8) (s : State) : Host.Outcome State Fault Refusal :=
  if (retGet s k).sync then ok s
  else ok ((List.range 16).foldl (fun s i =>
    if (laneGet s (16 * k + i)).state = .active then laneTo (16 * k + i) .preset 2 s else s) s)

/-- FRAME_SETTLE_TIMEOUT: the oldest unsettled frame of the lane becomes unconfirmed (R271). -/
def execFrameSettleTimeout (l : Fin 128) (s : State) : Host.Outcome State Fault Refusal :=
  let under := if (laneGet s l).queue.isEmpty then none else s.swl.flight.map Prod.fst
  let oldest (a : Option Account) : Option Nat :=
    a.bind (fun a => ((laneAcc a l).frames.find? (fun q => q.2.1 == .unsettled && under != some q.1)).map (fun q => q.1))
  let mark (m : Nat) (q : Nat × FrameFate × Bool) : Nat × FrameFate × Bool :=
    if q.1 = m ∧ q.2.1 = .unsettled then (q.1, .unconfirmed, q.2.2) else q
  match oldest s.pac.prevAcct with
  | some n => ok (settleFrames false l (mark n) s)
  | none => match oldest s.pac.acct with
    | some n => ok (settleFrames true l (mark n) s)
    | none => ok s

/-- LANE_MESSAGE_TIMEOUT (Table 7-14). -/
def execLaneMessageTimeout (l : Fin 128) (s : State) : Host.Outcome State Fault Refusal :=
  let st := (laneGet s l).state
  if st = .tap ∨ st = .align then ok (laneTo l .preset 0 s) else ok s

/-- TRAIN_TIMEOUT (R268). -/
def execTrainTimeout (l : Fin 128) (s : State) : Host.Outcome State Fault Refusal :=
  let x := laneGet s l
  if x.state ≠ .tap then ok s
  else
    let s1 := laneTo l .preset 0 (laneSet s l { x with tapTimeout := true })
    ok (raiseItems 0x1004 1 [(1, l), (4, (lTaps s l).word)] s1)

/-- NO_PARTNER_TIMEOUT (R268). -/
def execNoPartnerTimeout (l : Fin 128) (s : State) : Host.Outcome State Fault Refusal :=
  let x := laneGet s l
  if x.state = .preset ∧ ¬ x.noPartner then ok (raiseItems 0x1003 1 [(1, l)] (laneSet s l { x with noPartner := true })) else ok s

/-! ### Quad PLLs (R259) -/

/-- QUAD_PLL_UNLOCK. -/
def execQuadPllUnlock (q : Fin 32) (s : State) : Host.Outcome State Fault Refusal :=
  if ¬ s.swl.pll.contains q then ok s
  else
    let s1 := raiseItems 0x1007 4 [(1, q)] { s with swl := { s.swl with pll := s.swl.pll.filter (· != q.val) } }
    ok ((List.range 4).foldl (fun s i =>
      if (laneGet s (4 * q + i)).state = .disabled then s else laneTo (4 * q + i) .pllWait 3 (takeChecked (4 * q + i) s)) s1)

/-- QUAD_PLL_RELOCK: also the first lock of start-up, at which the enabled lanes of the quad begin (Table 14-1, step 5). -/
def execQuadPllRelock (q : Fin 32) (s : State) : Host.Outcome State Fault Refusal :=
  if s.swl.pll.contains q ∨ ¬ swathUp s then ok s
  else
    let s1 := { s with swl := { s.swl with pll := natInsert q s.swl.pll } }
    ok ((List.range 4).foldl (fun s i =>
      if (laneGet s (4 * q + i)).state = .pllWait then laneTo (4 * q + i) .tap 0 s
      else if (laneGet s (4 * q + i)).state = .disabled ∧ laneEn s (4 * q + i) then laneTo (4 * q + i) .preset 0 s
      else s) s1)

/-! ### Markers and TRAIN blocks -/

/-- AM_TIMER: outside a stripe every ACTIVE lane sends an AM (R250). -/
def execAmTimer (s : State) : Host.Outcome State Fault Refusal :=
  let stripe := s.pac.stripe.any (fun st => st.state.live && !(st.doneRaised && st.abort.isNone))
  if stripe ∨ ¬ swathUp s ∨ s.swl.flight.isSome then ok s else ok (sendAms s)

/-- The first eight bytes of a TRAIN block (Table 7-13). -/
def trainBytes (lane state ackSeq ack : Nat) (t : Taps) : List Byte :=
  le 1 0x66 ++ le 1 lane ++ le 1 state ++ le 1 ackSeq ++ le 1 ack ++ le 1 (unsigned 8 t.pre) ++ le 1 (unsigned 8 t.main) ++ le 1 (unsigned 8 t.post)

/-- TRAIN_BLOCK of a swath lane (R265), or of a Dexpin lane, where what the receiver asks for is a free value (R285). -/
def execTrainBlock (lane : Fin 128 ⊕ Fin 8) (s : State) : Host.Outcome State Fault Refusal :=
  match lane with
  | .inl l =>
    let x := laneGet s l
    if x.state = .preset ∨ x.state = .tap then
      ok (emit (.swathBlock l (trainBytes l (if x.state = .preset then 1 else 2) x.ackSeq x.ack (lTaps s l) ++ List.replicate 8 0)) s)
    else ok s
  | .inr k =>
    let x := dxpGet s k
    if (s.twn.link = .preset ∧ ¬ s.twn.quiet) ∨ s.twn.link = .tap then
      let (f, s1) := drawFree s
      ok (emit (.dxpBlock k (trainBytes k (if s.twn.link = .preset then 1 else 2) x.ackSeq x.ack x.taps ++
        le 3 (f.toNat % 2 ^ 24) ++ le 1 (min 2 x.own) ++ List.replicate 4 0)) s1)
    else ok s

/-- ALIGN_AM: a swath lane in ALIGN, or the Dexpin link in ALIGN or UP (R251, Table 8-2). -/
def execAlignAm (lane : Option (Fin 128)) (s : State) : Host.Outcome State Fault Refusal :=
  match lane with
  | some l =>
    let x := laneGet s l
    if x.state = .align then ok (cntSwl 4 (some l) 1 (emit (.swathBlock l (amBlock l s.swl.amSeq x.lastSlot)) s)) else ok s
  | none =>
    if s.twn.link = .align ∨ s.twn.link = .up then
      ok ((List.range 8).foldl (fun s k => emit (.dxpBlock k (amBlock k s.swl.amSeq 0x7FFFFF)) s) s)
    else ok s

end Sys2Proof.Machine
end

