-- ==== Sys2Proof/Machine/Tables.lean ====
section
/-! DEFINITION. Beam table commands (R156 to R162, R310, R311): BEAM_MAP_SET and TRIM_SET, alone or on both twins, and when
their change takes effect. -/

namespace Sys2Proof.Machine

/-! ### Messages and checks -/

/-- The value array of a message as bytes (R160). -/
def packValues (trim : Bool) : Nat → List Nat → List Byte
  | 0, _ => []
  | n + 1, vs =>
    if vs.isEmpty then []
    else if trim then le 2 (vs.headD 0) ++ packValues trim n (vs.drop 1)
    else le 1 (vs.getD 0 0 + 4 * vs.getD 1 0 + 16 * vs.getD 2 0 + 64 * vs.getD 3 0) ++ packValues trim n (vs.drop 4)

/-- The values that an array of bytes holds. -/
def unpackValues (trim : Bool) (count : Nat) (b : List Byte) : List Nat :=
  if trim then
    (List.range count).map (fun i => fld b (2 * i) 2)
  else (List.range count).map (fun i => bits (fld b (i / 4) 1) (2 * (i % 4) + 1) (2 * (i % 4)))

/-- Words of bytes, at most `n`. -/
def wordsOf : Nat → List Byte → List Nat
  | 0, _ => []
  | n + 1, b => if b.isEmpty then [] else ofLe (b.take 8) :: wordsOf n (b.drop 8)

/-- Groups of 124 words. -/
def chunks : Nat → List Nat → List (List Nat)
  | 0, _ => []
  | n + 1, l => if l.isEmpty then [] else l.take 124 :: chunks n (l.drop 124)

/-- Send the TABLE messages of a command (Table 8-4): the first goes out, the others wait behind every other message (R288; DESIGN CHOICE,
log 113). -/
def sendTable (m : TableMsg) (s : State) : State :=
  let b := packValues m.trim (m.values.length + 1) m.values
  let ws := wordsOf (b.length + 1) b
  let msgs := (chunks (ws.length + 1) ws).map (fun c => (m.tag.toNat, [(msgKind m), m.first.toNat, m.count.toNat, m.row.toNat] ++ c))
  match msgs with
  | [] => s
  | (a, p) :: t => dxpSend 8 a p { s with twn := { s.twn with tables := s.twn.tables ++ t } }

/-- A value that R161 refuses. -/
def badValue (trim : Bool) (v : Nat) : Bool := if trim then decide (v ≥ 4096) else v == 3

/-- R158: VALUE, TOO_LATE, TABLE_BUSY, or 0. -/
def rowCheck (s : State) (row : Nat) : Nat :=
  if row = max32 then 0
  else match s.pac.stripe with
    | none => 0x41
    | some st =>
      if ¬ st.state.moving ∨ row ≥ st.adm.hdr.L then 0x41
      else if row / 8 < st.nextGroup ∨ (row / 8 = st.nextGroup ∧ queueOpens st) then 0x42
      else if s.dos.prev.isSome then 0x43
      else 0

/-! ### The change -/

/-- The generation that the command in progress makes (R162). -/
def nextGen (s : State) : Nat := wrap32 (s.dos.gen + 1)

/-- The table version of a change comes into being: in effect, waiting while a stripe is armed, from its pre-roll on, or from its
row (R156, R157). The versions before it are kept until the command has completed. -/
def applyTable (m : TableMsg) (s : State) : State :=
  let g := nextGen s
  let upd (t : BeamTable) : BeamTable := setBeams m.trim t m.first.toNat m.values g
  if m.row.toNat = max32 then
    if s.pac.stripe.any (fun st => !st.doneRaised && st.abort.isNone) then
      { s with dos := { s.dos with waiting := some (upd (latestTable s)) } }
    else { s with dos := { s.dos with cur := upd (latestTable s), waiting := none } }
  else
    { s with
      dos := { s.dos with prev := some (m.row.toNat, s.dos.cur), cur := upd s.dos.cur, waiting := s.dos.waiting.map upd },
      pac := { s.pac with acct := s.pac.acct.map (fun a => { a with gens := a.gens ++ [(m.row.toNat, g)] }) } }

/-- DIRTY after the granary writes of a command: a failed word leaves its journal open (R155, R437). -/
def journalAfter (m : TableMsg) (failed : Bool) (s : State) : State :=
  let d := s.dos
  let covers := decide (d.jKind = (msgKind m) ∧ m.first.toNat ≤ d.jFirst ∧ d.jFirst + d.jCount ≤ m.first.toNat + m.count.toNat)
  setDirty { s with dos :=
    if failed then { d with jKind := (msgKind m), jFirst := m.first.toNat, jCount := m.count.toNat }
    else if covers then { d with jKind := 0, jFirst := 0, jCount := 0 } else d }

/-- The command completes after its change has been made: the generation counts (R162). -/
def finishTable (x : TableX) (status : Nat) (s : State) : State :=
  let s1 := { s with dos := { s.dos with gen := nextGen s }, twn := { s.twn with tableX := none } }
  completeOpt x.cmd status (le 4 x.words ++ le 4 s1.dos.gen) (msgRecord x.msg status s1)

/-- R311: the link went down after this twin had written. -/
def splitTable (x : TableX) (s : State) : State :=
  let s1 := finishTable x 0x45 s
  raiseItems 0x1209 4 [(2, x.msg.tag.toNat)] { s1 with twn := { s1.twn with tableSplit := true } }

/-- Every word of the change is in the granary, or has failed. -/
def tableWritten (failed : Bool) (words : Nat) (s : State) : State := match s.twn.tableX with
  | none => s
  | some x0 =>
    let x := { x0 with words := words }
    let s1 := journalAfter x.msg failed s
    if ¬ x.pair then finishTable x 0 s1
    else if x.cmd.isNone then dxpSend 9 x.msg.tag.toNat [1] (finishTable x 0 s1)
    else if s.twn.link ≠ .up then splitTable x s1
    else dxpSend 0x0A x.msg.tag.toNat [] { s1 with twn := { s1.twn with tableX := some { x with stage := 2 } } }

/-- The command executes: its change takes effect or waits, and its journal and changed words are written; where no word changes,
neither is a journal record stored. (DESIGN CHOICE, log 111; R153, R154, R156, R157.) -/
def writeTable (x : TableX) (s : State) : State :=
  let m := x.msg
  let t := setBeams m.trim (latestTable s) m.first.toNat m.values 0
  let y := { x with stage := 1, before := some (s.dos.cur, s.dos.waiting, s.dos.prev) }
  let s1 := applyTable m { s with twn := { s.twn with tableX := some y } }
  if (changedWords s m.trim m.first.toNat m.count.toNat t).isEmpty then tableWritten false 0 s1
  else queueJob (tableJob s x.cmd m.trim m.first.toNat m.count.toNat t) (msgRecord m 0xFF s1)

/-! ### Rows -/

/-- The message that a command's parameters and values make. -/
def tableMsgOf (c : Cmd) (trim : Bool) (vals : List Nat) : TableMsg :=
  { tag := BitVec.ofNat 16 c.tag, trim := trim, first := BitVec.ofNat 18 (c.p 0 4), count := BitVec.ofNat 19 (c.p 4 4),
    row := BitVec.ofNat 32 (c.p 0x10 4), values := vals }

/-- A table command ends with a status and writes nothing. -/
def refuseTable (id : Nat) (c : Cmd) (trim : Bool) (status : Nat) (s : State) : State :=
  complete id status (le 4 0 ++ le 4 s.dos.gen) (tableRecord (if trim then 2 else 1) status c.tag (c.p 0 4) (c.p 4 4) s)

/-- The checks of R161 that do not need the values. -/
def tableParams (s : State) (c : Cmd) : Nat :=
  if c.reserved 0x16 then 2
  else if ¬ s.dos.ready then 3
  else if c.p 0 4 ≥ numBeams ∨ c.p 4 4 = 0 ∨ c.p 0 4 + c.p 4 4 > numBeams then 0x40
  else if c.p 8 8 % 8 ≠ 0 then 0x41
  else 0

/-- The command with its values in hand: the rest of R161, R158, and the change on one twin or both. (DEDUCED, log 69.) -/
def runTable (id : Nat) (c : Cmd) (trim : Bool) (vals : List Nat) (bad : Bool) (s : State) : State :=
  let r := if bad then 0x41 else if s.twn.tableX.isSome then 0x43 else rowCheck s (c.p 0x10 4)
  if r ≠ 0 then refuseTable id c trim r s
  else
    let m := tableMsgOf c trim vals
    if voting s then sendTable m (cmdRun id { s with twn := { s.twn with tableX := some { cmd := some id, msg := m, stage := 0, pair := true } } })
    else writeTable { cmd := some id, msg := m, stage := 1, pair := false } (cmdRun id s)

/-- BEAM_MAP_SET and TRIM_SET; `data`: what the read of the value array returned. An `inline_value` of BEAM_MAP_SET with one of the bits
[15:2] set, which Table 4-6 has 0, gives VALUE; `inline_value` is not looked at when src_addr is not 0. (DESIGN CHOICE, log 111.) -/
def tableCmd (id : Nat) (trim : Bool) (data : Option (List Byte)) (s : State) : Host.Outcome State Fault Refusal :=
  match cmdOp s id (if trim then 7 else 6) with
  | none => ok s
  | some c =>
    let r := tableParams s c
    let n := c.p 4 4
    if r ≠ 0 then ok (refuseTable id c trim r s)
    else if c.p 8 8 = 0 then
      let v := c.p 0x14 2
      ok (runTable id c trim (List.replicate n v) (badValue trim v || (!trim && decide (v ≥ 4))) s)
    else
      let bytes := if trim then 2 * n else (n + 3) / 4
      let s1 := emit (.hostRead (c.p 8 8) bytes) s
      match data with
      | none => ok (refuseTable id c trim 0x44 s1)
      | some b =>
        let vals := unpackValues trim n b
        withLen b bytes (runTable id c trim vals (vals.any (badValue trim)) s1)

/-- BEAM_MAP_SET (R160). -/
def execBeamMapSet (id : Nat) (data : Option (List Byte)) (s : State) : Host.Outcome State Fault Refusal := tableCmd id false data s
/-- TRIM_SET (R160). -/
def execTrimSet (id : Nat) (data : Option (List Byte)) (s : State) : Host.Outcome State Fault Refusal := tableCmd id true data s

/-- TABLE_CHANGE_EFFECT (R156). -/
def execTableChangeEffect (s : State) : Host.Outcome State Fault Refusal :=
  match s.dos.waiting with
  | none => ok s
  | some t =>
    if s.pac.stripe.any (fun st => !st.doneRaised && st.abort.isNone) then ok s
    else ok { s with dos := { s.dos with cur := t, waiting := none } }

/-- The group of slot y_e − 1 + 511·G has its outcome, or will never open. -/
def switchOver (s : State) (ye : Nat) : Bool := match s.pac.stripe with
  | none => true
  | some st =>
    let j := (ye + 511 * st.adm.hdr.pitch - 1) / 8
    match grpGet st j with
    | some g => g.final.isSome
    | none => decide (j < st.nextGroup ∨ j ≥ st.groupLimit)

/-- TABLE_SWITCH_RELEASE (R157). -/
def execTableSwitchRelease (s : State) : Host.Outcome State Fault Refusal :=
  match s.dos.prev with
  | none => ok s
  | some (ye, _) => if switchOver s ye then ok { s with dos := { s.dos with prev := none } } else ok s

/-- A TABLE_REPLY for the command in progress (R310). -/
def tableReply (tag reply status : Nat) (s : State) : State := match s.twn.tableX with
  | none => s
  | some x =>
    if x.cmd.isNone ∨ x.msg.tag.toNat ≠ tag then s
    else if reply = 0 ∧ x.stage = 0 then writeTable x s
    else if reply = 2 ∧ x.stage = 0 then
      completeOpt x.cmd status (le 4 0 ++ le 4 s.dos.gen) (msgRecord x.msg status { s with twn := { s.twn with tableX := none } })
    else if reply = 1 ∧ x.stage = 2 then finishTable x 0 s
    else s

/-- DXP_TABLE: the partner checks the change on its own state and answers (R310). -/
def execDxpTable (m : TableMsg) (s : State) : Host.Outcome State Fault Refusal :=
  if ¬ voting s then ok s
  else
    let n := m.count.toNat
    let r := if s.twn.tableX.isSome then 0x43
      else if n = 0 ∨ m.first.toNat + n > numBeams then 0x40
      else if m.values.length ≠ n ∨ m.values.any (fun v => badValue m.trim v || (!m.trim && decide (v ≥ 4))) then 0x41
      else rowCheck s m.row.toNat
    if r ≠ 0 then ok (dxpSend 9 m.tag.toNat [2 + r * 256] s)
    else ok (dxpSend 9 m.tag.toNat [0] { s with twn := { s.twn with tableX := some { cmd := none, msg := m, stage := 0, pair := true } } })

/-- DXP_TABLE_REPLY (R310): 0 READY, 1 DONE, 2 REFUSED. -/
def execDxpTableReply (tag : BitVec 16) (reply : Fin 3) (status : Byte) (s : State) : Host.Outcome State Fault Refusal :=
  if voting s then ok (tableReply tag.toNat reply status.toNat s) else ok s

/-- DXP_TABLE_COMMIT (R310). -/
def execDxpTableCommit (tag : BitVec 16) (s : State) : Host.Outcome State Fault Refusal :=
  if ¬ voting s then ok s
  else match s.twn.tableX with
    | some x => if x.cmd.isNone ∧ x.stage = 0 ∧ x.msg.tag = tag then ok (writeTable x s) else ok s
    | none => ok s

/-- The link is lost while a table command is under way (R311). A command that has written nothing ends with a status of
its own table that the spec does not name (a free value). (DESIGN CHOICE, log 70.) -/
def tableLinkLost (s : State) : State := match s.twn.tableX with
  | none => s
  | some x =>
    if ¬ x.pair then s
    else if x.stage = 2 then splitTable x s
    else if x.stage = 1 then s
    else
      let (f, s0) := drawFree { s with twn := { s.twn with tableX := none } }
      let st := 0x40 + f.toNat % 64
      if x.cmd.isNone then s0 else completeOpt x.cmd st (le 4 0 ++ le 4 s.dos.gen) (msgRecord x.msg st s0)

end Sys2Proof.Machine
end

