-- ==== Sys2Proof/Machine/Twin.lean ====
section
/-! DEFINITION. Twin operation (R279 to R313): the Dexpin link, pairing, handover, roles under link loss, heartbeats and
digests. -/

namespace Sys2Proof.Machine

/-! ### State shown (R283, R313) -/

/-- PAC_STATUS.STATE (Table 5-17). (DEDUCED, log 46.) -/
def pacState (s : State) : Nat := match s.pac.stripe with
  | some st => st.code
  | none => match s.pac.adm with
    | some a => if a.phase = .held then 2 else 1
    | none => 0

/-- The group of the latest issue edge, all ones without one. -/
def groupNow (s : State) : Nat := if slotNow s = max32 then max32 else slotNow s / 8

/-- The role of the group now being sent (TWN_STATUS.ROLE). -/
def roleNow (s : State) : Bool := match s.pac.stripe with
  | some st => roleAt s (st.lastSlot.getD st.slotFirst / 8)
  | none => !s.twn.paired || s.twn.active

def linkCode : LinkState → Nat
  | .disabled => 0 | .preset => 1 | .tap => 2 | .align => 3 | .up => 4

/-- The stepping as GLB_ID shows it (Table 15-5). -/
def steppingB0 : Nat := 0xB000

/-! ### Roles (R304, R306) -/

/-- This twin takes or leaves the role from group g on, or at once outside a stripe. -/
def setRole (g : Nat) (act : Bool) (s : State) : State :=
  let cur := roleNow s
  let t := { s.twn with roleGrp := g % 2 ^ 20 }
  let s1 := if s.pac.stripe.isSome ∧ g ≠ max32 then { s with twn := { t with active := cur, roleNext := some (g, act) } }
            else { s with twn := { t with active := act, roleNext := none } }
  raiseItems 0x1205 0 [(1, if act then 1 else 0), (4, g)] s1

/-- The liveness rule applies: the link is down, or both twins have shown the standby role (R306). -/
def liveRule (s : State) : Bool := s.twn.paired && (decide (s.twn.link ≠ .up) || decide (s.twn.hbStandby ≥ 2))

/-- The role that R306 gives. -/
def liveRole (s : State) : Bool := !s.twn.sideB || !s.twn.partnerLive

/-- A twin that loses the role under R306 drops it at once. -/
def dropRole (s : State) : State :=
  if liveRule s ∧ ¬ liveRole s ∧ (roleNow s ∨ s.twn.roleNext.any Prod.snd) then
    raiseItems 0x1205 0 [(1, 0), (4, groupNow s)]
      { s with twn := { s.twn with active := false, roleNext := none, roleGrp := (if groupNow s = max32 then 0 else groupNow s) % 2 ^ 20 } }
  else s

/-- R307: split without a pace master, the stripe is aborted. -/
def paceLost (s : State) : State :=
  if s.twn.paired ∧ s.twn.split ∧ s.twn.partnerDeadSeen ∧ ¬ s.twn.master then abortOrDiscardFree 4 true true s else s

/-! ### The link (R285, R286, R289) -/

/-- Enter PRESET: start taps, nothing received. -/
def dxpPreset (s : State) : State :=
  (List.range 8).foldl (fun s k => dxpSet s k { taps := tapsOf (regGet s (0x120040 + 4 * k)) })
    { s with twn := { s.twn with link := .preset, noPartner := false, tables := [] } }

/-- Leave solo mode's opposite: the device works alone. -/
def goSolo (s : State) : State :=
  { s with twn := { s.twn with paired := false, active := true, roleNext := none, rejoin := false, hbStandby := 0 } }

/-- End the handover in progress, with roles unchanged; its command completes with `status` (R305). -/
def endHandover (status : Nat) (s : State) : State := match s.twn.handover with
  | none => s
  | some h => completeOpt h.cmd status [] { s with twn := { s.twn with handover := none, roleNext := if h.committed then none else s.twn.roleNext } }

/-- What the loss of an UP link does (R304, R305, R307, R311, Table 8-7). -/
def linkLost (s : State) : State :=
  let s1 := tableLinkLost (endHandover 0x41 s)
  let s2 := if s1.twn.armSent then armEnd 0x4C s1 else s1
  if ¬ s2.twn.paired then s2
  else if s2.pac.stripe.isSome then paceLost (dropRole { s2 with twn := { s2.twn with split := true, splitSeen := true, hbStandby := 0 } })
  else goSolo s2

/-- The twin declares the link down and falls silent for 20 µs (R289). -/
def linkDown (s : State) : State :=
  let before := linkCode s.twn.link
  let g := groupNow s
  let s1 := dxpPreset s
  linkLost (raiseItems 0x1203 4 [(1, before), (4, g)] { s1 with twn := { s1.twn with quiet := true } })

/-- HELLO (Table 8-4), while the link is in ALIGN or UP. -/
def sendHello (s : State) : State :=
  let t := s.twn
  if t.link = .align ∨ t.link = .up then
    let s1 := dxpSend 1 0 [Config.serial.toNat, steppingB0, flag t.sideB 0, flag t.master 0, t.expectSn] { s with twn := { t with link := .up } }
    { s1 with twn := { s1.twn with link := t.link } }
  else s

/-- Dexpin state changes that the lanes' state allows (Table 8-2). -/
def dxpAdvance (s : State) : State :=
  let lanes := (List.range 8).map (dxpGet s)
  if s.twn.link = .preset ∧ ¬ s.twn.quiet ∧ lanes.all (fun x => x.seen) then { s with twn := { s.twn with link := .tap, noPartner := false } }
  else if s.twn.link = .tap ∧ lanes.all (fun x => decide (x.own ≥ 2) && x.partnerTrained) then sendHello { s with twn := { s.twn with link := .align } }
  else s

/-- A write of TWN_CTRL (R285, Table 8-2). -/
def twnCtrl (v : Nat) (s : State) : State :=
  let s1 := regSet s 0x120000 (v % 2)
  if v % 2 = 1 then (if s.twn.link = .disabled ∧ s.glb.lanesStarted ∧ ¬ s.glb.fatal then dxpPreset s1 else s1)
  else
    let s2 := dxpPreset s1
    let s3 := { s2 with twn := { s2.twn with link := .disabled, quiet := false } }
    if s.twn.link = .up then linkLost s3 else s3

/-! ### Pairing (R290, R291) -/

/-- The two HELLOs agree: 0, or the status of Table 8-6. -/
def pairCheck (t : Twn) (m : Hello) (expected : Nat) : Nat :=
  if t.sideB = m.sideB ∨ t.master = m.paceMaster then 0x41
  else if (expected ≠ 0 ∧ expected ≠ m.serial.toNat) ∨ (m.expected ≠ 0 ∧ m.expected ≠ Config.serial) then 0x42
  else if m.stepping.toNat ≠ steppingB0 then 0x45
  else 0

/-- The result of TWIN_PAIR. -/
def pairResult (t : Twn) : List Byte := le 8 t.partnerSn ++ le 4 t.rtt

/-- The pair forms. -/
def formPair (m : Hello) (s : State) : State :=
  let s1 := { s with twn := { s.twn with paired := true, active := !s.twn.sideB, roleNext := none, roleGrp := 0, split := false, rejoin := false,
                                         hbStandby := 0, partnerSn := m.serial.toNat, pairReq := none } }
  completeOpt (s.twn.pairReq.map (fun q => q.cmd)) 0 (pairResult s1.twn) (raiseItems 0x1201 0 [(8, m.serial.toNat), (1, if s.twn.sideB then 1 else 0)] s1)

/-- Form the pair if what is known allows it; `fresh`: a HELLO has just arrived, and a disagreement completes a
TWIN_PAIR. -/
def tryPair (fresh : Bool) (s : State) : State := match s.twn.hello with
  | none => s
  | some m =>
    if s.twn.link ≠ .up ∨ s.pac.stripe.isSome then s
    else match s.twn.pairReq with
      | some q =>
        let r := pairCheck s.twn m q.sn
        if r = 0 then formPair m s
        else if fresh then complete q.cmd r (pairResult s.twn) { s with twn := { s.twn with pairReq := none } }
        else s
      | none => if s.twn.rejoin ∧ pairCheck s.twn m s.twn.expectSn = 0 then formPair m s else s

/-- TWIN_PAIR (R290). (DEDUCED, log 71.) -/
def execTwinPair (id : Nat) (s : State) : Host.Outcome State Fault Refusal :=
  match cmdOp s id 0x0B with
  | none => ok s
  | some c =>
    if bitAt (c.p 1 1) 1 then ok s
    else if c.reserved 0x10 ∨ c.p 1 1 ≥ 4 ∨ c.p 2 2 ≠ 0 then ok (complete id 2 [] s)
    else if c.p 0 1 > 1 ∨ c.p 4 4 = 0 ∨ c.p 4 4 > 600000 then ok (complete id 0x40 [] s)
    else if s.pac.stripe.isSome then ok (complete id 0x44 [] s)
    else
      let side := c.p 0 1 == 1
      let master := bitAt (c.p 1 1) 0
      let s1 := match s.twn.pairReq with
        | some q => complete q.cmd 0x43 [] s
        | none => s
      let s2 := cmdRun id { s1 with twn := { s1.twn with
        sideB := side, master := master, expectSn := c.p 8 8, pairReq := some { cmd := id, sideB := side, master := master, sn := c.p 8 8 } } }
      ok (tryPair false (sendHello s2))

/-- TWIN_PAIR with DISSOLVE (R290). -/
def execTwinPairDissolve (id : Nat) (s : State) : Host.Outcome State Fault Refusal :=
  match cmdOp s id 0x0B with
  | none => ok s
  | some c =>
    if ¬ bitAt (c.p 1 1) 1 then ok s
    else if c.reserved 0x10 ∨ c.p 1 1 ≥ 4 ∨ c.p 2 2 ≠ 0 then ok (complete id 2 [] s)
    else if c.p 0 1 > 1 ∨ c.p 4 4 = 0 ∨ c.p 4 4 > 600000 then ok (complete id 0x40 [] s)
    else if s.pac.stripe.isSome then ok (complete id 0x44 [] s)
    else
      let s1 := if s.twn.link = .up ∧ s.twn.paired then
          let s0 := dxpPreset (tableLinkLost (endHandover 0x41 s))
          { s0 with twn := { s0.twn with quiet := true } }
        else s
      ok (complete id 0 (pairResult s.twn) (goSolo s1))

/-- TWIN_PAIR_TIMEOUT (R290). -/
def execTwinPairTimeout (s : State) : Host.Outcome State Fault Refusal :=
  match s.twn.pairReq with
  | some q => ok (complete q.cmd 0x43 (pairResult s.twn) { s with twn := { s.twn with pairReq := none } })
  | none => ok s

/-- DXP_HELLO (R290, R291, Table 8-2). -/
def execDxpHello (m : Hello) (s : State) : Host.Outcome State Fault Refusal :=
  if s.twn.link ≠ .align ∧ s.twn.link ≠ .up then ok s
  else
    let s1 := (List.range 8).foldl (fun s k => dxpSet s k { dxpGet s k with own := 3 })
      { s with twn := { s.twn with link := .up, hello := some m, partnerSn := m.serial.toNat } }
    ok (tryPair true s1)

/-- DXP_HEARTBEAT (R292, R306). -/
def execDxpHeartbeat (m : Heartbeat) (s : State) : Host.Outcome State Fault Refusal :=
  if s.twn.link ≠ .up then ok s
  else
    let both := !m.active && !roleNow s
    let s1 := { s with twn := { s.twn with hb := some m, rtt := m.rtt.toNat, hbStandby := if s.twn.paired ∧ both then min 2 (s.twn.hbStandby + 1) else 0 } }
    ok (tryPair false s1)

/-- The TABLE messages that wait are sent. -/
def sendWaiting (s : State) : State :=
  s.twn.tables.foldl (fun s (a, p) => dxpSend 8 a p s) { s with twn := { s.twn with tables := [] } }

/-- HEARTBEAT_DUE (R289, Table 8-4): the heartbeat goes ahead of the TABLE messages that wait (R288; DESIGN CHOICE, log 113). -/
def execHeartbeatDue (s : State) : Host.Outcome State Fault Refusal :=
  ok (sendWaiting (dxpSend 2 s.twn.roleGrp
    [flag (roleNow s) 0, pacState s, numThr s, numIng s, numCh s, (refCh s).density, nbrKOf s, cfgDigest s, tableDigest s.dos.cur] s))

/-- DXP_LINK_TIMEOUT (R289). -/
def execDxpLinkTimeout (s : State) : Host.Outcome State Fault Refusal := if s.twn.link = .up then ok (linkDown s) else ok s

/-- DXP_QUIET_END (R289). -/
def execDxpQuietEnd (s : State) : Host.Outcome State Fault Refusal := ok { s with twn := { s.twn with quiet := false } }

/-- DXP_TRAIN_TIMEOUT (Table 8-2). -/
def execDxpTrainTimeout (s : State) : Host.Outcome State Fault Refusal :=
  if s.twn.link = .tap ∨ s.twn.link = .align then ok (dxpPreset s) else ok s

/-- DXP_NO_PARTNER (R286). -/
def execDxpNoPartner (s : State) : Host.Outcome State Fault Refusal :=
  if s.twn.link = .preset ∧ ¬ s.twn.quiet ∧ ¬ s.twn.noPartner ∧ ¬ (List.range 8).any (fun k => (dxpGet s k).seen) then
    ok (raiseItems 0x1202 1 [] { s with twn := { s.twn with noPartner := true } })
  else ok s

/-- DXP_TRAIN_BLOCK_RX (R285, R266, Table 8-2). -/
def execDxpTrainBlockRx (lane : Fin 8) (rxState : Fin 3) (ownRx : Fin 4) (seq req preset : Byte) (s : State) :
    Host.Outcome State Fault Refusal :=
  if ¬ ((s.twn.link = .preset ∧ ¬ s.twn.quiet) ∨ s.twn.link = .tap) then ok s
  else
    let x := dxpGet s lane
    let y : DxpLane :=
      if x.handled ∧ x.ackSeq = seq.toNat then x
      else
        let (t, a) := applyReq x.taps req.toNat preset.toNat
        { x with taps := t, ack := a, ackSeq := seq.toNat, handled := true }
    ok (dxpAdvance (dxpSet s lane { y with seen := true, own := ownRx, partnerTrained := decide (rxState = 2) }))

/-- A message is discarded and counted (R288). -/
def discardMsg (s : State) : State := cntTwn 2 none 1 { s with twn := { s.twn with msgErr := sat32 (s.twn.msgErr + 1) } }

/-- DXP_MESSAGE_DISCARD (R288). -/
def execDxpMessageDiscard (s : State) : Host.Outcome State Fault Refusal := if s.twn.link = .up then ok (chkFrame 2 128 s.twn.msgErr (discardMsg s)) else ok s

/-! ### The vote (R295, R296) -/

/-- DXP_DIGEST: a twin that has not armed, or not opened the group, keeps a round-1 message for later. (DEDUCED, log 95.) -/
def execDxpDigest (group : W32) (round2 : Bool) (mask : BitVec 128) (digests : List W64) (s : State) : Host.Outcome State Fault Refusal :=
  let j := group.toNat
  let ds := digests.map BitVec.toNat
  let lanes := (List.range 128).filter (fun l => mask.getLsbD l)
  if ¬ voting s then ok s
  else if ds.length ≠ (if round2 then lanes.length else 128) then ok (discardMsg s)
  else match s.pac.stripe with
    | none => if round2 then ok s else ok { s with twn := { s.twn with early := tput s.twn.early j ds } }
    | some st => match grpGet st j with
      | none => if round2 ∨ j < st.nextGroup then ok s else ok (setStripe { st with peerEarly := tput st.peerEarly j ds } s)
      | some g =>
        if g.final.isSome then ok s
        else if round2 then ok (voteGroup j (grpPut j { g with peerMask := lanes, peer2 := some ds } s))
        else ok (voteGroup j (grpPut j { g with peer1 := some ds } s))

/-! ### Handover (R304, R305) -/

/-- The issue edge of slot 8g − 4 has not come (R298). -/
def beforeDeadline (s : State) (g : Nat) : Bool := match s.pac.stripe with
  | some st => !st.started || decide (st.nextSlot + 4 ≤ 8 * g)
  | none => true

/-- g_h: two above the highest group that has opened; all ones outside a stripe. -/
def handoverGroup (s : State) : Nat := match s.pac.stripe with
  | some st => st.nextGroup + 1
  | none => max32

/-- The active twin proposes. -/
def propose (cmd : Option Nat) (s : State) : State :=
  let g := handoverGroup s
  dxpSend 7 g [1] { s with twn := { s.twn with handover := some { group := g, cmd := cmd, proposed := true } } }

/-- A handover is in progress: its exchange runs, or its group has not begun. -/
def handoverBusy (s : State) : Bool :=
  s.twn.handover.isSome || s.twn.roleNext.any (fun q => s.pac.stripe.any (fun st => decide (st.nextSlot < 8 * q.1)))

/-- TWIN_HANDOVER (R305). -/
def execTwinHandover (id : Nat) (s : State) : Host.Outcome State Fault Refusal :=
  match cmdOp s id 0x0C with
  | none => ok s
  | some c =>
    if c.reserved 0 then ok (complete id 2 [] s)
    else if ¬ s.twn.paired then ok (complete id 0x40 [] s)
    else if ¬ voting s then ok (complete id 0x41 [] s)
    else if handoverBusy s then ok (complete id 0x42 [] s)
    else if roleNow s then ok (propose (some id) (cmdRun id s))
    else ok (dxpSend 7 0 [0] (cmdRun id { s with twn := { s.twn with handover := some { group := max32, cmd := some id, proposed := false } } }))

/-- DXP_HANDOVER_REQUEST (R305). -/
def execDxpHandoverRequest (s : State) : Host.Outcome State Fault Refusal :=
  if voting s ∧ roleNow s ∧ ¬ handoverBusy s then ok (propose none s) else ok s

/-- DXP_HANDOVER_PROPOSE (R304). -/
def execDxpHandoverPropose (group : W32) (s : State) : Host.Outcome State Fault Refusal :=
  if ¬ voting s ∨ roleNow s then ok s
  else
    let cmd := s.twn.handover.bind (fun h => h.cmd)
    ok (dxpSend 7 group.toNat [2] { s with twn := { s.twn with handover := some { group := group.toNat, cmd := cmd, proposed := false } } })

/-- The exchange of a handover has succeeded: outside a stripe the role changes and the command completes, in a stripe both wait for the
group (R304, R305). -/
def commitHandover (ho : Handover) (act : Bool) (s : State) : State :=
  let s1 := setRole ho.group act { s with twn := { s.twn with handover := some { ho with committed := true } } }
  if s.pac.stripe.isSome ∧ ho.group ≠ max32 then s1 else handoverDone s1

/-- DXP_HANDOVER_ACCEPT (R304). -/
def execDxpHandoverAccept (group : W32) (s : State) : Host.Outcome State Fault Refusal :=
  match s.twn.handover with
  | none => ok s
  | some h =>
    if ¬ voting s ∨ ¬ h.proposed ∨ h.committed ∨ h.group ≠ group.toNat then ok s
    else if ¬ beforeDeadline s h.group then ok (endHandover 0x41 s)
    else ok (commitHandover h false (dxpSend 7 h.group [3] s))

/-- DXP_HANDOVER_COMMIT (R304). -/
def execDxpHandoverCommit (group : W32) (s : State) : Host.Outcome State Fault Refusal :=
  match s.twn.handover with
  | none => ok s
  | some h =>
    if ¬ voting s ∨ h.proposed ∨ h.committed ∨ h.group ≠ group.toNat then ok s
    else if ¬ beforeDeadline s h.group then ok (endHandover 0x41 s)
    else ok (commitHandover h true s)

/-! ### Liveness (R283, R306 to R308) -/

/-- PARTNER_LIVE (R283). -/
def execPartnerLive (s : State) : Host.Outcome State Fault Refusal :=
  ok (dropRole { s with twn := { s.twn with partnerLive := true, partnerDeadSeen := false } })

/-- Every frame still unsettled is this twin's to record (R308). -/
def claimFrames (a : Account) : Account :=
  { a with lanes := a.lanes.map (fun (l, x) => (l, { x with frames := x.frames.map (fun (n, f, act) => (n, f, act || decide (f = .unsettled))) })) }

/-- PARTNER_DEAD (R307, R308). -/
def execPartnerDead (s : State) : Host.Outcome State Fault Refusal :=
  if ¬ s.twn.partnerLive then ok s
  else
    let s1 := raiseItems 0x1204 4 [(4, groupNow s)] { s with twn := { s.twn with partnerLive := false, partnerDeadSeen := true } }
    let s2 := if s1.twn.paired then { s1 with pac := { s1.pac with acct := s1.pac.acct.map claimFrames } } else s1
    ok (paceLost s2)

/-- The first group whose first slot has not come (the 8 µs of R306 are the row's). -/
def takeGroup (s : State) : Nat := match s.pac.stripe with
  | some st => (st.nextSlot + 7) / 8
  | none => max32

/-- ROLE_TAKE: a twin that gains the role under R306 takes it. -/
def execRoleTake (s : State) : Host.Outcome State Fault Refusal :=
  let will : Bool := match s.twn.roleNext with
    | some (_, r) => r
    | none => s.twn.active
  if liveRule s ∧ liveRole s ∧ ¬ will then ok (setRole (takeGroup s) true { s with twn := { s.twn with hbStandby := 0 } }) else ok s

end Sys2Proof.Machine
end

