-- ==== Sys2Proof/Machine/LoftRows.lean ====
section
/-! DEFINITION. Meanings of the loft rows (09): training, scheduling, refresh, reads with their outcomes, fills, the
gleaner, invalidation, the weevil and the loss of a channel. -/

namespace Sys2Proof.Machine

/-! ### Training (R314, R318, R319) -/

def stepIndex : TrainStep → Nat
  | .sideband => 0 | .config => 1 | .rcdPmic => 2 | .interface => 3 | .check => 4

/-- A configuration of Table 9-1 of no more than 128 GB, on DIMMs that R315 does not exclude. -/
def confLegal (d : DimmConf) : Bool :=
  d.width == 4 && d.registered && d.checkBits && !d.refreshManaged &&
  decide (1 ≤ d.density.val ∧ (d.ranks.val = 1 ∨ d.ranks.val = 2) ∧ (d.dimms.val = 1 ∨ d.dimms.val = 2) ∧ d.density.val * d.ranks.val * d.dimms.val ≤ 8)

/-- Channels whose SPD has been read and accepted, with their configuration. -/
def readConfs (s : State) : List (Nat × Nat × Nat) :=
  (List.range 12).filterMap (fun c =>
    let x := lftGet s c
    if x.steps ≥ 1 then some (x.density, x.ranks, x.dimms) else none)

/-- The reference configuration: the commonest, of the lowest channel among those tied. -/
def refConf (s : State) : Option (Nat × Nat × Nat) :=
  let l := readConfs s
  l.foldl (fun best q => match best with
    | none => some q
    | some b => if l.count q > l.count b then some q else some b) none

/-- Every channel has ended its sideband step. -/
def sidebandDone (s : State) : Bool :=
  (List.range 12).all (fun c => let x := lftGet s c; decide (x.state ≠ .training) || decide (x.steps ≥ 1))

/-- LOFT_CHANNEL_TRAINED: one attempt at a step; the second failure excludes the channel. (DEDUCED, log 73.) -/
def execLoftChannelTrained (c : Fin 12) (step : TrainStep) (good : Bool) (conf : Option DimmConf) (s : State) : Host.Outcome State Fault Refusal :=
  let x := lftGet s c
  if x.state ≠ .training ∨ x.steps ≠ stepIndex step ∨ (step = .config ∧ ¬ sidebandDone s) then ok s
  else
    let x1 : LftCh := match step, conf with
      | .sideband, some d => { x with density := d.density, ranks := d.ranks, dimms := d.dimms }
      | _, _ => x
    let pass : Bool := match step with
      | .sideband => good && conf.any confLegal
      | .config => refConf s == some (x.density, x.ranks, x.dimms)
      | _ => good
    let cause := match step with
      | .sideband => if conf.isNone then 1 else 2
      | .config => 3
      | _ => 4
    if pass then
      let n := x.steps + 1
      ok (lftSet s c { x1 with steps := n, stepFails := 0, state := if n = 5 then .inService else .training })
    else if x.stepFails = 0 then ok (lftSet s c { x1 with stepFails := 1 })
    else ok (raiseItems 0x1301 4 [(1, c), (1, cause)] (lftSet s c { x1 with state := .excluded, cause := cause, stepFails := 0 }))

/-- LOFT_TRAINED (R319, R470): with no channel in service the phase is NO_LOFT once the granary has loaded. -/
def execLoftTrained (s : State) : Host.Outcome State Fault Refusal :=
  let ended : Bool := (List.range 12).all (fun c => decide ((lftGet s c).state = .inService ∨ (lftGet s c).state = .excluded ∨ (lftGet s c).state = .retired))
  if s.lft.trained ∨ s.glb.phase ≠ .loading ∨ ¬ ended then ok s
  else
    let n := numCh s
    ok { s with
      lft := { s.lft with trained := true, ready := decide (n ≥ 1), valid := [], fills := [], raw := [], rawWritten := [] },
      glb := { s.glb with phase := if n = 0 ∧ s.grn.loaded then .noLoft else s.glb.phase } }

/-! ### Scheduling and refresh -/

/-- The loft has ended training and the channel is in service. -/
def chUp (s : State) (c : Nat) : Bool := s.lft.trained && decide ((lftGet s c).state = .inService)

/-- Writes that waited go on, and bursts whose data have entered the write queue end (R321, R342, R385). -/
def loftFlow (s : State) : State := landBursts (loftGoOn s)

/-- LOFT_REQUEST_ISSUE (R320 to R323). -/
def execLoftRequestIssue (c : Fin 12) (s : State) : Host.Outcome State Fault Refusal :=
  if chUp s c then ok (loftFlow (issueNext c s)) else ok s

/-- LOFT_WRITE_BATCH (R321). -/
def execLoftWriteBatch (c : Fin 12) (s : State) : Host.Outcome State Fault Refusal :=
  if chUp s c then ok (startBatch c s) else ok s

/-- REFRESH_DUE (R327 to R330). -/
def execRefreshDue (c : Fin 12) (s : State) : Host.Outcome State Fault Refusal :=
  if chUp s c then ok (refreshTick c s) else ok s

/-- DIMM_TEMP_READ (R328, R331). -/
def execDimmTempRead (c : Fin 12) (t0 t1 : List (Option (BitVec 16))) (s : State) : Host.Outcome State Fault Refusal :=
  if chUp s c then ok (tempTick c t0 t1 s) else ok s

/-- LOFT_ROW_TIMEOUT (R324). -/
def execLoftRowTimeout (c : Fin 12) (bank : Fin 256) (s : State) : Host.Outcome State Fault Refusal :=
  let pred := regGet s 0x13C014
  let x := lftGet s c
  if bitAt pred 31 ∧ pred % 65536 ≠ 0 then ok (lftSet s c { x with rows := tdel x.rows bank }) else ok s

/-! ### Reads and their outcomes (R334, R337 to R339, R345) -/

/-- Blocks of a region being filled that the DRAM holds: covered by a write or passed by the engine. -/
def FillEng.written (f : FillEng) : List Nat :=
  (List.range 16384).filterMap (fun n => if f.mask.contains (f.region * 16384 + n) || f.passed n then some (f.region * 16384 + n) else none)

/-- The map word of a block is lost: its 64 regions count as valid; what was never written reads as the DRAM holds it (R345). -/
def loseMapWord (w : Nat) (s : State) : State :=
  let l := s.lft
  let regs := (List.range 64).map (fun i => 64 * w + i)
  let fresh := regs.filter (fun r => !(l.valid.contains r))
  let cut := l.fills.filter (fun p => p.2.region / 64 == w)
  raiseItems 0x130A 4 [(4, w)]
    { s with lft := { l with mapUe := true, valid := regs.foldl (fun v r => natInsert r v) l.valid, raw := fresh.foldl (fun v r => natInsert r v) l.raw,
                             rawWritten := cut.foldl (fun v p => p.2.written.foldl (fun v b => natInsert b v) v) l.rawWritten,
                             fills := l.fills.filter (fun p => p.2.region / 64 != w) } }

/-- A loss whose first group is final already is recorded at once; else its group records it. One loss raises one record (R338). -/
def addLoss (r : MkRec) (s : State) : State := match s.pac.stripe with
  | none => s
  | some st =>
    if st.lostTiles.contains r then s
    else
      let j := r.slotFirst / 8
      let late : Bool := (grpGet st j).any (fun g => g.final.isSome) || (decide (j < st.nextGroup) && (grpGet st j).isNone)
      let s1 := setStripe { st with lostTiles := st.lostTiles ++ [r] } s
      if late ∧ groupRole s j then raiseStripeLoss r s1 else s1

/-- R338: what an uncorrectable real-time read loses. -/
def loseRead (q : LftReq) (s : State) : State := match s.pac.stripe with
  | none => s
  | some st =>
    let c := (coordOf s q.addr).ch
    if q.rank = 1 then addLoss (lossTile 5 c q.pass (8 * q.group) (min (8 * q.group + 7) (st.slotEnd - 1)) q.tile) s
    else if q.rank = 2 then
      (if q.pass = 8 then List.range st.adm.hdr.passes else [q.pass]).foldl (fun s p =>
        let (a, b) := tileSlots st q.tile p
        addLoss (lossTile 5 c p a b q.tile) s) s
    else s

/-- The block that a partial write waits for has been read: the whole block is written, poisoned where the read was uncorrectable (R339). -/
def mergeRead (blk cls : Nat) (bs : List Byte) : List WaitWrite → List WaitWrite
  | [] => []
  | w :: t =>
    if w.reading ∧ w.addr / 64 = blk then
      { w with addr := 64 * blk, bytes := mergePart bs (w.addr % 64) w.bytes, poison := w.poison || decide (cls ≥ 2), reading := false, part := true } :: t
    else w :: mergeRead blk cls bs t

/-- Hand a block that has been read to the one who waits for it (Table 9-4). -/
def deliverRead (q : LftReq) (cls : Nat) (bs : List Byte) (s : State) : State :=
  match q.who with
  | .realTime => if cls ≥ 2 then loseRead q s else s
  | .chain c => let x := chainGet s c; chainSet s c { x with got := tput x.got (q.addr / 64) (cls, bs) }
  | .scan k => scanFeed k cls bs s
  | .load id => loadFeed id cls bs s
  | .readback id => readbackFeed id cls s
  | .admission => admitFeed cls bs s
  | .partial_ => { s with lft := { s.lft with waits := mergeRead (q.addr / 64) cls bs s.lft.waits } }

/-- The outcome of the read `q` with an error pattern: a block of an invalid region is clean zeros, without an access (R341). -/
def finishRead (q : LftReq) (e : DramErr) (s : State) : State :=
  if q.dry then deliverRead q 0 (List.replicate 64 0) s
  else
    let (raw, m) := struck q.data q.mark e
    let (cls, bs, s1) := decodeBlock q.client (q.addr / 64) raw m q.stale (if q.stale then s else strikeBlock (q.addr / 64) e s)
    deliverRead q cls bs s1

/-- LOFT_READ_COMPLETE: the oldest issued read of the channel returns; with `mapErr` its map word is lost first, and the read takes what the
DRAM holds (R345). -/
def execLoftReadComplete (c : Fin 12) (err : DramErr) (mapErr : Bool) (s : State) : Host.Outcome State Fault Refusal :=
  let x := lftGet s c
  match x.issued with
  | [] => ok s
  | q :: t =>
    let s1 := lftSet s c { x with issued := t, retryRun := 0 }
    let s2 := if mapErr then loseMapWord (regionOf q.addr / 64) s1 else s1
    let (raw, m) := rawBlock s2 (q.addr / 64)
    let q1 := if mapErr ∧ q.dry then { q with data := raw, mark := m, dry := false } else q
    ok (loftFlow (payOwed c (finishRead q1 err s2)))

/-! ### Fills (R342, R343) -/

/-- FILL_ENGINE_START: writes to an invalid region that waited take a free engine. -/
def execFillEngineStart (s : State) : Host.Outcome State Fault Refusal := ok (loftFlow s)

/-- FILL_ENGINE_DONE. -/
def execFillEngineDone (e : Fin 8) (s : State) : Host.Outcome State Fault Refusal := ok (loftFlow (fillRegion e s))

/-! ### The gleaner (R346, R347) -/

/-- The next block to glean at or after an address: of a valid region, or passed by a fill engine (R346). -/
def gleanNext (s : State) (a : Nat) : Option Nat :=
  let l := s.lft
  let inValid := (l.valid.filter (fun r => decide ((r + 1) * 2 ^ 20 > a))).map (fun r => max a (r * 2 ^ 20))
  let inFill := l.fills.filterMap (fun p =>
    let b := max a (64 * (p.2.region * 16384 + p.2.next + (if p.2.busy then 1 else 0)))
    if b < (p.2.region + 1) * 2 ^ 20 then some b else none)
  (inValid ++ inFill).foldl (fun m x => match m with
    | none => some x
    | some y => some (min x y)) none

/-- A lap ends. -/
def lapEnd (ms : Nat) (s : State) : State :=
  let l := s.lft
  raiseItems 0x130B 0 [(4, ms), (4, l.lapCe), (4, l.lapUe)]
    { s with lft := { l with glnLap := ms, glnLaps := wrap32 (l.glnLaps + 1), lapCe := 0, lapUe := 0, lapSlow := false, glnPos := 0 } }

/-- GLEANER_READ: the next gleaner read, when nothing else waits on its channel; with nothing left up to the top of the loft the gleaner
returns to address 0. (DEDUCED, log 74.) -/
def execGleanerRead (err : DramErr) (lapMs : W32) (s : State) : Host.Outcome State Fault Refusal :=
  if ¬ bitAt (regGet s 0x13C040) 16 ∨ ¬ s.lft.trained then ok s
  else match gleanNext s s.lft.glnPos with
    | none => if s.lft.glnPos = 0 then ok s else ok (lapEnd lapMs.toNat s)
    | some a =>
      let c := (coordOf s a).ch
      let x := lftGet s c
      if ¬ chUp s c ∨ ¬ x.reads.isEmpty ∨ ¬ x.writes.isEmpty then ok s
      else
        let (raw0, m0) := rawBlock s (a / 64)
        let (raw, m) := struck raw0 m0 err
        let s1 := cntLft 5 (some c) 1 (accessRow c { rank := 5, client := 5, addr := a } (strikeBlock (a / 64) err s))
        let s2 := (decodeBlock 5 (a / 64) raw m false s1).2.2
        match gleanNext s2 (a + 64) with
        | some b => ok { s2 with lft := { s2.lft with glnPos := b } }
        | none => ok (lapEnd lapMs.toNat s2)

/-- GLEANER_LAP_SLOW (R347). -/
def execGleanerLapSlow (secs : W32) (s : State) : Host.Outcome State Fault Refusal :=
  if bitAt (regGet s 0x13C040) 16 ∧ s.lft.trained ∧ ¬ s.lft.lapSlow ∧ secs.toNat > regGet s 0x13C054 then
    ok (raiseItems 0x130C 1 [(4, secs.toNat)] { s with lft := { s.lft with lapSlow := true } })
  else ok s

/-! ### Losing a channel (R354, R355) -/

/-- Eight free values as the bytes of a block (DESIGN CHOICE, log 105). -/
def freeBlock (s : State) : List Byte × State :=
  ((List.range 8).flatMap (fun i => le 8 (Config.freeValue (s.free + i)).toNat), { s with free := s.free + 8 })

/-- Step 1: the requests outstanding return class CHANNEL; the raw data of such a read are free values (DESIGN CHOICE, log 105). -/
def failRequests (c : Nat) (s : State) : State :=
  let x := lftGet s c
  (x.issued ++ x.reads).foldl (fun s q =>
    let (bs, s1) := freeBlock s
    deliverRead q 5 bs (noteUe (q.addr / 64) 5 q.client s1)) (lftSet s c { x with reads := [], issued := [], writes := [], batch := 0 })

/-- Step 4: host transfers in progress end with the loft-read status. -/
def failTransfers (s : State) : State :=
  let s1 := (List.range 16).foldl (fun s c => if (chainGet s c).state = .run then stopChain c 0x14 s else s) s
  let s2 := s1.readbacks.foldl (fun s j => complete j.cmd 5 [] s) { s1 with readbacks := [] }
  let s3 := s2.chk.loads.foldl (fun s l => complete l.cmd 5 (l.result 0 0) s) { s2 with chk := { s2.chk with loads := [], waits := s2.chk.waits.filter (fun x => x.owner != 2) } }
  let s4 := (List.range 4).foldl (fun s k => if (tfind s.chk.scans k).any (fun x => x.owner == 2) then scanFree k (dropReads (fun w => w == .scan k) s) else s) s3
  dropReads (fun w => match w with
    | .realTime | .scan _ => false
    | _ => true) { s4 with lft := { s4.lft with waits := [] } }

/-- Step 5 and 6: nothing is valid, the repeat table is free, the weevil is disarmed, the gleaner restarts; writes of the other channels
went to addresses that no longer stand. (DEDUCED, log 75.) -/
def clearLoft (s : State) : State :=
  let s1 := (List.range 12).foldl (fun s c => lftSet s c { lftGet s c with writes := [], batch := 0, inOrder := [] }) s
  { s1 with lft := { s1.lft with mem := [], marks := [], valid := [], raw := [], rawWritten := [], fills := [], waits := [], rpt := [],
                                 rptOvfSeen := false, wArmed := false, glnPos := 0, lapCe := 0, lapUe := 0, lapSlow := false } }

/-- SCAN_CHECK goes on over the channels that remain; with none left it ends with the loft-read status. (DEDUCED, log 75.) -/
def moveScans (c : Nat) (s : State) : State :=
  let x := lftGet s c
  let s1 := lftSet s c { x with reads := [] }
  if numCh s > 0 then x.reads.foldl (fun s q => queueRead q s) s1
  else (s.chk.scans.map Prod.snd ++ s.chk.waits).foldl (fun s q => complete q.cmd 5 [] s) { s1 with chk := { s1.chk with scans := [], waits := [] } }

/-- The loft loses its contents under an admission: one held is lost, one in progress ends (R355). -/
def loseAdmission (s : State) : State := match s.pac.adm with
  | some a => if a.phase = .held then { s with pac := { s.pac with adm := some { a with touched := a.touched || !a.hold, lost := true } } } else dropAdmission 5 s
  | none => s

/-- A channel leaves service; the device stays READY while one is left. -/
def channelOut (c cause : Nat) (s : State) : State :=
  let s1 := lftSet s c { lftGet s c with state := .retired, cause := cause, rows := [], preds := [], inOrder := [], owed := 0, retryRun := 0 }
  { s1 with lft := { s1.lft with ready := s1.lft.ready && decide (numCh s1 ≥ 1) } }

/-- A channel in service is retired. -/
def retireChannel (c cause : Nat) (s : State) : State :=
  if (lftGet s c).state ≠ .inService then s
  else
    let s1 := channelOut c cause (clearLoft (failTransfers (loseAdmission (abortOrDiscard 4 true true 0x43 (failRequests c s)))))
    raiseItems 0x1302 4 [(1, c), (1, cause), (4, loftCap s1)] (moveScans c s1)

/-- LOFT_CHANNEL_FAULT (R354): a fatal RCD or PMIC report, or three failed retries. -/
def execLoftChannelFault (c : Fin 12) (rcd : Bool) (s : State) : Host.Outcome State Fault Refusal :=
  if rcd then ok (retireChannel c 6 s)
  else if (lftGet s c).retryRun ≥ 3 then ok (retireChannel c 5 s)
  else ok s

/-- LOFT_ALERT: a retry of a command sequence after a CA parity alert, or a write CRC error where LFT_CFG.WCRC is set; `again`: the sequence
was a retry already (R354; DEDUCED, log 116). -/
def execLoftAlert (alert : LoftAlert) (s : State) : Host.Outcome State Fault Refusal :=
  let x := lftGet s alert.channel
  if chUp s alert.channel ∧ ¬ (alert.writeCrc ∧ ¬ bitAt (regGet s 0x13C000) 0) then
    ok (lftSet s alert.channel { x with retry := sat32 (x.retry + 1), retryRun := if alert.again then min 3 (x.retryRun + 1) else 1 })
  else ok s

/-! ### Register operations -/

/-- LFTc_RETIRE with GO. -/
def lftRetireOp (c : Nat) (s : State) : State := retireChannel c 7 s

/-- LFT_INVAL_CTRL with GO (R344). -/
def lftInvalOp (s : State) : State :=
  let first := regGet s 0x13C02C
  let count := regGet s 0x13C030
  let inside (r : Nat) : Bool := decide (first ≤ r ∧ r < first + count)
  if (heldRanges s).any (fun (a, n) => overlaps a n (first * 2 ^ 20) (count * 2 ^ 20)) then { s with lft := { s.lft with invalRefused := true } }
  else
    let l := s.lft
    { s with lft := { l with
        valid := l.valid.filter (fun r => !inside r), raw := l.raw.filter (fun r => !inside r),
        rawWritten := l.rawWritten.filter (fun b => !inside (b / 16384)), fills := l.fills.filter (fun p => !inside p.2.region),
        mem := l.mem.filter (fun p => !inside (p.1 / 2 ^ 20)), marks := l.marks.filter (fun p => !inside (p.1 / 16384)) } }

/-- LFT_RPT_CTRL.CLEAR (R351). -/
def lftRptClearOp (s : State) : State := { s with lft := { s.lft with rpt := [], rptOvfSeen := false } }

/-- LFT_WEEVIL_CTRL after its RW fields are stored (Table 9-13). -/
def weevilCtrl (v : Nat) (s : State) : State :=
  let l := { s.lft with wFired := s.lft.wFired && !bitAt v 29 }
  { s with lft := if bitAt v 30 then { l with wArmed := false } else if bitAt v 31 then { l with wArmed := true } else l }

/-- A change of the page policy: the counters start at 0 when it is selected (R324). -/
def predSelected (was : Nat) (s : State) : State :=
  if bitAt (regGet s 0x13C014) 31 ∧ ¬ bitAt was 31 then
    (List.range 12).foldl (fun s c => lftSet s c { lftGet s c with preds := [] }) s
  else s

end Sys2Proof.Machine
end

