-- ==== Sys2Proof/Machine/GranaryRows.lean ====
section
/-! DEFINITION. Meanings of the granary and silo rows (12): word writes and their retries, the ends of stores, the wear
record, the power-fail sequence up to its save, wiping, freezing. -/

namespace Sys2Proof.Machine

/-! ### The end of a store (R230, R437) -/

/-- The outcomes of a STORE (Table 6-7). -/
def storeResult (names outcome gen : Nat) : List Byte :=
  (List.range 4).map (fun n => if bitAt names n then BitVec.ofNat 8 outcome else 0xFF) ++ le 4 gen

/-- A job with nothing left to write ends (R230, R437). -/
def finishJob (j : GrnJob) (s : State) : State :=
  if j.kind = 1 then tableWritten j.failed j.written s
  else if j.kind = 2 then
    if j.failed then completeOpt j.cmd 0x43 (storeResult j.names 0 0) s
    else completeOpt j.cmd 0 (storeResult j.names 0 (((newestCopy s 2).1.map (fun q => q.2.1)).getD 0)) s
  else s

/-- End the first job if it is done, and start the next word. -/
def settleJobs (s : State) : State := match s.grn.jobs with
  | [] => s
  | j :: t =>
    if j.todo.isEmpty ∧ j.pay.isNone then startJobWord (finishJob j { s with grn := { s.grn with jobs := t } })
    else startJobWord s

/-- GRANARY_WORD_WRITE_DONE: the oldest word under way ends an attempt; `good`: its verify passes (R425, R428, R437). -/
def execGranaryWordWriteDone (good : Bool) (s : State) : Host.Outcome State Fault Refusal :=
  match s.grn.writing with
  | [] => ok s
  | x :: rest =>
    let s1 := wearAdd x.word { s with grn := { s.grn with writing := rest } }
    if good then
      match x.item with
      | some (item, e, _) => ok (settleJobs (ringStore item e x.value s1))
      | none => ok (settleJobs (advanceJob true (grnStore x.word x.value s1)))
    else if x.tries < 2 then ok { s1 with grn := { s1.grn with writing := { x with tries := x.tries + 1 } :: rest } }
    else
      let s2 := writeFailed x.word s1
      match x.item with
      | some _ => match ringRetry x with
        | some y => ok { s2 with grn := { s2.grn with writing := rest ++ [y] } }
        | none => ok (settleJobs (lostPersist x s2))
      | none => ok (settleJobs (advanceJob false s2))

/-! ### Wear (R435) -/

/-- Store the wear record now. -/
def checkpointOp (s : State) : State := if s.grn.loaded then queueJob (wearJob s) s else s

/-- WEAR_CHECKPOINT_TIMER. -/
def execWearCheckpointTimer (s : State) : Host.Outcome State Fault Refusal := ok (checkpointOp s)

/-! ### Wipe (R438, R443) -/

/-- Words that a wipe erases: beam table, journal, calibration record; the rings beside them. (DEDUCED, log 78.) -/
def wiped (w : Nat) : Bool := decide (8704 ≤ w ∧ w < 68096)

/-- A write of GRN_CTRL.WIPE. -/
def wipeOp (req : Nat) (s : State) : State :=
  let busy := s.pac.stripe.isSome || s.twn.tableX.isSome || s.grn.jobs.any (fun j => decide (j.kind = 1 ∨ j.kind = 2))
  let refused := busy || decide (s.grn.wipeKey ≠ 0x57495045)
  let s1 := { s with grn := { s.grn with wipeKey := 0 } }
  let s2 := if refused then { s1 with grn := { s1.grn with wipeRefused := true } }
    else { s1 with grn := { s1.grn with
      words := s1.grn.words.filter (fun p => !wiped p.1), ones := s1.grn.ones.filter (fun w => !wiped w), rings := [],
      badWords := s1.grn.badWords.filter (fun w => decide (w ≥ 67072 ∨ (8704 ≤ w ∧ w < 66048)) && !(decide (67072 ≤ w ∧ w < 68096))) } }
  siloRecord 0x1607 (le 2 req ++ le 1 (if refused then 1 else 0)) s2

/-! ### Silo freeze (R441) -/

/-- A write of SLO_CTRL; both bits together do nothing. -/
def sloCtrl (v : Nat) (s : State) : State :=
  if bitAt v 0 ∧ bitAt v 1 then s
  else if bitAt v 0 then siloFreeze 2 s
  else if bitAt v 1 then { s with slo := { s.slo with frozen := false } }
  else s

/-! ### Power-fail warning (R444, R445, R468) -/

/-- PFW_N_FALL: the recognition filter starts, unless the low period has been recognized already. -/
def execPfwNFall (s : State) : Host.Outcome State Fault Refusal :=
  ok { s with pins := { s.pins with pfwN := false },
              grn := { s.grn with pfwFall := s.grn.pfwFall || (s.pins.pfwN && !s.grn.pfwLow && !s.grn.pfwActive) } }

/-- PFW_RECOGNIZED: steps 1 and 2 of R444, and the sequence begins. (DEDUCED, log 53.) -/
def execPfwRecognized (s : State) : Host.Outcome State Fault Refusal :=
  if ¬ s.grn.pfwFall ∨ s.pins.pfwN ∨ ¬ s.grn.loaded then ok s
  else
    let s1 := raiseItems 0x1604 4 [(1, pacState s), (1, s.grn.queue.length)] { s with grn := { s.grn with pfwFall := false, pfwActive := true, pfwLow := true } }
    ok (abortFault s1)

/-- Steps 2 to 6 of R444: what was started completes, the persist queue drains, silo and wear record are stored, the silo
freezes. With the supplies out of their limits no word starts (R424). -/
def pfwSave (s : State) : State :=
  let s1 := finishWrites s
  let s2 := putRecord (nextStore s1 4 (savePayload s1)) s1
  let s3 := if s.grn.supplyOut then s1 else putRecord (nextStore s2 3 (wearPayload s2)) s2
  siloFreeze 3 { s3 with grn := { s3.grn with pfwActive := false, jobs := s3.grn.jobs.map (relayWear s3) } }

end Sys2Proof.Machine
end

