-- ==== Sys2Proof/Machine/Time.lean ====
section
/-! DEFINITION. Time, PTP and gang operation (11): the clocks and their steps at a tick, timed actions, the domain switch,
the Ethernet ports, PTP slots, gang frames and launches. -/

namespace Sys2Proof.Machine

/-! ### The clocks (R405 to R412) -/

/-- A time in units of 2⁻³² ns, wrapped (R405). -/
def wrapTime (t : Int) : Nat := (t % (timeMod : Int)).toNat

/-- The step tolerance in units of 2⁻³² ns (Table 11-8). -/
def stepTol (s : State) : Nat := clampN (regGet s 0x150210 % 16384) 1 10000 * nsUnit

/-- The step that waits in a domain changes its time from t to this. -/
def Dom.stepped (d : Dom) (t : Nat) : Nat := wrapTime ((d.load.getD t : Nat) + d.adjust.getD 0)

def Dom.hasStep (d : Dom) : Bool := d.load.isSome || d.adjust.isSome

/-- The time the profile of an accepted stripe uses domain `b` (R411). -/
def profileUses (s : State) (b : Bool) : Bool := s.pac.stripe.any (fun st => st.domB == b)

/-- One tick of a domain: its increment, then the step that waits unless it is refused (R405 to R407, R411). Answers
the domain and the time without the step. -/
def Dom.tick (d : Dom) (tol : Nat) (bound block : Bool) : Dom × Nat :=
  let t := (d.t + d.incr) % timeMod
  let d1 := { d with incr := d.incrNext.getD d.incr, incrNext := none, load := none, adjust := none }
  if ¬ d.hasStep then ({ d1 with t := t }, t)
  else
    let t' := d.stepped t
    let size := ((t' : Int) - (t : Int)).natAbs
    if block ∨ (bound ∧ size > tol) then ({ d1 with t := t, refused := true }, t)
    else ({ d1 with t := t', set := d.set || d.load.isSome }, t)

/-- 50,000 ns in units of 2⁻³² ns. -/
def gridUnit : Nat := 50000 * nsUnit

/-- Set-point instants that fall due (R183, R410): the grid of the profile's domain goes on beyond the last instant
that fell due. `was`: the domains' times before the tick. (DEDUCED, log 79.) -/
def tickGrid (wasA wasB : Nat) (s : State) : State :=
  let b := s.pac.stripe.any (fun st => st.domB)
  let last := if b == s.tim.setDomB then s.tim.setLast else (if b then wasB else wasA) / gridUnit
  let k := (domGet s b).t / gridUnit
  { s with tim := { s.tim with setDomB := b, setLast := max last k, setDue := s.tim.setDue + (k - last) } }

/-- Launches that fall due (R410, R419); `ta`, `tb`: the times without a step, by which LATE is judged. (DEDUCED, log 81.) -/
def tickLaunches (ta tb : Nat) (s : State) : State :=
  { s with tim := { s.tim with launches := s.tim.launches.map (fun l =>
      if l.due ∨ (domGet s l.domB).t < l.at_ then l
      else { l with due := true, dueAt := s.tim.core, late := l.late || (decide (l.at_ < (domGet s l.domB).t) && decide ((if l.domB then tb else ta) < l.at_)) }) } }

/-- The timed snapshot falls due (R457). -/
def tickSnapshot (s : State) : State := match s.obs.timed with
  | some m => if (domGet s m.domB).t ≥ m.at_ then { s with obs := { s.obs with timed := some { m with due := true } } } else s
  | none => s

/-- A switch that waits (R412): whether it takes place, and its step B − A. (DEDUCED, log 80.) -/
def switchStep (s : State) (ta tb : Nat) : Bool × Int :=
  let d : Int := (tb : Int) - (ta : Int)
  (decide (d.natAbs ≤ stepTol s), d)

/-- TIME_TICK (R405 to R412). -/
def tickNow (s : State) : State :=
  let (b, tb) := s.tim.b.tick (stepTol s) (profileUses s true) false
  let ta := (s.tim.a.t + s.tim.a.incr) % timeMod
  let (go, d) := switchStep s ta b.t
  let sw := s.tim.switchReq && go
  let (a, _) := s.tim.a.tick (stepTol s) (profileUses s false) sw
  let a1 := if sw then { a with t := b.t, incr := b.incr } else a
  let s1 := { s with tim := { s.tim with
    a := a1, b := b, switchReq := false, swDone := s.tim.swDone || sw, swRefused := s.tim.swRefused || (s.tim.switchReq && !go),
    swStep := if sw then unsigned 64 (d / 65536) else s.tim.swStep, core := s.tim.core + 5 } }
  let s2 := tickSnapshot (tickLaunches ta tb (tickGrid s.tim.a.t s.tim.b.t s1))
  let s3 := if secOf a1.t ≠ secOf s.tim.a.t ∨ a1.t ≠ ta then trcSync s2 else s2
  if sw then raiseItems 0x1503 0 [(8, unsigned 64 (d / 65536))] s3 else s3

/-- TIME_TICK: CK_TIME runs once the clocks have locked. -/
def execTimeTick (s : State) : Host.Outcome State Fault Refusal := if s.glb.clocksOk then ok (tickNow s) else ok s

/-! ### The ports (R398 to R404) -/

def portEn (s : State) (p : Nat) : Bool := bitAt (regGet s (0x150400 + 0x100 * p)) 0

/-- A port goes down (R399). -/
def portDown (p : Nat) (s : State) : State :=
  let x := portGet s p
  if x.up then raiseItems 0x1502 1 [(1, p)] (portSet s p { x with up := false, lock := false, downSeen := true }) else s

/-- ETH_PORT_UP (R399). BLOCK_LOCK is free at every read (DESIGN CHOICE, log 28). -/
def execEthPortUp (p : Fin 2) (s : State) : Host.Outcome State Fault Refusal :=
  let x := portGet s p
  if x.up ∨ ¬ portEn s p ∨ ¬ s.grn.loaded then ok s else ok (raiseItems 0x1501 0 [(1, p)] (portSet s p { x with up := true, lock := true }))

/-- ETH_PORT_DOWN (R399). -/
def execEthPortDown (p : Fin 2) (s : State) : Host.Outcome State Fault Refusal := ok (portDown p s)

/-- Byte offset of a receive or transmit slot among the port's slots. -/
def rxSlot (i : Nat) : Nat := 512 * i
def txSlot (i : Nat) : Nat := 0x4000 + 512 * i

/-- Bytes of a slot, and writes to them. -/
def slotRead (x : Port) (o n : Nat) : List Byte := (List.range n).map (fun i => tget x.slots (o + i) 0)
def slotWrite (x : Port) (o : Nat) (bs : List Byte) : Port :=
  { x with slots := (bs.zipIdx).foldl (fun t (b, i) => tset t (o + i) b 0) x.slots }

/-- The time of a domain at an instant, at the rate the domain has now and without a step since then (R403; DEDUCED, log 114). -/
def Dom.at_ (d : Dom) (x : Stamp) : Nat := wrapTime ((d.t : Int) - (x.back.toNat * d.incr : Nat) + (d.incr * x.phase.toNat / 2 ^ 32 : Nat))

/-- The time-stamp fields of one domain (Table 11-1). -/
def stampFields (t : Nat) : List Byte := le 8 (secOf t) ++ le 4 (nsOf t) ++ le 2 (fracOf t) ++ [0, 0]

/-- An sQ15.16 ns correction in units of 2⁻³² ns. -/
def corrOf (s : State) (off : Nat) : Int := signed 32 (regGet s off) * 65536
def txCorr (s : State) (p : Nat) : Int := corrOf s (0x150410 + 0x100 * p)
def rxCorr (s : State) (p : Nat) : Int := corrOf s (0x150414 + 0x100 * p)

/-- A transmit or receive time-stamp from the instant at the balls (R403). -/
def txStamp (s : State) (p t : Nat) : Nat := wrapTime ((t : Int) + txCorr s p)
def rxStamp (s : State) (p t : Nat) : Nat := wrapTime ((t : Int) - rxCorr s p)

/-- A descriptor (Table 11-1). -/
def slotDesc (len go result seq ta tb : Nat) : List Byte :=
  le 2 len ++ le 1 go ++ le 1 result ++ le 4 seq ++ stampFields ta ++ stampFields tb ++ List.replicate 8 0

/-- EtherType of a frame, directly or after one 0x8100 tag; whether it is tagged (R400). -/
def etherType (f : List Byte) : Nat × Bool :=
  let be2 (o : Nat) : Nat := (f.getD o 0).toNat * 256 + (f.getD (o + 1) 0).toNat
  if be2 12 = 0x8100 then (be2 16, true) else (be2 12, false)

/-- R400: the frame is a PTP frame for this port. -/
def acceptPtp (s : State) (p : Nat) (f : List Byte) : Bool :=
  let dst := f.take 6
  (dst == portMac s p || dst == [0x01, 0x1B, 0x19, 0, 0, 0] || dst == [0x01, 0x80, 0xC2, 0, 0, 0x0E]) &&
  decide ((etherType f).1 = 0x88F7) && decide (f.length ≤ 256)

/-- A frame is discarded (R400). -/
def discardFrame (p : Nat) (s : State) : State :=
  let x := portGet s p
  portSet s p { x with discard := sat32 (x.discard + 1) }

/-- Every frame that a port receives counts (Table 13-1). -/
def frameReceived (p : Nat) (s : State) : State := cntTim 1 (some p) 1 s

/-- PTP_FRAME_RX (R400, R401, R403). -/
def execPtpFrameRx (p : Fin 2) (frame : List Byte) (stamp : Stamp) (s : State) : Host.Outcome State Fault Refusal :=
  if ¬ (portGet s p).up then ok s
  else
    let s1 := frameReceived p s
    let x := portGet s1 p
    if ¬ acceptPtp s p frame then ok (discardFrame p s1)
    else if x.rxCount ≥ 32 then ok (portSet s1 p { x with ovf := sat32 (x.ovf + 1) })
    else
      let i := (x.rxOldest + x.rxCount) % 32
      let seq := wrap32 (x.rxSeq + 1)
      let res := flag (etherType frame).2 0 + flag (bitAt (frame.getD 0 0).toNat 0) 1
      let d := slotDesc frame.length 0 res seq (rxStamp s p (s.tim.a.at_ stamp)) (rxStamp s p (s.tim.b.at_ stamp))
      ok (portSet s1 p { slotWrite x (rxSlot i) (d ++ frame) with rxCount := x.rxCount + 1, rxSeq := seq })

/-- ETH_FRAME_DISCARD (R400). -/
def execEthFrameDiscard (p : Fin 2) (badFcs : Bool) (s : State) : Host.Outcome State Fault Refusal :=
  if ¬ (portGet s p).up then ok s
  else
    let s1 := frameReceived p s
    let x := portGet s1 p
    ok (if badFcs then portSet s1 p { x with badFcs := sat32 (x.badFcs + 1) } else discardFrame p s1)

/-- R402: why a transmit slot is refused, in the order of the result codes; 0 when it is sent. -/
def txResult (x : Port) (len : Nat) (frame : List Byte) : Nat :=
  if ¬ x.up then 1 else if (etherType frame).1 ≠ 0x88F7 then 2 else if len < 14 ∨ len > 256 then 3 else 0

/-- A time that the spec does not state. -/
def freeTime (s : State) : Nat × State :=
  let (a, s1) := drawFree s
  let (b, s2) := drawFree s1
  ((a.toNat + 2 ^ 64 * b.toNat) % timeMod, s2)

/-- PTP_TX_DONE: the oldest slot with `go` is sent or refused (R402, R403). A refused frame has no time-stamp point: what its time-stamp
fields then hold is free (DESIGN CHOICE, log 29). -/
def execPtpTxDone (p : Fin 2) (stamp : Stamp) (s : State) : Host.Outcome State Fault Refusal :=
  let x := portGet s p
  match x.goOrder with
  | [] => ok s
  | i :: rest =>
    let o := txSlot i
    let len := ofLe (slotRead x o 2)
    let frame := slotRead x (o + 0x30) (min len 464)
    let res := txResult x len (slotRead x (o + 0x30) 18)
    if res = 0 then
      if portGuarded s p then ok s
      else
        let seq := wrap32 (x.txSeq + 1)
        let d := slotDesc len 0 0 seq (txStamp s p (s.tim.a.at_ stamp)) (txStamp s p (s.tim.b.at_ stamp))
        let s1 := portSet s p { slotWrite x o d with goOrder := rest, txSeq := seq }
        ok (cntTim 2 (some p) 1 (emit (.ethFrame p (frame ++ List.replicate (60 - frame.length) 0)) s1))
    else
      let (ta, s1) := freeTime s
      let (tb, s2) := freeTime s1
      ok (portSet s2 p { slotWrite x o (slotDesc len 0 res x.txSeq ta tb) with goOrder := rest })

/-! ### Gang frames (R413 to R418) -/

end Sys2Proof.Machine

namespace Sys2Proof

/-- The fields of a received gang frame (Table 11-3); its payload begins behind the EtherType. -/
def GangFrame.fld (f : GangFrame) (o n : Nat) : Nat := Machine.fld f.frame (14 + o) n
def GangFrame.src (f : GangFrame) : BitVec 16 := BitVec.ofNat 16 (f.fld 4 2)
def GangFrame.kind (f : GangFrame) : Byte := BitVec.ofNat 8 (f.fld 6 1)
def GangFrame.flags (f : GangFrame) : Byte := BitVec.ofNat 8 (f.fld 7 1)
def GangFrame.seq (f : GangFrame) : W32 := BitVec.ofNat 32 (f.fld 8 4)
def GangFrame.body (f : GangFrame) : List Byte := (f.frame.drop 46).take 24
def GangFrame.alive (f : GangFrame) : BitVec 16 := BitVec.ofNat 16 (f.fld 0x38 2)
def GangFrame.crcGood (f : GangFrame) : Bool := f.fld 0x3A 4 == Machine.crc32c ((f.frame.drop 14).take 58)
/-- The sender's MAC address, first byte first. -/
def GangFrame.mac (f : GangFrame) : List Byte := (f.frame.drop 6).take 6

end Sys2Proof

namespace Sys2Proof.Machine

/-- R400: the frame is a gang frame: to TIM_GANG_MCAST, EtherType 0x88B5, no tag, with the payload of Table 11-3. -/
def isGang (s : State) (f : GangFrame) : Bool :=
  f.frame.take 6 == macBytes (regGet s 0x15022C) (regGet s 0x150228) && etherType f.frame == (0x88B5, false) && f.frame.length == 76

/-- R400, and R416, conditions 1 to 4. -/
def gangFits (s : State) (f : GangFrame) : Bool :=
  gangOn s && isGang s f && f.crcGood && f.fld 0 2 == 0x0100 && f.fld 2 2 == regGet s 0x150224 % 65536

/-- A frame is new (R416). -/
def gangNew (old : Option Src) (f : GangFrame) : Bool := match old with
  | none => true
  | some o =>
    let d := (f.seq.toNat + 2 ^ 32 - o.seq) % 2 ^ 32
    decide (1 ≤ d ∧ d < 2 ^ 31) || (bitAt f.flags.toNat 0 && decide (d ≠ 0))

/-- The `alive` kept for a port. -/
def Src.alive (x : Src) (p : Nat) : Option Nat := if p = 0 then x.alive0 else x.alive1
def Src.setAlive (x : Src) (p v : Nat) : Src := if p = 0 then { x with alive0 := some v } else { x with alive1 := some v }

/-- Frames of the source missed on the port, by `alive` (R416). -/
def aliveGap (old : Option Src) (f : GangFrame) : Nat :=
  if bitAt f.flags.toNat 0 then 0
  else match old.bind (fun o => o.alive f.port) with
    | none => 0
    | some a => (f.alive.toNat + 65536 - a) % 65536 - 1

/-- The launch time of a frame with its time-stamps, as EV_GANG_START carries them. -/
def startItems (s : State) (f : GangFrame) : List (Nat × Nat) :=
  [(2, f.src.toNat), (4, f.seq.toNat), (12, fld f.body 0 8 + 2 ^ 64 * fld f.body 8 4), (1, fld f.body 12 1),
   (8, ringTime (rxStamp s f.port (s.tim.a.at_ f.stamp)))]

/-- R417: an ABORT acts on the stripe that is held as STRIPE_ABORT does, with cause FAULT. -/
def gangAbortIn (s : State) : State := match s.pac.stripe with
  | some st => if st.state = .arming then abortOrDiscardFree 4 false true s else abortOrDiscard 4 false true 0 s
  | none => s

/-- A stripe is held that an ABORT still acts on: not one that is stopping, and not an admission. (DEDUCED, log 84.) -/
def holdsAny (s : State) : Bool := s.pac.stripe.any (fun st => decide (st.state ≠ .stopping))

/-- An accepted new frame acts by its kind (R417). -/
def gangAct (f : GangFrame) (s : State) : State :=
  if f.kind = 1 then raiseItems 0x1504 0 (startItems s f) s
  else if f.kind = 3 then raiseItems 0x1505 0 [(2, f.src.toNat), (4, f.seq.toNat), (24, ofLe (fit 24 f.body))] s
  else if f.kind = 2 then
    let acts := bitAt (gangCtrl s) 0 && holdsAny s
    let s1 := raiseItems 0x1506 4 [(2, f.src.toNat), (4, f.seq.toNat), (1, fld f.body 0 1), (1, if acts then 1 else 0)] s
    if acts then gangAbortIn s1 else s1
  else s

/-- A gang frame arrives on a port that is up (R416, R417). (DEDUCED, log 84.) -/
def gangRx (f : GangFrame) (s : State) : State :=
  if ¬ (portGet s f.port).up then s
  else
    let s1 := frameReceived f.port s
    if ¬ gangFits s f then discardFrame f.port (if isGang s f ∧ ¬ f.crcGood then chkFrame 2 (129 + f.port) f.alive.toNat s1 else s1)
    else if f.src.toNat = regGet s 0x150220 % 4096 then
      if s.tim.clash then s1
      else raiseItems 0x1507 1 [(1, f.port), (8, ofLe f.mac)] { s1 with tim := { s1.tim with clash := true } }
    else
      let old := tfind s.tim.srcs f.src.toNat
      let isNew := gangNew old f
      let kept : Src := (old.getD { seq := f.seq.toNat }).setAlive f.port f.alive.toNat
      let x := if isNew then { kept with seq := f.seq.toNat } else kept
      let s2 := { s1 with tim := { s1.tim with srcs := tput s1.tim.srcs f.src.toNat x } }
      if ¬ isNew then cntTim 4 none 1 { s2 with tim := { s2.tim with dup := sat32 (s2.tim.dup + 1) } }
      else gangAct f (cntTim 3 none 1 { s2 with tim := { s2.tim with gap := sat32 (s2.tim.gap + aliveGap old f) } })

/-- GANG_START_RX (R416, R417). -/
def execGangStartRx (f : GangFrame) (s : State) : Host.Outcome State Fault Refusal := ok (gangRx f s)
/-- GANG_USER_RX (R416, R417). -/
def execGangUserRx (f : GangFrame) (s : State) : Host.Outcome State Fault Refusal := ok (gangRx f s)
/-- GANG_ABORT_RX (R416, R417). -/
def execGangAbortRx (f : GangFrame) (s : State) : Host.Outcome State Fault Refusal := ok (gangRx f s)
/-- GANG_ID_CLASH (R416). -/
def execGangIdClash (f : GangFrame) (s : State) : Host.Outcome State Fault Refusal := ok (gangRx f s)
/-- GANG_FRAME_REFUSED (R416). -/
def execGangFrameRefused (f : GangFrame) (s : State) : Host.Outcome State Fault Refusal := ok (gangRx f s)

/-! ### GANG_LAUNCH (R419, R420) -/

/-- Bytes of the body that Table 11-3 fixes at 0. -/
def bodyTail (c : Cmd) : Bool :=
  let z (n : Nat) : Bool := !((c.params.drop (0x18 + n)).take (24 - n)).all (fun b => b == 0)
  (c.p 0 1 == 1 && z 13) || (c.p 0 1 == 2 && z 1)

/-- A reserved field of the parameters is not 0 (Table 11-4, R376). (DEDUCED, log 82.) -/
def launchReserved (c : Cmd) : Bool :=
  c.reserved 0x30 || decide (c.p 1 1 ≥ 4) || c.p 3 1 != 0 || c.p 6 2 != 0 || decide (c.p 0x10 4 ≥ 2 ^ 30) || c.p 0x14 4 != 0 ||
  (c.p 0 1 != 0 && c.p 4 2 != 0) || bodyTail c

/-- VALUE (Table 11-6). -/
def launchValue (c : Cmd) : Bool :=
  decide (c.p 0 1 > 3) || decide (c.p 2 1 ≥ 4) || (c.p 0 1 != 0 && c.p 2 1 == 0) || decide (c.p 0x10 4 ≥ 1000000000) ||
  (c.p 0 1 == 1 && (decide (c.p 0x20 4 ≥ 1000000000) || decide (c.p 0x24 1 > 1)))

/-- The checks that every GANG_LAUNCH shares; 0 passes. -/
def launchStatus (s : State) (c : Cmd) : Nat :=
  if launchReserved c then 2 else if launchValue c then 0x40 else if ¬ gangOn s then 0x42 else 0

/-- An earlier gang frame still occupies a port. -/
def portBusy (s : State) (p : Nat) : Bool := s.tim.sent.any (fun x => bitAt x.ports p) || decide (s.tim.core < (portGet s p).abortTill)

/-- The frame of a launch starts on each named port that is up, LATE on a port where an earlier frame holds it up; with none up the
command completes, and what waited behind the launch goes on (R419, R420). (DEDUCED, log 82.) -/
def startLaunch (l : Launch) (timed : Bool) (s : State) : State :=
  let up := upPorts l.ports s
  let late (p : Nat) : Bool := timed && (l.late || portBusy s p)
  let ns := if timed then l.ns + flag l.domB 31 else 0
  let (s1, seq) := gangSend l.kind late (if timed then l.sec else 0) ns l.body none up s
  if up.isEmpty then flushAborts (complete l.cmd 0x43 [] s1)
  else { s1 with tim := { s1.tim with sent := s1.tim.sent ++ [{ cmd := l.cmd, seq := seq, ports := portMask up, late := up.any late }] } }

/-- START, ABORT and USER: the frame is sent at once or the launch is queued. -/
def launchOp (id : Nat) (c : Cmd) (s : State) : State :=
  let st := launchStatus s c
  let domB := bitAt (c.p 1 1) 1
  let t := timeOf (c.p 8 8) (c.p 0x10 4)
  let l : Launch :=
    { cmd := id, tag := c.tag, kind := c.p 0 1, ports := c.p 2 1, domB := domB, at_ := t, sec := c.p 8 8, ns := c.p 0x10 4,
      body := (c.params.drop 0x18).take 24, late := decide (t < (domGet s domB).t), due := false }
  if st ≠ 0 then complete id st [] s
  else if ¬ bitAt (c.p 1 1) 0 then startLaunch l false (cmdRun id s)
  else if s.tim.launches.length ≥ 8 then complete id 0x41 [] s
  else cmdRun id { s with tim := { s.tim with launches := s.tim.launches ++ [l] } }

/-- A GANG_LAUNCH of the row's kind; USER also takes the kinds that do not exist. -/
def launchRow (id : Nat) (mine : Nat → Bool) (s : State) : State := match cmdOp s id 0x0D with
  | none => s
  | some c => if mine (c.p 0 1) then launchOp id c s else s

/-- GANG_LAUNCH_START (R420). -/
def execGangLaunchStart (id : Nat) (s : State) : Host.Outcome State Fault Refusal := ok (launchRow id (fun k => k == 1) s)
/-- GANG_LAUNCH_ABORT (R420). -/
def execGangLaunchAbort (id : Nat) (s : State) : Host.Outcome State Fault Refusal := ok (launchRow id (fun k => k == 2) s)
/-- GANG_LAUNCH_USER (R420). -/
def execGangLaunchUser (id : Nat) (s : State) : Host.Outcome State Fault Refusal := ok (launchRow id (fun k => decide (k ≥ 3)) s)

/-- GANG_LAUNCH_CANCEL (R420). -/
def execGangLaunchCancel (id : Nat) (s : State) : Host.Outcome State Fault Refusal :=
  match cmdOp s id 0x0D with
  | none => ok s
  | some c =>
    if c.p 0 1 ≠ 0 then ok s
    else if launchStatus s c ≠ 0 then ok (complete id (launchStatus s c) [] s)
    else match s.tim.launches.find? (fun l => l.tag == c.p 4 2) with
      | none => ok (complete id 0x45 [] s)
      | some l => ok (flushAborts (complete id 0 [] (complete l.cmd 0x44 [] { s with tim := { s.tim with
          launches := s.tim.launches.filter (fun m => m.cmd != l.cmd) } })))

/-- The least of a list by a key, the first of equals. -/
def firstBy (key : Launch → Nat) (l : List Launch) : Option Launch :=
  l.foldl (fun b x => match b with
    | some m => if key x < key m then some x else b
    | none => some x) none

/-- The due launch whose frame starts next: of those that fell due first, the one first in the queue, unless an earlier time of its
domain fell due with it (R410, R420). -/
def nextLaunch (s : State) : Option Launch :=
  let due := s.tim.launches.filter (fun l => l.due)
  match firstBy Launch.dueAt due with
  | none => none
  | some f => firstBy Launch.at_ (due.filter (fun l => l.dueAt == f.dueAt && l.domB == f.domB))

/-- GANG_LAUNCH_DUE (R419, R420). -/
def execGangLaunchDue (s : State) : Host.Outcome State Fault Refusal :=
  match nextLaunch s with
  | none => ok s
  | some l => ok (startLaunch l true { s with tim := { s.tim with launches := s.tim.launches.filter (fun m => m.cmd != l.cmd) } })

/-- GANG_FRAME_SENT: the oldest launched frame has ended, its instants at the balls arrive, and its command completes
(R403, R420, Table 11-5). -/
def execGangFrameSent (stamp0 stamp1 : Stamp) (s : State) : Host.Outcome State Fault Refusal :=
  match s.tim.sent with
  | [] => ok s
  | x :: rest =>
    let t0 := if bitAt x.ports 0 then txStamp s 0 (s.tim.a.at_ stamp0) else 0
    let t1 := if bitAt x.ports 1 then txStamp s 1 (s.tim.a.at_ stamp1) else 0
    let res := le 4 x.seq ++ le 1 (flag x.late 2 + x.ports) ++ [0, 0, 0] ++ le 8 (ringTime t0) ++ le 8 (ringTime t1) ++ le 2 (fracOf t0) ++ le 2 (fracOf t1)
    ok (flushAborts (complete x.cmd 0 res { s with tim := { s.tim with sent := rest } }))

end Sys2Proof.Machine
end

