-- ==== Sys2Proof/Machine/Observe.lean ====
section
/-! DEFINITION. Snapshots and the trace port (13): SNAPSHOT and its timed form, the counter samples of the trace, the ALIGN
blocks, LOSS records and the sending of records. -/

namespace Sys2Proof.Machine

/-! ### SNAPSHOT (R454 to R457) -/

/-- The 4,096 bytes of the bank that SNAPSHOT writes: VALUE in [47:0], OVF in [63]. -/
def snapBytes (o : Obs) : List Byte :=
  (List.range 512).flatMap (fun i => le 8 (tget o.snapCnt i 0 + flag (decide (i ∈ o.snapOvf)) 63))

/-- The result (Table 13-3). -/
def snapResult (o : Obs) (late : Bool) : List Byte :=
  le 4 o.snapSeq ++ le 4 o.snapSlot ++ le 8 o.snapTime ++ le 2 o.snapOvf.length ++ le 1 (flag late 0)

/-- The command captures the bank, writes it where DMA asks, and completes; with LOCK set it captures nothing. -/
def snapCommand (id : Nat) (late : Bool) (dma : Option Nat) (s : State) : State :=
  if snapLocked s then complete id 0x41 [] s
  else
    let s1 := takeSnap s
    let s2 := match dma with
      | some a => emit (.hostWrite a (snapBytes s1.obs)) s1
      | none => s1
    complete id 0 (snapResult s1.obs late) s2

/-- VALUE (Table 13-4): a time field, `dst_addr` or a reserved field of the parameters. -/
def snapValue (c : Cmd) : Bool :=
  decide (c.p 0 1 ≥ 8) || c.p 1 7 != 0 || decide (c.p 0x10 4 ≥ 1000000000) || c.p 0x14 4 != 0 ||
  (bitAt (c.p 0 1) 2 && c.p 0x18 8 % 64 != 0) || c.tailBad 0x20

/-- SNAPSHOT (R457). -/
def execSnapshot (id : Nat) (s : State) : Host.Outcome State Fault Refusal :=
  match cmdOp s id 0x0E with
  | none => ok s
  | some c =>
    let dma : Option Nat := if bitAt (c.p 0 1) 2 then some (c.p 0x18 8) else none
    let domB := bitAt (c.p 0 1) 1
    let t := timeOf (c.p 8 8) (c.p 0x10 4)
    if c.headBad then ok (complete id 2 [] s)
    else if snapValue c then ok (complete id 0x40 [] s)
    else if ¬ bitAt (c.p 0 1) 0 then ok (snapCommand id false dma s)
    else if s.obs.timed.isSome then ok (complete id 0x42 [] s)
    else ok (cmdRun id { s with obs := { s.obs with
        timed := some { cmd := id, domB := domB, at_ := t, late := decide (t < (domGet s domB).t), due := false, dma := dma } } })

/-- SNAPSHOT_DUE: the timed snapshot that a tick made due is captured (R457). -/
def execSnapshotDue (s : State) : Host.Outcome State Fault Refusal :=
  match s.obs.timed with
  | none => ok s
  | some m => if m.due then ok (snapCommand m.cmd m.late m.dma { s with obs := { s.obs with timed := none } }) else ok s

/-! ### The trace port (R458 to R461) -/

/-- TRACE_COUNTER_PERIOD: a COUNTER record for each counter with STREAM (R460). -/
def execTraceCounterPeriod (s : State) : Host.Outcome State Fault Refusal :=
  if trcOn s ∧ bitAt (trcCtrl s) 0 then
    ok ((List.range 512).foldl (fun s i =>
      if bitAt (regGet s (0x181000 + 0x10 * i)) 30 then trcPush 2 (le 2 i ++ le 6 (tget s.obs.cnt i 0)) s else s) s)
  else ok s

/-- `seq` of the next record that a lane sends (R458, R459). -/
def laneSeq (s : State) (lane : Nat) : Nat := (s.obs.trSeq + (lane + 4 - s.obs.trSeq % 4) % 4) % 65536

/-- TRACE_ALIGN: all four lanes send ALIGN (R458). -/
def execTraceAlign (s : State) : Host.Outcome State Fault Refusal :=
  if s.glb.clocksOk then ok (emitAll ((List.range 4).map (fun l => .traceAlign l (laneSeq s l))) s) else ok s

/-- TRACE_LOSS: a LOSS record once the queue has room for two (R461). -/
def execTraceLoss (s : State) : Host.Outcome State Fault Refusal :=
  if trcOn s ∧ s.obs.trLostSince > 0 ∧ s.obs.trq.length + 2 ≤ 4096 then
    ok (trcPush 4 (le 4 (sat32 s.obs.trLostSince)) { s with obs := { s.obs with trLostSince := 0 } })
  else ok s

/-- TRACE_RECORD_SENT: the record at the head of the queue is sent on its lane (R459, Table 13-5). -/
def execTraceRecordSent (s : State) : Host.Outcome State Fault Refusal :=
  match s.obs.trq with
  | [] => ok s
  | (kind, t, body) :: rest =>
    if ¬ trcOn s then ok s
    else
      let q := s.obs.trSeq
      ok (emit (.traceRecord (q % 4) (le 1 kind ++ le 1 0 ++ le 2 q ++ le 4 t ++ body))
        { s with obs := { s.obs with trq := rest, trSeq := (q + 1) % 65536, trSent := (s.obs.trSent + 1) % 2 ^ 48 } })

end Sys2Proof.Machine
end

