-- ==== Sys2Proof/Machine/Bringup.lean ====
section
/-! DEFINITION. Power, reset and start-up (14, R463 to R473, R478, R479), and the resets of the host interface (R363,
R467, R505 to R507). -/

namespace Sys2Proof.Machine

/-! ### Resets -/

/-- What the granary holds under every reset (R505); a word whose write has started completes (R424). -/
def granaryKept (s : State) : Grn :=
  let s1 := s.grn.writing.foldl (fun s x => match x.item with
    | some (item, e, _) => ringStore item e x.value s
    | none => grnStore x.word x.value s) s
  { words := s1.grn.words, ones := s1.grn.ones, rings := s1.grn.rings }

/-- Every state but what R465 and R505 keep. `pcie`: the PCIe link, the configuration space and BAR2 stay. (DEDUCED, log 88.) -/
def resetAll (cause : Nat) (pcie : Bool) (s : State) : State :=
  { pending := s.pending, outs := s.outs, free := s.free,
    pins := { powered := s.pins.powered, perstN := s.pins.perstN, pfwN := s.pins.pfwN },
    glb := { cause := cause, warmCount := min 255 (s.glb.warmCount + 1) },
    hst := if pcie then { linkUp := s.hst.linkUp, rate := s.hst.rate, width := s.hst.width, mps := s.hst.mps, mrrs := s.hst.mrrs,
                          bar0 := s.hst.bar0, bar2Base := s.hst.bar2Base, msixEn := s.hst.msixEn, msixMask := s.hst.msixMask,
                          d3hot := s.hst.d3hot, unmasked := s.hst.unmasked, bar2 := s.hst.bar2, pba := s.hst.pba } else {},
    grn := granaryKept s, slo := { s.slo with missed := 0 }, store := s.store }

/-- The rise of SYS_RST_N: start-up begins (R464, R468, R469). -/
def beginStartup (s : State) : State :=
  { s with
    pins := { s.pins with sysRstN := true, twinLiveO := true }, glb := { s.glb with phase := .clocks }, grn := { s.grn with startHold := !s.pins.pfwN } }

/-- A write of the key to GLB_RESET (R507): the pulse and its rise, 1 µs later (DESIGN CHOICE, log 7). -/
def glbResetOp (v : Nat) (s : State) : State := if v = 0x52534554 then beginStartup (resetAll 3 true s) else s

/-- POWER_ON (R463, R505). -/
def execPowerOn (s : State) : Host.Outcome State Fault Refusal :=
  ok { resetAll 1 false s with
    pins := { powered := true, perstN := s.pins.perstN, pfwN := s.pins.pfwN }, glb := {}, slo := {}, store := {} }

/-- SYS_RST_N_FALL (R464 to R466). -/
def execSysRstNFall (s : State) : Host.Outcome State Fault Refusal :=
  if s.pins.powered ∧ s.pins.sysRstN then ok (resetAll 2 false s) else ok s

/-- SYS_RST_N_RISE (R464). -/
def execSysRstNRise (s : State) : Host.Outcome State Fault Refusal :=
  if s.pins.powered ∧ ¬ s.pins.sysRstN then ok (beginStartup s) else ok s

/-! ### Start-up (R469 to R473) -/

/-- CLOCKS_LOCKED: step 1 ends. -/
def execClocksLocked (s : State) : Host.Outcome State Fault Refusal :=
  if s.glb.phase = .clocks then ok { s with glb := { s.glb with phase := .selftest, clocksOk := true } } else ok s

/-- The failure of one unit (Table 14-2): its event, and its retirement. Which algorithms a failing CHK unit computed
wrongly is free (DESIGN CHOICE, log 4). -/
def selftestFail (f : SelfTestFail) (s : State) : State :=
  let ev (kind index cause : Nat) (s : State) : State := raiseItems 0x0002 4 [(1, kind), (2, index), (1, cause)] s
  match f with
  | .sram i noSpare => ev 1 i.toNat (if noSpare then 2 else 1) s
  | .thresher t => retireThresher t 3 (ev 2 t 1 s)
  | .ingest u =>
    let s1 := ev 3 u 1 s
    if s1.units.ingOut.contains u.val then s1
    else raiseItems 0x0302 4 [(1, u), (1, 1)] { s1 with units := { s1.units with ingOut := natInsert u s1.units.ingOut } }
  | .dose => ev 4 0 1 s
  | .chk u => let (f, s1) := drawFree s
    ev 5 u 1 { s1 with chk := { s1.chk with good := s1.chk.good - 16 ^ u.val * (1 + f.toNat % 15) } }

/-- The unit of a failure that ends in FATAL. -/
def selftestFatal : SelfTestFail → Option Nat
  | .sram i _ => some (i.toNat % 256)
  | .thresher _ | .ingest _ => none
  | .dose => some 0
  | .chk u => some u

/-- SELFTEST_DONE (R472, R473): steps 3 and 4 begin, or FATAL; then THR_STATUS.READY stays 0 (DESIGN CHOICE, log 102). -/
def execSelftestDone (fails : List SelfTestFail) (s : State) : Host.Outcome State Fault Refusal :=
  if s.glb.phase ≠ .selftest then ok s
  else
    let s1 := fails.foldl (fun s f => selftestFail f s) { s with chk := { s.chk with good := 0xFFFF } }
    match fails.findSome? selftestFatal with
    | some u => ok (goFatal 1 u 7 s1)
    | none => ok ((List.range 12).foldl (fun s c => lftSet s c { state := .training })
        { s1 with glb := { s1.glb with phase := .loading, selftestOk := true }, units := { s1.units with thrReady := true } })

/-- The unreadable words of a load (R434, Table 12-11). (DESIGN CHOICE, log 8.) (DEDUCED, log 86.) -/
def noteUnreadable (w : Nat) (s : State) : State :=
  let s1 := { s with grn := { s.grn with readUe := true, failAddr := w } }
  if healthBase ≤ w ∧ w < 66048 then
    let (area, s2) := drawFree s1
    raiseItems 0x1602 4 [(4, w), (1, area.toNat % 256)] { s2 with grn := { s2.grn with tableUe := true } }
  else s1

/-- The beam table copy and its journal (R152, R155, R434). -/
def loadDose (s : State) : State :=
  let (k, f, n) := (openJournal s).getD (0, 0, 0)
  let s1 := setDirty { s with dos := { s.dos with ready := true, cur := loadTable s, jKind := k, jFirst := f, jCount := n } }
  if s1.dos.dirty then raiseDirty s1 else s1

/-- Step 8: the calibration record is applied (R230). -/
def loadCoefs (s : State) : State :=
  let gen := ((newestCopy s 2).1.map (fun q => q.2.1)).getD 0
  (List.range 4).foldl (fun s n => encSet s n { encGet s n with coef := storedCoef s n, calGen := gen }) { s with glb := { s.glb with encOk := true } }

/-- The wear counters take the values of their record (R435). -/
def loadWear (s : State) : State := match (newestCopy s 3).1 with
  | some (_, _, p) => { s with grn := { s.grn with wear := (p.take 256).zipIdx.foldl (fun t (v, i) => tset t i v 0) [] } }
  | none => s

/-- Steps 5 to 7 may begin: the lanes and the Dexpin link (Table 14-1). -/
def startLinks (s : State) : State :=
  let s1 := { s with glb := { s.glb with lanesStarted := true }, pins := { s.pins with idle := false } }
  if bitAt (regGet s1 0x120000) 0 then dxpPreset s1 else s1

/-- GRANARY_LOAD_DONE: step 3 ends (R433, R434). -/
def execGranaryLoadDone (unreadable : List Nat) (s : State) : Host.Outcome State Fault Refusal :=
  if s.glb.phase ≠ .loading ∨ s.grn.loaded then ok s
  else
    let s1 := loadWear (loadRings { s with grn := { s.grn with loaded := true, badWords := unreadable } })
    let s2 := loadCoefs (loadDose (unreadable.foldl (fun s w => noteUnreadable w s) s1))
    let s3 := startLinks s2
    ok { s3 with glb := { s3.glb with phase := if s3.lft.trained ∧ numCh s3 = 0 then .noLoft else s3.glb.phase } }

/-- The device is ready (R470). -/
def startupReady (s : State) : Bool :=
  decide (s.glb.phase = .loading) && s.glb.clocksOk && s.glb.selftestOk && s.grn.loaded && s.dos.ready && s.lft.trained && s.lft.ready &&
  s.units.thrReady && s.glb.encOk

/-- STARTUP_DONE (R470). -/
def execStartupDone (us : W32) (s : State) : Host.Outcome State Fault Refusal :=
  if ¬ startupReady s then ok s
  else ok (raiseItems 0x0001 0 [(4, us.toNat), (1, numCh s), (1, numThr s)]
    { s with glb := { s.glb with phase := .ready, startupUs := us }, pins := { s.pins with devReady := true } })

/-! ### FATAL causes and the die temperature (R478, R479) -/

/-- The device runs: it is out of reset. -/
def running (s : State) : Bool := decide (s.glb.phase ≠ .reset)

/-- PLL_LOCK_LOSS, or a PLL that does not lock (R479, Table 14-1). -/
def execPllLockLoss (unit : Byte) (hkRuns : Bool) (s : State) : Host.Outcome State Fault Refusal :=
  if running s then ok (fatalBy hkRuns 2 unit.toNat 7 s) else ok s

/-- SUPPLY_FAULT (R479): while PFW_N is high. No granary word starts any more until a reset (R424; DESIGN CHOICE, log 112). -/
def execSupplyFault (unit : Byte) (hkRuns : Bool) (s : State) : Host.Outcome State Fault Refusal :=
  if running s ∧ s.pins.pfwN then ok (fatalBy hkRuns 3 unit.toNat 7 { s with grn := { s.grn with supplyOut := true } }) else ok s

/-- WATCHDOG_EXPIRY (R479). -/
def execWatchdogExpiry (unit : Byte) (s : State) : Host.Outcome State Fault Refusal :=
  if running s then ok (goFatal 5 unit.toNat 7 s) else ok s

/-- DIE_TEMP_READ (R478, Table 15-14). -/
def execDieTempRead (t : BitVec 16) (s : State) : Host.Outcome State Fault Refusal :=
  if ¬ running s then ok s
  else
    let v := t.toInt
    let rise := decide (v ≥ 1680) && !s.glb.dieHot
    let hot := if v ≥ 1680 then true else if v ≤ 1600 then false else s.glb.dieHot
    let s1 := { s with glb := { s.glb with dieTemp := t, dieMax := if v > s.glb.dieMax.toInt then t else s.glb.dieMax, dieHot := hot } }
    let s2 := if rise then raiseItems 0x0004 1 [(2, t.toNat)] s1 else s1
    ok (if v ≥ 1920 then goFatal 4 0 7 s2 else s2)

/-! ### The host interface alone (R363, R467, R506) -/

/-- The read was issued for a chain. -/
def forChain : ReadFor → Bool
  | .chain _ => true
  | _ => false

/-- The host block as after reset, but for its link, the commands in progress and the next command's number. -/
def hostFresh (s : State) : State :=
  { s with
    hst := { linkUp := s.hst.linkUp, rate := s.hst.rate, width := s.hst.width, inflight := s.hst.inflight, nextId := s.hst.nextId },
    chains := [], regs := s.regs.filter (fun p => p.1 / 65536 != 1), halves := s.halves.filter (fun p => p.1 / 65536 != 1),
    latch := s.latch.filter (fun p => p.1 / 65536 != 1),
    lft := { s.lft with waits := s.lft.waits.map (fun w => if w.owner.isSome then { w with owner := none } else w) } }

/-- R506. The chains end; what has arrived of a burst still enters the loft, and belongs to no chain any more. A SHEAF_LOAD that owns a
chain completes with TRANSFER and ABORTED; commands in progress run on. (DEDUCED, log 87.) -/
def hostReset (s : State) : State :=
  let owners := (List.range 16).filterMap (fun c => (chainGet s c).owner.map (fun id => (c, id)))
  owners.foldl (fun t p => complete p.2 0x41 (sheafResult (chainGet s p.1) 0 0 0 0x16) t) (dropReads forChain (hostFresh s))

/-- The reset and EV_HOST_LINK_DOWN (R363): the link goes down, or a function-level reset keeps its max payload size. (PRESUMED, log 100.) -/
def linkReset (cause : Nat) (down : Bool) (s : State) : State :=
  let s1 := hostReset s
  let s2 := { s1 with hst := if down then { s1.hst with linkUp := false, rate := 0, width := 0 } else { s1.hst with mps := s.hst.mps } }
  if running s2 then raiseItems 0x0101 4 [(1, cause)] { s2 with hst := { s2.hst with linkDownSeen := true } } else s2

/-- PCIE_LINK_RESET: link-down, hot reset, function-level reset (R363). -/
def execPcieLinkReset (cause : Fin 3) (s : State) : Host.Outcome State Fault Refusal :=
  if s.hst.linkUp then ok (linkReset (cause + 1) (decide (cause.val < 2)) s) else ok s

/-- PCIE_PERST_N (R467, R506). -/
def execPciePerstN (high : Bool) (s : State) : Host.Outcome State Fault Refusal :=
  if high then ok { s with pins := { s.pins with perstN := true } }
  else if s.pins.perstN then ok (linkReset 4 true { s with pins := { s.pins with perstN := false } })
  else ok s

/-- PCIE_LINK_UP (R359, R467): the link has trained and the root complex has written configuration space. (PRESUMED, log 100.) -/
def execPcieLinkUp (rate : Fin 6) (width : Fin 17) (mps : Fin 8) (conf : PcieConf) (s : State) : Host.Outcome State Fault Refusal :=
  if s.pins.perstN ∧ s.pins.sysRstN then
    let h := { s.hst with linkUp := true, rate := rate, width := width, mps := mps, mrrs := conf.mrrs,
                          bar0 := conf.bar0.toNat / 2 ^ 24 * 2 ^ 24, bar2Base := conf.bar2.toNat / 8192 * 8192,
                          msixEn := conf.msixEn, msixMask := conf.msixMask, d3hot := conf.d3hot }
    let s1 := { s with hst := { h with pba := h.pba.filter (fun v => !vecOpen { s with hst := h } v) } }
    ok ((h.pba.filter (vecOpen { s with hst := h })).foldl (fun s v => emit (.msix v) s) s1)
  else ok s

end Sys2Proof.Machine
end

