-- ==== Sys2Proof/Machine/Show.lean ====
section
/-! DEFINITION. What every BAR0 register shows (Tables 3-1 to 15-17 of the register maps): `regShow` answers the value of
an aligned offset, or none where no chapter defines the offset (R492, R503). Side effects of reads stand in Regs. -/

namespace Sys2Proof.Machine

/-- The bit of each index below n that `p` holds for. -/
def bitsOf (n : Nat) (p : Nat → Bool) : Nat := ((List.range n).map (fun i => flag (p i) i)).sum

def lo32 (v : Nat) : Nat := v % 2 ^ 32
def hi32 (v : Nat) : Nat := v / 2 ^ 32 % 2 ^ 32

/-- A register that holds what software wrote. -/
def stored (s : State) (off : Nat) : Option Nat := (rwInfo off).map (fun _ => regGet s off)

/-! ### GLB (R509 to R511) -/

def Phase.code : Phase → Nat
  | .reset => 0 | .clocks => 1 | .selftest => 2 | .loading => 3 | .ready => 4 | .noLoft => 5 | .fatal => 6

/-- A W1C field of the block reads 1 (R511). -/
def blockPending (s : State) (n : Nat) : Bool :=
  if n = 0 then s.glb.early || s.glb.range || s.glb.badAccess
  else if n = 1 then s.hst.linkDownSeen || s.hst.evLost || s.hst.evDrop
  else if n = 7 then s.enc.ch.any (fun p => p.2.loadRefused || p.2.overspeed || p.2.signal || p.2.adcSat) ||
    s.enc.cmp.any (fun p => p.2.late || p.2.fired)
  else if n = 0x10 then s.swl.lanes.any (fun p => p.2.loopRefused || p.2.tapTimeout || p.2.downSeen) || s.swl.ret.any (fun p => p.2.lostSeen)
  else if n = 0x12 then s.twn.diverge || s.twn.tableSplit || s.twn.splitSeen
  else if n = 0x13 then s.lft.mapUe || s.lft.invalRefused || s.lft.wFired || s.lft.ch.any (fun p => p.2.sensorFail || p.2.overtemp)
  else if n = 0x15 then s.tim.a.refused || s.tim.a.incrRange || s.tim.b.refused || s.tim.b.incrRange || s.tim.swDone || s.tim.swRefused ||
    s.tim.ports.any (fun p => p.2.downSeen)
  else if n = 0x16 then s.grn.pfwDone || s.grn.wipeRefused || s.grn.tableUe || s.grn.readUe || s.grn.writeFail
  else if n = 0x18 then s.obs.lossSeen
  else false

def showGlb (s : State) (o : Nat) : Option Nat :=
  if o = 0x00 then some 0x2604B000 else if o = 0x04 then some 0x00010000
  else if o = 0x08 then some (lo32 Config.serial.toNat) else if o = 0x0C then some (hi32 Config.serial.toNat)
  else if o = 0x10 then some 0x8020800C else if o = 0x14 then some 0x48244200
  else if o = 0x18 then some 0x4004208F else if o = 0x1C then some 0x17700400
  else if o = 0x20 then
    some (flag s.glb.early 15 + flag s.glb.range 14 + flag s.glb.badAccess 13 + s.glb.fatalCause * 256 + flag s.glb.fatal 5 +
      flag s.pins.devReady 4 + s.glb.phase.code)
  else if o = 0x28 then some 0
  else if o = 0x2C then some (s.glb.warmCount * 256 + s.glb.cause)
  else if o = 0x30 then some (s.glb.badKind * 2 ^ 28 + s.glb.badOffset)
  else if o = 0x34 then some (s.glb.dieMax.toNat * 65536 + s.glb.dieTemp.toNat)
  else if o = 0x38 then some s.glb.startupUs.toNat
  else if o = 0x40 then some (bitsOf 25 (blockPending s))
  else if o = 0x44 then some (s.glb.faultCode * 65536 + s.glb.faultClass)
  else if o = 0x48 then some s.glb.faultSeq
  else if 0x50 ≤ o ∧ o < 0x68 then some (tget s.glb.classCounts ((o - 0x50) / 4) 0)
  else if o = 0x80 then some 0
  else stored s o

/-! ### HST and CHK (R397) -/

def ChState.code : ChState → Nat
  | .idle => 0 | .run => 1 | .wait => 2 | .stopped => 3

/-- No ring, doorbell or descriptor access is outstanding while EN is clear. -/
def quiesced (s : State) : Bool :=
  !hstEn s && !s.hst.pollOut && decide (s.hst.fetchLen = 0) && !(s.chains.any (fun p => p.2.reading || p.2.rereading))

def showChain (s : State) (c r off : Nat) : Option Nat :=
  let x := chainGet s c
  if r = 4 then some (x.last * 65536 + flag x.owner.isSome 2 + x.state.code)
  else if r = 0x10 then some (lo32 x.cur) else if r = 0x14 then some (hi32 x.cur)
  else if r = 0x18 then some (lo32 x.bytes) else if r = 0x1C then some (hi32 x.bytes)
  else if r = 0x20 then some (lo32 (crcFinish (chAlgo s c) x.crc)) else if r = 0x24 then some (hi32 (crcFinish (chAlgo s c) x.crc))
  else stored s off

def showHst (s : State) (o : Nat) : Option Nat :=
  if o = 0x04 then some (flag s.hst.linkDownSeen 4 + flag s.hst.evLost 3 + flag s.hst.evDrop 2 + flag (quiesced s) 1 + flag (hstEn s && s.hst.polled) 0)
  else if o = 0x30 then some (s.hst.head % 65536)
  else if o = 0x34 then some (flag s.hst.cyclePhase 16 + s.hst.tail % 65536)
  else if o = 0x38 then some s.hst.inflight.length
  else if o = 0x3C then some s.hst.dropRc else if o = 0x40 then some s.hst.lostRc
  else if o = 0x44 then some s.hst.hold.length
  else if o = 0x48 then some (s.hst.mrrs * 65536 + s.hst.mps * 4096 + s.hst.width * 16 + s.hst.rate)
  else if 0x1000 ≤ o ∧ o < 0x1400 then showChain s ((o - 0x1000) / 0x40) (o % 0x40) (0x10000 + o)
  else stored s (0x10000 + o)

def showChk (s : State) (o : Nat) : Option Nat :=
  if o = 0 then some s.chk.good
  else if 0x10 ≤ o ∧ o < 0x50 then
    let q := tfind s.chk.scans ((o - 0x10) / 0x10)
    if o % 0x10 = 0 then some ((q.map (fun x => 2 ^ 31 + x.owner * 2 ^ 28 + x.tag)).getD 0)
    else if o % 0x10 = 4 then some ((q.map (fun x => lo32 x.bytes)).getD 0)
    else if o % 0x10 = 8 then some ((q.map (fun x => bits x.bytes 47 32)).getD 0)
    else none
  else none

/-! ### THR, DOS, PAC (03, 04, 05) -/

def showThr (s : State) (o : Nat) : Option Nat :=
  if o = 0 then some (numThr s * 256 + flag s.units.thrReady 0)
  else if 0x10 ≤ o ∧ o < 0x20 then some (bitsOf 32 (fun i => !s.units.thrOut.contains (8 * (o - 0x10) + i)))
  else if o = 0x20 then some (s.units.thrLastCause * 4096 + s.units.thrLastUnit)
  else if o = 0x30 then some 0
  else none

/-- Beams with a health value in the table in use. -/
def healthCount (s : State) (v : Nat) : Nat := (s.dos.cur.health.filter (fun p => decide (p.2 = v))).length

def showDos (s : State) (o : Nat) : Option Nat :=
  let (k, f, n) := journalShown s
  if o = 0 then some (flag s.dos.waiting.isSome 2 + flag s.dos.dirty 1 + flag s.dos.ready 0)
  else if o = 0x04 then some s.dos.gen
  else if o = 0x08 then some (healthCount s 1) else if o = 0x0C then some (healthCount s 2)
  else if o = 0x10 then some k else if o = 0x14 then some f else if o = 0x18 then some n
  else if o = 0x1C then some ((s.dos.prev.map Prod.fst).getD max32)
  else if o = 0x20 then some (lo32 s.dos.shortPp) else if o = 0x24 then some (hi32 s.dos.shortPp)
  else none

/-- BW_g of the held or running stripe. -/
def shownBwg (s : State) : Nat := match s.pac.stripe with
  | some st => st.plan.bwg
  | none => match s.pac.adm with
    | some a => if a.phase = .held then a.plan.bwg else 0
    | none => 0

/-- `admit_id` of the held or running stripe. -/
def shownAdmit (s : State) : Nat := match s.pac.stripe with
  | some st => st.id
  | none => (s.pac.adm.map Admission.id).getD 0

def showPac (s : State) (o : Nat) : Option Nat :=
  if o = 0x04 then some (flag s.pac.overspeed 9 + flag s.pac.overrun 8 + pacState s)
  else if o = 0x2C then some (shownBwg s)
  else if o = 0x30 then some ((s.pac.stripe.bind (fun st => st.lastSlot)).getD 0 / 1024 % 8192)
  else if o = 0x34 then some s.pac.abortSlot
  else if o = 0x38 then some s.pac.seq
  else if o = 0x3C then some (shownAdmit s)
  else stored s (0x60000 + o)

/-! ### ENC (R233) -/

def showCh (s : State) (n r : Nat) : Option Nat :=
  let x := encGet s n
  let half (lo hi : Int) : Nat := unsigned 16 hi * 65536 + unsigned 16 lo
  if r = 0x04 then some (flag x.loadRefused 7 + flag x.overspeed 6 + flag x.signal 5 + flag x.adcSat 4 + flag x.slew.isSome 1 + flag x.posValid 0)
  else if r = 0x08 then some (lo32 x.pos) else if r = 0x0C then some (hi32 x.pos)
  else if r = 0x10 then some (lo32 (speedNow s n))
  else if r = 0x14 then some (flag x.spdValid 31 + flag x.spdDown 30 + flag x.still 29 + bits (speedNow s n) 39 32)
  else if r = 0x20 then some (half x.coef.oc x.coef.os) else if r = 0x24 then some (half x.coef.gc x.coef.gs)
  else if r = 0x28 then some (half x.coef.pa x.coef.pb)
  else if r = 0x2C then some (x.radius % 65536)
  else if r = 0x30 then some x.calCount
  else if r = 0x34 then some (lo32 x.calSec) else if r = 0x38 then some (hi32 x.calSec) else if r = 0x3C then some x.calNs
  else if r = 0x40 then some (calCtrl s n + x.calLast * 4096)
  else if r = 0x44 then some x.calGen
  else stored s (encOff n r)

def showCmp (s : State) (k r : Nat) : Option Nat :=
  let x := cmpGet s k
  if r = 0 then some (flag x.armed 31 + cmpCtrl s k)
  else if r = 4 then some (flag x.late 1 + flag x.fired 0)
  else if r = 0x10 then some (lo32 x.sec) else if r = 0x14 then some (hi32 x.sec) else if r = 0x18 then some x.ns
  else stored s (0x70500 + 0x20 * k + r)

/-- ENC_TRIG_STATUS: the slot of the current target, or of the last one. -/
def trigStatus (s : State) : Nat := match s.pac.stripe with
  | some st => if st.trigArmed then 2 ^ 31 + flag s.enc.trigDone 30 + st.nextSlot else flag s.enc.trigDone 30 + s.enc.trigSlot
  | none => flag s.enc.trigDone 30 + s.enc.trigSlot

def showEnc (s : State) (o : Nat) : Option Nat :=
  if o < 0x400 then showCh s (o / 0x100) (o % 0x100)
  else if o = 0x408 then some (trigStatus s)
  else if o = 0x40C then some (lo32 s.enc.tgt) else if o = 0x410 then some (hi32 s.enc.tgt)
  else if o = 0x414 then some (sat32 s.enc.late)
  else if 0x500 ≤ o ∧ o < 0x580 then showCmp s ((o - 0x500) / 0x20) (o % 0x20)
  else stored s (0x70000 + o)

/-! ### SWL (R278) -/

def LaneState.code : LaneState → Nat
  | .disabled => 0 | .preset => 1 | .tap => 2 | .align => 3 | .active => 4 | .loopback => 5 | .pllWait => 6

/-- Lost or unconfirmed frames of a lane in the running or last stripe, with those that wait to be drained. -/
def fateCount (s : State) (l : Nat) (f : FrameFate) : Nat := match s.pac.acct with
  | none => 0
  | some a =>
    let x := laneAcc a l
    sat32 ((if f = .lost then x.lost else x.unconf) + (x.frames.filter (fun q => q.2.1 == f)).length)

def showLane (s : State) (l r : Nat) : Option Nat :=
  let x := laneGet s l
  if r = 0x04 then some (flag x.loopRefused 11 + flag x.tapTimeout 10 + flag x.noPartner 9 + flag x.downSeen 8 + x.state.code)
  else if r = 0x08 then some (lTaps s l).word
  else if r = 0x10 then some x.aliveSent
  else if r = 0x14 then some (fateCount s l .lost) else if r = 0x18 then some (fateCount s l .unconfirmed)
  else if r = 0x1C then some (x.downCause * 2 ^ 29 + x.downSlot)
  else if r = 0x20 then some x.trains
  else if r = 0x24 then some x.lbErr else if r = 0x28 then some x.lbWords
  else if r = 0x2C then some (x.rx * 2 ^ 30 + x.crcErr) else if r = 0x30 then some x.high
  else if r < 0x34 then stored s (swlOff l r)
  else none

def showRet (s : State) (k r : Nat) : Option Nat :=
  let x := retGet s k
  if r = 0 then some (flag x.lostSeen 2 + flag x.sync 0)
  else if r = 4 then some x.crcErr else if r = 8 then some x.msgs
  else none

def showSwl (s : State) (o : Nat) : Option Nat :=
  if 0x208 ≤ o ∧ o < 0x218 then some (bitsOf 32 (fun i => decide ((laneGet s (8 * (o - 0x208) + i)).state = .active)))
  else if o = 0x218 then some (bitsOf 32 (fun q => s.swl.pll.contains q))
  else if o = 0x21C then some s.swl.amSeq
  else if o = 0x220 then some s.swl.stgCe
  else if 0x300 ≤ o ∧ o < 0x400 then showRet s ((o - 0x300) / 0x20) (o % 0x20)
  else if o = 0x200 ∨ o = 0x204 then stored s (0x100000 + o)
  else showLane s (o / 0x400) (o % 0x400)

/-! ### TWN (08) -/

/-- State of a Dexpin lane (TWN_LANES). -/
def dxpLaneCode (s : State) (k : Nat) : Nat :=
  if s.twn.link = .up ∨ s.twn.link = .align then 3 else if ¬ (dxpGet s k).seen then 0 else min 2 (max 1 (dxpGet s k).own)

def twnStatus (s : State) : Nat :=
  linkCode s.twn.link * 4096 + flag s.twn.diverge 11 + flag s.twn.tableSplit 10 + flag s.twn.splitSeen 9 + flag s.twn.noPartner 8 +
  flag s.twn.partnerLive 7 + flag (paceMaster s) 4 + flag s.twn.sideB 3 + flag (roleNow s) 2 + flag s.twn.paired 1

def showTwn (s : State) (o : Nat) : Option Nat :=
  if o = 0x04 then some (twnStatus s)
  else if o = 0x08 then some (lo32 s.twn.partnerSn) else if o = 0x0C then some (hi32 s.twn.partnerSn)
  else if o = 0x1C then some s.twn.rtt
  else if o = 0x20 then some s.twn.recomp else if o = 0x24 then some s.twn.fail else if o = 0x28 then some s.twn.lastFail
  else if o = 0x2C then some s.twn.msgErr
  else if o = 0x30 then some (lo32 (tableDigest s.dos.cur)) else if o = 0x34 then some (hi32 (tableDigest s.dos.cur))
  else if o = 0x38 then some (cfgDigest s)
  else if o = 0x3C then some ((List.range 8).map (fun k => dxpLaneCode s k * 16 ^ k)).sum
  else if o = 0x60 then some (s.twn.roleGrp % 2 ^ 20)
  else stored s (0x120000 + o)

/-! ### LFT (09) -/

def LftChState.code : LftChState → Nat
  | .absent => 0 | .training => 1 | .inService => 2 | .excluded => 3 | .retired => 4

def showLftCh (s : State) (c r : Nat) : Option Nat :=
  let x := lftGet s c
  if r = 0x00 then some (x.cause * 2 ^ 20 + flag x.sensorFail 17 + flag x.overtemp 16 + flag x.x2 15 + x.state.code)
  else if r = 0x04 then some (x.density * 65536 + x.ranks * 256 + x.dimms)
  else if r = 0x08 then some ((dimmTemp x 1).toNat * 65536 + (dimmTemp x 0).toNat)
  else if r = 0x0C then some (min 65535 x.forced * 65536 + x.owed)
  else if r = 0x10 then some x.nbr else if r = 0x14 then some x.ce else if r = 0x18 then some x.ue
  else if r = 0x1C then some x.retry else if r = 0x20 then some x.ceLast else if r = 0x24 then some 0
  else none

def showRpt (s : State) (e r : Nat) : Option Nat :=
  let x := tfind s.lft.rpt e
  let a := (x.map Rpt.addr).getD 0
  if r = 0 then some (lo32 a) else if r = 4 then some (hi32 a)
  else if r = 8 then some (match x with
    | none => 0
    | some q => 2 ^ 31 + flag q.locked 30 + q.repeats * 2 ^ 28 + q.device * 2 ^ 24 + q.channel * 2 ^ 20 + q.sc * 2 ^ 19 + q.cs * 2 ^ 17 +
        flag q.rewritten 16)
  else none

def showLft (s : State) (o : Nat) : Option Nat :=
  let l := s.lft
  if o < 0xC000 then showLftCh s (o / 0x1000) (o % 0x1000)
  else if o = 0xC004 then
    some (numCh s * 65536 + flag l.mapUe 4 + flag l.invalRefused 3 + flag (l.ch.any (fun p => p.2.x2)) 2 + flag l.trained 1 + flag l.ready 0)
  else if o = 0xC008 then some (loftCap s)
  else if o = 0xC00C then
    some (bitsOf 12 (fun c => decide ((lftGet s c).dimms > 0)) * 65536 + bitsOf 12 (fun c => decide ((lftGet s c).state = .inService)))
  else if o = 0xC018 then some l.ceCount else if o = 0xC01C then some l.ueCount
  else if o = 0xC020 then some (lo32 l.errAddr) else if o = 0xC024 then some (hi32 l.errAddr) else if o = 0xC028 then some l.errInfo
  else if o = 0xC034 then some l.fills.length
  else if o = 0xC044 then some (lo32 l.glnPos) else if o = 0xC048 then some (hi32 l.glnPos)
  else if o = 0xC04C then some (sat32 l.glnLap) else if o = 0xC050 then some l.glnLaps
  else if o = 0xC080 then some (flag l.wArmed 31 + flag l.wFired 29 + regGet s 0x13C080)
  else if o = 0xC08C then some (lo32 l.wLast) else if o = 0xC090 then some (hi32 l.wLast)
  else if 0xC200 ≤ o ∧ o < 0xC300 then showRpt s ((o - 0xC200) / 0x10) (o % 0x10)
  else if o = 0xC300 then some l.rptOvf else if o = 0xC304 then some 0
  else stored s (0x130000 + o)

/-! ### TIM (R422) -/

def showDom (s : State) (b : Bool) (r : Nat) : Option Nat :=
  let d := domGet s b
  let inc := d.incrNext.getD d.incr
  if r = 0x00 then some (lo32 (secOf d.t)) else if r = 0x04 then some (hi32 (secOf d.t))
  else if r = 0x08 then some (nsOf d.t) else if r = 0x0C then some (fracOf d.t)
  else if r = 0x10 then some (lo32 inc) else if r = 0x14 then some (hi32 inc)
  else if r = 0x2C then some 0
  else if r = 0x30 then some (flag d.incrRange 2 + flag d.refused 1 + flag d.set 0)
  else stored s (0x150000 + (if b then 0x100 else 0) + r)

def showPort (s : State) (p r : Nat) : Option Nat :=
  let x := portGet s p
  if r = 0x04 then some (flag x.downSeen 8 + flag x.lock 1 + flag x.up 0)
  else if r = 0x18 then some x.discard else if r = 0x1C then some x.badFcs else if r = 0x20 then some x.ovf
  else if r = 0x24 then some (x.rxOldest * 256 + x.rxCount)
  else if r = 0x28 then some 0
  else if r = 0x2C then some (bitsOf 16 (fun i => x.goOrder.contains i))
  else stored s (0x150400 + 0x100 * p + r)

def showTim (s : State) (o : Nat) : Option Nat :=
  if o < 0x200 then showDom s (decide (o ≥ 0x100)) (o % 0x100)
  else if o = 0x200 then some 0
  else if o = 0x204 then some (flag s.tim.swRefused 1 + flag s.tim.swDone 0)
  else if o = 0x208 then some (lo32 s.tim.swStep) else if o = 0x20C then some (hi32 s.tim.swStep)
  else if o = 0x234 then some s.tim.txSeq
  else if o = 0x238 then some s.tim.launches.length
  else if o = 0x23C then some s.tim.dup else if o = 0x240 then some s.tim.gap
  else if 0x400 ≤ o ∧ o < 0x600 then showPort s ((o - 0x400) / 0x100) (o % 0x100)
  else if o ≥ 0x4000 then some (ofLe (slotRead (portGet s ((o - 0x4000) / 0x6000)) ((o - 0x4000) % 0x6000) 4))
  else stored s (0x150000 + o)

/-! ### GRN and SLO (R442, R446, R447) -/

/-- A granary word as a raw read returns it. -/
def rawWord (s : State) (w : Nat) : Nat :=
  if w < 512 then (Config.formatWord w).toNat
  else if w < 8704 then
    match s.grn.rings.find? (fun p => decide (Config.ringBase p.1 ≤ w ∧ w < Config.ringBase p.1 + 8)) with
    | some (item, r) => r.getD (w - Config.ringBase item) erasedWord
    | none => erasedWord
  else grnWord s w

def showGrn (s : State) (o : Nat) : Option Nat :=
  let g := s.grn
  if o = 0x00 then
    some (flag g.pfwDone 6 + flag g.pfwActive 5 + flag g.wipeRefused 4 + flag g.tableUe 3 + flag g.readUe 2 + flag g.writeFail 1 + flag g.loaded 0)
  else if o = 0x04 ∨ o = 0x08 then some 0
  else if o = 0x0C then some g.queue.length
  else if o = 0x10 then some 1
  else if o = 0x14 then some g.failAddr
  else if o = 0x1C then some (lo32 (rawWord s (regGet s 0x160018))) else if o = 0x20 then some (hi32 (rawWord s (regGet s 0x160018)))
  else if o = 0x24 then some (flag g.rawUe 0)
  else if 0x400 ≤ o ∧ o < 0x800 then some (tget g.wear ((o - 0x400) / 4) 0)
  else stored s (0x160000 + o)

/-- Word k of entry i of the window (R442). -/
def windowWord (s : State) (i k : Nat) : Nat :=
  let ctl := regGet s 0x170014
  let saved (c : Option (Nat × Nat × List Nat)) : Nat := match c with
    | some (_, _, p) => let v := p.getD (1 + 4 * i + k / 2) 0
                        if k % 2 = 0 then lo32 v else hi32 v
    | none => 0
  if bits ctl 17 16 = 0 then ((tfind s.slo.entries ((ctl % 8192 + i) % 8192)).map (fun e => fld e.bytes (4 * k) 4)).getD 0
  else if bits ctl 17 16 = 1 then saved (newestCopy s 4).1
  else if bits ctl 17 16 = 2 then saved (newestCopy s 4).2
  else 0

/-- Entries in a save, and `seq` of its last entry. -/
def saveCount (p : List Nat) : Nat := (p.length - 1) / 4

def showSlo (s : State) (o : Nat) : Option Nat :=
  let save := (newestCopy s 4).1
  if o = 0x00 then some 0
  else if o = 0x04 then some (s.slo.frozenBy * 64 + flag (newestCopy s 4).2.isSome 1 + flag s.slo.frozen 0)
  else if o = 0x08 then some s.slo.head else if o = 0x0C then some s.slo.seq else if o = 0x10 then some s.slo.missed
  else if o = 0x18 then some ((save.map (fun q => q.2.1)).getD 0)
  else if o = 0x1C then some ((save.map (fun q => saveCount q.2.2)).getD 0)
  else if o = 0x20 then some ((save.map (fun q => if saveCount q.2.2 = 0 then 0 else lo32 (q.2.2.getD (4 * saveCount q.2.2 - 1) 0))).getD 0)
  else if o ≥ 0x8000 then some (windowWord s ((o - 0x8000) / 32) (o % 32 / 4))
  else stored s (0x170000 + o)

/-! ### OBS (R462) -/

def showObs (s : State) (o : Nat) : Option Nat :=
  let b := s.obs
  let hi (v : Nat) (ovf : Bool) : Nat := flag ovf 31 + bits v 47 32
  if o = 0x04 then some (flag b.timed.isSome 1 + flag b.snapValid 0)
  else if o = 0x08 then some b.snapSeq else if o = 0x0C then some b.snapSlot
  else if o = 0x10 then some (lo32 b.snapTime) else if o = 0x14 then some (hi32 b.snapTime)
  else if o = 0x18 then some b.snapMissed
  else if 0x40 ≤ o ∧ o < 0x80 then some (bitsOf 32 (fun j => b.ovf.contains (8 * (o - 0x40) + j)))
  else if o = 0x104 then some (flag b.lossSeen 16 + b.trq.length)
  else if o = 0x110 then some b.trLost
  else if o = 0x114 then some (lo32 b.trSent) else if o = 0x118 then some (hi32 b.trSent)
  else if 0x1000 ≤ o ∧ o < 0x3000 then
    let i := (o - 0x1000) / 0x10
    if o % 0x10 = 4 then some (lo32 (tget b.cnt i 0))
    else if o % 0x10 = 8 then some (hi (tget b.cnt i 0) (b.ovf.contains i))
    else stored s (0x180000 + o)
  else if 0x4000 ≤ o ∧ o < 0x5000 then
    let i := (o - 0x4000) / 8
    if o % 8 = 0 then some (lo32 (tget b.snapCnt i 0)) else some (hi (tget b.snapCnt i 0) (b.snapOvf.contains i))
  else stored s (0x180000 + o)

/-! ### Configuration space (R361, R494) -/

/-- The configuration space of the endpoint, by byte offset of a PCIe header dword: identity, BAR0 (16 MiB) and BAR2 (8 KiB), both 64-bit and
non-prefetchable, and no other BAR. No command of the table reads it: the root complex does. -/
def configHeader (s : State) (off : Nat) : Option Nat :=
  if off = 0 then some (0x2604 * 65536 + Config.vendorId.toNat)
  else if off = 8 then some (0x120000 * 256 + 0xB0)
  else if off = 0x10 then some (lo32 (s.hst.bar0 / 2 ^ 24 * 2 ^ 24) + 4) else if off = 0x14 then some (hi32 s.hst.bar0)
  else if off = 0x18 then some (lo32 (s.hst.bar2Base / 8192 * 8192) + 4) else if off = 0x1C then some (hi32 s.hst.bar2Base)
  else if off = 0x20 ∨ off = 0x24 ∨ off = 0x30 then some 0
  else if off = 0x2C then some 0
  else none

/-- Message Control of the MSI-X capability: 64 vectors, function mask, enable; its table and PBA stand in BAR2 (R493). -/
def configMsix (s : State) : List Nat := [flag s.hst.msixEn 15 + flag s.hst.msixMask 14 + 63, 2, 0x1000 + 2]

/-- PowerState of the Power Management capability: D0 or D3hot (Table 10-1). -/
def configPower (s : State) : Nat := if s.hst.d3hot then 3 else 0

/-- The number that the Device Serial Number capability returns. -/
def configSerial : BitVec 64 := Config.serial

/-! ### All of BAR0 (R492) -/

/-- The value a register shows; none for an unmapped offset. `off` is a multiple of 4 below 2²⁴. -/
def regShow (s : State) (off : Nat) : Option Nat :=
  let b := off / 65536
  let o := off % 65536
  if b = 0 then showGlb s o
  else if b = 1 then showHst s o else if b = 2 then showChk s o
  else if b = 4 then showThr s o else if b = 5 then showDos s o else if b = 6 then showPac s o
  else if b = 7 then showEnc s o
  else if b = 0x10 ∨ b = 0x11 then showSwl s (off - 0x100000)
  else if b = 0x12 then showTwn s o else if b = 0x13 then showLft s o
  else if b = 0x15 then showTim s o else if b = 0x16 then showGrn s o else if b = 0x17 then showSlo s o else if b = 0x18 then showObs s o
  else if 0x80 ≤ b ∧ b < 0x90 then some (s.dos.cur.entry s.dos.passes ((off - 0x800000) / 4))
  else none

end Sys2Proof.Machine
end

