-- ==== Sys2Proof/Machine/Regs.lean ====
section
/-! DEFINITION. Accesses to BAR0 and BAR2 (R492 to R504): what a write does under the access codes, the writes that a block's
own rules govern, persistence (R427), side effects of reads, the split of requests, and the rows for register accesses. -/

namespace Sys2Proof.Machine

/-! ### Refused and discarded accesses (R498, R503, R504) -/

/-- GLB_BAD_ADDR and the flags of GLB_STATUS. -/
def recordBad (kind off : Nat) (s : State) : State :=
  { s with glb := { s.glb with badAccess := true, badKind := kind, badOffset := off % 2 ^ 24, range := s.glb.range || kind == 5,
                               early := s.glb.early || kind == 6 || kind == 7 } }

/-- The record of a write to an RWP register (R443, Table 12-7). -/
def rwpRecord (off v req flags : Nat) (s : State) : State := siloRecord 0x1605 (le 4 off ++ le 4 v ++ le 2 req ++ le 2 flags) s

/-- PHASE is RESET, CLOCKS or SELFTEST (R504). -/
def earlyPhase (s : State) : Bool := decide (s.glb.phase = .reset ∨ s.glb.phase = .clocks ∨ s.glb.phase = .selftest)

/-! ### Values in effect (R497, R498) -/

/-- A field whose value outside its range acts as the nearer limit shows that limit. -/
def nearer (off v : Nat) : Nat :=
  if off = 0x10010 ∨ off = 0x1001C then clampN v 6 16
  else if off = 0x10028 then clampN v 25 6400
  else if off = 0x1002C then v % 65536 + max 1 (bits v 23 16) * 65536
  else if off = 0x100200 then v / 65536 * 65536 + clampN (v % 65536) 20 300
  else if off = 0x100204 ∨ off = 0x120010 then max 1 (v % 256) + clampN (v / 65536) 10 5000 * 65536
  else if off = 0x13C040 then v / 65536 * 65536 + clampN (v % 128) 1 64
  else if off = 0x150210 then clampN v 1 10000
  else if off = 0x18010C then clampN v 10 65535
  else v

/-- A value outside the range of a field without a rule of its own (R498); `v` is the masked value. (DEDUCED, log 90.) -/
def outOfRange (off v : Nat) : Bool :=
  let enc (r : Nat) : Bool := decide (0x70000 ≤ off ∧ off < 0x70400 ∧ off % 0x100 = r)
  if off = 0x60008 ∨ off = 0x6000C then decide (v < 1 ∨ v > 6000)
  else if off = 0x60010 then decide (v < 100000)
  else if off = 0x60014 then decide (v < 4000)
  else if off = 0x70428 ∨ off = 0x13C054 then v == 0
  else if off = 0x120018 then v % 65536 == 0
  else if off = 0x13C030 then v % 2 ^ 21 == 0
  else if enc 0 then decide (bits v 12 8 > 20)
  else if enc 0x40 then decide (v / 65536 < 64 ∨ v % 4 > 1)
  else false

/-- A write that the register's own chapter discards without a flag: LFT_NBR, and taps that break R264. -/
def ownDiscard (off v : Nat) : Bool :=
  if off = 0x13C010 then decide (v % 32 < 6 ∨ v % 32 > 16)
  else if (0x100000 ≤ off ∧ off < 0x120000 ∧ off % 0x400 = 0xC) ∨ (0x120040 ≤ off ∧ off < 0x120060) then !(tapsOf v).legal
  else false

/-! ### Pairs that commit (R501) -/

/-- The half that waits for a committing write: its partner's offset. (DEDUCED, log 48.) -/
def holdsHalf (off : Nat) : Bool :=
  (off ∈ [0x60018, 0x60020, 0x70400, 0x70418, 0x150228, 0x150408, 0x150508, 0x150010, 0x150110]) ||
  decide (0x70500 ≤ off ∧ off < 0x70580 ∧ off % 0x20 = 8)

/-- Take a held half, or keep the register's value. -/
def takeHalf (lo : Nat) (s : State) : State := match tfind s.halves lo with
  | some v => regSet { s with halves := tdel s.halves lo } lo (v.toNat)
  | none => s

/-! ### Persistent registers (R427, R443) -/

/-- The mask of the register's writable bits. -/
def maskOf (off : Nat) : Nat := ((rwInfo off).map Prod.fst).getD 0

/-- A limit was moved (R186): behind the stopping point of the running profile. -/
def vlimMoved (s : State) : State := match s.pac.stripe with
  | some st => if st.state.moving ∧ paceMaster s ∧ beyond (st.stopPoint st.k) (vlimHi s) then raiseOverrun (encPos s 0) (vlimHi s) s else s
  | none => s

/-- What a committed RWP write sets off in its block. -/
def rwpEffect (off was : Nat) (s : State) : State :=
  if off = 0x6001C ∨ off = 0x60024 then vlimMoved s
  else if off = 0x13C014 then predSelected was s
  else s

/-- A write to an RWP register. (DEDUCED, log 93.) -/
def rwpWrite (off v req : Nat) (s : State) : State :=
  let m := v &&& maskOf off
  if ¬ s.grn.loaded then rwpRecord off v req 4 s
  else if outOfRange off m then rwpRecord off v req 4 (recordBad 5 off s)
  else if ownDiscard off m then rwpRecord off v req 4 s
  else if holdsHalf off then rwpRecord off v req 2 { s with halves := tput s.halves off (BitVec.ofNat 32 m) }
  else
    let old := itemValue s off
    let was := regGet s off
    let s1 := regSet (if itemPair off then takeHalf (off - 4) s else s) off m
    if itemValue s1 off = old then rwpRecord off v req 1 s1
    else rwpEffect off was (persist off req (rwpRecord off v req 0 s1))

/-! ### HST (R365, R371, R385, R397) -/

/-- HST_CTRL: EN set starts the indices at 0; cleared, fetching and polling end. -/
def hstCtrl (v : Nat) (s : State) : State :=
  let was := hstEn s
  let s1 := regSet s 0x10000 (v % 8)
  if hstEn s1 ∧ ¬ was then
    { s1 with hst := { s1.hst with head := 0, tail := 0, cyclePhase := true, polled := false, pollOut := false, fetchLen := 0, cmdTail := 0, cplHead := 0 } }
  else s1

/-- HST_CHc_CTRL: EN cleared withdraws the chain, after the burst that runs (R383, R385). -/
def chainCtrl (c v : Nat) (s : State) : State :=
  let s1 := regSet s (chBase c) (v &&& 0xFF31)
  let x := chainGet s1 c
  if chEn s1 c ∨ x.state = .idle then s1
  else if x.burst.isSome then chainSet s1 c { x with withdrawn := true }
  else withdrawChain c s1

/-- A write of HST that R397 discards. -/
def hstLocked (s : State) (off : Nat) : Bool :=
  (hstEn s && (off ∈ [0x10008, 0x1000C, 0x10010, 0x10014, 0x10018, 0x1001C, 0x10020, 0x10024])) ||
  (decide (0x11000 ≤ off ∧ off < 0x11400 ∧ (off % 0x40 = 8 ∨ off % 0x40 = 0xC)) &&
    (let x := chainGet s ((off - 0x11000) / 0x40)
     x.owner.isSome || !(x.state == .idle || x.state == .stopped)))

/-! ### ENC -/

/-- ENCn_CAL_CTRL (R227, R229). -/
def calCtrlOp (n v : Nat) (s : State) : State :=
  let s1 := regSet s (encOff n 0x40) (v &&& 0xFFFF0007)
  let x := encGet s1 n
  if v % 4 = 1 then reopen n s1
  else if x.measure.isNone then encSet s1 n { x with window := none } else s1

/-- ENCn_PRESET_HI. -/
def presetHi (n v : Nat) (s : State) : State :=
  let s1 := regSet s (encOff n 0x1C) (v % 65536)
  if bitAt v 31 then presetLoad n s1 else s1

/-- CMPk_CTRL: DISARM applies after ARM in one write (DESIGN CHOICE, log 34). -/
def cmpCtrlOp (k v : Nat) (s : State) : State :=
  let s1 := regSet s (0x70500 + 0x20 * k) (v &&& 0x38)
  let s2 := if bitAt v 31 ∧ ¬ (cmpGet s1 k).armed then cmpArmOp k s1 else s1
  if bitAt v 30 then cmpDisarmOp k s2 else s2

/-- ENC_XREF_HI commits the reference. -/
def xrefHi (v : Nat) (s : State) : State :=
  let s1 := regSet (takeHalf 0x70418 s) 0x7041C (v % 65536)
  { s1 with enc := { s1.enc with xref := regPair s1 0x70418 0x7041C } }

/-! ### TIM -/

/-- TIMd_INCR_HI commits the increment (R406). -/
def incrHi (b : Bool) (v : Nat) (s : State) : State :=
  let lo := if b then 0x150110 else 0x150010
  let d := domGet s b
  let held := ((tfind s.halves lo).map (fun x => x.toNat)).getD (lo32 (d.incrNext.getD d.incr))
  let inc := v % 256 * 2 ^ 32 + held
  let s1 := { s with halves := tdel s.halves lo }
  if inc < 0x3FEF9DB23 ∨ inc > 0x4010624DD then domSet s1 b { d with incrRange := true } else domSet s1 b { d with incrNext := some inc }

/-- TIMd_CMD (R407): the step waits for the next tick. -/
def timCmd (b : Bool) (v : Nat) (s : State) : State :=
  let base := if b then 0x150100 else 0x150000
  let d := domGet s b
  let ns := regGet s (base + 0x20)
  let adj := signed 64 (regPair s (base + 0x24) (base + 0x28)) * 65536
  if bitAt v 0 ∧ ns ≥ 1000000000 then domSet s b { d with refused := true }
  else
    let d1 := if bitAt v 0 then { d with load := some (timeOf (regPair s (base + 0x18) (base + 0x1C)) ns), adjust := none } else d
    domSet s b (if bitAt v 1 then { d1 with adjust := some (d1.adjust.getD 0 + adj) } else d1)

/-- TIM_GANG_CTRL: EN cleared completes every queued launch with GANG_OFF; EN set re-arms EV_GANG_ID_CLASH. -/
def gangCtrlOp (v : Nat) (s : State) : State :=
  let was := gangOn s
  let s1 := regSet s 0x150230 (v % 8)
  if gangOn s1 then (if was then s1 else { s1 with tim := { s1.tim with clash := false } })
  else s1.tim.launches.foldl (fun s l => complete l.cmd 0x42 [] s) { s1 with tim := { s1.tim with launches := [], aborts := [] } }

/-- TIM_Pp_RX_POP frees the oldest filled receive slot (R401). -/
def rxPop (p v : Nat) (s : State) : State :=
  let x := portGet s p
  if bitAt v 0 ∧ x.rxCount > 0 then portSet s p { x with rxCount := x.rxCount - 1, rxOldest := (x.rxOldest + 1) % 32 } else s

/-- `go` of a transmit slot follows its byte in the slot (R402). (DEDUCED, log 91.) -/
def slotGo (p i : Nat) (s : State) : State :=
  let x := portGet s p
  let go := decide (tget x.slots (txSlot i + 2) 0 = 1)
  if go ∧ ¬ x.goOrder.contains i then portSet s p { x with goOrder := x.goOrder ++ [i] }
  else if ¬ go ∧ x.goOrder.contains i then portSet s p { x with goOrder := x.goOrder.filter (fun j => j != i) }
  else s

/-- The bits of a descriptor dword that are no reserved field (Table 11-1, R17). -/
def slotMask (r : Nat) : Nat :=
  if r = 0x10 ∨ r = 0x20 then 0x3FFFFFFF else if r = 0x14 ∨ r = 0x24 then 0xFFFF else if r = 0x28 ∨ r = 0x2C then 0 else max32

/-- A write into the slots: transmit slots only (R422). -/
def slotsWrite (p o v : Nat) (s : State) : State :=
  if o < 0x4000 then s
  else slotGo p ((o - 0x4000) / 512) (portSet s p (slotWrite (portGet s p) o (le 4 (v &&& slotMask (o % 512)))))

/-! ### LFT, GRN, OBS -/

/-- LFT_CFG: FORCE_2X acts on the refresh rate of every channel at once (R328). -/
def lftCfg (v : Nat) (s : State) : State :=
  (List.range 12).foldl (fun s c => if chUp s c then rateTick c s else s) (regSet s 0x13C000 (v &&& 0x101))

/-- LFT_INVAL_CTRL: COUNT, and GO. -/
def invalCtrl (v : Nat) (s : State) : State :=
  let s1 := regSet s 0x13C030 (v % 2 ^ 21)
  if bitAt v 31 then lftInvalOp s1 else s1

/-- GRN_CTRL. -/
def grnCtrl (v req : Nat) (s : State) : State :=
  let s1 := if bitAt v 0 then wipeOp req s else s
  if bitAt v 1 then checkpointOp s1 else s1

/-- OBS_CNTi_CFG (R451). -/
def cntCfg (i v : Nat) (s : State) : State :=
  let s1 := regSet s (0x181000 + 0x10 * i) (v &&& 0x40FF00FF)
  if bitAt v 31 then { s1 with obs := { s1.obs with cnt := tdel s1.obs.cnt i, ovf := s1.obs.ovf.filter (fun j => j != i) } } else s1

/-- OBS_TRC_CTRL: EN set emits a SYNC record (R460). -/
def trcCtrlOp (v : Nat) (s : State) : State :=
  let was := trcOn s
  let s1 := regSet s 0x180100 (v &&& 0x80003F03)
  if trcOn s1 ∧ ¬ was then trcSync s1 else s1

/-! ### Flags cleared by a 1 (R497) -/

def w1cWrite (off v : Nat) (s : State) : State :=
  let keep (old : Bool) (i : Nat) : Bool := old && !bitAt v i
  let b := off / 65536
  let o := off % 65536
  if off = 0x20 then { s with glb := { s.glb with early := keep s.glb.early 15, range := keep s.glb.range 14, badAccess := keep s.glb.badAccess 13 } }
  else if off = 0x10004 then
    { s with hst := { s.hst with linkDownSeen := keep s.hst.linkDownSeen 4, evLost := keep s.hst.evLost 3, evDrop := keep s.hst.evDrop 2 } }
  else if b = 7 ∧ o < 0x400 ∧ o % 0x100 = 4 then
    let x := encGet s (o / 0x100)
    encSet s (o / 0x100) { x with loadRefused := keep x.loadRefused 7, overspeed := keep x.overspeed 6, signal := keep x.signal 5, adcSat := keep x.adcSat 4 }
  else if b = 7 ∧ 0x500 ≤ o ∧ o < 0x580 ∧ o % 0x20 = 4 then
    let k := (o - 0x500) / 0x20
    cmpSet s k { cmpGet s k with late := keep (cmpGet s k).late 1, fired := keep (cmpGet s k).fired 0 }
  else if (b = 0x10 ∨ b = 0x11) ∧ off % 0x400 = 4 then
    let l := (off - 0x100000) / 0x400
    let x := laneGet s l
    laneSet s l { x with loopRefused := keep x.loopRefused 11, tapTimeout := keep x.tapTimeout 10, downSeen := keep x.downSeen 8 }
  else if 0x100300 ≤ off ∧ off < 0x100400 ∧ off % 0x20 = 0 then
    let k := (off - 0x100300) / 0x20
    retSet s k { retGet s k with lostSeen := keep (retGet s k).lostSeen 2 }
  else if off = 0x120004 then
    { s with twn := { s.twn with diverge := keep s.twn.diverge 11, tableSplit := keep s.twn.tableSplit 10, splitSeen := keep s.twn.splitSeen 9 } }
  else if off = 0x13C004 then { s with lft := { s.lft with mapUe := keep s.lft.mapUe 4, invalRefused := keep s.lft.invalRefused 3 } }
  else if b = 0x13 ∧ o < 0xC000 ∧ o % 0x1000 = 0 then
    let x := lftGet s (o / 0x1000)
    lftSet s (o / 0x1000) { x with sensorFail := keep x.sensorFail 17, overtemp := keep x.overtemp 16 }
  else if off = 0x150030 ∨ off = 0x150130 then
    let d := domGet s (decide (off = 0x150130))
    domSet s (decide (off = 0x150130)) { d with incrRange := keep d.incrRange 2, refused := keep d.refused 1 }
  else if off = 0x150204 then { s with tim := { s.tim with swRefused := keep s.tim.swRefused 1, swDone := keep s.tim.swDone 0 } }
  else if off = 0x150404 ∨ off = 0x150504 then
    let p := (o - 0x404) / 0x100
    portSet s p { portGet s p with downSeen := keep (portGet s p).downSeen 8 }
  else if off = 0x160000 then
    { s with grn := { s.grn with pfwDone := keep s.grn.pfwDone 6, wipeRefused := keep s.grn.wipeRefused 4, tableUe := keep s.grn.tableUe 3,
                                 readUe := keep s.grn.readUe 2, writeFail := keep s.grn.writeFail 1 } }
  else if b = 0x18 ∧ 0x40 ≤ o ∧ o < 0x80 then
    { s with obs := { s.obs with ovf := s.obs.ovf.filter (fun i => !(decide (8 * (o - 0x40) ≤ i ∧ i < 8 * (o - 0x40) + 32) && bitAt v (i % 32))) } }
  else if off = 0x180104 then { s with obs := { s.obs with lossSeen := keep s.obs.lossSeen 16 } }
  else s

/-! ### One register write -/

/-- A register that its chapter gives a write rule of its own; none for the others. -/
def ownWrite (off v req : Nat) (s : State) : Option State :=
  let b := off / 65536
  let o := off % 65536
  if b = 0 then
    (if o = 0x28 then some (glbResetOp v s) else if o = 0x80 then some (if bitAt v 0 then trySnap s else s) else none)
  else if b = 1 then
    (if o = 0 then some (hstCtrl v s)
     else if hstLocked s off then some s
     else if 0x1000 ≤ o ∧ o < 0x1400 ∧ o % 0x40 = 0 then some (chainCtrl ((o - 0x1000) / 0x40) v s)
     else none)
  else if off = 0x40030 then some (thrRetireOp v s)
  else if off = 0x60000 then some (paceLinkOp (regSet s off (v % 2)))
  else if b = 7 then
    (if o < 0x400 ∧ o % 0x100 = 0 then some (encEnable (o / 0x100) (encEn s (o / 0x100)) (regSet s off (v &&& 0x1F07)))
     else if o < 0x400 ∧ o % 0x100 = 0x1C then some (presetHi (o / 0x100) v s)
     else if o < 0x400 ∧ o % 0x100 = 0x40 then some (calCtrlOp (o / 0x100) v s)
     else if o = 0x41C then some (xrefHi v s)
     else if 0x500 ≤ o ∧ o < 0x580 ∧ o % 0x20 = 0 then some (cmpCtrlOp ((o - 0x500) / 0x20) v s)
     else if 0x500 ≤ o ∧ o < 0x580 ∧ o % 0x20 = 0xC then
       some (cmpCommit ((o - 0x500) / 0x20) v (regSet (takeHalf (off - 4) s) off (v % 65536)))
     else none)
  else if (b = 0x10 ∨ b = 0x11) ∧ off % 0x400 = 0 then
    some (laneCtrl ((off - 0x100000) / 0x400) (regGet s off) (v &&& 0xB1) s)
  else if off = 0x120000 then some (twnCtrl (v % 2) s)
  else if b = 0x13 then
    (if o < 0xC000 ∧ o % 0x1000 = 0x24 then some (if bitAt v 31 then lftRetireOp (o / 0x1000) s else s)
     else if o = 0xC000 then some (lftCfg v s)
     else if o = 0xC030 then some (invalCtrl v s)
     else if o = 0xC080 then some (weevilCtrl v (regSet s off (v &&& 0xF1)))
     else if o = 0xC304 then some (if bitAt v 0 then lftRptClearOp s else s)
     else none)
  else if b = 0x15 then
    (if o = 0x14 ∨ o = 0x114 then some (incrHi (decide (o = 0x114)) v s)
     else if o = 0x2C ∨ o = 0x12C then some (timCmd (decide (o = 0x12C)) v s)
     else if o = 0x200 then some (if bitAt v 0 then { s with tim := { s.tim with switchReq := true } } else s)
     else if o = 0x230 then some (gangCtrlOp v s)
     else if o = 0x400 ∨ o = 0x500 then
       some (if bitAt v 0 then regSet s off 1 else portDown ((o - 0x400) / 0x100) (regSet s off 0))
     else if o = 0x428 ∨ o = 0x528 then some (rxPop ((o - 0x428) / 0x100) v s)
     else if o ≥ 0x4000 then some (slotsWrite ((o - 0x4000) / 0x6000) ((o - 0x4000) % 0x6000) v s)
     else none)
  else if off = 0x160004 then some (grnCtrl v req s)
  else if off = 0x160008 then some { s with grn := { s.grn with wipeKey := BitVec.ofNat 32 v } }
  else if off = 0x170000 then some (sloCtrl v s)
  else if off = 0x180100 then some (trcCtrlOp v s)
  else if b = 0x18 ∧ 0x1000 ≤ o ∧ o < 0x3000 ∧ o % 0x10 = 0 then some (cntCfg ((o - 0x1000) / 0x10) v s)
  else none

/-- A 32-bit write to a mapped register, past the checks of R495 and R504. -/
def writeReg (off v req : Nat) (s : State) : State :=
  if isRwp off then rwpWrite off v req s
  else
    let m := v &&& maskOf off
    if outOfRange off m then recordBad 5 off s
    else if holdsHalf off then { s with halves := tput s.halves off (BitVec.ofNat 32 (if off / 65536 = 0x15 then v else m)) }
    else match ownWrite off v req s with
      | some t => t
      | none => w1cWrite off v (if (rwInfo off).isSome then regSet s off (nearer off m) else s)

/-! ### Gates and holding (R427, R468, R504) -/

/-- A write that has arrived takes effect, or is discarded and recorded (R503, R504). (DEDUCED, log 31.) -/
def arrive (off v req : Nat) (s : State) : State :=
  let b := off / 65536
  let rec_ (s : State) : State := if isRwp off then rwpRecord off v req 4 s else s
  if (regShow s off).isNone then recordBad 2 off s
  else if b ≠ 0 ∧ earlyPhase s then rec_ (recordBad 6 off s)
  else if s.glb.fatal ∧ b ≠ 0 ∧ b ≠ 0x17 ∧ b ≠ 0x18 then rec_ (recordBad 7 off s)
  else writeReg off v req s

/-- The write waits: behind held writes, for room in the persist queue, or for the power-fail warning to end. -/
def mustHold (off : Nat) (s : State) : Bool :=
  decide (s.grn.queue.length ≥ 32) || (isRwp off && s.grn.loaded && (s.grn.pfwActive || s.grn.pfwLow || s.grn.startHold))

/-- Hold a write behind those held already. -/
def holdWrite (w : HeldWrite) (s : State) : State := { s with grn := { s.grn with held := s.grn.held ++ [w] } }

/-- A 32-bit write from the bus. -/
def busWrite (off v req : Nat) (s : State) : State :=
  if ¬ s.grn.held.isEmpty ∨ mustHold off s then holdWrite { off := off, v := BitVec.ofNat 32 v, req := req } s else arrive off v req s

/-- A write that does not cover its register is discarded; one to an RWP register is entered in the silo as discarded all the same
(R9, R443, R495). (DEDUCED, log 107.) -/
def arrivePart (off first v req : Nat) (s : State) : State :=
  if (regShow s off).isNone then recordBad 2 off s
  else if isRwp off then rwpRecord off v req 4 (recordBad 3 first s)
  else recordBad 3 first s

/-- A partial write from the bus: `v` holds the bytes it writes. -/
def busPart (off first v req : Nat) (s : State) : State :=
  if ¬ s.grn.held.isEmpty ∨ mustHold off s then holdWrite { off := off, v := BitVec.ofNat 32 v, req := req, part := true, first := first } s
  else arrivePart off first v req s

/-- A held write takes effect. -/
def arriveHeld (w : HeldWrite) (s : State) : State :=
  if w.part then arrivePart w.off w.first w.v.toNat w.req s else arrive w.off w.v.toNat w.req s

/-- Held writes take effect in order as far as they can. -/
def replayHeld : Nat → State → State
  | 0, s => s
  | n + 1, s => match s.grn.held with
    | [] => s
    | w :: t => if mustHold w.off s then s else replayHeld n (arriveHeld w { s with grn := { s.grn with held := t } })

def releaseHeld (s : State) : State := replayHeld s.grn.held.length s

/-! ### Requests (R495) -/

/-- The dwords that a request of `len` bytes at `off` touches, lower first. -/
def dwords (off len : Nat) : List Nat := (List.range (ceilDiv (off % 4 + len) 4)).map (fun i => off / 4 * 4 + 4 * i)

/-- A request longer than 8 bytes or across an 8-byte unit. -/
def oversize (off len : Nat) : Bool := decide (len > 8 ∨ off % 8 + len > 8)

/-- Byte k of the dword at d is written: byte i of `data` goes to off + i where `be` has bit i. -/
def byteOn (off len be d k : Nat) : Bool := decide (off ≤ d + k ∧ d + k < off + len) && bitAt be (d + k - off)

/-- The part of a write that falls in one dword. -/
def writeDword (off len be data req d : Nat) (s : State) : State :=
  if (List.range 4).all (byteOn off len be d) then busWrite d (data / 256 ^ (d - off) % 2 ^ 32) req s
  else
    let v := ((List.range 4).map (fun k => if byteOn off len be d k then data / 256 ^ (d + k - off) % 256 * 256 ^ k else 0)).sum
    busPart d (max off d) v req s

/-- A memory write of BAR0. -/
def bar0Write (off len be data req : Nat) (s : State) : State :=
  if oversize off len then recordBad 4 off s
  else (dwords off len).foldl (fun s d => writeDword off len be data req d s) s

/-! ### BAR2 (R493) -/

/-- A dword of BAR2. -/
def bar2Show (s : State) (o : Nat) : Nat :=
  if o < 0x400 then
    (if o % 16 = 12 then (if o / 16 ∈ s.hst.unmasked then 0 else 1) else (tget s.hst.bar2 o 0).toNat)
  else if o = 0x1000 then bitsOf 32 (fun i => s.hst.pba.contains i)
  else if o = 0x1004 then bitsOf 32 (fun i => s.hst.pba.contains (32 + i))
  else 0

/-- The mask bit of a vector: unmasked, a pending vector is sent (R379). -/
def vectorCtrl (vec v : Nat) (s : State) : State :=
  if bitAt v 0 then { s with hst := { s.hst with unmasked := s.hst.unmasked.filter (fun i => i != vec) } }
  else
    let s1 := if vec ∈ s.hst.unmasked then s else { s with hst := { s.hst with unmasked := natInsert vec s.hst.unmasked } }
    if vec ∈ s1.hst.pba ∧ vecOpen s1 vec then emit (.msix vec) { s1 with hst := { s1.hst with pba := s1.hst.pba.filter (fun i => i != vec) } } else s1

/-- A dword write of BAR2. -/
def bar2Dword (o v : Nat) (s : State) : State :=
  if o ≥ 0x400 then s
  else if o % 16 = 12 then vectorCtrl (o / 16) v s
  else { s with hst := { s.hst with bar2 := tset s.hst.bar2 o (BitVec.ofNat 32 (if o % 16 = 0 then v / 4 * 4 else v)) 0 } }

/-- A memory write of BAR2: whole dwords, as PCIe lays down. (PRESUMED, log 92.) -/
def bar2Write (off len data : Nat) (s : State) : State :=
  if off % 4 ≠ 0 ∨ (len ≠ 4 ∧ len ≠ 8) then s
  else (dwords off len).foldl (fun s d => bar2Dword d (data / 256 ^ (d - off) % 2 ^ 32) s) s

/-! ### Reads (R497, R499, R500) -/

/-- The registers that a read of LO latches, its HI first (R16, R499, R500): every pair. (DEDUCED, log 106.) -/
def latchedBy (off : Nat) : List Nat :=
  let b := off / 65536
  let o := off % 65536
  if off ∈ [0x8, 0x50020, 0x7040C, 0x120008, 0x120030, 0x13C020, 0x13C044, 0x13C08C, 0x150208, 0x16001C, 0x180010, 0x180114,
    0x10008, 0x10014, 0x10020, 0x60018, 0x60020, 0x70418, 0x13C084, 0x150010, 0x150018, 0x150024, 0x150110, 0x150118, 0x150124, 0x150228,
    0x150408, 0x150508] then [off + 4]
  else if off = 0x150000 ∨ off = 0x150100 then [off + 4, off + 8, off + 0xC]
  else if b = 1 ∧ 0x1000 ≤ o ∧ o < 0x1400 ∧ (o % 0x40 = 8 ∨ o % 0x40 = 0x10 ∨ o % 0x40 = 0x18 ∨ o % 0x40 = 0x20) then [off + 4]
  else if b = 2 ∧ 0x10 ≤ o ∧ o < 0x50 ∧ o % 0x10 = 4 then [off + 4]
  else if b = 7 ∧ o < 0x400 ∧ (o % 0x100 = 8 ∨ o % 0x100 = 0x10 ∨ o % 0x100 = 0x18 ∨ o % 0x100 = 0x34) then [off + 4]
  else if b = 7 ∧ 0x500 ≤ o ∧ o < 0x580 ∧ (o % 0x20 = 8 ∨ o % 0x20 = 0x10) then [off + 4]
  else if b = 0x13 ∧ 0xC200 ≤ o ∧ o < 0xC300 ∧ o % 0x10 = 0 then [off + 4]
  else if b = 0x18 ∧ ((0x1000 ≤ o ∧ o < 0x3000 ∧ o % 0x10 = 4) ∨ (0x4000 ≤ o ∧ o < 0x5000 ∧ o % 8 = 0)) then [off + 4]
  else []

/-- The LO register whose read latches this one. -/
def latchSource (off : Nat) : Option Nat :=
  [off - 4, off - 8, off - 0xC].find? (fun lo => decide (lo < off) && (latchedBy lo).contains off)

/-- The counter that a read clears (RC). -/
def clearOnRead (off : Nat) (s : State) : State :=
  let b := off / 65536
  if off = 0x1003C then { s with hst := { s.hst with dropRc := 0 } }
  else if off = 0x10040 then { s with hst := { s.hst with lostRc := 0 } }
  else if off = 0x100220 then { s with swl := { s.swl with stgCe := 0 } }
  else if 0x100300 ≤ off ∧ off < 0x100400 ∧ off % 0x20 = 4 then
    let k := (off - 0x100300) / 0x20
    retSet s k { retGet s k with crcErr := 0 }
  else if (b = 0x10 ∨ b = 0x11) ∧ off % 0x400 = 0x24 then
    let l := (off - 0x100000) / 0x400
    laneSet s l { laneGet s l with lbErr := 0 }
  else if (b = 0x10 ∨ b = 0x11) ∧ off % 0x400 = 0x28 then
    let l := (off - 0x100000) / 0x400
    laneSet s l { laneGet s l with lbWords := 0 }
  else if off = 0x12002C then { s with twn := { s.twn with msgErr := 0 } }
  else if off = 0x15023C then { s with tim := { s.tim with dup := 0 } }
  else if off = 0x150240 then { s with tim := { s.tim with gap := 0 } }
  else if b = 0x15 ∧ 0x400 ≤ off % 65536 ∧ off % 65536 < 0x600 then
    let p := (off % 65536 - 0x400) / 0x100
    let x := portGet s p
    if off % 0x100 = 0x18 then portSet s p { x with discard := 0 }
    else if off % 0x100 = 0x1C then portSet s p { x with badFcs := 0 }
    else if off % 0x100 = 0x20 then portSet s p { x with ovf := 0 }
    else s
  else if off = 0x170010 then { s with slo := { s.slo with missed := 0 } }
  else if off = 0x180018 then { s with obs := { s.obs with snapMissed := 0 } }
  else if off = 0x180110 then { s with obs := { s.obs with trLost := 0 } }
  else s

/-- What a port's PCS shows of its block lock at this instant: the line's, and free (DESIGN CHOICE, log 28). -/
def lookLock (p : Nat) (s : State) : State :=
  let (f, s1) := drawFree s
  portSet s1 p { portGet s1 p with lock := f.getLsbD 0 }

/-- What a read takes in before it answers: the loopback counters what has been checked (R277), a port's state its block lock. -/
def beforeRead (off : Nat) (s : State) : State :=
  if 0x100000 ≤ off ∧ off < 0x120000 ∧ (off % 0x400 = 0x24 ∨ off % 0x400 = 0x28) then takeChecked ((off - 0x100000) / 0x400) s
  else if off = 0x150404 ∨ off = 0x150504 then lookLock ((off - 0x150404) / 0x100) s
  else s

/-- Read one register that the phase lets answer: value and state after it. -/
def readLive (off : Nat) (s0 : State) : Nat × State :=
  let s := beforeRead off s0
  let v := match latchSource off with
    | some _ => (tget s.latch off 0).toNat
    | none => (regShow s off).getD 0
  let s1 := (latchedBy off).foldl (fun t h => { t with latch := tput t.latch h (BitVec.ofNat 32 ((regShow s h).getD 0)) }) s
  (v, clearOnRead off s1)

/-- A raw granary read: an unreadable word has no value (R446). -/
def readRaw (unreadable : Bool) (s : State) : Nat × State :=
  let (f, s1) := if unreadable then drawFree s else (0, s)
  let w := if unreadable then f.toNat else rawWord s (regGet s 0x160018)
  (lo32 w, { s1 with grn := { s1.grn with rawUe := unreadable }, latch := tput s1.latch 0x160020 (BitVec.ofNat 32 (hi32 w)) })

/-- A 32-bit read from the bus (R503, R504). -/
def busRead (off : Nat) (s : State) : Nat × State :=
  if (regShow s off).isNone then (0, recordBad 1 off s)
  else if off / 65536 ≠ 0 ∧ earlyPhase s then ((regShow {} off).getD 0, s)
  else if off = 0x16001C then readRaw (s.grn.badWords.contains (regGet s 0x160018)) s
  else readLive off s

/-- Read the dwords of a request in order. -/
def readDwords : List Nat → State → Nat × State
  | [], s => (0, s)
  | d :: t, s =>
    let (v, s1) := busRead d s
    let (r, s2) := readDwords t s1
    (v + 2 ^ 32 * r, s2)

/-- A memory read of BAR0: the bytes asked for, or Completer Abort. -/
def bar0Read (off len : Nat) (s : State) : State :=
  if oversize off len then emit .completerAbort (recordBad 4 off s)
  else
    let (v, s1) := readDwords (dwords off len) s
    emit (.readData len (v / 256 ^ (off % 4) % 256 ^ len)) s1

/-- A memory read of BAR2. -/
def bar2Read (off len : Nat) (s : State) : State :=
  let v := (dwords off len).foldr (fun d r => bar2Show s d + 2 ^ 32 * r) 0
  emit (.readData len (v / 256 ^ (off % 4) % 256 ^ len)) s

end Sys2Proof.Machine
end

