-- ==== Sys2Proof/Machine/RegRows.lean ====
section
/-! DEFINITION. Meanings of the rows that are register accesses (15, and the register maps), of the persist queue and of the
ends of the power-fail sequence, where held writes take effect (R427, R445, R468). A row that stands for one register's
write is that write, with the bit that names the row set or cleared. -/

namespace Sys2Proof.Machine

def clearBit (v i : Nat) : Nat := if bitAt v i then v - 2 ^ i else v
def setBit (v i : Nat) : Nat := clearBit v i + 2 ^ i

/-! ### General accesses -/

/-- REGISTER_WRITE: a memory write of BAR0, or of BAR2 (R493, R495, R497). -/
def execRegisterWrite (bar2 : Bool) (off : BitVec 24) (len : Nat) (be : Byte) (data : W64) (req : BitVec 16) (s : State) :
    Host.Outcome State Fault Refusal :=
  if len = 0 then ok s
  else if bar2 then ok (bar2Write off.toNat len data.toNat s)
  else ok (bar0Write off.toNat len be.toNat data.toNat req.toNat s)

/-- RWP_REGISTER_WRITE (R427, R443). -/
def execRwpRegisterWrite (off : BitVec 24) (v : W32) (req : BitVec 16) (s : State) : Host.Outcome State Fault Refusal :=
  ok (busWrite (off.toNat / 4 * 4) v.toNat req.toNat s)

/-- LO_REGISTER_READ: a memory read of BAR0 or BAR2. A read waits behind held writes (R496). (DEDUCED, log 32.) -/
def execLoRegisterRead (bar2 : Bool) (off : BitVec 24) (len : Nat) (s : State) : Host.Outcome State Fault Refusal :=
  if len = 0 then ok s
  else if bar2 then (if len > 8 ∨ off.toNat % 8 + len > 8 then ok s else ok (bar2Read off.toNat len s))
  else if ¬ s.grn.held.isEmpty then ok s
  else ok (bar0Read off.toNat len s)

/-- MSIX_VECTOR_UNMASK: a write of the entry's vector control with the mask bit clear (R379). -/
def execMsixVectorUnmask (vec : Fin 64) (v : W32) (s : State) : Host.Outcome State Fault Refusal :=
  ok (bar2Dword (16 * vec + 12) (clearBit v.toNat 0) s)

/-! ### The persist queue and the power-fail warning -/

/-- PERSIST_QUEUE_DRAIN (R427, R428). -/
def execPersistQueueDrain (s : State) : Host.Outcome State Fault Refusal :=
  if s.grn.startHold then ok s else ok (releaseHeld (drainOne s))

/-- The supplies have recovered: the held values are written and work goes on (R445). -/
def pfwRecover (s : State) : State :=
  settleJobs (releaseHeld { s with grn := { s.grn with pfwLow := false, pfwActive := false, pfwDone := true } })

/-- PFW_SEQUENCE_DONE: steps 2 to 6 of R444 have run. -/
def execPfwSequenceDone (s : State) : Host.Outcome State Fault Refusal :=
  if ¬ s.grn.pfwActive then ok s
  else
    let s1 := pfwSave s
    ok (if s.pins.pfwN then pfwRecover s1 else s1)

/-- PFW_N_RISE: before its recognition a low period leaves nothing; after the sequence the device works on. -/
def execPfwNRise (s : State) : Host.Outcome State Fault Refusal :=
  let s1 := { s with pins := { s.pins with pfwN := true }, grn := { s.grn with pfwFall := false } }
  ok (if s.grn.pfwLow ∧ ¬ s.grn.pfwActive then pfwRecover s1 else s1)

/-- PFW_N_STABLE_HIGH (R468). -/
def execPfwNStableHigh (s : State) : Host.Outcome State Fault Refusal :=
  if s.pins.pfwN ∧ s.grn.startHold then ok (settleJobs (releaseHeld { s with grn := { s.grn with startHold := false } })) else ok s

/-! ### GLB, THR, PAC -/

/-- GLB_RESET (R507). -/
def execGlbReset (v : W32) (req : BitVec 16) (s : State) : Host.Outcome State Fault Refusal := ok (busWrite 0x28 v.toNat req.toNat s)
/-- GLB_SNAP (R455). -/
def execGlbSnap (s : State) : Host.Outcome State Fault Refusal := ok (busWrite 0x80 1 0 s)
/-- THR_RETIRE (R133). -/
def execThrRetire (v : W32) (s : State) : Host.Outcome State Fault Refusal := ok (busWrite 0x40030 (setBit v.toNat 31) 0 s)
/-- PAC_VLIM_WRITE: the committing half of a limit (R186, R198). -/
def execPacVlimWrite (hiLimit : Bool) (v : W32) (req : BitVec 16) (s : State) : Host.Outcome State Fault Refusal :=
  ok (busWrite (if hiLimit then 0x60024 else 0x6001C) v.toNat req.toNat s)
/-- PACE_LINK_ENABLE (R191). -/
def execPaceLinkEnable (v : W32) (s : State) : Host.Outcome State Fault Refusal := ok (busWrite 0x60000 v.toNat 0 s)

/-! ### ENC -/

/-- ENC_CPP_INT_WRITE (R212). -/
def execEncCppIntWrite (v : W32) (req : BitVec 16) (s : State) : Host.Outcome State Fault Refusal := ok (busWrite 0x70404 v.toNat req.toNat s)
/-- ENC_PRESET_LOAD (R205). -/
def execEncPresetLoad (n : Fin 4) (v : W32) (s : State) : Host.Outcome State Fault Refusal := ok (busWrite (encOff n 0x1C) (setBit v.toNat 31) 0 s)
/-- ENC_CHANNEL_ENABLE (R202). -/
def execEncChannelEnable (n : Fin 4) (v : W32) (s : State) : Host.Outcome State Fault Refusal := ok (busWrite (encOff n 0) v.toNat 0 s)
/-- CMP_ARM (R222). -/
def execCmpArm (k : Fin 4) (v : W32) (s : State) : Host.Outcome State Fault Refusal :=
  ok (busWrite (0x70500 + 0x20 * k) (setBit (clearBit v.toNat 30) 31) 0 s)
/-- CMP_DISARM (Table 6-17). -/
def execCmpDisarm (k : Fin 4) (v : W32) (s : State) : Host.Outcome State Fault Refusal := ok (busWrite (0x70500 + 0x20 * k) (setBit v.toNat 30) 0 s)
/-- CMP_TGT_HI_WRITE (R222). -/
def execCmpTgtHiWrite (k : Fin 4) (v : W32) (s : State) : Host.Outcome State Fault Refusal := ok (busWrite (0x7050C + 0x20 * k) v.toNat 0 s)

/-! ### SWL and TWN -/

/-- SWL_LANE_ENABLE (R267). -/
def execSwlLaneEnable (l : Fin 128) (v : W32) (s : State) : Host.Outcome State Fault Refusal := ok (busWrite (swlOff l 0) (setBit v.toNat 0) 0 s)
/-- SWL_LANE_DISABLE (R270). -/
def execSwlLaneDisable (l : Fin 128) (v : W32) (s : State) : Host.Outcome State Fault Refusal := ok (busWrite (swlOff l 0) (clearBit v.toNat 0) 0 s)
/-- RETRAIN (Table 7-17). -/
def execRetrain (l : Fin 128) (v : W32) (s : State) : Host.Outcome State Fault Refusal := ok (busWrite (swlOff l 0) (setBit v.toNat 7) 0 s)
/-- LOOP_WRITE (R276). -/
def execLoopWrite (l : Fin 128) (v : W32) (s : State) : Host.Outcome State Fault Refusal := ok (busWrite (swlOff l 0) v.toNat 0 s)
/-- TWN_LINK_ENABLE (R285). -/
def execTwnLinkEnable (v : W32) (s : State) : Host.Outcome State Fault Refusal := ok (busWrite 0x120000 v.toNat 0 s)

/-! ### LFT -/

/-- LFT_INVAL (R344). -/
def execLftInval (v : W32) (s : State) : Host.Outcome State Fault Refusal := ok (busWrite 0x13C030 (setBit v.toNat 31) 0 s)
/-- LFT_RETIRE (R354). -/
def execLftRetire (c : Fin 12) (s : State) : Host.Outcome State Fault Refusal := ok (busWrite (0x130024 + 0x1000 * c) (2 ^ 31) 0 s)
/-- LFT_RPT_CLEAR (R351). -/
def execLftRptClear (s : State) : Host.Outcome State Fault Refusal := ok (busWrite 0x13C304 1 0 s)
/-- LFT_PRED_WRITE (R324). -/
def execLftPredWrite (v : W32) (req : BitVec 16) (s : State) : Host.Outcome State Fault Refusal := ok (busWrite 0x13C014 v.toNat req.toNat s)
/-- WEEVIL_ARM (R352). -/
def execWeevilArm (v : W32) (s : State) : Host.Outcome State Fault Refusal := ok (busWrite 0x13C080 (setBit (clearBit v.toNat 30) 31) 0 s)
/-- WEEVIL_DISARM (R352). -/
def execWeevilDisarm (v : W32) (s : State) : Host.Outcome State Fault Refusal := ok (busWrite 0x13C080 (setBit v.toNat 30) 0 s)

/-! ### TIM -/

def domBase (d : Fin 2) : Nat := 0x150000 + 0x100 * d

/-- TIM_INCR_HI_WRITE (R406). -/
def execTimIncrHiWrite (d : Fin 2) (v : W32) (s : State) : Host.Outcome State Fault Refusal := ok (busWrite (domBase d + 0x14) v.toNat 0 s)
/-- TIM_LOAD (R407). -/
def execTimLoad (d : Fin 2) (v : W32) (s : State) : Host.Outcome State Fault Refusal := ok (busWrite (domBase d + 0x2C) (setBit v.toNat 0) 0 s)
/-- TIM_ADJUST (R407). -/
def execTimAdjust (d : Fin 2) (v : W32) (s : State) : Host.Outcome State Fault Refusal := ok (busWrite (domBase d + 0x2C) (setBit v.toNat 1) 0 s)
/-- TIM_SWITCH (R412). -/
def execTimSwitch (s : State) : Host.Outcome State Fault Refusal := ok (busWrite 0x150200 1 0 s)
/-- TIM_RX_POP (R401). -/
def execTimRxPop (p : Fin 2) (s : State) : Host.Outcome State Fault Refusal := ok (busWrite (0x150428 + 0x100 * p) 1 0 s)
/-- GANG_DISABLE (R420). -/
def execGangDisable (v : W32) (s : State) : Host.Outcome State Fault Refusal := ok (busWrite 0x150230 (clearBit v.toNat 2) 0 s)

/-- PTP_TX_GO: the first dword of the slot's descriptor is written with `go` 1, `length` and `result` as they stand (R402). -/
def execPtpTxGo (p : Fin 2) (slot : Fin 16) (s : State) : Host.Outcome State Fault Refusal :=
  let o := txSlot slot
  let d := ofLe (slotRead (portGet s p) o 4)
  ok (busWrite (0x154000 + 0x6000 * p + o) (d - bits d 23 16 * 65536 + 65536) 0 s)

/-! ### GRN, SLO, OBS -/

/-- WIPE (R438). -/
def execWipe (v : W32) (req : BitVec 16) (s : State) : Host.Outcome State Fault Refusal := ok (busWrite 0x160004 (setBit v.toNat 0) req.toNat s)
/-- CHECKPOINT (R435). -/
def execCheckpoint (s : State) : Host.Outcome State Fault Refusal := ok (busWrite 0x160004 2 0 s)

/-- GRN_RAW_READ: a 4-byte read of GRN_RAW_LO whose word verifies or is unreadable (R500). -/
def execGrnRawRead (unreadable : Bool) (s : State) : Host.Outcome State Fault Refusal :=
  if ¬ s.grn.held.isEmpty then ok s
  else if earlyPhase s then ok (emit (.readData 4 0) s)
  else
    let (v, s1) := readRaw unreadable s
    ok (emit (.readData 4 v) s1)

/-- SLO_FREEZE (R441). -/
def execSloFreeze (v : W32) (s : State) : Host.Outcome State Fault Refusal := ok (busWrite 0x170000 (setBit v.toNat 0) 0 s)
/-- SLO_UNFREEZE (R441). -/
def execSloUnfreeze (v : W32) (s : State) : Host.Outcome State Fault Refusal := ok (busWrite 0x170000 (setBit v.toNat 1) 0 s)
/-- OBS_CNT_CFG_WRITE (R451). -/
def execObsCntCfgWrite (i : Fin 512) (v : W32) (s : State) : Host.Outcome State Fault Refusal := ok (busWrite (0x181000 + 0x10 * i) v.toNat 0 s)
/-- OBS_CNT_CLEAR (R451). -/
def execObsCntClear (i : Fin 512) (v : W32) (s : State) : Host.Outcome State Fault Refusal :=
  ok (busWrite (0x181000 + 0x10 * i) (setBit v.toNat 31) 0 s)

/-- OBS_CNT_FETCH: a 4-byte read of OBS_CNTi_LO (R452). -/
def execObsCntFetch (i : Fin 512) (s : State) : Host.Outcome State Fault Refusal :=
  if ¬ s.grn.held.isEmpty then ok s else ok (bar0Read (0x181004 + 0x10 * i) 4 s)

/-- TRACE_ENABLE (R460). -/
def execTraceEnable (v : W32) (s : State) : Host.Outcome State Fault Refusal := ok (busWrite 0x180100 (setBit v.toNat 31) 0 s)

/-! ### HST -/

/-- HST_ENABLE (R365, R371). -/
def execHstEnable (v : W32) (s : State) : Host.Outcome State Fault Refusal := ok (busWrite 0x10000 (setBit v.toNat 0) 0 s)
/-- HST_DISABLE (Table 10-23). -/
def execHstDisable (v : W32) (s : State) : Host.Outcome State Fault Refusal := ok (busWrite 0x10000 (clearBit v.toNat 0) 0 s)
/-- CHAIN_DISABLE (R385). -/
def execChainDisable (c : Fin 16) (v : W32) (s : State) : Host.Outcome State Fault Refusal := ok (busWrite (chBase c) (clearBit v.toNat 0) 0 s)

end Sys2Proof.Machine
end

