-- ==== Sys2Proof/Machine/Dispatch.lean ====
section
/-! DEFINITION. Dispatch: one arm per constructor of Instr, each a direct call of that command's meaning. -/

namespace Sys2Proof.Machine

def exec (i : Instr) (s : State) : Host.Outcome State Fault Refusal :=
  match i with
  | .powerOn => Sys2Proof.Machine.execPowerOn s
  | .sysRstNFall => Sys2Proof.Machine.execSysRstNFall s
  | .sysRstNRise => Sys2Proof.Machine.execSysRstNRise s
  | .clocksLocked => Sys2Proof.Machine.execClocksLocked s
  | .selftestDone fails => Sys2Proof.Machine.execSelftestDone fails s
  | .granaryLoadDone unreadable => Sys2Proof.Machine.execGranaryLoadDone unreadable s
  | .loftChannelTrained c step ok conf => Sys2Proof.Machine.execLoftChannelTrained c step ok conf s
  | .loftTrained => Sys2Proof.Machine.execLoftTrained s
  | .startupDone us => Sys2Proof.Machine.execStartupDone us s
  | .pllLockLoss unit hkRuns => Sys2Proof.Machine.execPllLockLoss unit hkRuns s
  | .supplyFault unit hkRuns => Sys2Proof.Machine.execSupplyFault unit hkRuns s
  | .watchdogExpiry unit => Sys2Proof.Machine.execWatchdogExpiry unit s
  | .dieTempRead t => Sys2Proof.Machine.execDieTempRead t s
  | .pfwNFall => Sys2Proof.Machine.execPfwNFall s
  | .pfwRecognized => Sys2Proof.Machine.execPfwRecognized s
  | .pfwSequenceDone => Sys2Proof.Machine.execPfwSequenceDone s
  | .pcieLinkReset cause => Sys2Proof.Machine.execPcieLinkReset cause s
  | .pciePerstN high => Sys2Proof.Machine.execPciePerstN high s
  | .registerWrite bar2 off len be data req => Sys2Proof.Machine.execRegisterWrite bar2 off len be data req s
  | .rwpRegisterWrite off v req => Sys2Proof.Machine.execRwpRegisterWrite off v req s
  | .persistQueueDrain => Sys2Proof.Machine.execPersistQueueDrain s
  | .granaryWordWriteDone ok => Sys2Proof.Machine.execGranaryWordWriteDone ok s
  | .loRegisterRead bar2 off len => Sys2Proof.Machine.execLoRegisterRead bar2 off len s
  | .glbReset v req => Sys2Proof.Machine.execGlbReset v req s
  | .glbSnap => Sys2Proof.Machine.execGlbSnap s
  | .thrRetire v => Sys2Proof.Machine.execThrRetire v s
  | .pacVlimWrite hiLimit v req => Sys2Proof.Machine.execPacVlimWrite hiLimit v req s
  | .paceLinkEnable v => Sys2Proof.Machine.execPaceLinkEnable v s
  | .encCppIntWrite v req => Sys2Proof.Machine.execEncCppIntWrite v req s
  | .encPresetLoad n v => Sys2Proof.Machine.execEncPresetLoad n v s
  | .encChannelEnable n v => Sys2Proof.Machine.execEncChannelEnable n v s
  | .cmpArm k v => Sys2Proof.Machine.execCmpArm k v s
  | .cmpDisarm k v => Sys2Proof.Machine.execCmpDisarm k v s
  | .cmpTgtHiWrite k v => Sys2Proof.Machine.execCmpTgtHiWrite k v s
  | .swlLaneEnable l v => Sys2Proof.Machine.execSwlLaneEnable l v s
  | .swlLaneDisable l v => Sys2Proof.Machine.execSwlLaneDisable l v s
  | .retrain l v => Sys2Proof.Machine.execRetrain l v s
  | .loopWrite l v => Sys2Proof.Machine.execLoopWrite l v s
  | .twnLinkEnable v => Sys2Proof.Machine.execTwnLinkEnable v s
  | .lftInval v => Sys2Proof.Machine.execLftInval v s
  | .lftRetire c => Sys2Proof.Machine.execLftRetire c s
  | .lftRptClear => Sys2Proof.Machine.execLftRptClear s
  | .lftPredWrite v req => Sys2Proof.Machine.execLftPredWrite v req s
  | .weevilArm v => Sys2Proof.Machine.execWeevilArm v s
  | .weevilDisarm v => Sys2Proof.Machine.execWeevilDisarm v s
  | .timIncrHiWrite d v => Sys2Proof.Machine.execTimIncrHiWrite d v s
  | .timLoad d v => Sys2Proof.Machine.execTimLoad d v s
  | .timAdjust d v => Sys2Proof.Machine.execTimAdjust d v s
  | .timSwitch => Sys2Proof.Machine.execTimSwitch s
  | .ptpTxGo p slot => Sys2Proof.Machine.execPtpTxGo p slot s
  | .ptpTxDone p stamp => Sys2Proof.Machine.execPtpTxDone p stamp s
  | .timRxPop p => Sys2Proof.Machine.execTimRxPop p s
  | .gangDisable v => Sys2Proof.Machine.execGangDisable v s
  | .wipe v req => Sys2Proof.Machine.execWipe v req s
  | .checkpoint => Sys2Proof.Machine.execCheckpoint s
  | .wearCheckpointTimer => Sys2Proof.Machine.execWearCheckpointTimer s
  | .grnRawRead unreadable => Sys2Proof.Machine.execGrnRawRead unreadable s
  | .sloFreeze v => Sys2Proof.Machine.execSloFreeze v s
  | .sloUnfreeze v => Sys2Proof.Machine.execSloUnfreeze v s
  | .obsCntCfgWrite k v => Sys2Proof.Machine.execObsCntCfgWrite k v s
  | .obsCntClear k v => Sys2Proof.Machine.execObsCntClear k v s
  | .obsCntFetch k => Sys2Proof.Machine.execObsCntFetch k s
  | .traceEnable v => Sys2Proof.Machine.execTraceEnable v s
  | .traceCounterPeriod => Sys2Proof.Machine.execTraceCounterPeriod s
  | .traceAlign => Sys2Proof.Machine.execTraceAlign s
  | .traceLoss => Sys2Proof.Machine.execTraceLoss s
  | .hstEnable v => Sys2Proof.Machine.execHstEnable v s
  | .hstDisable v => Sys2Proof.Machine.execHstDisable v s
  | .chainDisable c v => Sys2Proof.Machine.execChainDisable c v s
  | .doorbellPoll => Sys2Proof.Machine.execDoorbellPoll s
  | .doorbellPollComplete data => Sys2Proof.Machine.execDoorbellPollComplete data s
  | .commandFetchComplete data => Sys2Proof.Machine.execCommandFetchComplete data s
  | .commandStart id => Sys2Proof.Machine.execCommandStart id s
  | .holdQueueDrain => Sys2Proof.Machine.execHoldQueueDrain s
  | .msixModerationTimer => Sys2Proof.Machine.execMsixModerationTimer s
  | .descriptorReadComplete c data => Sys2Proof.Machine.execDescriptorReadComplete c data s
  | .dmaBurstStart turn => Sys2Proof.Machine.execDmaBurstStart turn s
  | .dmaBurstEnd c data => Sys2Proof.Machine.execDmaBurstEnd c data s
  | .descriptorEnd c => Sys2Proof.Machine.execDescriptorEnd c s
  | .nop id => Sys2Proof.Machine.execNop id s
  | .sheafLoad id => Sys2Proof.Machine.execSheafLoad id s
  | .stripeAdmit id => Sys2Proof.Machine.execStripeAdmit id s
  | .admitGuardWaitEnd => Sys2Proof.Machine.execAdmitGuardWaitEnd s
  | .stripeArm id => Sys2Proof.Machine.execStripeArm id s
  | .prerollComplete => Sys2Proof.Machine.execPrerollComplete s
  | .stripeAbort id => Sys2Proof.Machine.execStripeAbort id s
  | .makeupArmList id => Sys2Proof.Machine.execMakeupArmList id s
  | .makeupArmArm id data => Sys2Proof.Machine.execMakeupArmArm id data s
  | .beamMapSet id data => Sys2Proof.Machine.execBeamMapSet id data s
  | .trimSet id data => Sys2Proof.Machine.execTrimSet id data s
  | .tableChangeEffect => Sys2Proof.Machine.execTableChangeEffect s
  | .tableSwitchRelease => Sys2Proof.Machine.execTableSwitchRelease s
  | .scanCheck id => Sys2Proof.Machine.execScanCheck id s
  | .readback id => Sys2Proof.Machine.execReadback id s
  | .calEncMeasure id => Sys2Proof.Machine.execCalEncMeasure id s
  | .calEncStore id => Sys2Proof.Machine.execCalEncStore id s
  | .calEncLoad id => Sys2Proof.Machine.execCalEncLoad id s
  | .calEncRestore id => Sys2Proof.Machine.execCalEncRestore id s
  | .calEncTimeout id => Sys2Proof.Machine.execCalEncTimeout id s
  | .twinPair id => Sys2Proof.Machine.execTwinPair id s
  | .twinPairDissolve id => Sys2Proof.Machine.execTwinPairDissolve id s
  | .twinPairTimeout => Sys2Proof.Machine.execTwinPairTimeout s
  | .twinHandover id => Sys2Proof.Machine.execTwinHandover id s
  | .gangLaunchCancel id => Sys2Proof.Machine.execGangLaunchCancel id s
  | .gangLaunchStart id => Sys2Proof.Machine.execGangLaunchStart id s
  | .gangLaunchAbort id => Sys2Proof.Machine.execGangLaunchAbort id s
  | .gangLaunchUser id => Sys2Proof.Machine.execGangLaunchUser id s
  | .gangLaunchDue => Sys2Proof.Machine.execGangLaunchDue s
  | .gangFrameSent stamp0 stamp1 => Sys2Proof.Machine.execGangFrameSent stamp0 stamp1 s
  | .snapshot id => Sys2Proof.Machine.execSnapshot id s
  | .snapshotDue => Sys2Proof.Machine.execSnapshotDue s
  | .timeTick => Sys2Proof.Machine.execTimeTick s
  | .setpointInstant => Sys2Proof.Machine.execSetpointInstant s
  | .runUpStart => Sys2Proof.Machine.execRunUpStart s
  | .stopAtRest => Sys2Proof.Machine.execStopAtRest s
  | .encSample p0 p1 p2 p3 => Sys2Proof.Machine.execEncSample p0 p1 p2 p3 s
  | .speedEdge n cycle => Sys2Proof.Machine.execSpeedEdge n cycle s
  | .stillTimeout n => Sys2Proof.Machine.execStillTimeout n s
  | .calWindowClose n => Sys2Proof.Machine.execCalWindowClose n s
  | .calSlewEnd n => Sys2Proof.Machine.execCalSlewEnd n s
  | .slotTrigger corrected bad => Sys2Proof.Machine.execSlotTrigger corrected bad s
  | .groupQueueOpen => Sys2Proof.Machine.execGroupQueueOpen s
  | .runComplete lane check => Sys2Proof.Machine.execRunComplete lane check s
  | .groupBuilt => Sys2Proof.Machine.execGroupBuilt s
  | .round2Built => Sys2Proof.Machine.execRound2Built s
  | .groupDeadline => Sys2Proof.Machine.execGroupDeadline s
  | .rleJobComplete unit => Sys2Proof.Machine.execRleJobComplete unit s
  | .ingestUnitFailure unit => Sys2Proof.Machine.execIngestUnitFailure unit s
  | .cribFillComplete => Sys2Proof.Machine.execCribFillComplete s
  | .loftReadComplete c err mapErr => Sys2Proof.Machine.execLoftReadComplete c err mapErr s
  | .loftRequestIssue c => Sys2Proof.Machine.execLoftRequestIssue c s
  | .loftWriteBatch c => Sys2Proof.Machine.execLoftWriteBatch c s
  | .refreshDue c => Sys2Proof.Machine.execRefreshDue c s
  | .dimmTempRead c t0 t1 => Sys2Proof.Machine.execDimmTempRead c t0 t1 s
  | .fillEngineStart => Sys2Proof.Machine.execFillEngineStart s
  | .fillEngineDone e => Sys2Proof.Machine.execFillEngineDone e s
  | .gleanerRead err lapMs => Sys2Proof.Machine.execGleanerRead err lapMs s
  | .gleanerLapSlow secs => Sys2Proof.Machine.execGleanerLapSlow secs s
  | .loftChannelFault c rcd => Sys2Proof.Machine.execLoftChannelFault c rcd s
  | .returnStatus k lane rx high map crcErr => Sys2Proof.Machine.execReturnStatus k lane rx high map crcErr s
  | .returnTapReq k lane seq req preset => Sys2Proof.Machine.execReturnTapReq k lane seq req preset s
  | .returnTrained k lane seq => Sys2Proof.Machine.execReturnTrained k lane seq s
  | .returnPrbsResult k lane errors words => Sys2Proof.Machine.execReturnPrbsResult k lane errors words s
  | .returnIdle k fill => Sys2Proof.Machine.execReturnIdle k fill s
  | .returnLaneTimeout k => Sys2Proof.Machine.execReturnLaneTimeout k s
  | .returnDownSettle k => Sys2Proof.Machine.execReturnDownSettle k s
  | .frameSettleTimeout l => Sys2Proof.Machine.execFrameSettleTimeout l s
  | .laneMessageTimeout l => Sys2Proof.Machine.execLaneMessageTimeout l s
  | .trainTimeout l => Sys2Proof.Machine.execTrainTimeout l s
  | .noPartnerTimeout l => Sys2Proof.Machine.execNoPartnerTimeout l s
  | .quadPllUnlock q => Sys2Proof.Machine.execQuadPllUnlock q s
  | .quadPllRelock q => Sys2Proof.Machine.execQuadPllRelock q s
  | .amTimer => Sys2Proof.Machine.execAmTimer s
  | .trainBlock lane => Sys2Proof.Machine.execTrainBlock lane s
  | .dxpDigest group round2 mask digests => Sys2Proof.Machine.execDxpDigest group round2 mask digests s
  | .dxpAbort group cause => Sys2Proof.Machine.execDxpAbort group cause s
  | .dxpHandoverRequest => Sys2Proof.Machine.execDxpHandoverRequest s
  | .dxpHandoverPropose group => Sys2Proof.Machine.execDxpHandoverPropose group s
  | .dxpHandoverAccept group => Sys2Proof.Machine.execDxpHandoverAccept group s
  | .dxpHandoverCommit group => Sys2Proof.Machine.execDxpHandoverCommit group s
  | .dxpArmReady m => Sys2Proof.Machine.execDxpArmReady m s
  | .dxpArmResult status => Sys2Proof.Machine.execDxpArmResult status s
  | .dxpTable m => Sys2Proof.Machine.execDxpTable m s
  | .dxpTableReply tag reply status => Sys2Proof.Machine.execDxpTableReply tag reply status s
  | .dxpTableCommit tag => Sys2Proof.Machine.execDxpTableCommit tag s
  | .dxpHello m => Sys2Proof.Machine.execDxpHello m s
  | .dxpHeartbeat m => Sys2Proof.Machine.execDxpHeartbeat m s
  | .heartbeatDue => Sys2Proof.Machine.execHeartbeatDue s
  | .dxpLinkTimeout => Sys2Proof.Machine.execDxpLinkTimeout s
  | .dxpQuietEnd => Sys2Proof.Machine.execDxpQuietEnd s
  | .dxpTrainTimeout => Sys2Proof.Machine.execDxpTrainTimeout s
  | .dxpNoPartner => Sys2Proof.Machine.execDxpNoPartner s
  | .twinArmTimeout => Sys2Proof.Machine.execTwinArmTimeout s
  | .partnerDead => Sys2Proof.Machine.execPartnerDead s
  | .roleTake => Sys2Proof.Machine.execRoleTake s
  | .ethPortUp p => Sys2Proof.Machine.execEthPortUp p s
  | .ethPortDown p => Sys2Proof.Machine.execEthPortDown p s
  | .ptpFrameRx p frame stamp => Sys2Proof.Machine.execPtpFrameRx p frame stamp s
  | .ethFrameDiscard p badFcs => Sys2Proof.Machine.execEthFrameDiscard p badFcs s
  | .gangStartRx f => Sys2Proof.Machine.execGangStartRx f s
  | .gangUserRx f => Sys2Proof.Machine.execGangUserRx f s
  | .gangAbortRx f => Sys2Proof.Machine.execGangAbortRx f s
  | .gangIdClash f => Sys2Proof.Machine.execGangIdClash f s
  | .partnerLive => Sys2Proof.Machine.execPartnerLive s
  | .dxpTrainBlockRx lane rxState ownRx seq req preset => Sys2Proof.Machine.execDxpTrainBlockRx lane rxState ownRx seq req preset s
  | .dxpMessageDiscard => Sys2Proof.Machine.execDxpMessageDiscard s
  | .returnMessageDiscard k => Sys2Proof.Machine.execReturnMessageDiscard k s
  | .alignAm lane => Sys2Proof.Machine.execAlignAm lane s
  | .gangFrameRefused f => Sys2Proof.Machine.execGangFrameRefused f s
  | .msixVectorUnmask vec v => Sys2Proof.Machine.execMsixVectorUnmask vec v s
  | .pfwNRise => Sys2Proof.Machine.execPfwNRise s
  | .pfwNStableHigh => Sys2Proof.Machine.execPfwNStableHigh s
  | .loftAlert alert => Sys2Proof.Machine.execLoftAlert alert s
  | .loftRowTimeout c bank => Sys2Proof.Machine.execLoftRowTimeout c bank s
  | .admissionComplete => Sys2Proof.Machine.execAdmissionComplete s
  | .readbackComplete => Sys2Proof.Machine.execReadbackComplete s
  | .traceRecordSent => Sys2Proof.Machine.execTraceRecordSent s
  | .pcieLinkUp rate width mps conf => Sys2Proof.Machine.execPcieLinkUp rate width mps conf s

end Sys2Proof.Machine
end

