-- ==== Sys2Proof/Machine/Step.lean ====
section
/-! DEFINITION. The step: the command at the front of the queue is taken and executed with the queue's rest; on an
empty queue the block idles (DESIGN CHOICE, log 18). -/

namespace Sys2Proof.Machine

/-- The state without the command at the front of its queue. -/
def State.popFront (s : State) : State := { s with pending := s.pending.tail }

/-- One step. -/
def step (s : State) : Host.Outcome State Fault Refusal :=
  match s.pending with
  | [] => .next s
  | c :: _ => exec c s.popFront

/-- The command that a table word spells goes to the front of the queue; no row of the table has bits, so no word
spells a command and the state stands (DESIGN CHOICE, log 19). -/
def State.withFetchWord (s : State) (nbits w : Nat) : State :=
  match Sys2Proof.decodeTableWord nbits w with
  | some c => { s with pending := c :: s.pending }
  | none => s

end Sys2Proof.Machine
end

