-- ==== Sys2Proof/WellFormed.lean ====
section
/-! DEFINITION. Which commands the outside can spell: the lengths and ranges that the interfaces of the device carry.
A constructor is accepted whole where its operand types already bound it. -/

namespace Sys2Proof

/-- A host read of `n` bytes gives `n` bytes, or fails. -/
def dataLen (n : Nat) : Option (List Byte) → Bool
  | none => true
  | some bs => bs.length == n

/-- An access of 1, 2, 4 or 8 bytes is the widest a BAR carries (R495). -/
def accessLen (n : Nat) : Bool := decide (1 ≤ n ∧ n ≤ 8)

/-- An Ethernet frame without FCS is 60 bytes or more (R398). -/
def GangFrame.wellFormed (f : GangFrame) : Bool := decide (60 ≤ f.frame.length)

/-- A TABLE message carries one value for each beam it names (Table 8-4). -/
def TableMsg.wellFormed (m : TableMsg) : Bool := m.values.length == m.count.toNat

/-- The checks on the operands of a command. -/
def Instr.wellFormed : Instr → Bool
  | .powerOn => true
  | .sysRstNFall => true
  | .sysRstNRise => true
  | .clocksLocked => true
  | .selftestDone .. => true
  | .granaryLoadDone .. => true
  | .loftChannelTrained .. => true
  | .loftTrained => true
  | .startupDone .. => true
  | .pllLockLoss .. => true
  | .supplyFault .. => true
  | .watchdogExpiry .. => true
  | .dieTempRead .. => true
  | .pfwNFall => true
  | .pfwRecognized => true
  | .pfwSequenceDone => true
  | .pcieLinkReset .. => true
  | .pciePerstN .. => true
  | .registerWrite _ _ len .. => accessLen len
  | .rwpRegisterWrite off .. => off.toNat % 4 == 0
  | .persistQueueDrain => true
  | .granaryWordWriteDone .. => true
  | .loRegisterRead _ _ len => accessLen len
  | .glbReset .. => true
  | .glbSnap => true
  | .thrRetire .. => true
  | .pacVlimWrite .. => true
  | .paceLinkEnable .. => true
  | .encCppIntWrite .. => true
  | .encPresetLoad .. => true
  | .encChannelEnable .. => true
  | .cmpArm .. => true
  | .cmpDisarm .. => true
  | .cmpTgtHiWrite .. => true
  | .swlLaneEnable .. => true
  | .swlLaneDisable .. => true
  | .retrain .. => true
  | .loopWrite .. => true
  | .twnLinkEnable .. => true
  | .lftInval .. => true
  | .lftRetire .. => true
  | .lftRptClear => true
  | .lftPredWrite .. => true
  | .weevilArm .. => true
  | .weevilDisarm .. => true
  | .timIncrHiWrite .. => true
  | .timLoad .. => true
  | .timAdjust .. => true
  | .timSwitch => true
  | .ptpTxGo .. => true
  | .ptpTxDone .. => true
  | .timRxPop .. => true
  | .gangDisable .. => true
  | .wipe .. => true
  | .checkpoint => true
  | .wearCheckpointTimer => true
  | .grnRawRead .. => true
  | .sloFreeze .. => true
  | .sloUnfreeze .. => true
  | .obsCntCfgWrite .. => true
  | .obsCntClear .. => true
  | .obsCntFetch .. => true
  | .traceEnable .. => true
  | .traceCounterPeriod => true
  | .traceAlign => true
  | .traceLoss => true
  | .hstEnable .. => true
  | .hstDisable .. => true
  | .chainDisable .. => true
  | .doorbellPoll => true
  | .doorbellPollComplete data => dataLen 128 data
  | .commandFetchComplete data => match data with
    | none => true
    | some bs => bs.length % 64 == 0 && decide (64 ≤ bs.length ∧ bs.length ≤ 512)
  | .commandStart .. => true
  | .holdQueueDrain => true
  | .msixModerationTimer => true
  | .descriptorReadComplete _ data => dataLen 64 data || dataLen 8 data
  | .dmaBurstStart .. => true
  | .dmaBurstEnd _ data => match data with
    | none => true
    | some bs => decide (bs.length ≤ 4096)
  | .descriptorEnd .. => true
  | .nop .. => true
  | .sheafLoad .. => true
  | .stripeAdmit .. => true
  | .admitGuardWaitEnd => true
  | .stripeArm .. => true
  | .prerollComplete => true
  | .stripeAbort .. => true
  | .makeupArmList .. => true
  | .makeupArmArm _ data => match data with
    | none => true
    | some bs => bs.length % 40 == 0
  | .beamMapSet .. => true
  | .trimSet _ data => match data with
    | none => true
    | some bs => bs.length % 2 == 0
  | .tableChangeEffect => true
  | .tableSwitchRelease => true
  | .scanCheck .. => true
  | .readback .. => true
  | .calEncMeasure .. => true
  | .calEncStore .. => true
  | .calEncLoad .. => true
  | .calEncRestore .. => true
  | .calEncTimeout .. => true
  | .twinPair .. => true
  | .twinPairDissolve .. => true
  | .twinPairTimeout => true
  | .twinHandover .. => true
  | .gangLaunchCancel .. => true
  | .gangLaunchStart .. => true
  | .gangLaunchAbort .. => true
  | .gangLaunchUser .. => true
  | .gangLaunchDue => true
  | .gangFrameSent .. => true
  | .snapshot .. => true
  | .snapshotDue => true
  | .timeTick => true
  | .setpointInstant => true
  | .runUpStart => true
  | .stopAtRest => true
  | .encSample .. => true
  | .speedEdge .. => true
  | .stillTimeout .. => true
  | .calWindowClose .. => true
  | .calSlewEnd .. => true
  | .slotTrigger .. => true
  | .groupQueueOpen => true
  | .runComplete .. => true
  | .groupBuilt => true
  | .round2Built => true
  | .groupDeadline => true
  | .rleJobComplete .. => true
  | .ingestUnitFailure .. => true
  | .cribFillComplete => true
  | .loftReadComplete .. => true
  | .loftRequestIssue .. => true
  | .loftWriteBatch .. => true
  | .refreshDue .. => true
  | .dimmTempRead .. => true
  | .fillEngineStart => true
  | .fillEngineDone .. => true
  | .gleanerRead .. => true
  | .gleanerLapSlow .. => true
  | .loftChannelFault .. => true
  | .returnStatus .. => true
  | .returnTapReq .. => true
  | .returnTrained .. => true
  | .returnPrbsResult .. => true
  | .returnIdle _ fill => fill == 0
  | .returnLaneTimeout .. => true
  | .returnDownSettle .. => true
  | .frameSettleTimeout .. => true
  | .laneMessageTimeout .. => true
  | .trainTimeout .. => true
  | .noPartnerTimeout .. => true
  | .quadPllUnlock .. => true
  | .quadPllRelock .. => true
  | .amTimer => true
  | .trainBlock .. => true
  | .dxpDigest _ round2 mask digests =>
    digests.length == if round2 then (List.range 128).countP (fun i => mask.getLsbD i) else 128
  | .dxpAbort .. => true
  | .dxpHandoverRequest => true
  | .dxpHandoverPropose .. => true
  | .dxpHandoverAccept .. => true
  | .dxpHandoverCommit .. => true
  | .dxpArmReady .. => true
  | .dxpArmResult .. => true
  | .dxpTable m => m.wellFormed
  | .dxpTableReply .. => true
  | .dxpTableCommit .. => true
  | .dxpHello .. => true
  | .dxpHeartbeat .. => true
  | .heartbeatDue => true
  | .dxpLinkTimeout => true
  | .dxpQuietEnd => true
  | .dxpTrainTimeout => true
  | .dxpNoPartner => true
  | .twinArmTimeout => true
  | .partnerDead => true
  | .roleTake => true
  | .ethPortUp .. => true
  | .ethPortDown .. => true
  | .ptpFrameRx _ frame _ => decide (14 ≤ frame.length)
  | .ethFrameDiscard .. => true
  | .gangStartRx f => f.wellFormed
  | .gangUserRx f => f.wellFormed
  | .gangAbortRx f => f.wellFormed
  | .gangIdClash f => f.wellFormed
  | .partnerLive => true
  | .dxpTrainBlockRx .. => true
  | .dxpMessageDiscard => true
  | .returnMessageDiscard .. => true
  | .alignAm .. => true
  | .gangFrameRefused f => f.wellFormed
  | .msixVectorUnmask .. => true
  | .pfwNRise => true
  | .pfwNStableHigh => true
  | .loftAlert .. => true
  | .loftRowTimeout .. => true
  | .admissionComplete => true
  | .readbackComplete => true
  | .traceRecordSent => true
  | .pcieLinkUp rate width mps conf =>
    decide (1 ≤ rate.val) && [1, 4, 8, 16].contains width.val && decide (mps.val ≤ 2) && decide (conf.mrrs.val ≤ 5)

end Sys2Proof
end

