-- ==== Sys2Proof/Safety.lean ====
section
/-! DEFINITION. What a run keeps: the parts of State that a command may touch, the bounds that every step keeps, and
the words in which the statements are spelled. -/

namespace Sys2Proof.Machine

/-- A choice of parts of State. The queue of waiting commands is never chosen: no command touches it. -/
structure Parts where
  outs : Bool := false
  free : Bool := false
  pins : Bool := false
  glb : Bool := false
  regs : Bool := false
  latch : Bool := false
  halves : Bool := false
  hst : Bool := false
  chains : Bool := false
  chk : Bool := false
  units : Bool := false
  dos : Bool := false
  pac : Bool := false
  enc : Bool := false
  swl : Bool := false
  twn : Bool := false
  lft : Bool := false
  tim : Bool := false
  grn : Bool := false
  slo : Bool := false
  store : Bool := false
  obs : Bool := false
  readbacks : Bool := false
  deriving DecidableEq, Repr

/-- A state with the chosen parts blanked. -/
def State.blank (F : Parts) (s : State) : State where
  pending := s.pending
  outs := bif F.outs then [] else s.outs
  free := bif F.free then 0 else s.free
  pins := bif F.pins then {} else s.pins
  glb := bif F.glb then {} else s.glb
  regs := bif F.regs then [] else s.regs
  latch := bif F.latch then [] else s.latch
  halves := bif F.halves then [] else s.halves
  hst := bif F.hst then {} else s.hst
  chains := bif F.chains then [] else s.chains
  chk := bif F.chk then {} else s.chk
  units := bif F.units then {} else s.units
  dos := bif F.dos then {} else s.dos
  pac := bif F.pac then {} else s.pac
  enc := bif F.enc then {} else s.enc
  swl := bif F.swl then {} else s.swl
  twn := bif F.twn then {} else s.twn
  lft := bif F.lft then {} else s.lft
  tim := bif F.tim then {} else s.tim
  grn := bif F.grn then {} else s.grn
  slo := bif F.slo then {} else s.slo
  store := bif F.store then {} else s.store
  obs := bif F.obs then {} else s.obs
  readbacks := bif F.readbacks then [] else s.readbacks

/-- `t` differs from `s` in no part but the chosen ones: the frame of a command. -/
def changesOnly (F : Parts) (s t : State) : Prop := t.blank F = s.blank F

/-- Every part that the choice A holds is one of B. -/
def Parts.le (A B : Parts) : Bool :=
  (!A.outs || B.outs) &&
  (!A.free || B.free) &&
  (!A.pins || B.pins) &&
  (!A.glb || B.glb) &&
  (!A.regs || B.regs) &&
  (!A.latch || B.latch) &&
  (!A.halves || B.halves) &&
  (!A.hst || B.hst) &&
  (!A.chains || B.chains) &&
  (!A.chk || B.chk) &&
  (!A.units || B.units) &&
  (!A.dos || B.dos) &&
  (!A.pac || B.pac) &&
  (!A.enc || B.enc) &&
  (!A.swl || B.swl) &&
  (!A.twn || B.twn) &&
  (!A.lft || B.lft) &&
  (!A.tim || B.tim) &&
  (!A.grn || B.grn) &&
  (!A.slo || B.slo) &&
  (!A.store || B.store) &&
  (!A.obs || B.obs) &&
  (!A.readbacks || B.readbacks)

/-- What raising events and completing commands touches: outputs, fault counts (R510), the ring and its vectors (10),
the silo (R439), counters and trace (13). -/
def Parts.events : Parts := { outs := true, glb := true, hst := true, slo := true, obs := true }

/-- What ending, aborting or discarding a stripe may touch. -/
def Parts.ending : Parts := { Parts.events with free := true, units := true, pac := true, enc := true, twn := true, tim := true, store := true }

/-- The command answers a next state of which P holds. -/
def answers (c : Instr) (s : State) (P : State → Prop) : Prop := ∃ t, exec c s = .next t ∧ P t

/-- The bytes of a host read that a command brings, where it brings any. -/
def hostData : Instr → Option (List Byte)
  | .doorbellPollComplete d | .commandFetchComplete d | .descriptorReadComplete _ d | .dmaBurstEnd _ d
  | .makeupArmArm _ d | .beamMapSet _ d | .trimSet _ d => d
  | _ => none

/-- An event of this code and class was raised last: its class is counted, GLB_FAULT_LAST shows it where the class is
FAULT or above (R510), and unless the silo is frozen it stands at the silo's head (R439, R474). -/
def reported (code cls : Nat) (s t : State) : Prop :=
  tget t.glb.classCounts cls 0 = sat32 (tget s.glb.classCounts cls 0 + 1) ∧
  (4 ≤ cls → t.glb.faultCode = code ∧ t.glb.faultClass = cls) ∧
  (s.slo.frozen = false → ∃ e, tfind t.slo.entries s.slo.head = some e ∧ e.code = code ∧ e.cls = cls ∧
    e.time = ringTime (nowA s) ∧ e.seq = wrap32 (s.slo.seq + 1) ∧ t.slo.seq = e.seq)

/-- The command `id` completed with a status, after changes of the parts F alone (R370). -/
def completedWith (F : Parts) (id st : Nat) (s t : State) : Prop :=
  ∃ (u : State) (data : List Byte), changesOnly F s u ∧ t = complete id st data u

/-- The entry that a completion of command c writes or holds (R370, R372). -/
def completionEntry (c : Cmd) (st : Nat) (data : List Byte) (s : State) : Entry :=
  { event := false, opClass := c.opcode, tagCode := c.tag, status := st, time := ringTime (nowA s), slot := slotNow s,
    data := fit 40 data }

/-- A 32-bit write to register `off` reaches its register: nothing is held before it or holds it (R427), start-up is
past SELFTEST and the device is not in FATAL (R504). -/
def writeReaches (off : Nat) (s : State) : Prop :=
  s.grn.held = [] ∧ mustHold off s = false ∧ earlyPhase s = false ∧ s.glb.fatal = false

/-- Loft memory without an error, an unwritten raw region or an armed weevil; every region of [a, a+n) is valid. -/
def plainLoft (a n : Nat) (s : State) : Prop :=
  s.lft.marks = [] ∧ s.lft.raw = [] ∧ s.lft.wArmed = false ∧ ∀ x, a ≤ x → x < a + n → regionOf x ∈ s.lft.valid

/-- No write waits to enter a write queue, no region is being filled, and no burst waits for its writes: the loft has nothing to carry on
with after a command. -/
def loftQuiet (s : State) : Prop := s.lft.waits = [] ∧ s.lft.fills = [] ∧ ∀ c, (chainGet s c).landed = false

/-- The groups of the armed or running stripe stand in rising order, each once. -/
def GroupsRise (s : State) : Prop := ∀ st, s.pac.stripe = some st → (st.groups.map Prod.fst).Pairwise (· < ·)

/-- The bounds that hold whatever is commanded: loft memory in canonical form (R341), at most 1,024 held entries of
which at most 256 are INFO or WARN events (R375), at most 4,096 trace records (R461), the silo at most 8,192 entries
with its head inside the ring (R439), the make-up store at most 16,384 records (R482). -/
structure Bounded (s : State) : Prop where
  mem : Memory.wf s.lft.mem = true
  hold : s.hst.hold.length ≤ 1024
  minor : (s.hst.hold.filter Entry.minor).length ≤ 256
  trace : s.obs.trq.length ≤ 4096
  silo : s.slo.count ≤ 8192
  head : s.slo.head < 8192
  store : s.store.recs.length ≤ 16384

end Sys2Proof.Machine
end

