-- ==== Sys2Proof/Certificates/Slice0/Obligations.lean ====
section
/-! DEFINITION. The statements for the provers. `answers c s P`: exec of command c at s answers a next state of which P
holds. `changesOnly F s t`: the frame, t agrees with s outside the parts F. `reported code cls s t`: the event was
raised. `writeReaches off s`: a 32-bit write to the register is neither held nor discarded. -/

open Sys2Proof Sys2Proof.Machine

/-! ### The step -/

/-- A step takes the command at the front of the queue and executes it with the queue's rest; on an empty queue the block idles
(the model's choice, DESIGN CHOICE, log 18). -/
def Obligations.StepTakesFront : Prop :=
  (∀ (c : Instr) (q : List Instr) (s : State), step { s with pending := c :: q } = exec c { s with pending := q }) ∧
  ∀ s : State, s.pending = [] → step s = .next s

/-- Every command answers a next state in every state, with the queue of waiting commands as it was; the only stop is a host read
whose bytes do not have the length of the access that they answer (DESIGN CHOICE, log 1).
Rests on the model's own reading in log 23 (DESIGN CHOICE). -/
def Obligations.EveryCommandRuns : Prop :=
  ∀ (c : Instr) (s : State),
    (∃ t, exec c s = .next t ∧ t.pending = s.pending) ∨ (hostData c ≠ none ∧ exec c s = .fault (.malformed "data length"))

/-- The state right after reset (R439, R463, R482, R502 and the register tables): every block as the spec leaves it, every register
that software writes at the reset value of its table, the bounds and the group order met. Reset values that the spec does not give
are the model's choice (DESIGN CHOICE, log 2) and are not stated here. -/
def Obligations.ResetState : Prop :=
  let s := State.reset
  Bounded s ∧ GroupsRise s ∧ s.glb.phase = .reset ∧ s.glb.fatal = false ∧ s.pins.devReady = false ∧ s.pins.idle = true ∧
  s.grn.queue = [] ∧ s.grn.held = [] ∧ s.slo.count = 0 ∧ s.slo.frozen = false ∧ s.store.recs = [] ∧ s.store.full = false ∧
  s.pac.adm = none ∧ s.pac.stripe = none ∧ s.lft.valid = [] ∧ (∀ a, memGet s.lft.mem a = 0) ∧ s.twn.link = .disabled ∧ s.twn.paired = false ∧
  (∀ l, (laneGet s l).state = .disabled) ∧ (∀ c, (chainGet s c).state = .idle) ∧ (∀ i, tget s.obs.cnt i 0 = 0) ∧
  (∀ off, regGet s off = rwReset off % 2 ^ 32) ∧
  regGet s 0x10028 = 100 ∧ regGet s 0x60008 = 6000 ∧ regGet s 0x6000C = 100 ∧ regGet s 0x70428 = 10000 ∧ regGet s 0x100200 = 0xC8 ∧
  regGet s 0x120000 = 1 ∧ regGet s 0x13C054 = 3600 ∧ regGet s 0x150210 = 100 ∧ regGet s 0x180108 = 0x01FFFFFF ∧ regGet s 0x18010C = 1000

/-- Every step keeps the bounds: loft memory in canonical form, the hold queue under both caps, the trace queue, the
silo and the make-up store within their sizes. -/
def Obligations.StepKeepsBounds : Prop := ∀ s t : State, Bounded s → step s = .next t → Bounded t

/-- Every step keeps the groups of the armed or running stripe in rising order, each once. -/
def Obligations.StepKeepsGroups : Prop := ∀ s t : State, GroupsRise s → step s = .next t → GroupsRise t

/-! ### Power, resets and start-up (14) -/

/-- POWER_ON (R463, R465, R505): every state starts from its power-on value, silo and make-up store cleared; of the
granary the words and rings stay, as they stood where no word write was under way. Warm resets (R464 to R466, R505, R507): the fall of SYS_RST_N in a powered device, and the key written to GLB_RESET.
The silo with its frozen state and the make-up store survive, the granary is kept, every other state is lost, DEV_READY
falls; GLB_RESET keeps the PCIe link and BAR2 and starts up again, and any other value changes nothing.
Rests on the model's own reading in log 88 (DEDUCED). -/
def Obligations.ResetsKeep : Prop :=
  ∀ s : State,
    (answers .powerOn s fun t =>
      t = { State.reset with pending := s.pending, outs := s.outs, free := s.free,
                             pins := { powered := true, perstN := s.pins.perstN, pfwN := s.pins.pfwN },
                             grn := { words := t.grn.words, ones := t.grn.ones, rings := t.grn.rings } } ∧
      (s.grn.writing = [] → t.grn.words = s.grn.words ∧ t.grn.ones = s.grn.ones ∧ t.grn.rings = s.grn.rings)) ∧
    (s.pins.powered = true → s.pins.sysRstN = true → answers .sysRstNFall s fun t =>
      t = { State.reset with
            pending := s.pending, outs := s.outs, free := s.free,
            pins := { perstN := s.pins.perstN, pfwN := s.pins.pfwN },
            glb := { cause := 2, warmCount := min 255 (s.glb.warmCount + 1) },
            grn := { words := t.grn.words, ones := t.grn.ones, rings := t.grn.rings }, slo := { s.slo with missed := 0 }, store := s.store } ∧
      t.pins.devReady = false ∧ t.pins.idle = true ∧
      (s.grn.writing = [] → t.grn.words = s.grn.words ∧ t.grn.ones = s.grn.ones ∧ t.grn.rings = s.grn.rings)) ∧
    (writeReaches 0x28 s → s.pins.powered = true → ∀ req,
      (answers (.glbReset 0x52534554 req) s fun t =>
        t.slo = { s.slo with missed := 0 } ∧ t.store = s.store ∧ t.regs = [] ∧ t.lft = {} ∧ t.pac = {} ∧ t.swl = {} ∧
        t.glb = { phase := .clocks, cause := 3, warmCount := min 255 (s.glb.warmCount + 1) } ∧ t.pins.sysRstN = true ∧
        t.hst.linkUp = s.hst.linkUp ∧ t.hst.bar2 = s.hst.bar2 ∧ t.hst.unmasked = s.hst.unmasked ∧ t.hst.tail = 0 ∧
        t.hst.mps = s.hst.mps ∧ t.hst.mrrs = s.hst.mrrs ∧ t.hst.bar0 = s.hst.bar0 ∧ t.hst.bar2Base = s.hst.bar2Base ∧ t.hst.msixEn = s.hst.msixEn ∧
        (s.grn.writing = [] → t.grn.words = s.grn.words ∧ t.grn.ones = s.grn.ones ∧ t.grn.rings = s.grn.rings)) ∧
      ∀ v : W32, v ≠ 0x52534554 → exec (.glbReset v req) s = .next s)

/-- Start-up (R464, R469, R470, R472): the rise of SYS_RST_N starts it, the locked PLLs start the self-test, a self-test
without a failure starts steps 3 and 4, and a device that has everything is ready: EV_STARTUP_DONE, DEV_READY. -/
def Obligations.StartupSteps : Prop :=
  ∀ s : State,
    (s.pins.powered = true → s.pins.sysRstN = false → answers .sysRstNRise s fun t =>
      t.glb.phase = .clocks ∧ t.pins.sysRstN = true ∧ t.grn.startHold = !s.pins.pfwN ∧
      changesOnly { pins := true, glb := true, grn := true } s t) ∧
    (s.glb.phase = .clocks → answers .clocksLocked s fun t =>
      t = { s with glb := { s.glb with phase := .selftest, clocksOk := true } }) ∧
    (s.glb.phase = .selftest → answers (.selftestDone []) s fun t =>
      t.glb = { s.glb with phase := .loading, selftestOk := true } ∧ t.units.thrReady = true ∧ t.chk.good = 0xFFFF ∧
      (∀ c, c < 12 → lftGet t c = { state := .training }) ∧
      changesOnly { glb := true, units := true, chk := true, lft := true } s t) ∧
    (startupReady s = true → ∀ us, answers (.startupDone us) s fun t =>
      t.pins.devReady = true ∧ t.glb.phase = .ready ∧ t.glb.startupUs = us ∧ reported 0x0001 0 s t ∧
      changesOnly { Parts.events with pins := true } s t)

/-- FATAL (R479, R480): the causes CLOCK, SUPPLY while PFW_N is high, THERMAL at 120.0 °C and INTERNAL, in a device out
of reset that is not in FATAL: the cause shows, the silo is frozen after EV_FATAL (stated outside a stripe, where no
make-up record follows it, and for the causes that raise no other event before it), the lanes are at electrical
idle, TWIN_LIVE_O and the pace clock stop, DEV_FAULT_N is low, the stripe has ended, no frame is in flight, no command fetch and no
loft scan is under way, the Dexpin link is down and a table command has ended.
Rests on the model's own reading in log 85 (DEDUCED), log 111 (DESIGN CHOICE). -/
def Obligations.FatalCauses : Prop :=
  ∀ (s : State) (unit : Byte) (hk : Bool) (c : Instr) (cause : Nat),
    s.glb.fatal = false → s.glb.phase ≠ .reset →
    (c = .pllLockLoss unit hk ∧ cause = 2 ∨ c = .supplyFault unit hk ∧ cause = 3 ∧ s.pins.pfwN = true ∨
      (∃ x, c = .dieTempRead x ∧ 1920 ≤ x.toInt ∧ cause = 4) ∨ c = .watchdogExpiry unit ∧ cause = 5) →
    answers c s fun t =>
      t.glb.fatal = true ∧ t.glb.fatalCause = cause ∧ t.glb.phase = .fatal ∧ (s.pac.stripe = none → cause ≠ 4 → reported 0x0003 5 s t) ∧
      t.slo.frozen = true ∧ t.pins.idle = true ∧ t.pins.twinLiveO = false ∧ t.pins.paceClk = false ∧ t.pins.devFaultN = false ∧
      t.pac.stripe = none ∧ t.readbacks = [] ∧ t.hst.fetchLen = 0 ∧ t.swl.flight = none ∧ t.chk.scans = [] ∧ t.twn.link = .disabled ∧
      t.twn.tableX = none ∧ t.tim.launches = [] ∧
      changesOnly { Parts.events with pins := true, chk := true, dos := true, pac := true, swl := true, twn := true, tim := true, grn := true,
                                      store := true, readbacks := true } s t

/-- DIE_TEMP_READ (R478): EV_DIE_TEMP, which carries the reading, where it reaches 105.0 °C and the block was not hot; the
block is hot from then until a reading of 100.0 °C or less; 120.0 °C or more is a FATAL cause. Codes are in units of 1/16 °C. -/
def Obligations.DieTemperature : Prop :=
  ∀ (s : State) (x : BitVec 16), s.glb.phase ≠ .reset →
    (x.toInt < 1920 → answers (.dieTempRead x) s fun t =>
      t.glb.dieTemp = x ∧ changesOnly Parts.events s t ∧
      (1680 ≤ x.toInt → t.glb.dieHot = true) ∧ (x.toInt ≤ 1600 → t.glb.dieHot = false) ∧
      (1600 < x.toInt → x.toInt < 1680 → t.glb.dieHot = s.glb.dieHot) ∧
      (1680 ≤ x.toInt → s.glb.dieHot = false → reported 0x0004 1 s t ∧
        (s.slo.frozen = false → ∃ e, tfind t.slo.entries s.slo.head = some e ∧ e.payload = le 2 x.toNat ++ List.replicate 10 0)) ∧
      (x.toInt < 1680 ∨ s.glb.dieHot = true → t.slo = s.slo ∧ t.glb.classCounts = s.glb.classCounts)) ∧
    (1920 ≤ x.toInt → s.glb.fatal = false → answers (.dieTempRead x) s fun t =>
      t.glb.dieTemp = x ∧ t.glb.fatal = true ∧ t.glb.fatalCause = 4 ∧ t.glb.phase = .fatal)

/-! ### Events, completions and the ring (10, 14) -/

/-- Raising an event (R439, R474, R510): its class is counted, GLB_FAULT_LAST and GLB_FAULT_SEQ show a FAULT or FATAL
event, the silo takes it unless frozen and then counts it as missed, and beside that only outputs, the ring and the
counters change. -/
def Obligations.EventRaised : Prop :=
  ∀ (code cls : Nat) (p : List Byte) (s : State),
    reported code cls s (raise code cls p s) ∧
    (raise code cls p s).glb.faultSeq = (if 4 ≤ cls then wrap32 (s.glb.faultSeq + 1) else s.glb.faultSeq) ∧
    (s.slo.frozen = true → (raise code cls p s).slo = { s.slo with missed := sat32 (s.slo.missed + 1) }) ∧
    changesOnly Parts.events s (raise code cls p s)

/-- A completion (R370, R371, R374): the command leaves flight; where nothing is held and the ring is open, its entry is
written at the tail, in one 64-byte request or, under SPLIT_HDR, its body before its head, and tail, seq and PHASE go
on; where the ring is shut and the hold queue has room, the entry is held behind the others. -/
def Obligations.CompletionEntry : Prop :=
  ∀ (id st : Nat) (data : List Byte) (s : State) (c : Cmd), cmdFind s id = some c →
    cmdFind (complete id st data s) id = none ∧
    changesOnly { outs := true, hst := true, obs := true } s (complete id st data s) ∧
    (s.hst.hold = [] → ringOpen s = true →
      let e := completionEntry c st data s
      let base := regPair s 0x10014 0x10018 + 64 * s.hst.tail
      let bs := entryBytes s e
      let w := if bitAt (regGet s 0x10000) 1 then [Output.hostWrite base (bs.take 4), .hostWrite (base + 4) (bs.drop 4)]
        else [.hostWrite base bs]
      ((complete id st data s).outs = w ++ s.outs ∨ (complete id st data s).outs = .msix 0 :: (w ++ s.outs)) ∧
      (complete id st data s).hst.tail = (s.hst.tail + 1) % cplSize s ∧
      (complete id st data s).hst.seq = wrap32 (s.hst.seq + 1) ∧
      (complete id st data s).hst.cyclePhase = (if (s.hst.tail + 1) % cplSize s = 0 then !s.hst.cyclePhase else s.hst.cyclePhase)) ∧
    (ringOpen s = false → s.hst.hold.length < 1024 →
      (complete id st data s).hst.hold = s.hst.hold ++ [completionEntry c st data s] ∧ (complete id st data s).hst.held18 = true)

/-- The caps of the hold queue (R375): an INFO or WARN entry that finds its 256 places taken is dropped and counted,
whether or not the queue is full; any other entry that finds 1,024 places taken is lost and counted; else it is held
last. Vector 18 is signalled once while entries are held. -/
def Obligations.HoldQueueCaps : Prop :=
  ∀ (e : Entry) (s : State),
    let t := holdEntry e s
    let minors := (s.hst.hold.filter Entry.minor).length
    t.hst.held18 = true ∧ changesOnly { outs := true, hst := true, obs := true } s t ∧
    (e.minor = true → 256 ≤ minors →
      t.hst.hold = s.hst.hold ∧ t.hst.dropRc = sat32 (s.hst.dropRc + 1) ∧ t.hst.evDrop = true ∧ t.hst.lostRc = s.hst.lostRc) ∧
    (¬ (e.minor = true ∧ 256 ≤ minors) → 1024 ≤ s.hst.hold.length →
      t.hst.hold = s.hst.hold ∧ t.hst.lostRc = sat32 (s.hst.lostRc + 1) ∧ t.hst.evLost = true ∧ t.hst.dropRc = s.hst.dropRc) ∧
    (¬ (e.minor = true ∧ 256 ≤ minors) → s.hst.hold.length < 1024 →
      t.hst.hold = s.hst.hold ++ [e] ∧ t.hst.dropRc = s.hst.dropRc ∧ t.hst.lostRc = s.hst.lostRc) ∧
    (s.hst.held18 = true → t.outs = s.outs ∧ t.hst.pba = s.hst.pba)

/-- HOLD_QUEUE_DRAIN, MSIX_MODERATION_TIMER, MSIX_VECTOR_UNMASK (R375, R379): while the ring is shut the held entries
stay; one held entry that may be written is written at the tail; the timer signals vector 0 and clears its count; a
vector whose message is pending sends it when it is unmasked, where the link is live, MSI-X is enabled and the function is not masked, and its
pending bit clears. Rests on the model's own reading in log 100 (PRESUMED). -/
def Obligations.RingRows : Prop :=
  ∀ s : State,
    (ringOpen s = false → exec .holdQueueDrain s = .next s) ∧
    (∀ e, s.hst.hold = [e] → ringOpen s = true → s.hst.dropSince + s.hst.lostSince = 0 → answers .holdQueueDrain s fun t =>
      t.hst.hold = [] ∧ t.hst.held18 = false ∧ t.hst.tail = (s.hst.tail + 1) % cplSize s ∧
      t.hst.seq = wrap32 (s.hst.seq + 1) ∧ changesOnly Parts.events s t) ∧
    (regGet s 0x1002C % 65536 ≠ 0 → 0 < s.hst.modCount → answers .msixModerationTimer s fun t =>
      t.hst.modCount = 0 ∧ (vecOpen s 0 = true → t.outs = .msix 0 :: s.outs) ∧
      (vecOpen s 0 = false → 0 ∈ t.hst.pba ∧ t.outs = s.outs) ∧ changesOnly { outs := true, hst := true } s t) ∧
    (∀ (vec : Fin 64) (v : W32), vec.val ∉ s.hst.unmasked → answers (.msixVectorUnmask vec v) s fun t =>
      let mayGo : Bool := linkLive s && s.hst.msixEn && !s.hst.msixMask
      vec.val ∈ t.hst.unmasked ∧ (mayGo = true → vec.val ∉ t.hst.pba) ∧ (mayGo = false → t.hst.pba = s.hst.pba) ∧
      t.outs = (if mayGo && s.hst.pba.contains vec.val then .msix vec.val :: s.outs else s.outs) ∧
      changesOnly { outs := true, hst := true } s t)

/-! ### The host interface (10) -/

/-- PCIE_LINK_UP, PCIE_PERST_N, PCIE_LINK_RESET (R363, R467, R506): the link comes up while PERST_N and SYS_RST_N are
high, with the configuration that the root complex writes, and sends the pending messages that it opens; a host reset returns HST, its
registers, the configuration space and the chains to reset, ends polling and, in a device out of reset, sends EV_HOST_LINK_DOWN; every other
block keeps its state, but that the chains' reads and waiting writes in the loft belong to no chain any more.
Rests on the model's own reading in log 87 (DEDUCED), log 100 (PRESUMED). -/
def Obligations.HostResets : Prop :=
  ∀ s : State,
    (∀ rate width mps conf, s.pins.perstN = true → s.pins.sysRstN = true → answers (.pcieLinkUp rate width mps conf) s fun t =>
      t.hst.linkUp = true ∧ t.hst.rate = rate ∧ t.hst.width = width ∧ t.hst.mps = mps ∧ t.hst.mrrs = conf.mrrs ∧
      t.hst.msixEn = conf.msixEn ∧ t.hst.msixMask = conf.msixMask ∧ t.hst.d3hot = conf.d3hot ∧
      t.hst.bar0 = conf.bar0.toNat / 2 ^ 24 * 2 ^ 24 ∧ t.hst.bar2Base = conf.bar2.toNat / 8192 * 8192 ∧
      (s.hst.pba = [] → t.outs = s.outs ∧ t.hst.pba = []) ∧ (∀ v ∈ t.hst.pba, vecOpen t v = false) ∧
      t.hst.head = s.hst.head ∧ t.hst.tail = s.hst.tail ∧ t.hst.hold = s.hst.hold ∧ t.hst.inflight = s.hst.inflight ∧
      changesOnly { outs := true, hst := true } s t) ∧
    (answers (.pciePerstN true) s fun t => t = { s with pins := { s.pins with perstN := true } }) ∧
    ∀ (c : Instr) (down : Bool),
      (c = .pciePerstN false ∧ s.pins.perstN = true ∧ down = true ∨
        ∃ cause : Fin 3, c = .pcieLinkReset cause ∧ s.hst.linkUp = true ∧ down = decide (cause.val < 2)) →
      s.glb.phase ≠ .reset →
      answers c s fun t =>
        t.chains = [] ∧ hstEn t = false ∧ (∀ off, off / 65536 = 1 → regGet t off = rwReset off) ∧
        t.hst.polled = false ∧ t.hst.linkDownSeen = true ∧ t.hst.unmasked = [] ∧ t.hst.bar2 = [] ∧ t.hst.bar0 = 0 ∧ t.hst.msixEn = false ∧
        t.hst.linkUp = (!down && s.hst.linkUp) ∧ (c = .pciePerstN false → t.pins = { s.pins with perstN := false }) ∧
        (c ≠ .pciePerstN false → t.pins = s.pins) ∧
        reported 0x0101 4 s t ∧
        changesOnly { Parts.events with pins := true, chains := true, regs := true, halves := true, latch := true, lft := true } s t

/-- DOORBELL_POLL and its completion (R365, R383): one read of the 128-byte block while enabled and linked; good data
give CMD_TAIL and CPL_HEAD, each modulo its ring's size, and the kicks; a failed read ends the poll, is reported through AER, and does
nothing else. Rests on the model's own reading in log 100 (PRESUMED). -/
def Obligations.DoorbellPolls : Prop :=
  ∀ s : State,
    (hstEn s = true → linkLive s = true → s.hst.pollOut = false → answers .doorbellPoll s fun t =>
      t.hst = { s.hst with pollOut := true } ∧ t.outs = .hostRead (regPair s 0x10020 0x10024) 128 :: s.outs ∧
      changesOnly { outs := true, hst := true, obs := true } s t) ∧
    (s.hst.pollOut = true → answers (.doorbellPollComplete none) s fun t =>
      t = { s with outs := .aerReport :: s.outs, hst := { s.hst with pollOut := false } }) ∧
    (∀ b : List Byte, s.hst.pollOut = true → b.length = 128 → answers (.doorbellPollComplete (some b)) s fun t =>
      t.hst.pollOut = false ∧ t.hst.polled = true ∧ t.hst.cmdTail = fld b 0 4 % cmdSize s ∧
      t.hst.cplHead = fld b 4 4 % cplSize s ∧ (∀ c, c < 16 → kickOf t c = fld b (0x40 + 4 * c) 4) ∧
      changesOnly { Parts.events with chains := true } s t) ∧
    (∀ b : List Byte, s.hst.pollOut = true → b.length ≠ 128 →
      exec (.doorbellPollComplete (some b)) s = .fault (.malformed "data length"))

/-- The kicks of a poll (R365, R383): the first poll only remembers them; later a value that differs starts an enabled
chain that is IDLE or STOPPED at its head, and makes one that waits read its end mark's `next` again. -/
def Obligations.KicksStartChains : Prop :=
  ∀ (s : State) (b : List Byte) (c : Fin 16), s.hst.pollOut = true → b.length = 128 →
    answers (.doorbellPollComplete (some b)) s fun t =>
      let k := fld b (0x40 + 4 * c.val) 4
      let x := chainGet s c
      (s.hst.polled = false → chainGet t c = { x with kickSeen := k }) ∧
      (s.hst.polled = true → chEn s c = true → x.owner = none → x.kickSeen ≠ k → (x.state = .idle ∨ x.state = .stopped) →
        (chainGet t c).state = .run ∧ (chainGet t c).cur = chHead s c ∧ (chainGet t c).reading = true ∧
        (chainGet t c).kickSeen = k ∧ Output.hostRead (chHead s c) 64 ∈ t.outs) ∧
      (s.hst.polled = true → chEn s c = true → x.owner = none → x.kickSeen ≠ k → x.state = .wait → x.rereading = false →
        chainGet t c = { x with rereading := true, kickAtRead := k } ∧ Output.hostRead x.cur 8 ∈ t.outs) ∧
      (s.hst.polled = true → (x.kickSeen = k ∨ chEn s c = false) → chainGet t c = x)

/-- COMMAND_FETCH_COMPLETE (R368): CMD_HEAD goes on by the entries fetched, modulo the ring's size, and a fetched
entry of a known opcode is in flight with its fields and, unless R369 delays it, started; a failed read is reported through AER and moves
nothing; with no fetch under way, as after FATAL (R377), nothing happens (the model's choice, DESIGN CHOICE, log 23). -/
def Obligations.CommandFetch : Prop :=
  (∀ (s : State) (d : Option (List Byte)), s.hst.fetchLen = 0 → exec (.commandFetchComplete d) s = .next s) ∧
  ∀ s : State, 0 < s.hst.fetchLen →
    (answers (.commandFetchComplete none) s fun t => t = { s with outs := .aerReport :: s.outs, hst := { s.hst with fetchLen := 0 } }) ∧
    (∀ b : List Byte, b.length = 64 * s.hst.fetchLen → s.hst.head < cmdSize s → answers (.commandFetchComplete (some b)) s fun t =>
      t.hst.head = (s.hst.head + s.hst.fetchLen) % cmdSize s ∧ t.hst.nextId = s.hst.nextId + s.hst.fetchLen ∧
      changesOnly { outs := true, hst := true, obs := true } s t ∧
      (s.hst.fetchLen = 1 → (∀ d ∈ s.hst.inflight, d.id < s.hst.nextId) → fld b 0 1 ≤ 0x0E →
        ∃ c, cmdFind t s.hst.nextId = some c ∧ c.opcode = fld b 0 1 ∧ c.flags = fld b 1 1 ∧ c.tag = fld b 2 2 ∧
          c.params = (b.drop 16).take 48 ∧ c.phase ≠ .running))

/-- COMMAND_START (R369, R376): a waiting command that nothing delays starts; an opcode that the table does not define
completes with BAD_OPCODE at once. -/
def Obligations.CommandStarts : Prop :=
  ∀ (s : State) (id : Nat) (c : Cmd), cmdFind s id = some c → c.phase = .waiting → mayStart s c = true →
    (c.opcode ≤ 0x0E → answers (.commandStart id) s fun t =>
      cmdFind t id = some { c with phase := .started } ∧ (∀ j, j ≠ id → cmdFind t j = cmdFind s j) ∧ changesOnly { hst := true } s t) ∧
    (0x0E < c.opcode → answers (.commandStart id) s fun t => completedWith { hst := true } id 1 s t)

/-- HST_ENABLE, HST_DISABLE (R365, R371, R385) and CHAIN_DISABLE: a rise of EN starts every index at 0 with PHASE 1
and no poll or fetch; written where it is set already it changes the other settings alone; a fall leaves all but the register: the ring and
the hold queue stay, and neither polls nor fetches start. EN of a chain cleared between bursts returns it to IDLE, its descriptor ABORTED where one
runs; a STOPPED chain returns to IDLE; during a burst the chain is withdrawn at the burst's end. -/
def Obligations.EnablesHost : Prop :=
  ∀ s : State,
    (writeReaches 0x10000 s → ∀ v : W32,
      (hstEn s = false → answers (.hstEnable v) s fun t =>
        hstEn t = true ∧ t.hst.head = 0 ∧ t.hst.tail = 0 ∧ t.hst.cyclePhase = true ∧ t.hst.polled = false ∧ t.hst.pollOut = false ∧
        t.hst.fetchLen = 0 ∧ t.hst.hold = s.hst.hold ∧ t.hst.inflight = s.hst.inflight ∧
        (∀ o, o ≠ 0x10000 → regGet t o = regGet s o) ∧ changesOnly { regs := true, hst := true } s t) ∧
      (hstEn s = true → answers (.hstEnable v) s fun t => hstEn t = true ∧ (∀ o, o ≠ 0x10000 → regGet t o = regGet s o) ∧ changesOnly { regs := true } s t) ∧
      (answers (.hstDisable v) s fun t => hstEn t = false ∧ (∀ o, o ≠ 0x10000 → regGet t o = regGet s o) ∧ changesOnly { regs := true } s t)) ∧
    ∀ (c : Fin 16) (v : W32), writeReaches (chBase c) s →
      let x := chainGet s c
      answers (.chainDisable c v) s fun t =>
        chEn t c = false ∧ changesOnly { outs := true, regs := true, hst := true, chains := true, obs := true } s t ∧
        (∀ k : Nat, k ≠ c.val → chainGet t k = chainGet s k) ∧
        (x.state = .idle → t.chains = s.chains) ∧
        (x.state = .stopped → x.burst = none → (chainGet t c).state = .idle ∧ (chainGet t c).last = x.last ∧ (chainGet t c).descs = x.descs) ∧
        (x.state = .run ∨ x.state = .wait → x.burst.isSome = true → chainGet t c = { x with withdrawn := true }) ∧
        (x.state = .run ∨ x.state = .wait → x.burst = none → (chainGet t c).state = .idle ∧
          (x.state = .run → (chainGet t c).last = 0x16 ∧ (chainGet t c).descs = x.descs + 1))

/-- DESCRIPTOR_READ_COMPLETE (R382, R383, R387, R389): a descriptor that passes the checks is taken, its CRC started
where it says so; a failed read, or a check that fails, stops the chain with its status and raises EV_CHAIN_STOPPED; an end
mark read again goes on at `next`, or waits on.
Rests on the model's own reading in log 35 (DEDUCED). -/
def Obligations.DescriptorReads : Prop :=
  ∀ (s : State) (c : Fin 16), let x := chainGet s c
    (x.reading = true → x.rereading = false →
      (∀ b : List Byte, b.length = 64 → descCheck s c b = 0 → answers (.descriptorReadComplete c (some b)) s fun t =>
        t = chainSet s c { x with reading := false, desc := some (parseDesc b), user := (parseDesc b).user,
                                  crc := if (parseDesc b).crcReset then crcInit (chAlgo s c) else x.crc }) ∧
      (∀ (d : Option (List Byte)) (st : Nat),
        (d = none ∧ st = 0x10 ∨ ∃ b, d = some b ∧ b.length = 64 ∧ descCheck s c b = st ∧ st ≠ 0) →
        answers (.descriptorReadComplete c d) s fun t =>
          (chainGet t c).state = .stopped ∧ (chainGet t c).last = st ∧ (chainGet t c).descs = x.descs + 1 ∧
          (x.owner = none → st ≠ 0x15 → reported 0x0102 1 s t) ∧ changesOnly { Parts.events with chains := true } s t)) ∧
    (x.rereading = true →
      (answers (.descriptorReadComplete c none) s fun t =>
        (chainGet t c).state = .stopped ∧ (chainGet t c).last = 0x10 ∧ (chainGet t c).user = x.user ∧
        (x.owner = none → reported 0x0102 1 s t) ∧ changesOnly { Parts.events with chains := true } s t) ∧
      ∀ b : List Byte, b.length = 8 → answers (.descriptorReadComplete c (some b)) s fun t =>
        (bitAt (fld b 0 8) 0 = true → t = chainSet s c { x with rereading := false, kickSeen := x.kickAtRead }) ∧
        (bitAt (fld b 0 8) 0 = false → (chainGet t c).state = .run ∧ (chainGet t c).cur = fld b 0 8 / 64 * 64 ∧
          t.outs = .hostRead (fld b 0 8 / 64 * 64) 64 :: s.outs))

/-- A write to the loft (R321, R342): where the region is valid, nothing waits, no fill is under way and the channel's write queue has a place, a
whole block enters the write queue as one request with its bytes, behind the others, and memory is not yet changed. A write that has
been issued (R339, R340): with the weevil disarmed each byte of its block reads back and every other byte of loft memory stays. -/
def Obligations.LoftWrites : Prop :=
  (∀ (client a : Nat) (owner : Option Nat) (bs : List Byte) (s : State), a % 64 = 0 → bs.length = 64 → regionOf a ∈ s.lft.valid →
    s.lft.waits = [] → s.lft.fills = [] → writeRoom s (a / 64) = true →
    let c := (coordOf s a).ch
    let t := loftWrite client owner false a bs s
    (∃ w, (lftGet t c).writes = (lftGet s c).writes ++ [w] ∧ w.addr = a ∧ w.data = bs ∧ w.client = client ∧ w.rank = 4 ∧ w.poison = false) ∧
    t.lft.waits = [] ∧ t.lft.mem = s.lft.mem ∧ (∀ k, k ≠ c → lftGet t k = lftGet s k) ∧ changesOnly { lft := true } s t) ∧
  ∀ (w : LftReq) (s : State), w.addr % 64 = 0 → w.data.length = 64 → weevilHits s (w.addr / 64) = false → ∀ x : Nat,
    memGet (putBlock w s).lft.mem x =
      if w.addr ≤ x ∧ x < w.addr + 64 then w.data.getD (x - w.addr) 0 else memGet s.lft.mem x

/-- DMA_BURST_START (R385, R386): the next burst of the descriptor under way, at most 4,096 bytes and within one
4,096-byte page of host address; on the host side it starts when the round robin behind the requester granted last reaches its
chain, is put off and counted once where it does not, and from the host it issues its reads, none longer than the max read request
size; a burst from the loft queues its block reads.
Rests on the model's own reading in log 36 (DESIGN CHOICE). -/
def Obligations.BurstStarts : Prop :=
  ∀ (s : State) (c : Fin 16) (d : Desc) (spaced : BitVec 17), let x := chainGet s c
    x.desc = some d → x.state = .run → x.burst = none → x.withdrawn = false → descMoved x = false → d.lineLen > x.off →
    0 < burstLen x d ∧ burstLen x d ≤ 4096 ∧ burstLen x d ≤ d.lineLen - x.off ∧
    (d.dir = 0 → burstSrc x d % 4096 + burstLen x d ≤ 4096) ∧
    (d.dir = 1 → burstDst x d % 4096 + burstLen x d ≤ 4096) ∧
    (d.dir = 2 ∨ linkLive s = true ∧ burstGrant s c spaced = true → answers (.dmaBurstStart ⟨c, spaced⟩) s fun t =>
      chainGet t c = { x with burst := some (burstSrc x d, burstLen x d), got := [], landed := false, deferred := false } ∧
      t.hst.granted = (if d.dir = 2 then s.hst.granted else c.val) ∧
      t.outs = (if d.dir = 0 then (readGo (maxRead s) (burstLen x d + 1) (burstSrc x d) (burstLen x d)).reverse ++ s.outs else s.outs) ∧
      changesOnly { outs := true, hst := true, chains := true, lft := true } s t) ∧
    (d.dir ≠ 2 → linkLive s = true → burstGrant s c spaced = false → answers (.dmaBurstStart ⟨c, spaced⟩) s fun t =>
      chainGet t c = { x with deferred := true } ∧ changesOnly { chains := true, obs := true } s t)

/-- DMA_BURST_END (R385 to R388), for a chain that is not withdrawn and a descriptor that stores no CRC: from the host the bytes are written to the
loft at the destination, towards the host the bytes that the loft blocks returned leave with one write; CHc_BYTES and the position go on by the
burst once the loft has taken the bytes, until then the burst has landed and stays; a failed host read marks the descriptor. -/
def Obligations.BurstEnds : Prop :=
  ∀ (s : State) (c : Fin 16) (d : Desc) (a n : Nat), let x := chainGet s c
    x.desc = some d → x.burst = some (a, n) → x.withdrawn = false → x.landed = false → d.crcStore = false →
    (d.dir = 0 → answers (.dmaBurstEnd c none) s fun t => t = chainSet s c { x with burst := none, failed := true }) ∧
    (∀ b : List Byte, d.dir = 0 → b.length = n → answers (.dmaBurstEnd c (some b)) s fun t =>
      t.lft = (loftWrite 1 (some c.val) false (burstDst x d) b s).lft ∧
      (chainWriting t c = false → (chainGet t c).burst = none ∧ (chainGet t c).bytes = (x.bytes + n) % 2 ^ 64 ∧ (chainGet t c).done = x.done + n) ∧
      (chainWriting t c = true → (chainGet t c).burst = some (a, n) ∧ (chainGet t c).landed = true ∧ (chainGet t c).bytes = x.bytes)) ∧
    (d.dir = 1 → burstRead x (burstSrc x d) n = true → answers (.dmaBurstEnd c none) s fun t =>
      (chainGet t c).burst = none ∧ (chainGet t c).bytes = (x.bytes + n) % 2 ^ 64 ∧ (chainGet t c).done = x.done + n ∧
      ((chainGet t c).line = if x.off + n ≥ d.lineLen then x.line + 1 else x.line) ∧
      t.outs = (if bitAt (regGet s 0x10000) 2 then .hostWriteRo (burstDst x d) (burstBytes x (burstSrc x d) n)
        else .hostWrite (burstDst x d) (burstBytes x (burstSrc x d) n)) :: s.outs ∧ t.lft = s.lft) ∧
    (d.dir ≠ 0 → burstRead x (burstSrc x d) n = false → exec (.dmaBurstEnd c none) s = .next s)

/-- DESCRIPTOR_END (R387, R388): the status is written at the descriptor's 0x38 and LAST_STATUS is OK; the chain goes on at
`next`, or at the end mark waits; vector 2 + c is signalled under IRQ. Stated for a chain of no SHEAF_LOAD whose
writes have entered the loft. -/
def Obligations.DescriptorEnds : Prop :=
  ∀ (s : State) (c : Fin 16) (d : Desc), let x := chainGet s c
    x.desc = some d → x.state = .run → descMoved x = true → chainWriting s c = false → x.failed = false → x.srcUe = false → x.owner = none →
    answers (.descriptorEnd c) s fun t =>
      (chainGet t c).last = 0 ∧ (chainGet t c).descs = x.descs + 1 ∧ (chainGet t c).moved = x.moved + x.done ∧
      Output.hostWrite (x.cur + 0x38) (le 8 (x.done * 65536 + 1)) ∈ t.outs ∧
      (d.irq = true → vecOpen s (2 + c.val) = true → Output.msix (2 + c.val) ∈ t.outs) ∧
      (d.last = true → (chainGet t c).state = .wait ∧ (chainGet t c).kickSeen = x.kickAtRead) ∧
      (d.last = false → (chainGet t c).state = .run ∧ (chainGet t c).cur = d.nextAddr ∧ (chainGet t c).reading = true ∧
        Output.hostRead d.nextAddr 64 ∈ t.outs) ∧
      changesOnly { outs := true, hst := true, chains := true, obs := true } s t

/-- NOP, SHEAF_LOAD, SCAN_CHECK, READBACK, READBACK_COMPLETE (R367, R376, R392 to R396): NOP completes with OK, or BAD_FIELD on
a reserved field that is not 0; SHEAF_LOAD starts its chain at the address of the command; a scan takes the lowest free CHK unit and reads its
first block, or waits for one; a READBACK of the held stripe runs and reads the blocks of its tiles, and once all have returned it completes with
OK, or with LOFT_READ where one was uncorrectable.
Rests on the model's own reading in log 26 (DESIGN CHOICE), log 37 (DEDUCED), log 38 (DESIGN CHOICE), log 40 (DEDUCED). -/
def Obligations.RingCommands : Prop :=
  ∀ (s : State) (id : Nat) (c : Cmd), cmdFind s id = some c → c.phase = .started →
    (c.opcode = 0 → answers (.nop id) s fun t => completedWith {} id (if c.reserved 0 then 2 else 0) s t) ∧
    (c.opcode = 1 → c.reserved 0x18 = false → c.p 0x11 1 < 2 → c.p 0x12 6 = 0 → c.p 0x10 1 < 16 → s.lft.trained = true →
      ((chainGet s (c.p 0x10 1)).state = .idle ∨ (chainGet s (c.p 0x10 1)).state = .stopped) →
      (chainGet s (c.p 0x10 1)).owner = none →
      answers (.sheafLoad id) s fun t =>
        let x := chainGet t (c.p 0x10 1)
        let a := c.p 0 8 / 64 * 64
        x.state = .run ∧ x.cur = a ∧ x.owner = some id ∧ x.descs = 0 ∧ x.moved = 0 ∧ chHead t (c.p 0x10 1) = a ∧
        t.outs = .hostRead a 64 :: s.outs ∧ changesOnly { outs := true, regs := true, hst := true, chains := true } s t) ∧
    (c.opcode = 8 → c.headBad = false → s.lft.trained = true → c.p 0 8 % 64 = 0 → c.p 8 8 % 64 = 0 → c.p 8 8 ≠ 0 →
      c.p 0 8 + c.p 8 8 ≤ loftBytes s → c.p 0x10 1 ≤ 3 → c.p 0x11 1 = 0 → c.p 0x12 6 = 0 → c.tailBad 0x20 = false →
      let scan : Scan := { owner := 1, tag := c.tag, cmd := id, next := c.p 0 8 / 64, left := c.p 8 8, algo := c.p 0x10 1, stop := false,
                           expect := none, crc := crcInit (c.p 0x10 1) }
      answers (.scanCheck id) s fun t =>
        cmdFind t id = some { c with phase := .running } ∧
        (∀ k, freeUnit s = some k → tfind t.chk.scans k = some scan ∧ t.chk.waits = s.chk.waits ∧
          ∃ r, (lftGet t (coordOf s (c.p 0 8)).ch).reads = (lftGet s (coordOf s (c.p 0 8)).ch).reads ++ [r] ∧ r.addr = c.p 0 8 ∧ r.rank = 3 ∧ r.who = .scan k) ∧
        (freeUnit s = none → t.chk = { s.chk with waits := s.chk.waits ++ [scan] } ∧ t.lft = s.lft) ∧
        changesOnly { hst := true, chk := true, lft := true } s t) ∧
    (∀ a, c.opcode = 9 → c.reserved 0x20 = false → c.p 0x12 2 = 0 → s.pac.adm = some a → a.phase = .held →
      (c.p 0 4 = 0 ∨ c.p 0 4 = a.id) → c.p 4 4 + c.p 0xC 2 ≤ a.hdr.W → c.p 8 4 + c.p 0xE 2 ≤ a.hdr.L →
      c.p 0xC 2 * c.p 0xE 2 * (passesOf (c.p 0x10 1)).length ≤ 4194304 → 0 < c.p 0xC 2 → 0 < c.p 0xE 2 → c.p 0xC 2 ≤ 4096 →
      c.p 0xE 2 ≤ 4096 → c.p 0x11 1 ≤ 1 → c.p 0x10 1 ≠ 0 → c.p 0x10 1 < 2 ^ a.hdr.passes →
      c.p 0xC 2 * (if c.p 0x11 1 = 0 then 1 else 16) ≤ c.p 0x14 4 →
      answers (.readback id) s fun t =>
        t.readbacks = s.readbacks ++ [{ cmd := id, gen := s.dos.gen, adm := a, cur := s.dos.cur, prev := s.dos.prev,
                                        todo := readbackBlocks a (c.p 4 4) (c.p 8 4) (c.p 0xC 2) (c.p 0xE 2) }] ∧
        changesOnly { hst := true, lft := true, readbacks := true } s t) ∧
    (∀ j r, s.readbacks = j :: r → j.cmd = id → j.todo = [] → answers .readbackComplete s fun t =>
      t.readbacks = r ∧ completedWith { outs := true, readbacks := true } id (if j.cls ≥ 2 then 5 else 0) s t)

/-! ### Register accesses (15) -/

/-- REGISTER_WRITE, 32 bits wide (R493 to R498, R503, R504): a register without a rule of its own takes the value, its
reserved bits 0 and a limited field at its nearer limit; a value out of range, an unmapped address, a write before
LOADING or in FATAL changes nothing but what GLB shows of it.
Rests on the model's own reading in log 31 (DEDUCED), log 90 (DEDUCED). -/
def Obligations.RegisterWrites : Prop :=
  ∀ (s : State) (off : BitVec 24) (data : W64) (req : BitVec 16), off.toNat % 4 = 0 → s.grn.held = [] → mustHold off.toNat s = false →
    let v := data.toNat % 2 ^ 32
    let m := v &&& maskOf off.toNat
    (writeReaches off.toNat s → (regShow s off.toNat).isSome = true → isRwp off.toNat = false → holdsHalf off.toNat = false →
      ownWrite off.toNat v req.toNat s = none →
      (outOfRange off.toNat m = false → (rwInfo off.toNat).isSome = true → answers (.registerWrite false off 4 0x0F data req) s fun t =>
        regGet t off.toNat = nearer off.toNat m ∧ (∀ o, o ≠ off.toNat → regGet t o = regGet s o)) ∧
      (outOfRange off.toNat m = true → answers (.registerWrite false off 4 0x0F data req) s fun t => t = recordBad 5 off.toNat s)) ∧
    (regShow s off.toNat = none → answers (.registerWrite false off 4 0x0F data req) s fun t => t = recordBad 2 off.toNat s) ∧
    (∀ k, ((regShow s off.toNat).isSome = true ∧ isRwp off.toNat = false ∧ off.toNat / 65536 ≠ 0 ∧
        (earlyPhase s = true ∧ k = 6 ∨
          earlyPhase s = false ∧ s.glb.fatal = true ∧ off.toNat / 65536 ≠ 0x17 ∧ off.toNat / 65536 ≠ 0x18 ∧ k = 7)) →
      answers (.registerWrite false off 4 0x0F data req) s fun t => t = recordBad k off.toNat s)

/-- The width of an access (R495) and an unmapped one (R503): an access over 8 bytes or across an 8-byte unit is recorded as
OVERSIZE and has no other effect, a read of it is Completer Abort; a write of part of a mapped register that is not held is recorded as PARTIAL
at its lowest byte, and one to an RWP register is also entered in the silo as discarded (R443); a read of an unmapped offset answers 0, a write to it is discarded, and GLB_BAD_ADDR records the offset with kind
UNMAPPED_READ (1) or UNMAPPED_WRITE (2) and BAD_ACCESS. -/
def Obligations.AccessWidth : Prop :=
  ∀ (s : State) (off : BitVec 24) (len : Nat) (be : Byte) (data : W64) (req : BitVec 16), 0 < len →
    (8 < len ∨ 8 < off.toNat % 8 + len →
      (answers (.registerWrite false off len be data req) s fun t => t = recordBad 4 off.toNat s) ∧
      (s.grn.held = [] → answers (.loRegisterRead false off len) s fun t =>
        t.outs = .completerAbort :: s.outs ∧ changesOnly { outs := true, glb := true } s t ∧ t.glb = (recordBad 4 off.toNat s).glb)) ∧
    (len < 4 → off.toNat % 4 + len ≤ 4 → (regShow s (off.toNat / 4 * 4)).isSome = true → s.grn.held = [] → mustHold (off.toNat / 4 * 4) s = false →
      answers (.registerWrite false off len be data req) s fun t =>
        (isRwp (off.toNat / 4 * 4) = false → t = recordBad 3 off.toNat s) ∧
        (isRwp (off.toNat / 4 * 4) = true → t.glb = (recordBad 3 off.toNat s).glb ∧ changesOnly { glb := true, slo := true, obs := true } s t ∧
          (s.slo.frozen = false → ∃ e, tfind t.slo.entries s.slo.head = some e ∧ e.code = 0x1605 ∧
            e.payload.take 4 = le 4 (off.toNat / 4 * 4) ∧ (e.payload.drop 8).take 4 = le 2 req.toNat ++ le 2 4))) ∧
    (off.toNat % 4 + len ≤ 4 → regShow s (off.toNat / 4 * 4) = none → s.grn.held = [] →
      (answers (.loRegisterRead false off len) s fun t => t = { s with
        outs := .readData len 0 :: s.outs,
        glb := { s.glb with badAccess := true, badKind := 1, badOffset := off.toNat / 4 * 4 } }) ∧
      (mustHold (off.toNat / 4 * 4) s = false → answers (.registerWrite false off len be data req) s fun t => t = { s with
        glb := { s.glb with badAccess := true, badKind := 2, badOffset := off.toNat / 4 * 4 } }))

/-- LO_REGISTER_READ, 32 bits (R496, R497, R499, R503): a read of a register answers its value, and where it latches a HI
register the next read of that one answers the value latched; a loopback counter first takes in what has been checked (R277), a port's state its
block lock; an unmapped address reads 0 and is recorded.
Rests on the model's own reading in log 28 (DESIGN CHOICE), log 31 (DEDUCED), log 32 (DEDUCED), log 106 (DEDUCED). -/
def Obligations.RegisterReads : Prop :=
  ∀ (s : State) (off : BitVec 24), off.toNat % 4 = 0 → s.grn.held = [] →
    (∀ v, (regShow s off.toNat).isSome = true → regShow (beforeRead off.toNat s) off.toNat = some v → v < 2 ^ 32 →
      off.toNat / 65536 = 0 ∨ earlyPhase s = false → off.toNat ≠ 0x16001C → latchSource off.toNat = none →
      answers (.loRegisterRead false off 4) s fun t =>
        t.outs = .readData 4 v :: s.outs ∧
        (∀ h w, latchedBy off.toNat = [h] → regShow (beforeRead off.toNat s) h = some w → tget t.latch h 0 = BitVec.ofNat 32 w) ∧ t.regs = s.regs) ∧
    (∀ lo, latchSource off.toNat = some lo → (regShow s off.toNat).isSome = true → off.toNat / 65536 = 0 ∨ earlyPhase s = false →
      off.toNat ≠ 0x16001C → answers (.loRegisterRead false off 4) s fun t =>
        t.outs = .readData 4 (tget s.latch off.toNat 0).toNat :: s.outs) ∧
    (regShow s off.toNat = none → answers (.loRegisterRead false off 4) s fun t =>
      t.outs = .readData 4 0 :: s.outs ∧ t.glb = (recordBad 1 off.toNat s).glb ∧ changesOnly { outs := true, glb := true } s t)

/-- OBS_CNT_CFG_WRITE, OBS_CNT_CLEAR, OBS_CNT_FETCH (R449 to R452): the setting takes its defined bits; CLEAR sets the
counter and its OVF to 0 and no other; a read of LO answers the low half and latches the high half. -/
def Obligations.CounterRows : Prop :=
  ∀ (s : State) (i : Fin 512),
    (∀ v : W32, writeReaches (0x181000 + 0x10 * i.val) s →
      (v.toNat.testBit 31 = false → answers (.obsCntCfgWrite i v) s fun t =>
        regGet t (0x181000 + 0x10 * i.val) = v.toNat &&& 0x40FF00FF ∧ changesOnly { regs := true } s t) ∧
      (answers (.obsCntClear i v) s fun t =>
        tget t.obs.cnt i.val 0 = 0 ∧ i.val ∉ t.obs.ovf ∧ (∀ j, j ≠ i.val → tget t.obs.cnt j 0 = tget s.obs.cnt j 0 ∧ (j ∈ t.obs.ovf ↔ j ∈ s.obs.ovf)) ∧
        changesOnly { regs := true, obs := true } s t)) ∧
    (s.grn.held = [] → earlyPhase s = false → answers (.obsCntFetch i) s fun t =>
      t.outs = .readData 4 (tget s.obs.cnt i.val 0 % 2 ^ 32) :: s.outs ∧
      tget t.latch (0x181008 + 0x10 * i.val) 0 = BitVec.ofNat 32 ((if i.val ∈ s.obs.ovf then 2 ^ 31 else 0) + tget s.obs.cnt i.val 0 / 2 ^ 32 % 2 ^ 16) ∧
      changesOnly { outs := true, latch := true } s t)

/-! ### Granary and silo (12) -/

/-- RWP_REGISTER_WRITE, PAC_VLIM_WRITE, ENC_CPP_INT_WRITE, LFT_PRED_WRITE (R427, R443, R497): after the rings are loaded a
value in range takes effect at once and enters the persist queue behind the others; one equal to the value held does not.
Rests on the model's own reading in log 48 (DEDUCED), log 93 (DEDUCED). -/
def Obligations.PersistentWrites : Prop :=
  ∀ (s : State) (off : BitVec 24) (v : W32) (req : BitVec 16) (c : Instr),
    (c = .rwpRegisterWrite off v req ∨ c = .pacVlimWrite true v req ∧ off = 0x60024 ∨ c = .pacVlimWrite false v req ∧ off = 0x6001C ∨
      c = .encCppIntWrite v req ∧ off = 0x70404 ∨ c = .lftPredWrite v req ∧ off = 0x13C014) →
    off.toNat % 4 = 0 → writeReaches off.toNat s → isRwp off.toNat = true → s.grn.loaded = true → holdsHalf off.toNat = false →
    let m := v.toNat &&& maskOf off.toNat
    outOfRange off.toNat m = false → ownDiscard off.toNat m = false →
    answers c s fun t =>
      regGet t off.toNat = m ∧ t.grn.held = [] ∧
      (itemPair off.toNat = false → regGet s off.toNat ≠ m → t.grn.queue = s.grn.queue ++ [(off.toNat, m, req.toNat)]) ∧
      (itemPair off.toNat = true → tfind s.halves (off.toNat - 4) = none → regGet s off.toNat % 65536 ≠ m % 65536 →
        t.grn.queue = s.grn.queue ++ [(off.toNat, m % 65536 * 2 ^ 32 + regGet s (off.toNat - 4), req.toNat)]) ∧
      (itemPair off.toNat = false → regGet s off.toNat = m → t.grn.queue = s.grn.queue)

/-- PERSIST_QUEUE_DRAIN and GRANARY_WORD_WRITE_DONE (R424, R425, R427, R428, R435): the oldest queued value is written into the
ring entry behind the newest, once no word of its ring is under way and unless the supplies are out of their limits; a verified word holds its value; a failed attempt is repeated up to three times in all;
every attempt counts as a write of its page; a ring value of a failed word goes to the next entry until three
have failed (R428, R437).
Rests on the model's own reading in log 11 (DESIGN CHOICE), log 76 (DEDUCED), log 112 (DESIGN CHOICE). -/
def Obligations.GranaryWrites : Prop :=
  ∀ s : State,
    (∀ item v q r, s.grn.queue = (item, v, q) :: r → s.grn.startHold = false → s.grn.held = [] → answers .persistQueueDrain s fun t =>
      (s.grn.supplyOut = false → ringBusy s item = false →
        t = { s with grn := { s.grn with queue := r, writing := s.grn.writing ++ [ringWrite s item v q] } }) ∧
      (s.grn.supplyOut = true ∨ ringBusy s item = true → t = s)) ∧
    (∀ x r, s.grn.writing = x :: r →
      (answers (.granaryWordWriteDone true) s fun t =>
        (x.item = none → grnWord t x.word = x.value) ∧
        (∀ item e n, x.item = some (item, e, n) → ringOf t item = (ringOf s item).set e x.value)) ∧
      (x.tries < 2 → answers (.granaryWordWriteDone false) s fun t =>
        t.grn.writing = { x with tries := x.tries + 1 } :: r ∧ t.grn.words = s.grn.words ∧ t.grn.rings = s.grn.rings ∧
        tget t.grn.wear (x.word / 512) 0 = sat32 (tget s.grn.wear (x.word / 512) 0 + 1)) ∧
      (2 ≤ x.tries → answers (.granaryWordWriteDone false) s fun t =>
        t.grn.words = s.grn.words ∧ t.grn.rings = s.grn.rings ∧ t.grn.writeFail = true ∧ t.grn.failAddr = x.word ∧
        (∀ item e n, x.item = some (item, e, n) → s.grn.jobs = [] →
          (n < 3 → t.grn.writing = r ++ [{ word := Config.ringBase item + (e + 1) % 8, value := x.value, tries := 0,
                                           item := some (item, (e + 1) % 8, n + 1), req := x.req }]) ∧
          (3 ≤ n → t.grn.writing = r))))

/-- The power-fail warning (R444, R445, R468): PFW_N falls; recognized after it, EV_POWER_WARNING is raised and the
sequence runs; at its end the silo is frozen and no write is under way; the rise after it lets work go on, the rise
before the recognition leaves nothing of it.
Rests on the model's own reading in log 20 (DESIGN CHOICE), log 53 (DEDUCED). -/
def Obligations.PowerWarning : Prop :=
  ∀ s : State,
    (s.pins.pfwN = true → s.grn.pfwLow = false → s.grn.pfwActive = false → answers .pfwNFall s fun t =>
      t = { s with pins := { s.pins with pfwN := false }, grn := { s.grn with pfwFall := true } }) ∧
    (s.grn.pfwFall = true → s.pins.pfwN = false → s.grn.loaded = true → answers .pfwRecognized s fun t =>
      t.grn.pfwActive = true ∧ t.grn.pfwLow = true ∧ t.grn.pfwFall = false ∧ (s.pac.stripe = none → reported 0x1604 4 s t)) ∧
    (s.grn.pfwActive = true → s.pins.pfwN = false → answers .pfwSequenceDone s fun t =>
      t.slo.frozen = true ∧ t.slo.frozenBy = 3 ∧ t.grn.pfwActive = false ∧ t.grn.writing = [] ∧ t.grn.queue = []) ∧
    (s.grn.pfwLow = true → s.grn.pfwActive = false → s.grn.held = [] → s.grn.jobs = [] → answers .pfwNRise s fun t =>
      t.pins = { s.pins with pfwN := true } ∧ t.grn.pfwLow = false ∧ t.grn.pfwDone = true) ∧
    (s.grn.pfwLow = false → answers .pfwNRise s fun t =>
      t = { s with pins := { s.pins with pfwN := true }, grn := { s.grn with pfwFall := false } }) ∧
    (s.pins.pfwN = true → s.grn.startHold = true → s.grn.held = [] → s.grn.jobs = [] → answers .pfwNStableHigh s fun t =>
      t = { s with grn := { s.grn with startHold := false } })

/-- WIPE (R438, R443): with the key and nothing in its way it erases the beam table, the journal, the calibration record and
the register rings, and leaves every other word; otherwise WIPE_REFUSED is set and no word changes; the key is used up.
Rests on the model's own reading in log 78 (DEDUCED). -/
def Obligations.Wipes : Prop :=
  ∀ (s : State) (v : W32) (req : BitVec 16), writeReaches 0x160004 s → v.toNat.testBit 1 = false →
    answers (.wipe v req) s fun t =>
      t.grn.wipeKey = 0 ∧ changesOnly { grn := true, slo := true, obs := true } s t ∧
      (s.grn.wipeKey = 0x57495045 → s.pac.stripe = none → s.twn.tableX = none →
        s.grn.jobs.all (fun j => decide (j.kind ≠ 1 ∧ j.kind ≠ 2)) = true →
        (∀ w, grnWord t w = if 8704 ≤ w ∧ w < 68096 then erasedWord else grnWord s w) ∧ (∀ i, ringOf t i = List.replicate 8 erasedWord)) ∧
      (s.grn.wipeKey ≠ 0x57495045 ∨ s.pac.stripe.isSome = true → t.grn.wipeRefused = true ∧ t.grn.words = s.grn.words ∧ t.grn.rings = s.grn.rings)

/-- CHECKPOINT, WEAR_CHECKPOINT_TIMER, GRN_RAW_READ, SLO_FREEZE, SLO_UNFREEZE (R435, R441, R446): the wear record is queued for a
store; a raw read answers the low half of its word, latches the high half and shows whether the word verified; FREEZE and
UNFREEZE act alone, together they do nothing.
Rests on the model's own reading in log 77 (DEDUCED). -/
def Obligations.GranaryAndSiloRows : Prop :=
  ∀ s : State,
    (∀ c : Instr, (c = .checkpoint ∧ writeReaches 0x160004 s ∨ c = .wearCheckpointTimer) → s.grn.loaded = true → s.grn.jobs = [] →
      answers c s fun t => changesOnly { grn := true } s t ∧
        ∃ j, t.grn.jobs = [j] ∧ j.kind = 3 ∧ j.pay = none ∧ j.todo.map (fun q => (q.1, q.2.1)) = nextStore s 3 (wearPayload s)) ∧
    (s.grn.held = [] → earlyPhase s = false → answers (.grnRawRead false) s fun t =>
      t.outs = .readData 4 (rawWord s (regGet s 0x160018) % 2 ^ 32) :: s.outs ∧ t.grn = { s.grn with rawUe := false } ∧
      tget t.latch 0x160020 0 = BitVec.ofNat 32 (rawWord s (regGet s 0x160018) / 2 ^ 32)) ∧
    (s.grn.held = [] → earlyPhase s = false → answers (.grnRawRead true) s fun t => t.grn = { s.grn with rawUe := true }) ∧
    (∀ v : W32, writeReaches 0x170000 s →
      (v.toNat.testBit 1 = false → answers (.sloFreeze v) s fun t => t = { s with slo := { s.slo with frozen := true, frozenBy := 2 } }) ∧
      (v.toNat.testBit 0 = false → answers (.sloUnfreeze v) s fun t => t = { s with slo := { s.slo with frozen := false } }) ∧
      (v.toNat.testBit 1 = true → answers (.sloFreeze v) s fun t => t = s))

/-! ### Observation (13) -/

/-- GLB_SNAP, SNAPSHOT, SNAPSHOT_DUE (R454 to R457): a capture takes the whole bank with its OVF bits, the slot and the
time, and counts; while LOCK is set the register trigger captures nothing and is counted, the command completes with
LOCKED; a timed snapshot waits for its time. The trace port (R458 to R461): EN set emits a SYNC record; each counter with STREAM
gives a COUNTER record; ALIGN goes out on four lanes; the oldest record is sent with the next `seq` on its lane; a LOSS record
follows once there is room. -/
def Obligations.SnapshotsAndTrace : Prop :=
  (∀ s : State,
    (∀ v : W32, writeReaches 0x180100 s → trcOn s = false → s.obs.trq = [] → answers (.traceEnable v) s fun t =>
      trcOn t = true ∧ t.obs.trq = [(5, trcTime s, fit 8 (le 8 (secOf (nowA s))))] ∧ changesOnly { regs := true, obs := true } s t) ∧
    (trcOn s = true → bitAt (trcCtrl s) 0 = true → answers .traceCounterPeriod s fun t =>
      changesOnly { obs := true } s t ∧ (s.obs.trq.length + 512 ≤ 4096 →
        t.obs.trq = s.obs.trq ++ ((List.range 512).filter (fun i => bitAt (regGet s (0x181000 + 0x10 * i)) 30)).map (fun i =>
          (2, trcTime s, fit 8 (le 2 i ++ le 6 (tget s.obs.cnt i 0)))))) ∧
    (s.glb.clocksOk = true → answers .traceAlign s fun t =>
      t = { s with outs := .traceAlign 3 (laneSeq s 3) :: .traceAlign 2 (laneSeq s 2) :: .traceAlign 1 (laneSeq s 1) ::
                           .traceAlign 0 (laneSeq s 0) :: s.outs }) ∧
    (trcOn s = true → 0 < s.obs.trLostSince → s.obs.trq.length + 2 ≤ 4096 → answers .traceLoss s fun t =>
      t.obs = { s.obs with trLostSince := 0, trq := s.obs.trq ++ [(4, trcTime s, fit 8 (le 4 (sat32 s.obs.trLostSince)))] } ∧
      changesOnly { obs := true } s t) ∧
    (∀ k time body r, s.obs.trq = (k, time, body) :: r → trcOn s = true → answers .traceRecordSent s fun t =>
      t = { s with outs := .traceRecord (s.obs.trSeq % 4) (le 1 k ++ le 1 0 ++ le 2 s.obs.trSeq ++ le 4 time ++ body) :: s.outs,
                   obs := { s.obs with trq := r, trSeq := (s.obs.trSeq + 1) % 65536, trSent := (s.obs.trSent + 1) % 2 ^ 48 } })) ∧
  ∀ s : State, let taken := { s.obs with snapCnt := s.obs.cnt, snapOvf := s.obs.ovf, snapValid := true,
                                         snapSeq := wrap32 (s.obs.snapSeq + 1), snapSlot := slotNow s, snapTime := ringTime (nowA s) }
    (writeReaches 0x80 s → answers .glbSnap s fun t =>
      t = { s with obs := if snapLocked s then { s.obs with snapMissed := sat32 (s.obs.snapMissed + 1) } else taken }) ∧
    (∀ id c, cmdOp s id 0x0E = some c → c.headBad = false → snapValue c = false → bitAt (c.p 0 1) 0 = false →
      answers (.snapshot id) s fun t =>
        (snapLocked s = true → completedWith {} id 0x41 s t) ∧
        (snapLocked s = false → completedWith { outs := true, obs := true } id 0 s t ∧ t.obs.snapSeq = taken.snapSeq ∧
          t.obs.snapTime = taken.snapTime ∧ t.obs.snapValid = true ∧ t.obs.snapCnt = s.obs.cnt)) ∧
    (∀ id c, cmdOp s id 0x0E = some c → c.headBad = false → snapValue c = false → bitAt (c.p 0 1) 0 = true →
      answers (.snapshot id) s fun t =>
        (s.obs.timed.isSome = true → completedWith {} id 0x42 s t) ∧
        (s.obs.timed = none → (∃ m, t.obs.timed = some m ∧ m.cmd = id ∧ m.at_ = timeOf (c.p 8 8) (c.p 0x10 4)) ∧
          changesOnly { hst := true, obs := true } s t)) ∧
    (∀ m, s.obs.timed = some m → m.due = true → answers .snapshotDue s fun t =>
      t.obs.timed = none ∧ completedWith { outs := true, obs := true } m.cmd (if snapLocked s then 0x41 else 0) s t)

/-! ### Stage feedback (06) -/

/-- ENC_PRESET_LOAD, ENC_CHANNEL_ENABLE, CMP_ARM, CMP_DISARM, CMP_TGT_HI_WRITE (R202, R205, R221, R222): a LOAD hands the
preset to the next sample, or on ENC0 and ENC2 during a stripe is refused; a channel switched on takes its phase
anew and follows motion again after a fault, one switched off is not valid and loses its half-filled period; a unit is armed or not; TGT_HI commits both halves of the target.
Rests on the model's own reading in log 34 (DESIGN CHOICE), log 49 (DEDUCED). -/
def Obligations.EncoderRegisters : Prop :=
  ∀ (s : State) (n : Fin 4) (v : W32),
    (writeReaches (encOff n 0x1C) s → answers (.encPresetLoad n v) s fun t =>
      let live := (n.val = 0 ∨ n.val = 2) ∧ s.pac.stripe.any (fun st => st.state.live) = true
      (live → encGet t n = { encGet s n with loadRefused := true }) ∧
      (¬ live → encGet t n = { encGet s n with preset := some (v.toNat % 65536 * 2 ^ 32 + regGet s (encOff n 0x18)) }) ∧
      changesOnly { regs := true, enc := true } s t) ∧
    (writeReaches (encOff n 0) s → bits (v.toNat &&& 0x1F07) 12 8 ≤ 20 → answers (.encChannelEnable n v) s fun t =>
      encEn t n = v.toNat.testBit 0 ∧ changesOnly { regs := true, enc := true } s t ∧
      (v.toNat.testBit 0 = true → encEn s n = true → t.enc = s.enc) ∧
      (v.toNat.testBit 0 = true → encEn s n = false → encGet t n = { encGet s n with q := none, faulted := false, badRadius := 0 }) ∧
      (v.toNat.testBit 0 = false → encGet t n =
        { encGet s n with posValid := false, q := none, window := (encGet s n).window.map (fun w => { w with bins := [], up := none }) })) ∧
    (writeReaches (0x70500 + 0x20 * n.val) s →
      (answers (.cmpDisarm n v) s fun t => (cmpGet t n).armed = false ∧ (cmpGet t n).fired = (cmpGet s n).fired) ∧
      (answers (.cmpArm n v) s fun t => (cmpGet t n).armed = true ∧ (cmpGet t n).tgt = (cmpGet s n).tgt)) ∧
    (writeReaches (0x7050C + 0x20 * n.val) s → tfind s.halves (0x70508 + 0x20 * n.val) = none →
      answers (.cmpTgtHiWrite n v) s fun t =>
        (cmpGet t n).tgt = v.toNat % 65536 * 2 ^ 32 + regGet s (0x70508 + 0x20 * n.val) ∧ (cmpGet t n).armed = (cmpGet s n).armed ∧
        (∀ k, k ≠ n.val → cmpGet t k = cmpGet s k))

/-- ENC_SAMPLE (R200 to R206): the count of an enabled channel moves by the phase step, with the sign of INVERT; the first
sample takes the phase of its period; a waiting preset becomes the count, and within the tracking limits sets POS_VALID and clears a
fault; a step of 1,536 or more, or a fourth sample in a row outside the radius limits, is a tracking fault at any sample, and stops the count
until a load or a new enable.
Rests on the model's own reading in log 22 (DESIGN CHOICE), log 49 (DEDUCED). -/
def Obligations.EncoderSamples : Prop :=
  ∀ (s : State) (p0 p1 p2 p3 : EncPair) (n : Fin 4), s.glb.clocksOk = true → s.glb.fatal = false →
    answers (.encSample p0 p1 p2 p3) s fun t =>
      let x := encGet s n
      let y := encGet t n
      let k := match x.slew with
        | some (a, b, i) => slewAt a b (min 4096 (i + 1))
        | none => x.coef
      let sc := corrected k ([p0, p1, p2, p3].getD n p0)
      let q := phaseOf sc.1 sc.2
      let d : Int := match x.q with
        | some a => phaseStep a q
        | none => 0
      let bad := radiusOk sc = false ∧ 3 ≤ x.badRadius
      let fault := bad ∨ 1536 ≤ d ∨ d ≤ -1536
      t.enc.edge = s.enc.edge + 4 ∧
      (encEn s n = false → y.count = x.count) ∧
      (∀ v, encEn s n = true → x.preset = some v → y.count = v ∧ y.preset = none ∧
        (y.posValid = true ↔ (¬ fault ∧ radiusOk sc = true)) ∧ (y.faulted = true ↔ fault)) ∧
      (encEn s n = true → x.preset = none → x.q = none → y.count = x.count / 4096 * 4096 + q) ∧
      (encEn s n = true → x.preset = none → x.q = none → x.faulted = false → (y.faulted = true ↔ bad)) ∧
      (encEn s n = true → x.preset = none → x.q.isSome = true → x.faulted = true → y.count = x.count ∧ y.faulted = true) ∧
      (encEn s n = true → x.preset = none → x.q.isSome = true → x.faulted = false →
        (¬ fault →
          y.count = (((x.count : Int) + (if bitAt (encCfg s n) 1 then -d else d)) % (2 ^ 48 : Int)).toNat ∧ y.faulted = false) ∧
        (fault → y.faulted = true ∧ y.posValid = false ∧ y.count = x.count))

/-- SPEED_EDGE, STILL_TIMEOUT (R207 to R211): two edges in one direction give the speed over the difference of their stamps, scaled by 2ᴷ
and the multiples crossed; any other edge leaves it invalid; no edge for the timeout means standstill. -/
def Obligations.SpeedRows : Prop :=
  ∀ (s : State) (n : Fin 4), let x := encGet s n
    (∀ (cy : Fin 5) m up r, x.edges = (m, up) :: r → answers (.speedEdge n cy) s fun t =>
      let y := encGet t n
      let iv := s.tim.core + cy.val - x.lastStamp
      y.edges = r ∧ y.still = false ∧ y.lastStamp = s.tim.core + cy.val ∧ y.spdDown = !up ∧ changesOnly { enc := true, obs := true } s t ∧
      (x.lastUp = some up → 0 < iv → y.spdValid = true ∧ y.spdDelta = iv ∧ y.spd = m * 2 ^ bits (encCfg s n) 12 8 * 1250000000 / iv) ∧
      (x.lastUp ≠ some up → y.spdValid = false ∧ y.spd = 0)) ∧
    (x.still = false → 1250 * regGet s 0x70428 ≤ s.tim.core - x.lastStamp → answers (.stillTimeout n) s fun t =>
      encGet t n = { x with still := true, spdValid := false, spd := 0, lastUp := none } ∧ changesOnly { enc := true } s t)

/-- CAL_WINDOW_CLOSE, CAL_SLEW_END (R224 to R229): a full window is fitted; a rejection is the window's outcome; accepted
coefficients slew in over 4,096 samples, or wait under FREEZE during a stripe; at the slew's end they are in effect,
counted and stamped, and EV_CAL_DONE is raised.
Rests on the model's own reading in log 56 (DEDUCED). -/
def Obligations.CalibrationWindows : Prop :=
  ∀ (s : State) (n : Fin 4), let x := encGet s n
    (∀ w, x.window = some w → w.periods ≤ w.counted → answers (.calWindowClose n) s fun t =>
      let y := encGet t n
      y.measure = none ∧ y.coef = x.coef ∧
      (∀ o, fitWindow w = .inl o → y.calLast = o ∧ y.slew = x.slew) ∧
      (∀ k, fitWindow w = .inr k → ¬ (bitAt (calCtrl s n) 2 = true ∧ stripeHolds s = true) → y.slew = some (x.coef, k, 0) ∧ y.calLast = 0) ∧
      (∀ k, fitWindow w = .inr k → bitAt (calCtrl s n) 2 = true → stripeHolds s = true → y.heldCoef = some k ∧ y.slew = x.slew ∧ y.calLast = 5)) ∧
    (∀ a k i, x.slew = some (a, k, i) → 4096 ≤ i → answers (.calSlewEnd n) s fun t =>
      let y := encGet t n
      y.coef = k ∧ y.slew = none ∧ y.calCount = sat32 (x.calCount + 1) ∧ y.calSec = secOf (nowA s) ∧ y.calNs = nsOf (nowA s) ∧
      reported 0x0706 0 s t)

/-- CAL_ENC behind step 8 of start-up (R230, R231): MEASURE opens a window on each channel named, STORE queues the record, LOAD and RESTORE slew the
given and the stored coefficients in, the timeout ends the windows that still measure with outcome 1.
Rests on the model's own reading in log 63 (DEDUCED). -/
def Obligations.CalibrationCommands : Prop :=
  (∀ (s : State) (id : Nat), answers (.calEncTimeout id) s fun t => ∀ n, n < 4 →
    ((encGet s n).measure = some id → (encGet t n).measure = none ∧ (encGet t n).calLast = 1 ∧ (encGet t n).coef = (encGet s n).coef) ∧
    ((encGet s n).measure ≠ some id → encGet t n = encGet s n)) ∧
  ∀ (s : State) (id : Nat) (c : Cmd), cmdOp s id 0x0A = some c → s.glb.encOk = true → c.reserved 0x14 = false → 0 < c.p 0 1 → c.p 0 1 < 16 →
    (∀ n, n < 4 → (encGet s n).measure = none ∧ (encGet s n).slewCmd = none) →
    (c.p 1 1 = 1 → (c.p 2 2 = 0 ∨ 64 ≤ c.p 2 2) → 0 < c.p 4 4 → c.p 4 4 ≤ 60000 → answers (.calEncMeasure id) s fun t =>
      changesOnly { hst := true, enc := true } s t ∧ ∀ n, n < 4 →
        (bitAt (c.p 0 1) n = true → encGet t n = { encGet s n with window := some { periods := if c.p 2 2 = 0 then calPeriods s n else c.p 2 2 },
                                                                    measure := some id }) ∧
        (bitAt (c.p 0 1) n = false → encGet t n = encGet s n)) ∧
    (c.p 1 1 = 2 → s.grn.loaded = true → answers (.calEncStore id) s fun t =>
      changesOnly { hst := true, grn := true } s t ∧ ∃ j, t.grn.jobs.map GrnJob.cmd = s.grn.jobs.map GrnJob.cmd ++ [some id] ∧
        j ∈ t.grn.jobs ∧ j.kind = 2 ∧ j.names = c.p 0 1) ∧
    (c.p 1 1 = 3 → (∀ n, n < 4 → bitAt (calCtrl s n) 2 = false) → let k := loadCoef c
      0 < k.gc → 0 < k.gs → 0x4000 ≤ k.pa → k.pa ≤ 0x4242 → -4390 ≤ k.pb → k.pb ≤ 4390 →
      answers (.calEncLoad id) s fun t => changesOnly { hst := true, enc := true } s t ∧ ∀ n, n < 4 →
        (bitAt (c.p 0 1) n = true → encGet t n = { encGet s n with slew := some ((encGet s n).coef, k, 0), slewCmd := some id }) ∧
        (bitAt (c.p 0 1) n = false → encGet t n = encGet s n)) ∧
    (c.p 1 1 = 4 → s.grn.loaded = true → (newestCopy s 2).1.isSome = true → (∀ n, n < 4 → bitAt (calCtrl s n) 2 = false) →
      answers (.calEncRestore id) s fun t => changesOnly { hst := true, enc := true } s t ∧ ∀ n, n < 4 →
        (bitAt (c.p 0 1) n = true → encGet t n = { encGet s n with slew := some ((encGet s n).coef, storedCoef s n, 0), slewCmd := some id }) ∧
        (bitAt (c.p 0 1) n = false → encGet t n = encGet s n))

/-! ### Swath lanes (07) -/

/-- SWL_LANE_ENABLE, SWL_LANE_DISABLE, RETRAIN, LOOP_WRITE (R267, R270, R276, Table 7-17): an enabled lane begins in
PRESET with its initial taps; a disabled one goes to DISABLED at once, and one that leaves ACTIVE notes its cause and
raises EV_LANE_DOWN, and stops the frame it sends; RETRAIN returns an ACTIVE lane to TAP; LOOP moves a lane into LOOPBACK and back, or is refused
while a stripe is live.
Rests on the model's own reading in log 66 (DEDUCED), log 67 (DEDUCED). -/
def Obligations.LaneControls : Prop :=
  ∀ (s : State) (l : Fin 128) (v : W32), writeReaches (swlOff l 0) s →
    let x := laneGet s l
    let live := s.pac.stripe.any (fun st => st.state.live)
    (bits v.toNat 5 4 = 0 → v.toNat.testBit 7 = false → x.state = .disabled → swathUp s = true → quadLocked s l = true →
      answers (.swlLaneEnable l v) s fun t =>
        laneGet t l = { x with state := .preset, taps := some (tapInit s l), ackSeq := 0, ack := 0, handled := false, noPartner := false } ∧
        laneEn t l = true ∧ changesOnly { regs := true, swl := true } s t) ∧
    (bits v.toNat 5 4 = 0 → answers (.swlLaneDisable l v) s fun t =>
      (laneGet t l).state = .disabled ∧ laneEn t l = false ∧
      (x.state = .active → (laneGet t l).downCause = 4 ∧ (laneGet t l).downSeen = true ∧ (laneGet t l).queue = [] ∧
        (x.queue = [] → reported 0x1002 4 s t) ∧ (x.queue ≠ [] → Output.swathCut l ∈ t.outs)) ∧
      (x.state ≠ .active → t.slo = s.slo)) ∧
    (bits v.toNat 5 4 = 0 → v.toNat.testBit 0 = true → x.state = .active → answers (.retrain l v) s fun t =>
      (laneGet t l).state = .tap ∧ (laneGet t l).downCause = 4 ∧ (laneGet t l).downSlot = downSlotOf s l ∧ (laneGet t l).queue = [] ∧
      (x.queue = [] → reported 0x1002 4 s t)) ∧
    (bits v.toNat 5 4 ≠ 0 → v.toNat.testBit 0 = true → v.toNat.testBit 7 = false → x.state ≠ .disabled → x.state ≠ .loopback →
      answers (.loopWrite l v) s fun t =>
        (live = false → (laneGet t l).state = .loopback ∧ laneLoop t l = bits v.toNat 5 4) ∧
        (live = true → laneGet t l = { x with loopRefused := true } ∧ laneLoop t l = laneLoop s l)) ∧
    (bits v.toNat 5 4 = 0 → v.toNat.testBit 0 = true → x.state = .loopback → answers (.loopWrite l v) s fun t =>
      (laneGet t l).state = .tap ∧ laneLoop t l = 0)

/-- RETURN_STATUS, RETURN_TAP_REQ, RETURN_TRAINED, RETURN_PRBS_RESULT, RETURN_IDLE, RETURN_MESSAGE_DISCARD (R260 to R267, R277):
a good message counts on its return lane, and one that names a lane moves it from PRESET to TAP; STATUS takes a lane from ALIGN to ACTIVE at LOCKED and from ACTIVE to TAP
when lock is lost; a new request changes the taps once; TRAINED ends TAP; a message for another return lane, or a bad
one, counts as discarded; a return lane comes in at its fourth good message in a row, and no request leaves the range of Table 7-12.
Rests on the model's own reading in log 64 (DEDUCED), log 65 (DEDUCED). -/
def Obligations.ReturnMessages : Prop :=
  (∀ (x : Taps) (req preset : Nat), x.legal = true → (applyReq x req preset).1.legal = true) ∧
  (∀ (s : State) (k : Fin 8) fill, swathUp s = true → (retGet s k).sync = false → (retGet s k).good = 3 →
    answers (.returnIdle k fill) s fun t => (retGet t k).sync = true ∧ reported 0x1006 0 s t) ∧
  ∀ (s : State) (k : Fin 8) (l : Fin 128), swathUp s = true →
    let x := laneGet s l
    let good (c : Instr) (P : State → Prop) : Prop := answers c s fun t =>
      (retGet t k).msgs = wrap32 ((retGet s k).msgs + 1) ∧ (retGet t k).crcErr = (retGet s k).crcErr ∧ P t
    (l.val / 16 = k.val → (retGet s k).sync = true →
      (∀ rx high map e, x.state = .align → good (.returnStatus k l rx high map e) fun t =>
        (laneGet t l).rx = rx ∧ (laneGet t l).crcErr = e.toNat ∧ (laneGet t l).high = high.toNat % 2 ^ 24 ∧
        (rx = 2 → (laneGet t l).state = .active ∧ (laneGet t l).trains = sat32 (x.trains + 1)) ∧
        (rx ≠ 2 → (laneGet t l).state = .align)) ∧
      (∀ rx high map e, x.state = .active → good (.returnStatus k l rx high map e) fun t =>
        (laneGet t l).rx = rx ∧ (laneGet t l).crcErr = e.toNat ∧
        (rx = 0 ∨ rx = 3 → (laneGet t l).state = .tap ∧ (laneGet t l).downCause = 1 ∧ (laneGet t l).downSeen = true) ∧
        (rx ≠ 0 → rx ≠ 3 → (laneGet t l).state = .active)) ∧
      (∀ seq req preset : Byte, x.state = .tap → good (.returnTapReq k l seq req preset) fun t =>
        (x.handled = true → x.ackSeq = seq.toNat → laneGet t l = x) ∧
        (x.handled = false ∨ x.ackSeq ≠ seq.toNat → laneGet t l = { x with
          taps := some (applyReq (lTaps s l) req.toNat preset.toNat).1, ack := (applyReq (lTaps s l) req.toNat preset.toNat).2,
          ackSeq := seq.toNat, handled := true })) ∧
      (∀ seq, x.state = .tap → good (.returnTrained k l seq) fun t => (laneGet t l).state = .align) ∧
      (∀ e w : W32, x.state = .loopback → laneLoop s l = 3 → good (.returnPrbsResult k l e w) fun t =>
        (laneGet t l).lbErr = sat32 (x.lbErr + e.toNat) ∧ (laneGet t l).lbWords = sat32 (x.lbWords + w.toNat)) ∧
      (∀ rx high map e, x.state = .preset → good (.returnStatus k l rx high map e) fun t => (laneGet t l).state = .tap) ∧
      (∀ fill, good (.returnIdle k fill) fun t => t.swl.lanes = s.swl.lanes)) ∧
    (∀ c : Instr, (c = .returnMessageDiscard k ∨ (∃ seq, c = .returnTrained k l seq) ∧ l.val / 16 ≠ k.val) → answers c s fun t =>
      (retGet t k).crcErr = sat32 ((retGet s k).crcErr + 1) ∧ (retGet t k).msgs = (retGet s k).msgs ∧ t.swl.lanes = s.swl.lanes)

/-- The timers of lanes and quads (R259, R263, R268, R272, Table 7-14): a lane in TAP or ALIGN without a message returns to
PRESET; training that takes too long is noted; a lane that nobody answers is reported once; a return lane that falls
silent is lost, and its ACTIVE lanes go to PRESET; a quad whose PLL loses lock stops its lanes, which train again when it
locks. AM_TIMER, TRAIN_BLOCK, ALIGN_AM, FRAME_SETTLE_TIMEOUT (R250, R251, R265, R271): outside a stripe and with no frame under way each
ACTIVE lane sends an AM with the next `seq`; a lane in PRESET or TAP sends its TRAIN block, one in ALIGN an AM; the oldest unsettled frame of
a lane that has been handed over is settled as unconfirmed.
Rests on the model's own reading in log 64 (DEDUCED), log 108 (DESIGN CHOICE). -/
def Obligations.LaneTimers : Prop :=
  ∀ s : State,
    (∀ l : Fin 128, let x := laneGet s l
      (x.state = .tap ∨ x.state = .align → answers (.laneMessageTimeout l) s fun t =>
        (laneGet t l).state = .preset ∧ (laneGet t l).taps = some (tapInit s l) ∧ changesOnly { swl := true } s t) ∧
      (x.state = .tap → answers (.trainTimeout l) s fun t =>
        (laneGet t l).state = .preset ∧ (laneGet t l).tapTimeout = true ∧ reported 0x1004 1 s t) ∧
      (x.state = .preset → x.noPartner = false → answers (.noPartnerTimeout l) s fun t =>
        laneGet t l = { x with noPartner := true } ∧ reported 0x1003 1 s t)) ∧
    (∀ k : Fin 8,
      ((retGet s k).sync = true → answers (.returnLaneTimeout k) s fun t =>
        retGet t k = { retGet s k with sync := false, good := 0, lostSeen := true } ∧ reported 0x1005 4 s t) ∧
      ((retGet s k).sync = false → answers (.returnDownSettle k) s fun t => ∀ l, l / 16 = k.val →
        ((laneGet s l).state = .active → (laneGet t l).state = .preset ∧ (laneGet t l).downCause = 2) ∧
        ((laneGet s l).state ≠ .active → laneGet t l = laneGet s l))) ∧
    (∀ q : Fin 32,
      (q.val ∈ s.swl.pll → answers (.quadPllUnlock q) s fun t => q.val ∉ t.swl.pll ∧ ∀ l, l / 4 = q.val →
        ((laneGet s l).state ≠ .disabled → (laneGet t l).state = .pllWait) ∧
        ((laneGet s l).state = .active → (laneGet t l).downCause = 3) ∧ ((laneGet s l).state = .disabled → laneGet t l = laneGet s l)) ∧
      (q.val ∉ s.swl.pll → swathUp s = true → answers (.quadPllRelock q) s fun t => q.val ∈ t.swl.pll ∧ ∀ l, l / 4 = q.val →
        ((laneGet s l).state = .pllWait → (laneGet t l).state = .tap) ∧
        ((laneGet s l).state = .disabled → laneEn s l = true → (laneGet t l).state = .preset))) ∧
    (s.pac.stripe = none → swathUp s = true → s.swl.flight = none → answers .amTimer s fun t =>
      t.swl = { s.swl with amSeq := (s.swl.amSeq + 1) % 65536 } ∧ changesOnly { outs := true, swl := true, obs := true } s t ∧
      ∀ l, l < 128 → (laneGet s l).state = .active →
        Output.swathBlock l (amBlock l ((s.swl.amSeq + 1) % 65536) (laneGet s l).lastSlot) ∈ t.outs) ∧
    (∀ l : Fin 128, let x := laneGet s l
      (x.state = .preset ∨ x.state = .tap → answers (.trainBlock (.inl l)) s fun t =>
        t = { s with outs := .swathBlock l (trainBytes l (if x.state = .preset then 1 else 2) x.ackSeq x.ack (lTaps s l) ++
                                            List.replicate 8 0) :: s.outs }) ∧
      (x.state = .align → answers (.alignAm (some l)) s fun t =>
        t.outs = .swathBlock l (amBlock l s.swl.amSeq x.lastSlot) :: s.outs ∧ changesOnly { outs := true, obs := true } s t) ∧
      (∀ a n, s.pac.prevAcct = none → x.queue = [] → s.pac.acct = some a →
        ((laneAcc a l).frames.find? (fun q => q.2.1 == .unsettled)).map (fun q => q.1) = some n → answers (.frameSettleTimeout l) s fun t =>
          ∃ a', t.pac.acct = some a' ∧ ∀ q ∈ (laneAcc a' l).frames, q.1 = n → q.2.1 ≠ .unsettled)) ∧
    (s.twn.link = .align ∨ s.twn.link = .up → answers (.alignAm none) s fun t =>
      ∀ k, k < 8 → Output.dxpBlock k (amBlock k s.swl.amSeq 0x7FFFFF) ∈ t.outs) ∧
    (∀ k : Fin 8, s.twn.link = .tap → answers (.trainBlock (.inr k)) s fun t =>
      t.free = s.free + 1 ∧ changesOnly { outs := true, free := true } s t ∧ ∃ b, t.outs = .dxpBlock k b :: s.outs ∧
        b.take 8 = trainBytes k 2 (dxpGet s k).ackSeq (dxpGet s k).ack (dxpGet s k).taps)

/-! ### Start-up of the granary and the loft (09, 12, 14) -/

/-- GRANARY_LOAD_DONE, LOFT_CHANNEL_TRAINED, LOFT_TRAINED (R314, R318, R319, R433, R434, R470): the load ends with the beam
table copy ready and the links started; a training step that passes is behind the channel, its first failure is tried again, its
second excludes the channel; when every channel has ended, training is over with every region invalid.
Rests on the model's own reading in log 73 (DEDUCED), log 86 (DEDUCED). -/
def Obligations.StartupLoads : Prop :=
  ∀ s : State,
    (s.glb.phase = .loading → s.grn.loaded = false → ∀ us, answers (.granaryLoadDone us) s fun t =>
      t.grn.loaded = true ∧ t.grn.badWords = us ∧ t.grn.words = s.grn.words ∧ t.grn.rings = s.grn.rings ∧ t.dos.ready = true ∧
      t.glb.encOk = true ∧ t.glb.lanesStarted = true ∧ t.pins = { s.pins with idle := false } ∧
      (us = [] → t.dos.cur = loadTable { s with grn := { s.grn with badWords := [] } }) ∧
      t.glb.phase = (if s.lft.trained = true ∧ numCh s = 0 then .noLoft else .loading) ∧
      changesOnly { Parts.events with free := true, pins := true, regs := true, dos := true, enc := true, twn := true, grn := true } s t) ∧
    (∀ (c : Fin 12) (step : TrainStep) (good : Bool) (conf : Option DimmConf), let x := lftGet s c
      let pass : Bool := match step with
        | .sideband => good && conf.any confLegal
        | .config => decide (refConf s = some (x.density, x.ranks, x.dimms))
        | _ => good
      x.state = .training → x.steps = stepIndex step → (step = .config → sidebandDone s = true) →
      answers (.loftChannelTrained c step good conf) s fun t =>
        let y := lftGet t c
        (pass = true → y.steps = x.steps + 1 ∧ y.stepFails = 0 ∧ y.state = (if x.steps = 4 then .inService else .training)) ∧
        (pass = false → x.stepFails = 0 → y.steps = x.steps ∧ y.stepFails = 1 ∧ y.state = .training) ∧
        (pass = false → x.stepFails ≠ 0 → y.state = .excluded ∧ reported 0x1301 4 s t) ∧
        (∀ d, step = .sideband → conf = some d → y.density = d.density.val ∧ y.ranks = d.ranks.val ∧ y.dimms = d.dimms.val) ∧
        (∀ k, k ≠ c.val → lftGet t k = lftGet s k) ∧ changesOnly { Parts.events with lft := true } s t) ∧
    (s.lft.trained = false → s.glb.phase = .loading →
      (∀ c, c < 12 → (lftGet s c).state = .inService ∨ (lftGet s c).state = .excluded ∨ (lftGet s c).state = .retired) →
      answers .loftTrained s fun t =>
        t.lft.trained = true ∧ t.lft.ready = decide (1 ≤ numCh s) ∧ t.lft.valid = [] ∧ t.lft.fills = [] ∧ t.lft.ch = s.lft.ch ∧
        t.glb = { s.glb with phase := if numCh s = 0 ∧ s.grn.loaded = true then .noLoft else .loading } ∧
        changesOnly { glb := true, lft := true } s t)

/-! ### Twin operation (08) -/

/-- The Dexpin link (R285 to R289, Tables 8-2 and 8-4): its enable, its training blocks and their tap requests, the
timeouts, HELLO, HEARTBEAT both ways with the TABLE messages that wait behind it, messages discarded, and the loss of an UP link.
Rests on the model's own reading in log 61 (DESIGN CHOICE), log 95 (DEDUCED), log 113 (DESIGN CHOICE). -/
def Obligations.DexpinLink : Prop :=
  ∀ s : State,
    let starts (t : State) : Prop := ∀ k, k < 8 → dxpGet t k = { taps := tapsOf (regGet s (0x120040 + 4 * k)) }
    (writeReaches 0x120000 s → ∀ v : W32,
      (v.toNat.testBit 0 = true → s.twn.link = .disabled → s.glb.lanesStarted = true → answers (.twnLinkEnable v) s fun t =>
        t.twn.link = .preset ∧ regGet t 0x120000 = 1 ∧ starts t ∧ changesOnly { regs := true, twn := true } s t) ∧
      (v.toNat.testBit 0 = true → s.twn.link ≠ .disabled → answers (.twnLinkEnable v) s fun t =>
        regGet t 0x120000 = 1 ∧ changesOnly { regs := true } s t) ∧
      (v.toNat.testBit 0 = false → answers (.twnLinkEnable v) s fun t =>
        t.twn.link = .disabled ∧ (s.twn.link ≠ .up → regGet t 0x120000 = 0 ∧ changesOnly { regs := true, twn := true } s t))) ∧
    (∀ (k : Fin 8) (rx : Fin 3) (own : Fin 4) (seq req preset : Byte),
      (s.twn.link = .preset ∧ s.twn.quiet = false ∨ s.twn.link = .tap) → answers (.dxpTrainBlockRx k rx own seq req preset) s fun t =>
        let x := dxpGet s k
        let y := dxpGet t k
        y.seen = true ∧ y.own = own.val ∧ y.partnerTrained = decide (rx.val = 2) ∧
        (x.handled = true → x.ackSeq = seq.toNat → y.taps = x.taps ∧ y.ack = x.ack) ∧
        (x.handled = false ∨ x.ackSeq ≠ seq.toNat → (y.taps, y.ack) = applyReq x.taps req.toNat preset.toNat ∧ y.ackSeq = seq.toNat) ∧
        (∀ j, j ≠ k.val → dxpGet t j = dxpGet s j) ∧
        (s.twn.link = .preset → t.twn.link = if (List.range 8).all (fun j => (dxpGet t j).seen) then .tap else .preset) ∧
        (s.twn.link = .tap → t.twn.link =
          if (List.range 8).all (fun j => decide (2 ≤ (dxpGet t j).own) && (dxpGet t j).partnerTrained) then .align else .tap) ∧
        changesOnly { outs := true, twn := true, obs := true } s t) ∧
    (s.twn.link = .tap ∨ s.twn.link = .align → answers .dxpTrainTimeout s fun t =>
      t.twn.link = .preset ∧ starts t ∧ changesOnly { twn := true } s t) ∧
    (answers .dxpQuietEnd s fun t => t = { s with twn := { s.twn with quiet := false } }) ∧
    (s.twn.link = .preset → s.twn.quiet = false → s.twn.noPartner = false → (∀ k, k < 8 → (dxpGet s k).seen = false) →
      answers .dxpNoPartner s fun t =>
        t.twn = { s.twn with noPartner := true } ∧ reported 0x1202 1 s t ∧ changesOnly { Parts.events with twn := true } s t) ∧
    (∀ m : Hello, s.twn.link = .align ∨ s.twn.link = .up → s.twn.pairReq = none → s.twn.rejoin = false → answers (.dxpHello m) s fun t =>
      t.twn.link = .up ∧ t.twn.hello = some m ∧ t.twn.partnerSn = m.serial.toNat ∧ (∀ k, k < 8 → (dxpGet t k).own = 3) ∧
      t.twn.paired = s.twn.paired ∧ changesOnly { twn := true } s t) ∧
    (∀ m : Heartbeat, s.twn.link = .up → s.twn.pairReq = none → s.twn.rejoin = false → answers (.dxpHeartbeat m) s fun t =>
      t = { s with twn := { s.twn with
        hb := some m, rtt := m.rtt.toNat,
        hbStandby := if s.twn.paired = true ∧ m.active = false ∧ roleNow s = false then min 2 (s.twn.hbStandby + 1) else 0 } }) ∧
    (s.twn.link = .up → answers .heartbeatDue s fun t =>
      t.twn = { s.twn with tables := [], txAlive := t.twn.txAlive } ∧
      (∃ ms, ms.length = s.twn.tables.length ∧ t.outs = ms ++ .dxpMessage (dxpWords ((s.twn.txAlive + 1) % 65536) 2 s.twn.roleGrp
        [flag (roleNow s) 0, pacState s, numThr s, numIng s, numCh s, (refCh s).density, nbrKOf s, cfgDigest s, tableDigest s.dos.cur]) :: s.outs) ∧
      (s.twn.tables = [] → t.twn.txAlive = (s.twn.txAlive + 1) % 65536) ∧
      (∀ q, s.twn.tables = [q] → t.twn.txAlive = (s.twn.txAlive + 2) % 65536 ∧
        t.outs.head? = some (.dxpMessage (dxpWords ((s.twn.txAlive + 2) % 65536) 8 q.1 q.2))) ∧
      changesOnly { outs := true, twn := true, obs := true } s t) ∧
    (s.twn.link = .up → answers .dxpMessageDiscard s fun t =>
      t.twn = { s.twn with msgErr := sat32 (s.twn.msgErr + 1) } ∧ changesOnly { twn := true, obs := true } s t) ∧
    (s.twn.link = .up → answers .dxpLinkTimeout s fun t =>
      t.twn.link = .preset ∧ t.twn.quiet = true ∧ starts t ∧
      (s.twn.paired = false → s.twn.tableX = none → s.twn.handover = none → s.twn.armSent = false →
        reported 0x1203 4 s t ∧ changesOnly { Parts.events with twn := true } s t) ∧
      (s.twn.paired = true → s.twn.tableX = none → s.twn.handover = none → s.twn.armSent = false → s.pac.stripe = none →
        t.twn.paired = false ∧ t.twn.active = true ∧ reported 0x1203 4 s t ∧ changesOnly { Parts.events with twn := true } s t) ∧
      (s.twn.paired = true → s.twn.tableX = none → s.twn.handover = none → s.twn.armSent = false → s.pac.stripe.isSome = true →
        s.twn.partnerDeadSeen = false →
        t.twn.split = true ∧ t.twn.splitSeen = true ∧ t.twn.paired = true ∧ t.pac = s.pac ∧ changesOnly { Parts.events with twn := true } s t))

/-- TWIN_PAIR, its DISSOLVE and its timeout (R290, R291): the settings are taken and the pair forms once the HELLOs agree;
DISSOLVE ends the pair and this device works alone; the timeout completes the command with PARTNER; the refusals of the table.
Rests on the model's own reading in log 71 (DEDUCED), log 72 (DEDUCED). -/
def Obligations.TwinPairing : Prop :=
  ∀ s : State,
    (∀ (id : Nat) (c : Cmd), cmdOp s id 0x0B = some c →
      let row : Instr := if bitAt (c.p 1 1) 1 then .twinPairDissolve id else .twinPair id
      let bad := c.reserved 0x10 = true ∨ 4 ≤ c.p 1 1 ∨ c.p 2 2 ≠ 0
      let range := 1 < c.p 0 1 ∨ c.p 4 4 = 0 ∨ 600000 < c.p 4 4
      (bad → answers row s fun t => completedWith {} id 2 s t) ∧
      (¬ bad → range → answers row s fun t => completedWith {} id 0x40 s t) ∧
      (¬ bad → ¬ range → s.pac.stripe.isSome = true → answers row s fun t => completedWith {} id 0x44 s t) ∧
      (¬ bad → ¬ range → s.pac.stripe = none →
        (bitAt (c.p 1 1) 1 = false → s.twn.pairReq = none → answers (.twinPair id) s fun t =>
          t.twn.sideB = decide (c.p 0 1 = 1) ∧ t.twn.master = bitAt (c.p 1 1) 0 ∧ t.twn.expectSn = c.p 8 8 ∧
          (s.twn.hello = none →
            t.twn.pairReq = some { cmd := id, sideB := decide (c.p 0 1 = 1), master := bitAt (c.p 1 1) 0, sn := c.p 8 8 } ∧
            t.twn.paired = s.twn.paired ∧ changesOnly { outs := true, hst := true, twn := true, obs := true } s t) ∧
          (∀ m, s.twn.hello = some m → s.twn.link = .up → m.sideB ≠ decide (c.p 0 1 = 1) → m.paceMaster ≠ bitAt (c.p 1 1) 0 →
            (c.p 8 8 = 0 ∨ c.p 8 8 = m.serial.toNat) → (m.expected = 0 ∨ m.expected = Config.serial) → m.stepping.toNat = steppingB0 →
            t.twn.paired = true ∧ t.twn.active = decide (c.p 0 1 ≠ 1) ∧ t.twn.partnerSn = m.serial.toNat ∧ t.twn.pairReq = none ∧
            cmdFind t id = none ∧ reported 0x1201 0 s t ∧ changesOnly { Parts.events with twn := true } s t)) ∧
        (bitAt (c.p 1 1) 1 = true → answers (.twinPairDissolve id) s fun t =>
          t.twn.paired = false ∧ t.twn.active = true ∧ t.twn.roleNext = none ∧ t.twn.rejoin = false ∧ cmdFind t id = none ∧
          (s.twn.link = .up → s.twn.paired = true → t.twn.link = .preset ∧ t.twn.quiet = true) ∧
          (s.twn.link ≠ .up ∨ s.twn.paired = false → completedWith { twn := true } id 0 s t ∧ t.twn.link = s.twn.link)))) ∧
    (∀ q, s.twn.pairReq = some q → answers .twinPairTimeout s fun t =>
      t.twn = { s.twn with pairReq := none } ∧ completedWith { twn := true } q.cmd 0x43 s t)

/-- The handover of the active role and the roles under link loss (R283, R304 to R308): proposal, ACCEPT and COMMIT move the role
from the proposed group on, whose first slot completes the command, after the deadline they fail; a twin that gains the role takes it, one that must drop it drops it at
once; a dead partner's unsettled frames become this twin's. -/
def Obligations.TwinRoles : Prop :=
  ∀ s : State,
    let msg (ty g : Nat) (p : List Nat) : Output := .dxpMessage (dxpWords ((s.twn.txAlive + 1) % 65536) ty g p)
    (∀ (id : Nat) (c : Cmd), cmdOp s id 0x0C = some c →
      let fails (st : Nat) : Prop := answers (.twinHandover id) s fun t => completedWith {} id st s t
      (c.reserved 0 = true → fails 2) ∧
      (c.reserved 0 = false →
        (s.twn.paired = false → fails 0x40) ∧ (s.twn.paired = true → voting s = false → fails 0x41) ∧
        (voting s = true → handoverBusy s = true → fails 0x42) ∧
        (voting s = true → handoverBusy s = false → answers (.twinHandover id) s fun t =>
          (roleNow s = true → t.twn.handover = some { group := handoverGroup s, cmd := some id, proposed := true } ∧
            t.outs = msg 7 (handoverGroup s) [1] :: s.outs) ∧
          (roleNow s = false → t.twn.handover = some { group := max32, cmd := some id, proposed := false } ∧ t.outs = msg 7 0 [0] :: s.outs) ∧
          changesOnly { outs := true, hst := true, twn := true, obs := true } s t))) ∧
    (voting s = true → roleNow s = true → handoverBusy s = false → answers .dxpHandoverRequest s fun t =>
      t.twn.handover = some { group := handoverGroup s, cmd := none, proposed := true } ∧ t.outs = msg 7 (handoverGroup s) [1] :: s.outs ∧
      changesOnly { outs := true, twn := true, obs := true } s t) ∧
    (∀ g : W32, voting s = true → roleNow s = false → answers (.dxpHandoverPropose g) s fun t =>
      t.twn.handover = some { group := g.toNat, cmd := s.twn.handover.bind (fun h => h.cmd), proposed := false } ∧
      t.outs = msg 7 g.toNat [2] :: s.outs ∧ changesOnly { outs := true, twn := true, obs := true } s t) ∧
    (∀ (g : W32) (ho : Handover) (c : Instr) (act : Bool), s.twn.handover = some ho → ho.group = g.toNat → ho.committed = false →
      voting s = true →
      (c = .dxpHandoverAccept g ∧ ho.proposed = true ∧ act = false ∨ c = .dxpHandoverCommit g ∧ ho.proposed = false ∧ act = true) →
      answers c s fun t =>
        changesOnly { Parts.events with twn := true } s t ∧
        (beforeDeadline s ho.group = true → reported 0x1205 0 s t ∧ t.twn.roleGrp = ho.group % 2 ^ 20 ∧
          (s.pac.stripe = none ∨ ho.group = max32 → t.twn.active = act ∧ t.twn.roleNext = none ∧ t.twn.handover = none ∧
            (∀ id, ho.cmd = some id → cmdFind t id = none)) ∧
          (s.pac.stripe.isSome = true → ho.group ≠ max32 → t.twn.active = roleNow s ∧ t.twn.roleNext = some (ho.group, act) ∧
            t.twn.handover = some { ho with committed := true } ∧ (∀ id, cmdFind t id = cmdFind s id))) ∧
        (beforeDeadline s ho.group = false → t.twn.active = s.twn.active ∧ t.twn.roleNext = s.twn.roleNext ∧ t.twn.handover = none ∧
          (∀ id, ho.cmd = some id → cmdFind t id = none))) ∧
    (liveRule s = true → liveRole s = true → (s.twn.roleNext.map Prod.snd).getD s.twn.active = false → answers .roleTake s fun t =>
      t.twn.hbStandby = 0 ∧ reported 0x1205 0 s t ∧ changesOnly { Parts.events with twn := true } s t ∧
      (s.pac.stripe = none → t.twn.active = true ∧ t.twn.roleNext = none) ∧
      (s.pac.stripe.isSome = true → takeGroup s ≠ max32 → t.twn.roleNext = some (takeGroup s, true))) ∧
    (answers .partnerLive s fun t =>
      t.twn.partnerLive = true ∧ t.twn.partnerDeadSeen = false ∧
      (liveRule s = true → s.twn.sideB = true → roleNow t = false) ∧ changesOnly { Parts.events with twn := true } s t) ∧
    (s.twn.partnerLive = true → answers .partnerDead s fun t =>
      t.twn.partnerLive = false ∧ t.twn.partnerDeadSeen = true ∧
      (s.twn.paired = false ∨ s.twn.split = false ∨ s.twn.master = true →
        reported 0x1204 4 s t ∧ changesOnly { Parts.events with pac := true, twn := true } s t ∧
        t.pac = (if s.twn.paired then { s.pac with acct := s.pac.acct.map claimFrames } else s.pac)))

/-- Digests, ABORT and the arm messages between twins (R293, R295, R296, R309): a round-1 digest is kept until it can be used,
equal digests make the group final, differing lanes are computed again; an ABORT stops the running stripe at the group it
names or discards one that has not begun, and one that stops opens the groups below it; the two ARM_RESULTs arm both or end both
commands with one status, a refusal at once; with no ARM_READY from the partner the arm ends with 0x4B on both.
Rests on the model's own reading in log 25 (DESIGN CHOICE), log 94 (DEDUCED), log 103 (DEDUCED), log 115 (DEDUCED). -/
def Obligations.TwinMessages : Prop :=
  ∀ s : State,
    (∀ (j : W32) (mask : BitVec 128) (ds : List W64), voting s = true →
      (ds.length ≠ 128 → answers (.dxpDigest j false mask ds) s fun t =>
        t.twn = { s.twn with msgErr := sat32 (s.twn.msgErr + 1) } ∧ changesOnly { twn := true, obs := true } s t) ∧
      (ds.length = 128 → s.pac.stripe = none → answers (.dxpDigest j false mask ds) s fun t =>
        tfind t.twn.early j.toNat = some (ds.map BitVec.toNat) ∧ changesOnly { twn := true } s t) ∧
      (∀ st g, ds.length = 128 → s.pac.stripe = some st → grpGet st j.toNat = some g → g.final = none →
        answers (.dxpDigest j false mask ds) s fun t =>
          (g.own1 = none → t = setStripe { st with groups := tput st.groups j.toNat { g with peer1 := some (ds.map BitVec.toNat) } } s) ∧
          (∀ a, GroupsRise s → g.own1 = some a → g.mask = [] → ∃ st' g', t.pac.stripe = some st' ∧ grpGet st' j.toNat = some g' ∧
            (differing a (ds.map BitVec.toNat) = [] → g'.final = some true) ∧
            (differing a (ds.map BitVec.toNat) ≠ [] → g'.final = none ∧ g'.mask = differing a (ds.map BitVec.toNat) ∧
              t.twn.recomp = sat32 (s.twn.recomp + 1) ∧ reported 0x1206 0 s t)))) ∧
    (∀ (g : W32) (cause : Byte), voting s = true →
      (s.pac.stripe = none → answers (.dxpAbort g cause) s fun t => changesOnly { free := true } s t) ∧
      (∀ st, s.pac.stripe = some st →
        (st.state.moving = true → answers (.dxpAbort g cause) s fun t =>
          changesOnly Parts.ending s t ∧ ∃ st', t.pac.stripe = some st' ∧ st'.state = .stopping ∧ st'.groupLimit = g.toNat ∧
            st'.abort = some (cause.toNat, st.cutSlot g.toNat)) ∧
        (st.state = .arming ∨ st.state = .armed → answers (.dxpAbort g cause) s fun t =>
          t.pac.stripe = none ∧ t.pac.abortSlot = 0 ∧ (∀ id, st.cmd = some id → cmdFind t id = none) ∧ changesOnly Parts.ending s t) ∧
        (st.state = .stopping → ∀ c nu, st.abort = some (c, nu) →
          (g.toNat ≤ st.groupLimit ∨ nu ≤ st.nextSlot → exec (.dxpAbort g cause) s = .next s) ∧
          (st.groupLimit < g.toNat → st.nextSlot < nu → answers (.dxpAbort g cause) s fun t =>
            t.pac.stripe = some { st with groupLimit := g.toNat, abort := some (c, st.cutSlot g.toNat) } ∧
            t.pac.abortSlot = (if st.cutSlot g.toNat < st.slotEnd then st.cutSlot g.toNat else max32) ∧ changesOnly { pac := true } s t)))) ∧
    (s.twn.paired = true → s.twn.link = .up → ∀ st, s.pac.stripe = some st → st.state = .arming →
      (∀ m : ArmReady,
        (s.twn.armSent = false → answers (.dxpArmReady m) s fun t => t = { s with twn := { s.twn with peerArm := some m } }) ∧
        (s.twn.armSent = true → s.twn.ownResult = none → s.twn.peerResult = none → answers (.dxpArmReady m) s fun t =>
          let r := twinArmStatus s (s.twn.ownArm.getD (armReadyOf s st)) m
          t.twn = { s.twn with peerArm := some m, ownResult := some r, txAlive := (s.twn.txAlive + 1) % 65536 } ∧
          t.outs = .dxpMessage (dxpWords ((s.twn.txAlive + 1) % 65536) 5 r []) :: s.outs ∧
          changesOnly { outs := true, twn := true, obs := true } s t)) ∧
      (∀ r : W32,
        (s.twn.ownResult = none → r = 0 → answers (.dxpArmResult r) s fun t => t = { s with twn := { s.twn with peerResult := some 0 } }) ∧
        (s.twn.ownResult = none → r ≠ 0 → answers (.dxpArmResult r) s fun t =>
          t.pac.stripe = none ∧ ∀ id, st.cmd = some id → completedWith Parts.ending id r.toNat s t) ∧
        (s.twn.ownResult = some 0 → r = 0 → answers (.dxpArmResult r) s fun t =>
          (∃ st', t.pac.stripe = some st' ∧ st'.state = .armed ∧ st'.cmd = none ∧
            st'.id = (if st.makeup.isSome then wrap32 (s.pac.admitCount + 1) else st.id)) ∧
          (∀ id, st.cmd = some id → completedWith { pac := true, twn := true } id 0 s t)) ∧
        (∀ a, s.twn.ownResult = some a → (a ≠ 0 ∨ r ≠ 0) → answers (.dxpArmResult r) s fun t =>
          t.pac.stripe = none ∧ ∀ id, st.cmd = some id → completedWith Parts.ending id (armStatus a r.toNat) s t))) ∧
    (s.twn.paired = true → s.twn.peerArm = none → ∀ st, s.pac.stripe = some st → st.state = .arming → answers .twinArmTimeout s fun t =>
      t.pac.stripe = none ∧ (∀ id, st.cmd = some id → completedWith Parts.ending id 0x4B s t) ∧
      (s.twn.link = .up → Output.dxpMessage (dxpWords ((s.twn.txAlive + 1) % 65536) 5 0x4B []) ∈ t.outs))

/-! ### The beam table (05, 08) -/

/-- BEAM_MAP_SET and TRIM_SET (R153, R154, R156 to R162, R310): a command that passes the checks is sent to the partner of a working
pair, or executed: its new version is made at once, in effect, waiting or from its row on, and its words go to the granary, or it completes
where none changes; the refusals; the partner's answers; a waiting version takes effect once no stripe needs the old one, a switch row's
old version goes when its group has its outcome.
Rests on the model's own reading in log 69 (DEDUCED), log 70 (DESIGN CHOICE), log 111 (DESIGN CHOICE). -/
def Obligations.TableCommands : Prop :=
  ∀ s : State,
    let nb (m : TableMsg) : List (Nat × Nat) :=
      changedWords s m.trim m.first.toNat m.count.toNat (setBeams m.trim (latestTable s) m.first.toNat m.values 0)
    let sends (ty arg : Nat) (p : List Nat) : Output := .dxpMessage (dxpWords ((s.twn.txAlive + 1) % 65536) ty arg p)
    let before := some (s.dos.cur, s.dos.waiting, s.dos.prev)
    let changed (m : TableMsg) (t : State) : Prop :=
      let upd (b : BeamTable) : BeamTable := setBeams m.trim b m.first.toNat m.values (wrap32 (s.dos.gen + 1))
      (m.row.toNat = max32 → (∀ st, s.pac.stripe = some st → st.doneRaised = true ∨ st.abort.isSome = true) →
        t.dos.cur = upd (latestTable s) ∧ t.dos.waiting = none ∧ t.dos.prev = s.dos.prev) ∧
      (m.row.toNat = max32 → (∀ st, s.pac.stripe = some st → st.doneRaised = false ∧ st.abort = none) → s.pac.stripe.isSome = true →
        t.dos.cur = s.dos.cur ∧ t.dos.waiting = some (upd (latestTable s)) ∧ t.dos.prev = s.dos.prev) ∧
      (m.row.toNat ≠ max32 → t.dos.cur = upd s.dos.cur ∧ t.dos.prev = some (m.row.toNat, s.dos.cur) ∧ t.dos.waiting = s.dos.waiting.map upd)
    let F : Parts := { Parts.events with dos := true, pac := true, twn := true, grn := true }
    (∀ (id : Nat) (c : Cmd) (trim : Bool) (d : Option (List Byte)), cmdOp s id (if trim then 7 else 6) = some c →
      let row : Instr := if trim then .trimSet id d else .beamMapSet id d
      let n := c.p 4 4
      (tableParams s c ≠ 0 → answers row s fun t => completedWith Parts.events id (tableParams s c) s t) ∧
      (tableParams s c = 0 → c.p 8 8 ≠ 0 → d = none → answers row s fun t => completedWith Parts.events id 0x44 s t) ∧
      ∀ vals : List Nat, tableParams s c = 0 →
        (c.p 8 8 = 0 ∧ vals = List.replicate n (c.p 0x14 2) ∨
          c.p 8 8 ≠ 0 ∧ ∃ b, d = some b ∧ b.length = (if trim then 2 * n else (n + 3) / 4) ∧ vals = unpackValues trim n b) →
        let m := tableMsgOf c trim vals
        ((∃ v ∈ vals, (if trim then 4096 else 3) ≤ v) → answers row s fun t => completedWith Parts.events id 0x41 s t) ∧
        ((∀ v ∈ vals, v < (if trim then 4096 else 3)) →
          (s.twn.tableX.isSome = true → answers row s fun t => completedWith Parts.events id 0x43 s t) ∧
          (s.twn.tableX = none → rowCheck s (c.p 0x10 4) ≠ 0 → answers row s fun t =>
            completedWith Parts.events id (rowCheck s (c.p 0x10 4)) s t) ∧
          (s.twn.tableX = none → rowCheck s (c.p 0x10 4) = 0 → answers row s fun t =>
            changesOnly F s t ∧
            (voting s = true → t.twn.tableX = some { cmd := some id, msg := m, stage := 0, pair := true } ∧ t.dos = s.dos ∧ t.grn = s.grn ∧
              ∃ p, sends 8 m.tag.toNat p ∈ t.outs ∧ p.take 4 = [msgKind m, m.first.toNat, m.count.toNat, m.row.toNat]) ∧
            (voting s = false → changed m t ∧
              (nb m ≠ [] → t.twn.tableX = some { cmd := some id, msg := m, stage := 1, pair := false, before := before } ∧
                t.dos.gen = s.dos.gen ∧ t.grn.jobs.map GrnJob.cmd = s.grn.jobs.map GrnJob.cmd ++ [some id]) ∧
              (nb m = [] → t.twn.tableX = none ∧ t.dos.gen = wrap32 (s.dos.gen + 1) ∧ cmdFind t id = none ∧
                t.grn.jobs = s.grn.jobs))))) ∧
    (∀ m : TableMsg, voting s = true → answers (.dxpTable m) s fun t =>
      changesOnly { outs := true, twn := true, obs := true } s t ∧
      (s.twn.tableX.isSome = true → t.twn.tableX = s.twn.tableX ∧ t.outs = sends 9 m.tag.toNat [2 + 0x43 * 256] :: s.outs) ∧
      (s.twn.tableX = none → 0 < m.count.toNat → m.first.toNat + m.count.toNat ≤ numBeams → m.values.length = m.count.toNat →
        (∀ v ∈ m.values, v < (if m.trim then 4096 else 3)) →
        (rowCheck s m.row.toNat = 0 → t.twn.tableX = some { cmd := none, msg := m, stage := 0, pair := true } ∧
          t.outs = sends 9 m.tag.toNat [0] :: s.outs) ∧
        (rowCheck s m.row.toNat ≠ 0 → t.twn.tableX = none ∧ t.outs = sends 9 m.tag.toNat [2 + rowCheck s m.row.toNat * 256] :: s.outs))) ∧
    (∀ (x : TableX) (tag : BitVec 16) (st : Byte), s.twn.tableX = some x → x.msg.tag = tag → voting s = true →
      (∀ id, x.cmd = some id →
        (x.stage = 0 → answers (.dxpTableReply tag 2 st) s fun t =>
          t.twn.tableX = none ∧ completedWith { Parts.events with twn := true } id st.toNat s t) ∧
        (x.stage = 2 → answers (.dxpTableReply tag 1 st) s fun t =>
          t.twn.tableX = none ∧ t.dos.gen = wrap32 (s.dos.gen + 1) ∧ completedWith { Parts.events with dos := true, twn := true } id 0 s t) ∧
        (x.stage = 0 → x.pair = true → answers (.dxpTableReply tag 0 st) s fun t =>
          changesOnly F s t ∧ changed x.msg t ∧ (nb x.msg ≠ [] → t.twn.tableX = some { x with stage := 1, before := before }) ∧
          (nb x.msg = [] → t.twn.tableX = some { x with words := 0, stage := 2, before := before } ∧
            t.outs = sends 0x0A tag.toNat [] :: s.outs))) ∧
      (x.cmd = none → x.stage = 0 → x.pair = true → answers (.dxpTableCommit tag) s fun t =>
        changesOnly F s t ∧ changed x.msg t ∧ (nb x.msg ≠ [] → t.twn.tableX = some { x with stage := 1, before := before }) ∧
        (nb x.msg = [] → t.twn.tableX = none ∧ t.dos.gen = wrap32 (s.dos.gen + 1) ∧ Output.dxpMessage (dxpWords ((s.twn.txAlive + 1) % 65536) 9 tag.toNat [1]) ∈ t.outs))) ∧
    (∀ b, s.dos.waiting = some b →
      ((∀ st, s.pac.stripe = some st → st.doneRaised = true ∨ st.abort.isSome = true) → answers .tableChangeEffect s fun t =>
        t = { s with dos := { s.dos with cur := b, waiting := none } }) ∧
      (∀ st, s.pac.stripe = some st → st.doneRaised = false → st.abort = none → exec .tableChangeEffect s = .next s)) ∧
    (∀ ye b, s.dos.prev = some (ye, b) →
      (switchOver s ye = true → answers .tableSwitchRelease s fun t => t = { s with dos := { s.dos with prev := none } }) ∧
      (switchOver s ye = false → exec .tableSwitchRelease s = .next s))

/-! ### The loft (09) -/

/-- LFT_INVAL, LFT_RPT_CLEAR, WEEVIL_ARM, WEEVIL_DISARM, LOFT_ALERT, LFT_RETIRE, LOFT_CHANNEL_FAULT (R344, R351, R352, R354, R355):
the regions of an invalidation read 0 from then on, unless one is held; a channel in service is retired, after which no region is
valid and every byte reads 0.
Rests on the model's own reading in log 75 (DEDUCED). -/
def Obligations.LoftUnits : Prop :=
  ∀ s : State,
    (∀ v : W32, writeReaches 0x13C030 s → v.toNat % 2 ^ 21 ≠ 0 →
      let first := regGet s 0x13C02C
      let inside (r : Nat) : Bool := decide (first ≤ r ∧ r < first + v.toNat % 2 ^ 21)
      answers (.lftInval v) s fun t =>
        regGet t 0x13C030 = v.toNat % 2 ^ 21 ∧ changesOnly { regs := true, lft := true } s t ∧
        ((heldRanges s).any (fun q => overlaps q.1 q.2 (first * 2 ^ 20) (v.toNat % 2 ^ 21 * 2 ^ 20)) = false →
          t.lft.valid = s.lft.valid.filter (fun r => !inside r) ∧
          (∀ a, memGet t.lft.mem a = if inside (regionOf a) then 0 else memGet s.lft.mem a)) ∧
        ((heldRanges s).any (fun q => overlaps q.1 q.2 (first * 2 ^ 20) (v.toNat % 2 ^ 21 * 2 ^ 20)) = true →
          t.lft = { s.lft with invalRefused := true })) ∧
    (writeReaches 0x13C304 s → answers .lftRptClear s fun t => t = { s with lft := { s.lft with rpt := [], rptOvfSeen := false } }) ∧
    (∀ v : W32, writeReaches 0x13C080 s →
      (answers (.weevilArm v) s fun t =>
        t.lft = { s.lft with wArmed := true, wFired := s.lft.wFired && !v.toNat.testBit 29 } ∧ regGet t 0x13C080 = v.toNat &&& 0xF1 ∧
        changesOnly { regs := true, lft := true } s t) ∧
      (answers (.weevilDisarm v) s fun t =>
        t.lft = { s.lft with wArmed := false, wFired := s.lft.wFired && !v.toNat.testBit 29 } ∧ regGet t 0x13C080 = v.toNat &&& 0xF1 ∧
        changesOnly { regs := true, lft := true } s t)) ∧
    (∀ c : Fin 12, (lftGet s c).state = .inService →
      (∀ writeCrc again : Bool,
        (s.lft.trained = true → (writeCrc = true → bitAt (regGet s 0x13C000) 0 = true) → answers (.loftAlert ⟨c, writeCrc, again⟩) s fun t =>
          t = lftSet s c { lftGet s c with retry := sat32 ((lftGet s c).retry + 1),
                                           retryRun := if again then min 3 ((lftGet s c).retryRun + 1) else 1 }) ∧
        (writeCrc = true → bitAt (regGet s 0x13C000) 0 = false → exec (.loftAlert ⟨c, writeCrc, again⟩) s = .next s)) ∧
      (∀ (i : Instr) (cause : Nat),
        (i = .lftRetire c ∧ writeReaches (0x130024 + 0x1000 * c.val) s ∧ cause = 7 ∨ i = .loftChannelFault c true ∧ cause = 6 ∨
          i = .loftChannelFault c false ∧ 3 ≤ (lftGet s c).retryRun ∧ cause = 5) →
        answers i s fun t =>
          (lftGet t c).state = .retired ∧ (lftGet t c).cause = cause ∧ (lftGet t c).reads = [] ∧ (lftGet t c).issued = [] ∧
          t.lft.valid = [] ∧ t.lft.fills = [] ∧ (∀ a, memGet t.lft.mem a = 0) ∧ t.lft.wArmed = false ∧
          t.lft.ready = (s.lft.ready && decide (1 ≤ numCh t)) ∧
          t.readbacks = [] ∧ t.glb.faultCode = 0x1302 ∧ t.glb.faultClass = 4 ∧
          (∀ st, t.pac.stripe = some st → st.state = .stopping) ∧
          changesOnly { Parts.ending with chains := true, chk := true, lft := true, readbacks := true } s t) ∧
      ((lftGet s c).retryRun < 3 → exec (.loftChannelFault c false) s = .next s))

/-- The channel scheduler and its timers (R320 to R324, R327 to R331): the best class of the waiting reads issues, a row hit
before an older request, and takes what the DRAM holds; a batch takes up to 16 writes, each of which reaches the DRAM; a bank in in-order
mode serves its oldest request; a refresh is issued with what is owed, postponed up to four times behind real-time reads, then forced;
the sensors set the refresh rate.
Rests on the model's own reading in log 13 (DESIGN CHOICE). -/
def Obligations.LoftScheduling : Prop :=
  ∀ (s : State) (c : Fin 12), let x := lftGet s c
    let issues (P : State → Prop) : Prop := answers (.loftRequestIssue c) s fun t =>
      changesOnly { Parts.events with free := true, chains := true, pac := true, lft := true } s t ∧ P t
    let rowOf (r : LftReq) (t : State) : Option Nat := tfind (lftGet t c).rows (bankKey (coordOf s r.addr))
    (s.lft.trained = true → x.state = .inService →
      (issues fun _ => True) ∧
      (loftQuiet s → x.batch = 0 → x.inOrder = [] → (∃ q ∈ x.reads, 1 ≤ rankNow s q ∧ rankNow s q ≤ 3) → issues fun t => ∃ r ∈ x.reads,
        let live := blockLive s (r.addr / 64)
        (∃ q, (lftGet t c).issued = x.issued ++ [q] ∧ q.addr = r.addr ∧ q.who = r.who ∧ q.dry = !live ∧
          (live = true → q.data = (rawBlock s (r.addr / 64)).1 ∧ q.mark = (rawBlock s (r.addr / 64)).2)) ∧
        (lftGet t c).reads = x.reads.filter (fun q => q.seq != r.seq) ∧ (lftGet t c).writes = x.writes ∧ t.lft.mem = s.lft.mem ∧
        1 ≤ rankNow s r ∧ rankNow s r ≤ 3 ∧ (∀ q ∈ x.reads, 1 ≤ rankNow s q → rankNow s r ≤ rankNow s q) ∧
        (∀ q ∈ x.reads, rankNow s q = rankNow s r → rowHit s x q = true → rowHit s x r = true) ∧
        (live = false → (lftGet t c).rows = x.rows) ∧
        (live = true → bitAt (regGet s 0x13C014) 31 = false →
          (rowHit s x r = true ∨ (Config.lfsrDraw s.free).toNat % 2 ^ bits (regGet s 0x13C010) 4 0 ≠ 0 → rowOf r t = some (coordOf s r.addr).row))) ∧
      (loftQuiet s → 0 < x.batch → (∃ w ∈ x.writes, rankNow s w = 4 ∧ writeMay s x w = true) → issues fun t =>
        (lftGet t c).reads = x.reads ∧ (lftGet t c).batch = x.batch - 1 ∧ ∃ w ∈ x.writes, rankNow s w = 4 ∧ writeMay s x w = true ∧
          (lftGet t c).writes = x.writes.filter (fun q => q.seq != w.seq) ∧
          (s.lft.wArmed = false → t.lft.mem = memWrite s.lft.mem (64 * (w.addr / 64)) w.data) ∧
          ∀ q ∈ x.writes, rankNow s q = 4 → writeMay s x q = true → rowHit s x q = true → rowHit s x w = true) ∧
      (∀ r w, loftQuiet s → x.batch = 0 → x.reads = [r] → x.writes = [w] → 1 ≤ rankNow s r → rankNow s r ≤ 3 → w.seq < r.seq →
        bankKey (coordOf s w.addr) = bankKey (coordOf s r.addr) → x.inOrder = [(bankKey (coordOf s r.addr), w.seq)] → issues fun t =>
          (lftGet t c).reads = [r] ∧ (lftGet t c).issued = x.issued ∧ (lftGet t c).writes = [] ∧ (lftGet t c).inOrder = []) ∧
      (∀ n, n = (x.writes.filter (fun w => rankNow s w == 4)).length → x.batch = 0 → 0 < n →
        ((∀ q ∈ x.reads, 3 < rankNow s q) ∨ 56 ≤ x.writes.length) → answers (.loftWriteBatch c) s fun t => t = lftSet s c { x with batch := min 16 n }) ∧
      ((∀ q ∈ x.reads ++ x.issued, 2 < q.rank) → answers (.refreshDue c) s fun t =>
        lftGet t c = { x with owed := 0, rows := [] } ∧ (∀ k, k ≠ c.val → lftGet t k = lftGet s k) ∧ changesOnly { lft := true, obs := true } s t) ∧
      ((∃ q ∈ x.reads ++ x.issued, q.rank ≤ 2) → x.owed < 4 → answers (.refreshDue c) s fun t => t = lftSet s c { x with owed := x.owed + 1 }) ∧
      ((∃ q ∈ x.reads ++ x.issued, q.rank ≤ 2) → 4 ≤ x.owed → answers (.refreshDue c) s fun t =>
        lftGet t c = { x with forced := min 65535 (x.forced + 1), rows := [] } ∧ (∀ k, k ≠ c.val → lftGet t k = lftGet s k) ∧
        changesOnly { lft := true, obs := true } s t) ∧
      (x.dimms = 1 → x.sensors.length ≤ 1 → (∀ p ∈ x.sensors, p.1 = 0) → ∀ (v : BitVec 16) (t1 : List (Option (BitVec 16))),
        let q := tget x.sensors 0 {}
        let reads (d : Option (BitVec 16)) (P : State → Sensor → Prop) : Prop := answers (.dimmTempRead c [d] t1) s fun t =>
          changesOnly { Parts.events with lft := true } s t ∧ P t (tget (lftGet t c).sensors 0 {})
        (v.toInt ≤ 95 * 16 → 85 * 16 < v.toInt → x.x2 = false → reads (some v) fun t p =>
          p.temp = v ∧ p.miss = 0 ∧ (lftGet t c).x2 = true ∧ reported 0x1307 0 s t) ∧
        (95 * 16 < v.toInt → x.x2 = true → q.hot = false → reads (some v) fun t p =>
          p.temp = v ∧ p.hot = true ∧ (lftGet t c).overtemp = true ∧ (lftGet t c).x2 = true ∧ reported 0x1308 4 s t) ∧
        (v.toInt ≤ 83 * 16 → bitAt (regGet s 0x13C000) 8 = false → x.x2 = true → reads (some v) fun t p =>
          p.temp = v ∧ (x.coolMs + 1 < 100 → (lftGet t c).coolMs = x.coolMs + 1 ∧ (lftGet t c).x2 = true) ∧
          (100 ≤ x.coolMs + 1 → (lftGet t c).x2 = false ∧ reported 0x1307 0 s t)) ∧
        (q.miss = 2 → x.x2 = true → reads none fun t p =>
          p.miss = 3 ∧ (lftGet t c).sensorFail = true ∧ (lftGet t c).x2 = true ∧ reported 0x1309 1 s t))) ∧
    (∀ bank : Fin 256, bitAt (regGet s 0x13C014) 31 = true → regGet s 0x13C014 % 65536 ≠ 0 → answers (.loftRowTimeout c bank) s fun t =>
      t = lftSet s c { x with rows := tdel x.rows bank.val })

/-- Fills, returning reads and the gleaner (R337 to R339, R341 to R347): the first write to an invalid region takes an engine, which zeros
from the last block downwards what writes have not covered and makes the region valid behind its first block; a good read only leaves its
queue, or goes to the chain that asked for it, or is merged into the partial write that waits for it; an uncorrectable real-time read is
counted and loses its tile-pass; a bad map word makes its 64 regions valid; the gleaner goes from block to block and reports its lap.
Rests on the model's own reading in log 59 (DEDUCED), log 74 (DEDUCED), log 98 (DESIGN CHOICE). -/
def Obligations.LoftFillsAndGleaner : Prop :=
  let lapped (ms : W32) (s t : State) : Prop :=
    t.lft.glnPos = 0 ∧ t.lft.glnLap = ms.toNat ∧ t.lft.glnLaps = wrap32 (s.lft.glnLaps + 1) ∧ t.lft.lapSlow = false ∧ reported 0x130B 0 s t
  ∀ s : State,
    (∀ w, s.lft.waits = [w] → (∀ c, (chainGet s c).landed = false) → w.reading = false → w.addr % 64 = 0 → w.bytes.length = 64 → w.part = false →
      w.poison = false → regionOf w.addr ∉ s.lft.valid →
      let blk := w.addr / 64
      let ch := (coordOf s w.addr).ch
      (s.lft.fills = [] → writeRoom s blk = true → answers .fillEngineStart s fun t =>
        t.lft.fills = [(0, { region := regionOf w.addr, mask := [blk] })] ∧ t.lft.waits = [] ∧ t.lft.mem = s.lft.mem ∧
        (∃ q, (lftGet t ch).writes = (lftGet s ch).writes ++ [q] ∧ q.addr = w.addr ∧ q.data = w.bytes ∧ q.client = w.client) ∧
        changesOnly { lft := true } s t) ∧
      (fillOf s (regionOf w.addr) = none → (∀ e, e < 8 → ∃ f, tfind s.lft.fills e = some f ∧ f.busy = true) → exec .fillEngineStart s = .next s)) ∧
    (∀ (e : Fin 8) (f : FillEng) (n : Nat), s.lft.waits = [] → (∀ c, (chainGet s c).landed = false) → s.lft.fills = [(e.val, f)] →
      f.busy = false → fillFree f f.next = some n → writeRoom s (f.region * 16384 + n) = true → answers .fillEngineStart s fun t =>
        let blk := f.region * 16384 + n
        let ch := (coordOf s (64 * blk)).ch
        n < f.next ∧ blk ∉ f.mask ∧ (∀ m, n < m → m < f.next → f.region * 16384 + m ∈ f.mask) ∧
        t.lft.fills = [(e.val, { f with next := n, busy := true })] ∧
        (∃ q, (lftGet t ch).writes = (lftGet s ch).writes ++ [q] ∧ q.addr = 64 * blk ∧ q.data = List.replicate 64 0) ∧ changesOnly { lft := true } s t) ∧
    (∀ (e : Fin 8) (f : FillEng), tfind s.lft.fills e = some f →
      (f.next = 0 → f.busy = false → answers (.fillEngineDone e) s fun t =>
        f.region ∈ t.lft.valid ∧ (∀ r, r ∈ s.lft.valid → r ∈ t.lft.valid) ∧ (s.lft.waits = [] → (∀ c, (chainGet s c).landed = false) → tfind t.lft.fills e = none) ∧
        t.lft.mem = s.lft.mem ∧ changesOnly { Parts.events with chains := true, pac := true, lft := true } s t) ∧
      (f.next ≠ 0 ∨ f.busy = true → answers (.fillEngineDone e) s fun t => t.lft.valid = s.lft.valid)) ∧
    (∀ (c : Fin 12) (q : LftReq) (r : List LftReq) (err : DramErr), (lftGet s c).issued = q :: r → (lftGet s c).owed = 0 → q.dry = false →
      (q.mark = {} → err.data = 0 → err.check = 0 → err.addr = false →
        (loftQuiet s → q.who = .realTime → answers (.loftReadComplete c err false) s fun t =>
          (lftGet t c).issued = r ∧ (lftGet t c).retryRun = 0 ∧ t.lft.mem = s.lft.mem ∧ t.lft.ueCount = s.lft.ueCount ∧ changesOnly { lft := true } s t) ∧
        (loftQuiet s → q.who = .realTime → answers (.loftReadComplete c err true) s fun t =>
          t.lft.mapUe = true ∧ (∀ x, x / 64 = regionOf q.addr / 64 → x ∈ t.lft.valid) ∧ (lftGet t c).issued = r) ∧
        (∀ k, loftQuiet s → q.who = .chain k → answers (.loftReadComplete c err false) s fun t =>
          (chainGet t k).got = tput (chainGet s k).got (q.addr / 64) (0, q.data) ∧ (lftGet t c).issued = r ∧
          changesOnly { chains := true, lft := true } s t) ∧
        (∀ w, s.lft.waits = [w] → s.lft.fills = [] → (∀ k, (chainGet s k).landed = false) → q.who = .partial_ → w.reading = true →
          w.addr / 64 = q.addr / 64 → w.bytes ≠ [] → w.addr % 64 + w.bytes.length ≤ 64 → q.data.length = 64 → w.poison = false →
          regionOf w.addr ∈ s.lft.valid → writeRoom s (q.addr / 64) = true → answers (.loftReadComplete c err false) s fun t =>
            let ch := (coordOf s w.addr).ch
            t.lft.waits = [] ∧ (∃ p, (lftGet t ch).writes = (lftGet s ch).writes ++ [p] ∧ p.addr = 64 * (q.addr / 64) ∧ p.client = 2 ∧
              p.data = mergePart q.data (w.addr % 64) w.bytes) ∧ changesOnly { lft := true } s t)) ∧
      (q.stale = false → 2 ≤ (struck q.data q.mark err).2.cls → q.who = .realTime → loftQuiet s → answers (.loftReadComplete c err false) s fun t =>
        t.lft.ueCount = sat32 (s.lft.ueCount + 1) ∧ t.lft.errAddr = 64 * (q.addr / 64) ∧ (lftGet t c).issued = r ∧
        (s.pac.stripe = none → reported 0x1303 4 s t) ∧
        (∀ st, s.pac.stripe = some st → q.rank = 1 → ∃ st', t.pac.stripe = some st' ∧
          lossTile 5 (coordOf s q.addr).ch q.pass (8 * q.group) (min (8 * q.group + 7) (st.slotEnd - 1)) q.tile ∈ st'.lostTiles))) ∧
    (∀ (err : DramErr) (ms : W32), bitAt (regGet s 0x13C040) 16 = true → s.lft.trained = true →
      (∀ a, gleanNext s s.lft.glnPos = some a → chUp s (coordOf s a).ch = true → (lftGet s (coordOf s a).ch).reads = [] →
        (lftGet s (coordOf s a).ch).writes = [] → err.data = 0 → err.check = 0 → err.addr = false → s.lft.marks = [] → s.lft.raw = [] →
        answers (.gleanerRead err ms) s fun t =>
          changesOnly { Parts.events with free := true, lft := true } s t ∧ t.lft.mem = s.lft.mem ∧
          (∀ b, gleanNext s (a + 64) = some b → t.lft.glnPos = b ∧ t.lft.glnLaps = s.lft.glnLaps) ∧
          (gleanNext s (a + 64) = none → lapped ms s t)) ∧
      (gleanNext s s.lft.glnPos = none → s.lft.glnPos ≠ 0 → answers (.gleanerRead err ms) s fun t =>
        lapped ms s t ∧ changesOnly { Parts.events with lft := true } s t)) ∧
    (∀ secs : W32, bitAt (regGet s 0x13C040) 16 = true → s.lft.trained = true → s.lft.lapSlow = false → regGet s 0x13C054 < secs.toNat →
      answers (.gleanerLapSlow secs) s fun t =>
        t.lft = { s.lft with lapSlow := true } ∧ reported 0x130C 1 s t ∧ changesOnly { Parts.events with lft := true } s t)

/-! ### Time, ports and gang frames (11) -/

/-- TIM_INCR_HI_WRITE, TIM_LOAD, TIM_ADJUST, TIM_SWITCH and TIME_TICK (R405 to R412): an increment commits with its high half
unless it is out of range; loads and adjustments wait for the next tick, which adds the increment, then makes the step unless a
bound profile refuses it; a switch within the tolerance gives domain A the time and increment of B, with EV_TIM_SWITCH; set-point instants
fall due on the 50 µs grid, and a launch when its time is reached.
Rests on the model's own reading in log 79 (DEDUCED), log 80 (DEDUCED), log 81 (DEDUCED). -/
def Obligations.Clocks : Prop :=
  ∀ s : State,
    (∀ (d : Fin 2) (v : W32), let b := decide (d.val = 1); let base := 0x150000 + 0x100 * d.val; let x := domGet s b
      (writeReaches (base + 0x14) s →
        let lo := ((tfind s.halves (base + 0x10)).map (fun h => h.toNat)).getD ((x.incrNext.getD x.incr) % 2 ^ 32)
        let inc := v.toNat % 256 * 2 ^ 32 + lo
        answers (.timIncrHiWrite d v) s fun t =>
          tfind t.halves (base + 0x10) = none ∧ changesOnly { halves := true, tim := true } s t ∧ domGet t (!b) = domGet s (!b) ∧
          domGet t b = (if inc < 0x3FEF9DB23 ∨ 0x4010624DD < inc then { x with incrRange := true } else { x with incrNext := some inc })) ∧
      (writeReaches (base + 0x2C) s →
        let ns := regGet s (base + 0x20)
        let at0 := timeOf (regPair s (base + 0x18) (base + 0x1C)) ns
        let adj : Int := signed 64 (regPair s (base + 0x24) (base + 0x28)) * 65536
        (answers (.timLoad d v) s fun t => t = domSet s b
          (if 1000000000 ≤ ns then { x with refused := true }
           else { x with load := some at0, adjust := if v.toNat.testBit 1 then some (0 + adj) else none })) ∧
        (v.toNat.testBit 0 = false → answers (.timAdjust d v) s fun t => t = domSet s b { x with adjust := some (x.adjust.getD 0 + adj) }) ∧
        (v.toNat.testBit 0 = true → ns < 1000000000 → answers (.timAdjust d v) s fun t =>
          t = domSet s b { x with load := some at0, adjust := some (0 + adj) }) ∧
        (v.toNat.testBit 0 = true → 1000000000 ≤ ns → answers (.timAdjust d v) s fun t => t = domSet s b { x with refused := true }))) ∧
    (writeReaches 0x150200 s → answers .timSwitch s fun t => t = { s with tim := { s.tim with switchReq := true } }) ∧
    (s.glb.clocksOk = true → answers .timeTick s fun t =>
      changesOnly { Parts.events with tim := true } s t ∧ t.tim.core = s.tim.core + 5 ∧ t.tim.switchReq = false ∧
      (∀ b : Bool, b = true ∨ s.tim.switchReq = false ∨
          stepTol s < ((t.tim.b.t : Int) - (((s.tim.a.t + s.tim.a.incr) % timeMod : Nat) : Int)).natAbs →
        let x := domGet s b
        let y := domGet t b
        let u := (x.t + x.incr) % timeMod
        let fits := profileUses s b = false ∨ ((x.stepped u : Int) - (u : Int)).natAbs ≤ stepTol s
        y.incr = x.incrNext.getD x.incr ∧ y.incrNext = none ∧ y.load = none ∧ y.adjust = none ∧
        (x.hasStep = false → y.t = u ∧ y.refused = x.refused) ∧
        (x.hasStep = true → fits → y.t = x.stepped u ∧ y.set = (x.set || x.load.isSome) ∧ y.refused = x.refused) ∧
        (x.hasStep = true → ¬ fits → y.t = u ∧ y.refused = true ∧ y.set = x.set)) ∧
      (s.tim.switchReq = true →
        let u := (s.tim.a.t + s.tim.a.incr) % timeMod
        (((t.tim.b.t : Int) - (u : Int)).natAbs ≤ stepTol s →
          t.tim.a.t = t.tim.b.t ∧ t.tim.a.incr = t.tim.b.incr ∧ t.tim.swDone = true ∧ t.tim.swRefused = s.tim.swRefused ∧
          t.tim.swStep = unsigned 64 (((t.tim.b.t : Int) - (u : Int)) / 65536) ∧
          reported 0x1503 0 { s with tim := t.tim } t ∧
          (s.tim.a.hasStep = true → t.tim.a.refused = true)) ∧
        (stepTol s < ((t.tim.b.t : Int) - (u : Int)).natAbs →
          t.tim.swRefused = true ∧ t.tim.swDone = s.tim.swDone ∧ t.tim.swStep = s.tim.swStep)) ∧
      (let b := s.pac.stripe.any (fun st => st.domB)
       b = s.tim.setDomB →
         t.tim.setLast = max s.tim.setLast ((domGet t b).t / gridUnit) ∧
         t.tim.setDue = s.tim.setDue + ((domGet t b).t / gridUnit - s.tim.setLast)) ∧
      t.tim.launches.map Launch.cmd = s.tim.launches.map Launch.cmd ∧
      (∀ l ∈ s.tim.launches, l.at_ ≤ (domGet t l.domB).t → ∃ m ∈ t.tim.launches, m.cmd = l.cmd ∧ m.due = true))

/-- The Ethernet ports (R399 to R404): a port comes up and goes down, a PTP frame for it takes the next receive slot with its
time-stamps, any other frame counts as discarded; `go` queues a transmit slot, its frame is sent or refused with its result; a
pop frees the oldest receive slot.
Rests on the model's own reading in log 28 (DESIGN CHOICE), log 29 (DESIGN CHOICE), log 91 (DEDUCED). -/
def Obligations.EthernetPorts : Prop :=
  ∀ (s : State) (p : Fin 2), let x := portGet s p
    (x.up = false → portEn s p = true → s.grn.loaded = true → answers (.ethPortUp p) s fun t =>
      portGet t p = { x with up := true, lock := true } ∧ reported 0x1501 0 s t ∧ changesOnly { Parts.events with tim := true } s t) ∧
    (x.up = true → answers (.ethPortDown p) s fun t =>
      portGet t p = { x with up := false, lock := false, downSeen := true } ∧ reported 0x1502 1 s t ∧
      changesOnly { Parts.events with tim := true } s t) ∧
    (x.up = true →
      (∀ (f : List Byte) (st : Stamp),
        (acceptPtp s p f = false → answers (.ptpFrameRx p f st) s fun t =>
          portGet t p = { x with discard := sat32 (x.discard + 1) } ∧ changesOnly { tim := true, obs := true } s t) ∧
        (acceptPtp s p f = true → 32 ≤ x.rxCount → answers (.ptpFrameRx p f st) s fun t =>
          portGet t p = { x with ovf := sat32 (x.ovf + 1) } ∧ changesOnly { tim := true, obs := true } s t) ∧
        (acceptPtp s p f = true → x.rxCount < 32 → answers (.ptpFrameRx p f st) s fun t =>
          let y := portGet t p
          let i := (x.rxOldest + x.rxCount) % 32
          y.rxCount = x.rxCount + 1 ∧ y.rxOldest = x.rxOldest ∧ y.rxSeq = wrap32 (x.rxSeq + 1) ∧
          slotRead y (512 * i) (48 + f.length) = slotDesc f.length 0 (flag (etherType f).2 0 + flag (bitAt (f.getD 0 0).toNat 0) 1)
            (wrap32 (x.rxSeq + 1)) (rxStamp s p (s.tim.a.at_ st)) (rxStamp s p (s.tim.b.at_ st)) ++ f ∧
          (∀ o, (o < 512 * i ∨ 512 * i + 48 + f.length ≤ o) → tget y.slots o 0 = tget x.slots o 0) ∧
          changesOnly { tim := true, obs := true } s t)) ∧
      (∀ badFcs, answers (.ethFrameDiscard p badFcs) s fun t =>
        portGet t p = (if badFcs then { x with badFcs := sat32 (x.badFcs + 1) } else { x with discard := sat32 (x.discard + 1) }) ∧
        changesOnly { tim := true, obs := true } s t)) ∧
    (∀ i : Fin 16, writeReaches (0x158000 + 0x6000 * p.val + 512 * i.val) s → answers (.ptpTxGo p i) s fun t =>
      (portGet t p).goOrder = (if i.val ∈ x.goOrder then x.goOrder else x.goOrder ++ [i.val]) ∧
      (∀ o, tget (portGet t p).slots o 0 = if o = 0x4000 + 512 * i.val + 2 then 1 else tget x.slots o 0) ∧
      changesOnly { tim := true } s t) ∧
    (∀ (i : Nat) (r : List Nat) (st : Stamp), x.goOrder = i :: r →
      let o := 0x4000 + 512 * i
      let len := ofLe (slotRead x o 2)
      let res := txResult x len (slotRead x (o + 0x30) 18)
      (res ≠ 0 ∨ portGuarded s p = false) → answers (.ptpTxDone p st) s fun t =>
        let y := portGet t p
        y.goOrder = r ∧ tget y.slots (o + 2) 0 = 0 ∧ tget y.slots (o + 3) 0 = BitVec.ofNat 8 res ∧
        (res = 0 → y.txSeq = wrap32 (x.txSeq + 1) ∧
          t.outs = .ethFrame p (slotRead x (o + 0x30) len ++ List.replicate (60 - len) 0) :: s.outs ∧
          slotRead y o 48 = slotDesc len 0 0 (wrap32 (x.txSeq + 1)) (txStamp s p (s.tim.a.at_ st)) (txStamp s p (s.tim.b.at_ st))) ∧
        (res ≠ 0 → y.txSeq = x.txSeq ∧ t.outs = s.outs ∧ slotRead y o 8 = le 2 len ++ le 1 0 ++ le 1 res ++ le 4 x.txSeq) ∧
        changesOnly { outs := true, free := true, tim := true, obs := true } s t) ∧
    (writeReaches (0x150428 + 0x100 * p.val) s → answers (.timRxPop p) s fun t =>
      (0 < x.rxCount → t = portSet s p { x with rxCount := x.rxCount - 1, rxOldest := (x.rxOldest + 1) % 32 }) ∧
      (x.rxCount = 0 → t = s))

/-- Gang frames (R413 to R420): a launch is checked, sent at once or queued for its time, cancelled by its tag; a due one starts
on its ports; a sent one completes its command; GANG_CTRL without EN ends every queued launch; a received frame acts by its
kind when it is new and this gang's, an ABORT on the stripe that is held unless it is stopping, and is counted where it is not.
Rests on the model's own reading in log 82 (DEDUCED), log 83 (DEDUCED), log 84 (DEDUCED), log 114 (DEDUCED). -/
def Obligations.GangFrames : Prop :=
  ∀ s : State,
    (∀ v : W32, writeReaches 0x150230 s → answers (.gangDisable v) s fun t =>
      gangOn t = false ∧ t.tim = { s.tim with launches := [], aborts := [] } ∧ (∀ l ∈ s.tim.launches, cmdFind t l.cmd = none) ∧
      changesOnly { outs := true, regs := true, hst := true, tim := true, obs := true } s t) ∧
    (∀ (id : Nat) (c : Cmd) (row : Instr), cmdOp s id 0x0D = some c →
      (row = .gangLaunchCancel id ∧ c.p 0 1 = 0 ∨ row = .gangLaunchStart id ∧ c.p 0 1 = 1 ∨ row = .gangLaunchAbort id ∧ c.p 0 1 = 2 ∨
        row = .gangLaunchUser id ∧ 3 ≤ c.p 0 1) →
      (launchStatus s c ≠ 0 → answers row s fun t => completedWith {} id (launchStatus s c) s t) ∧
      (launchStatus s c = 0 → c.p 0 1 ≠ 0 → bitAt (c.p 1 1) 0 = false →
        (upPorts (c.p 2 1) s = [] → answers row s fun t =>
          cmdFind t id = none ∧ t.tim.sent = s.tim.sent ∧ (s.tim.aborts = [] → completedWith { hst := true } id 0x43 s t) ∧
          changesOnly { outs := true, hst := true, tim := true, obs := true } s t) ∧
        (upPorts (c.p 2 1) s ≠ [] → answers row s fun t =>
          let q := if s.tim.txSeq = max32 then 1 else s.tim.txSeq + 1
          t.tim.txSeq = q ∧ t.tim.sent = s.tim.sent ++ [{ cmd := id, seq := q, ports := portMask (upPorts (c.p 2 1) s), late := false }] ∧
          (∀ p ∈ upPorts (c.p 2 1) s, ∃ f, Output.ethFrame p f ∈ t.outs) ∧
          changesOnly { outs := true, hst := true, tim := true, obs := true } s t)) ∧
      (launchStatus s c = 0 → c.p 0 1 ≠ 0 → bitAt (c.p 1 1) 0 = true →
        (8 ≤ s.tim.launches.length → answers row s fun t => completedWith {} id 0x41 s t) ∧
        (s.tim.launches.length < 8 → answers row s fun t =>
          changesOnly { hst := true, tim := true } s t ∧ ∃ l, t.tim = { s.tim with launches := s.tim.launches ++ [l] } ∧
            l.cmd = id ∧ l.tag = c.tag ∧ l.kind = c.p 0 1 ∧ l.ports = c.p 2 1 ∧ l.domB = bitAt (c.p 1 1) 1 ∧
            l.at_ = timeOf (c.p 8 8) (c.p 0x10 4) ∧ l.due = false)) ∧
      (launchStatus s c = 0 → c.p 0 1 = 0 →
        (s.tim.launches.find? (fun l => l.tag == c.p 4 2) = none → answers row s fun t => completedWith {} id 0x45 s t) ∧
        (∀ l, s.tim.launches.find? (fun l => l.tag == c.p 4 2) = some l → answers row s fun t =>
          t.tim.launches = s.tim.launches.filter (fun m => m.cmd != l.cmd) ∧ cmdFind t id = none ∧ cmdFind t l.cmd = none ∧
          changesOnly { outs := true, hst := true, tim := true, obs := true } s t))) ∧
    (∀ l, nextLaunch s = some l → answers .gangLaunchDue s fun t =>
      t.tim.launches = s.tim.launches.filter (fun m => m.cmd != l.cmd) ∧ changesOnly { outs := true, hst := true, tim := true, obs := true } s t ∧
      (upPorts l.ports s = [] → t.tim.sent = s.tim.sent ∧ cmdFind t l.cmd = none) ∧
      (upPorts l.ports s ≠ [] → ∃ x, t.tim.sent = s.tim.sent ++ [x] ∧ x.cmd = l.cmd ∧ x.ports = portMask (upPorts l.ports s) ∧ x.seq = t.tim.txSeq ∧
        (l.late = true ∨ (∃ p ∈ upPorts l.ports s, portBusy s p = true) → x.late = true))) ∧
    (∀ x r (a b : Stamp), s.tim.sent = x :: r → answers (.gangFrameSent a b) s fun t =>
      t.tim.sent = r ∧ cmdFind t x.cmd = none ∧ (s.tim.aborts = [] → completedWith { tim := true } x.cmd 0 s t) ∧
      changesOnly { outs := true, hst := true, tim := true, obs := true } s t) ∧
    (∀ (f : GangFrame) (row : Instr), (portGet s f.port).up = true →
      (row = .gangStartRx f ∨ row = .gangUserRx f ∨ row = .gangAbortRx f ∨ row = .gangIdClash f ∨ row = .gangFrameRefused f) →
      (gangFits s f = false → answers row s fun t =>
        portGet t f.port = { portGet s f.port with discard := sat32 ((portGet s f.port).discard + 1) } ∧
        changesOnly { tim := true, obs := true } s t) ∧
      (gangFits s f = true → f.src.toNat = regGet s 0x150220 % 4096 → answers row s fun t =>
        t.tim = { s.tim with clash := true } ∧ (s.tim.clash = false → reported 0x1507 1 s t) ∧
        changesOnly { Parts.events with tim := true } s t) ∧
      (gangFits s f = true → f.src.toNat ≠ regGet s 0x150220 % 4096 →
        let old := tfind s.tim.srcs f.src.toNat
        (gangNew old f = false → answers row s fun t =>
          t.tim.dup = sat32 (s.tim.dup + 1) ∧ t.tim.gap = s.tim.gap ∧ changesOnly { tim := true, obs := true } s t) ∧
        (gangNew old f = true → answers row s fun t =>
          t.tim.gap = sat32 (s.tim.gap + aliveGap old f) ∧ t.tim.dup = s.tim.dup ∧
          (tfind t.tim.srcs f.src.toNat).map Src.seq = some f.seq.toNat ∧
          (f.kind.toNat = 1 → reported 0x1504 0 s t ∧ changesOnly { Parts.events with tim := true } s t) ∧
          (f.kind.toNat = 3 → reported 0x1505 0 s t ∧ changesOnly { Parts.events with tim := true } s t) ∧
          (f.kind.toNat = 2 → bitAt (gangCtrl s) 0 = false ∨ holdsAny s = false →
            reported 0x1506 4 s t ∧ changesOnly { Parts.events with tim := true } s t) ∧
          (f.kind.toNat = 0 ∨ 3 < f.kind.toNat → changesOnly { tim := true, obs := true } s t) ∧
          (f.kind.toNat = 2 → bitAt (gangCtrl s) 0 = true →
            (∀ st, s.pac.stripe = some st → st.state.moving = true → ∃ st', t.pac.stripe = some st' ∧ st'.state = .stopping) ∧
            (∀ st, s.pac.stripe = some st → st.state = .arming ∨ st.state = .armed → t.pac.stripe = none)))))

/-! ### Stripes: admission, arming, building, running (02 to 06, 14) -/

/-- Where the passes of a pixel fall (R24, R30, R44): beam b = r·512 + c writes column c·S + (r mod S) in pass ⌊r/S⌋, in slot n on
row n − r·G; pass p of pixel (x, y) is written by one beam in one slot, y + (p·S + (x mod S))·G, one of the stripe's slots, and by no
other beam in no other slot; successive passes are S·G slots apart. -/
def Obligations.PassGeometry : Prop :=
  ∀ h : Header, h.passes = 1 ∨ h.passes = 2 ∨ h.passes = 4 ∨ h.passes = 8 →
    (∀ b n, b < 262144 → ∃ (x : Nat) (y : Int) (p : Nat) (inside : Bool), beamSlot h b n = (x, y, p, inside) ∧
      x = b % 512 * h.S + b / 512 % h.S ∧ x < h.W ∧ p = b / 512 / h.S ∧ p < h.passes ∧ y = (n : Int) - (b / 512 * h.pitch : Nat) ∧
      (inside = true ↔ 0 ≤ y ∧ y < (h.L : Int))) ∧
    (∀ x y p, x < h.W → y < h.L → p < h.passes →
      passpixSlot h x y p = y + (p * h.S + x % h.S) * h.pitch ∧ passpixBeam h x p < 262144 ∧ passpixSlot h x y p < h.N ∧
      (∀ b n, b < 262144 → (beamSlot h b n = (x, (y : Int), p, true) ↔ b = passpixBeam h x p ∧ n = passpixSlot h x y p)) ∧
      (p + 1 < h.passes → passpixSlot h x y (p + 1) = passpixSlot h x y p + h.S * h.pitch) ∧
      passpixSlot h x y 0 = y + x % h.S * h.pitch ∧
      passpixSlot h x y (h.passes - 1) = passpixSlot h x y 0 + (h.passes - 1) * h.S * h.pitch)

/-- STRIPE_ADMIT, ADMIT_GUARD_WAIT_END, ADMISSION_COMPLETE (R192, R193, R195, R391, R482): the refusals of acceptance; an accepted
admission takes the next number, empties the make-up store and ends an admission before it; its work waits for host transfers into its
areas, then what it plans with is fixed and it reads the sheaf; once that is read and the bin area is written, the report is written and the
stripe is held, or refused with its reason.
Rests on the model's own reading in log 41 (DEDUCED), log 42 (DEDUCED). -/
def Obligations.Admissions : Prop :=
  ∀ s : State,
    (∀ (id : Nat) (c : Cmd), cmdOp s id 2 = some c →
      let F : Parts := { Parts.events with free := true, lft := true }
      let rd := readBlocks 3 4 (c.p 0 8 / 64) s
      let len := sheafRange s (c.p 0 8) rd.2.1
      let bad := c.reserved 0x30 = true ∨ c.p 0x24 4 ≠ 0 ∨ c.p 0x2E 2 ≠ 0
      let ends (st : Nat) : Prop := answers (.stripeAdmit id) s fun t => completedWith F id st s t
      (bad → ends 2) ∧ (¬ bad → blocksUp s = false → ends 3) ∧ (¬ bad → blocksUp s = true → addressBad s c = true → ends 0x41) ∧
      (¬ bad → blocksUp s = true → addressBad s c = false →
        (2 ≤ rd.1 → ends 5) ∧ (rd.1 < 2 → areasOverlap s (c.p 0 8) len (c.p 8 8) (c.p 0x10 8) = true → ends 0x41) ∧
        (rd.1 < 2 → areasOverlap s (c.p 0 8) len (c.p 8 8) (c.p 0x10 8) = false → c.p 0x20 4 < 64 + 8 * reportSegs rd.2.1 → ends 0x40) ∧
        (rd.1 < 2 → areasOverlap s (c.p 0 8) len (c.p 8 8) (c.p 0x10 8) = false → 64 + 8 * reportSegs rd.2.1 ≤ c.p 0x20 4 →
          answers (.stripeAdmit id) s fun t => ∃ a, t.pac.adm = some a ∧ a.id = s.pac.admitCount + 1 ∧ a.cmd = some id ∧
            a.sheaf = c.p 0 8 ∧ a.sheafLen = len ∧ a.bin = c.p 8 8 ∧ a.binLen = c.p 0x10 8 ∧ a.report = c.p 0x18 8 ∧ a.y0 = c.p 0x28 6 ∧
            a.phase = (if guardBusy s a then .guardWait else .working) ∧ (guardBusy s a = false → a.left = if (earlyRefuse s).isSome then 0 else 4) ∧ t.pac.admitCount = s.pac.admitCount + 1 ∧ t.pac.stripe = s.pac.stripe ∧
            t.store = { s.store with recs := [], nextId := 1, full := false } ∧
            (∀ b i, s.pac.adm = some b → b.phase ≠ .held → b.cmd = some i → i ≠ id → cmdFind t i = none) ∧
            changesOnly { F with chk := true, pac := true, store := true } s t))) ∧
    (∀ a, s.pac.adm = some a → a.phase = .guardWait → guardBusy s a = false → answers .admitGuardWaitEnd s fun t =>
      (∃ a', t.pac = { s.pac with adm := some a' } ∧ a'.phase = .working ∧ a'.id = a.id ∧ a'.cmd = a.cmd ∧ a'.sheaf = a.sheaf ∧ a'.bin = a.bin ∧
        a'.pin = planIn s ∧ a'.early = earlyRefuse s ∧ a'.left = (if (earlyRefuse s).isSome then 0 else 4)) ∧ changesOnly { pac := true, lft := true } s t) ∧
    (∀ a, s.pac.adm = some a → a.phase = .working →
      (0 < a.left ∨ (∃ w ∈ s.lft.waits, w.client = 3) → exec .admissionComplete s = .next s) ∧
      (a.left = 0 → (∀ w ∈ s.lft.waits, w.client ≠ 3) → answers .admissionComplete s fun t =>
        (∀ i, a.cmd = some i → cmdFind t i = none) ∧ changesOnly { Parts.events with free := true, pac := true } s t ∧ t.pac.stripe = s.pac.stripe ∧
        (2 ≤ a.cls → t.pac = { s.pac with adm := none } ∧ ∀ i, a.cmd = some i → completedWith { pac := true } i 5 s t) ∧
        (∀ r p, a.cls < 2 → admitVerdict s a = .inl (r, p) → t.pac = { s.pac with adm := none } ∧
          ∃ b, Output.hostWrite a.report b ∈ t.outs ∧ b.getD 7 0 = BitVec.ofNat 8 r.reason) ∧
        (∀ o res pl p, a.cls < 2 → admitVerdict s a = .inr (o, res, pl, p) →
          t.pac = { s.pac with adm := some { a with phase := .held, hdr := o.hdr, bins := o.bins, grid := o.grid, resident := res, placed := pl,
                                                    plan := p, buf := [] } } ∧
          ∃ b, Output.hostWrite a.report b ∈ t.outs ∧ b.getD 6 0 = 0)))

/-- STRIPE_ARM, PREROLL_COMPLETE, STRIPE_ABORT and MAKEUP_ARM (R175, R187, R193, R196, R197, R485 to R491): the refusals; an ARM that
passes its checks begins the pre-roll over the whole stripe, a make-up ARM over the segments that its list covers under a
number of its own; a complete pre-roll arms it, or its late start ends it; an abort stops what runs and discards what does not.
Rests on the model's own reading in log 25 (DESIGN CHOICE), log 45 (DEDUCED), log 60 (DEDUCED). -/
def Obligations.Arming : Prop :=
  ∀ s : State,
    (∀ (id : Nat) (c : Cmd), cmdOp s id 3 = some c →
      let bad := c.tailBad 0x18 = true ∨ 4 ≤ c.p 4 4 ∨ c.p 0x14 4 ≠ 0 ∨ startNsBad (c.p 0x10 4) = true
      let ends (st : Nat) : Prop := answers (.stripeArm id) s fun t => completedWith {} id st s t
      (c.headBad = true → ends 2) ∧ (c.headBad = false → bad → ends 0x47) ∧
      (c.headBad = false → ¬ bad → (∀ a, s.pac.adm = some a → a.phase ≠ .held ∨ a.id ≠ c.p 0 4) → ends 0x40) ∧
      (∀ a, c.headBad = false → ¬ bad → s.pac.adm = some a → a.phase = .held → a.id = c.p 0 4 →
        (armChecks s a a.plan 0 ≠ 0 → ends (armChecks s a a.plan 0)) ∧
        (armChecks s a a.plan 0 = 0 → answers (.stripeArm id) s fun t =>
          t.pac.adm = some { a with hold := true } ∧ t.dos.shortPp = 0 ∧ t.units.lanes = [] ∧ cmdFind t id = some { c with phase := .running } ∧
          changesOnly { Parts.events with units := true, dos := true, pac := true, enc := true, twn := true, lft := true } s t ∧
          ∃ st, t.pac.stripe = some st ∧ st.state = .arming ∧ st.id = a.id ∧ st.cmd = some id ∧ st.slotFirst = 0 ∧ st.slotEnd = a.hdr.N ∧
            st.plan = a.plan ∧ st.makeup = none ∧ st.groups = [] ∧
            st.startAt = (if bitAt (c.p 4 4) 0 then some (timeOf (c.p 8 8) (c.p 0x10 4)) else none)))) ∧
    (∀ st, s.pac.stripe = some st → st.state = .arming → s.twn.armSent = false → prerollDone s st = true →
      (s.twn.paired = false → (∀ x, st.startAt = some x → (domGet s st.domB).t ≤ x) → answers .prerollComplete s fun t =>
        (∃ st', t.pac.stripe = some st' ∧ st'.state = .armed ∧ st'.cmd = none ∧
          st'.id = (if st.makeup.isSome then wrap32 (s.pac.admitCount + 1) else st.id) ∧ t.pac.admitCount = (if st.makeup.isSome then st'.id else s.pac.admitCount)) ∧
        ∀ i, st.cmd = some i → completedWith { pac := true } i 0 s t) ∧
      (∀ x, st.startAt = some x → x < (domGet s st.domB).t → answers .prerollComplete s fun t =>
        t.pac.stripe = none ∧ (∀ a, s.pac.adm = some a → a.id = st.adm.id → ∃ a', t.pac.adm = some a' ∧ a'.hold = st.adm.hold) ∧
        ∀ i, st.cmd = some i → completedWith Parts.ending i 0x46 s t) ∧
      (s.twn.paired = true → s.twn.link ≠ .up → (∀ x, st.startAt = some x → (domGet s st.domB).t ≤ x) → answers .prerollComplete s fun t =>
        t.pac.stripe = none ∧ ∀ i, st.cmd = some i → completedWith Parts.ending i 0x4C s t)) ∧
    (∀ (id : Nat) (c : Cmd), cmdOp s id 4 = some c →
      (c.reserved 4 = true → answers (.stripeAbort id) s fun t => completedWith {} id 2 s t) ∧
      (c.reserved 4 = false → (∀ st, s.pac.stripe = some st → c.p 0 4 ≠ 0 ∧ c.p 0 4 ≠ st.id) →
        ((∀ a, s.pac.adm = some a → c.p 0 4 ≠ 0 ∧ c.p 0 4 ≠ a.id) → answers (.stripeAbort id) s fun t => completedWith {} id 0x40 s t) ∧
        (∀ a, s.pac.adm = some a → c.p 0 4 = 0 ∨ c.p 0 4 = a.id → answers (.stripeAbort id) s fun t =>
          t.pac = { s.pac with adm := none } ∧ cmdFind t id = none ∧
          changesOnly { outs := true, hst := true, chk := true, pac := true, lft := true, obs := true } s t)) ∧
      (∀ st, c.reserved 4 = false → s.pac.stripe = some st → c.p 0 4 = 0 ∨ c.p 0 4 = st.id → answers (.stripeAbort id) s fun t =>
        cmdFind t id = none ∧ changesOnly { Parts.ending with chk := true } s t ∧
        (st.state.moving = true → ∃ st', t.pac.stripe = some st' ∧ st'.state = .stopping ∧ st'.abort = some (1, st.cutSlot st.nextGroup)) ∧
        (st.state = .stopping → t.pac = s.pac ∧ completedWith {} id 0 s t) ∧
        (st.state = .arming ∨ st.state = .armed → t.pac.stripe = none))) ∧
    (∀ (id : Nat) (c : Cmd), cmdOp s id 5 = some c → c.p 0 1 ≠ 1 →
      (makeupParams c ≠ 0 → answers (.makeupArmList id) s fun t => completedWith {} id (makeupParams c) s t) ∧
      (makeupParams c = 0 → answers (.makeupArmList id) s fun t =>
        let recs := (s.store.recs.drop (c.p 4 4)).take (c.p 0x10 4)
        completedWith { outs := true } id 0 s t ∧ (recs ≠ [] → Output.hostWrite (c.p 8 8) (recs.flatMap MkRec.bytes) ∈ t.outs))) ∧
    (∀ (id : Nat) (c : Cmd), cmdOp s id 5 = some c → c.p 0 1 = 1 →
      let ends (d : Option (List Byte)) (st : Nat) : Prop := answers (.makeupArmArm id d) s fun t => completedWith {} id st s t
      (makeupParams c ≠ 0 → ∀ d, ends d (makeupParams c)) ∧
      (makeupParams c = 0 → (∀ a, s.pac.adm = some a → a.phase ≠ .held) → ∀ d, ends d 0x40) ∧
      (∀ a, makeupParams c = 0 → s.pac.adm = some a → a.phase = .held →
        ends none 4 ∧
        ∀ b : List Byte, b.length = 40 * c.p 0x10 4 →
          let recs := recordsOf (c.p 0x10 4) b
          let rebase := bitAt (c.p 1 1) 2
          let slots := coveredSlots a s.dos.cur recs
          let ka := slots.foldl min (slots.headD 0) / 1024
          let kb := slots.foldl max (slots.headD 0) / 1024
          let last := min (1024 * (kb + 1)) a.hdr.N
          let q := makeupPlan a.plan a.hdr.tag a.hdr.N ka kb
          let fits := recs.all (fun r => r.fits a rebase) = true
          let gens := rebase = true ∨ recs.all (fun r => r.gen == s.dos.gen) = true
          (¬ fits → ends (some b) 0x50) ∧ (fits → ¬ gens → ends (some b) 0x51) ∧ (fits → gens → a.touched = true → ends (some b) 0x52) ∧
          (fits → gens → a.touched = false → slots = [] → ends (some b) 0x54) ∧
          (fits → gens → a.touched = false → slots ≠ [] →
            let lim := limitPlan s a.y0 (q.regs.getD 4 0) (1024 * ka) last q.runup q.runout
            let owed := owedCount a s.dos.cur recs
            (lim ≠ 0 → ends (some b) 0x53) ∧ (lim = 0 → owed = 0 → ends (some b) 0x54) ∧
            (lim = 0 → owed ≠ 0 → armChecks s a q (1024 * ka) ≠ 0 → ends (some b) (armChecks s a q (1024 * ka))) ∧
            (lim = 0 → owed ≠ 0 → armChecks s a q (1024 * ka) = 0 → answers (.makeupArmArm id (some b)) s fun t =>
              t.pac.adm = some { a with hold := true } ∧ cmdFind t id = some { c with phase := .running } ∧
              changesOnly { Parts.events with units := true, dos := true, pac := true, enc := true, twn := true, lft := true } s t ∧
              ∃ st, t.pac.stripe = some st ∧ st.state = .arming ∧ st.id = s.pac.admitCount + 1 ∧ st.makeup = some recs ∧ st.owed = owed ∧
                st.slotFirst = 1024 * ka ∧ st.slotEnd = last ∧ st.plan = q))))

/-- Building groups (R100, R101, R104, R128, R129, R133, R253, R294 to R298, R312): the next queue opens over an empty buffer;
a lane delivers its run's codes; a thresher that fails or is retired leaves service; a built group is final alone, or gives its
digests to the vote; a group that its deadline finds is final, and with the fourth that fails in a row the stripe ends (R301); the jobs of a
lost ingest unit go to others; a filled bin stands in the crib (R109).
Rests on the model's own reading in log 62 (DEDUCED), log 94 (DEDUCED). -/
def Obligations.GroupBuild : Prop :=
  (∀ s : State, s.pac.stripe = none →
    (∀ v : W32, writeReaches 0x40030 s → v.toNat % 128 ∉ s.units.thrOut → answers (.thrRetire v) s fun t =>
      v.toNat % 128 ∈ t.units.thrOut ∧ t.units.thrLastCause = 4 ∧ reported 0x0401 4 s t ∧ changesOnly { Parts.events with units := true } s t) ∧
    (∀ u : Fin 32, u.val ∉ s.units.ingOut → answers (.ingestUnitFailure u) s fun t =>
      t.units = { s.units with ingOut := natInsert u.val s.units.ingOut } ∧ reported 0x0302 4 s t ∧
      changesOnly { Parts.events with chk := true, units := true, pac := true, lft := true } s t ∧
      (0 < numIng t → changesOnly { Parts.events with units := true } s t) ∧
      (∀ a, numIng t = 0 → s.pac.adm = some a → a.phase = .working →
        t.pac.adm = some { a with early := some (0x35, 0, 0), left := 0 }))) ∧
  ∀ (s : State) (st : Stripe), s.pac.stripe = some st → GroupsRise s →
    (queueOpens st = true → answers .groupQueueOpen s fun t =>
      (∃ st', t.pac.stripe = some st' ∧ st'.nextGroup = st.nextGroup + 1 ∧ (grpGet st' st.nextGroup).isSome = true) ∧
      (∀ w, tget t.swl.staging w 0 = if w / 131072 = st.nextGroup % 4 then 0 else tget s.swl.staging w 0) ∧
      changesOnly { units := true, pac := true, swl := true, lft := true, obs := true } s t) ∧
    (queueOpens st = false → exec .groupQueueOpen s = .next s) ∧
    (∀ (l : Fin 256) (r : Run) (g : Group), tfind s.units.lanes l.val = some r → runWaits s st r = false → grpGet st r.group = some g →
      answers (.runComplete l none) s fun t =>
        (∀ i, i < 8 → let x := r.beam % 2048
          bits (tget t.swl.staging (stageIndex r.group i (r.beam / 2048) (x / 16)) 0) (4 * (x % 16) + 3) (4 * (x % 16)) =
            (runSlot s st r.beam r.group i).1.code % 16) ∧
        changesOnly { units := true, dos := true, pac := true, swl := true, obs := true } s t) ∧
    (∀ (c : Instr) (u cause : Nat), u ∉ s.units.thrOut →
      ((∃ (l : Fin 256) (r : Run) (parity : Bool), c = .runComplete l (some parity) ∧ tfind s.units.lanes l.val = some r ∧ runWaits s st r = false ∧
          u = l.val / 2 ∧ cause = if parity then 2 else 1) ∨
        ∃ v : W32, c = .thrRetire v ∧ writeReaches 0x40030 s ∧ u = v.toNat % 128 ∧ cause = 4) →
      answers c s fun t =>
        u ∈ t.units.thrOut ∧ t.units.thrLastUnit = u ∧ t.units.thrLastCause = cause ∧ tfind t.units.lanes (2 * u) = none ∧
        tfind t.units.lanes (2 * u + 1) = none ∧ reported 0x0401 4 s t ∧ changesOnly { Parts.events with units := true, pac := true } s t) ∧
    (∀ j g, findGroup st (fun j g => !g.built && groupIdle s st.adm.hdr j g) = some (j, g) → answers .groupBuilt s fun t =>
      ∃ st' g', t.pac.stripe = some st' ∧ grpGet st' j = some g' ∧ g'.built = true ∧
        (voting s = false → j < st.g0 + 4 → g'.final = some true) ∧
        (voting s = false → st.g0 + 4 ≤ j → t.pac = { s.pac with stripe := some { st with groups := tput st.groups j { g with built := true } } } ∧
          changesOnly { pac := true, obs := true } s t) ∧
        (voting s = true → g'.own1 = some ((List.range 128).map (laneDigest s.swl.staging j)) ∧ (g.peer1 = none → g'.final = none))) ∧
    (∀ j g, (∀ q ∈ st.groups, q.2.final ≠ some false) →
      findGroup st (fun j g => !g.mask.isEmpty && g.own2.isNone && groupIdle s st.adm.hdr j g) = some (j, g) → answers .round2Built s fun t =>
      ∃ st' g', t.pac.stripe = some st' ∧ grpGet st' j = some g' ∧ g'.own2 = some (g.mask.map (laneDigest s.swl.staging j)) ∧
        (g.peer2 = none → g'.final = none) ∧
        (∀ b a p, g.peer2 = some b → g.own1 = some a → g.peer1 = some p →
          g'.final = some (notAgreed { g with own2 := some (g.mask.map (laneDigest s.swl.staging j)) }).isEmpty)) ∧
    (∀ j g, findGroup st (fun j _ => decide (j ≥ st.g0 + 4 ∧ st.started ∧ st.nextSlot + 4 > 8 * j)) = some (j, g) →
      ((voting s = true → ∀ q ∈ st.groups, q.2.final ≠ some false) → answers .groupDeadline s fun t =>
        ∃ st' g', t.pac.stripe = some st' ∧ grpGet st' j = some g' ∧ g'.final = some (!voting s) ∧
          (voting s = true → st'.firstFail = some (min (8 * j) (st.firstFail.getD (8 * j))))) ∧
      (voting s = true → groupRole s j = true → st.abort = none →
        (∀ d, d < 3 → (grpGet st (j - 3 + d)).bind (fun q => q.final) = some false) → answers .groupDeadline s fun t =>
          t.twn.diverge = true ∧ (st.state = .arming ∨ st.state = .armed → t.pac.stripe = none) ∧
          (st.state.moving = true → ∃ st', t.pac.stripe = some st' ∧ st'.state = .stopping))) ∧
    (∀ (u : Fin 32) (q : Job), st.jobs.find? (fun q => q.unit == some u.val) = some q → answers (.rleJobComplete u) s fun t =>
      changesOnly { pac := true, lft := true, obs := true } s t ∧ ∃ st', t.pac.stripe = some st' ∧
        st'.jobs.map (fun q => (q.tile, q.pass)) = (st.jobs.filter (fun q => q.unit != some u.val)).map (fun q => (q.tile, q.pass))) ∧
    (∀ u : Fin 32, u.val ∉ s.units.ingOut → s.units.ingOut.length < 31 → answers (.ingestUnitFailure u) s fun t =>
      t.units = { s.units with ingOut := natInsert u.val s.units.ingOut } ∧ reported 0x0302 4 s t ∧
      changesOnly { Parts.events with units := true, pac := true, lft := true } s t ∧ ∃ st', t.pac.stripe = some st' ∧
        st'.jobs.map (fun q => (q.tile, q.pass)) = st.jobs.map (fun q => (q.tile, q.pass)) ∧ ∀ q ∈ st'.jobs, q.unit ≠ some u.val) ∧
    (∀ f, st.fills.find? (fun f => f.unit.isSome &&
        !(readPending s (fun q => q.rank == 2 && q.tile == f.tile && q.pass == f.pass && q.group == f.group))) = some f →
      answers .cribFillComplete s fun t => t = setStripe { st with fills := st.fills.erase f, crib := (f.tile, f.pass) :: st.crib } s)

/-- The stage and the slots (R183, R185, R189 to R191, R196, R213 to R217, R241, R255): the pace clock; each set-point instant sends
the frame of the profile, or begins the stop before a limit; the run-up begins at the start point, or the stripe is discarded;
the slot trigger sends one frame on every ACTIVE lane, whose words fill the lane queue, completes the handover of its group (R305) and goes
on to the next slot; at rest the stripe is gone.
Rests on the model's own reading in log 43 (DESIGN CHOICE), log 44 (DEDUCED), log 52 (DEDUCED), log 103 (DEDUCED), log 108 (DESIGN CHOICE). -/
def Obligations.StageAndSlots : Prop :=
  ∀ s : State,
    (∀ v : W32, writeReaches 0x60000 s → answers (.paceLinkEnable v) s fun t =>
      regGet t 0x60000 = v.toNat % 2 ∧ t.pins = { s.pins with paceClk := v.toNat.testBit 0 } ∧ changesOnly { regs := true, pins := true } s t) ∧
    (0 < s.tim.setDue → s.glb.fatal = false →
      let sent (m : Option SetPoint) (t : State) : Prop :=
        t.tim = { s.tim with setDue := s.tim.setDue - 1 } ∧
        (paceOn s = true → t.outs = .paceFrame (paceBytes (wrap32 (s.pac.seq + 1)) m) :: s.outs ∧ t.pac.seq = wrap32 (s.pac.seq + 1)) ∧
        (paceOn s = false → t.outs = s.outs ∧ t.pac.seq = s.pac.seq)
      (s.pac.stripe = none → answers .setpointInstant s fun t => sent none t ∧ changesOnly { outs := true, pac := true, tim := true, obs := true } s t) ∧
      ∀ st, s.pac.stripe = some st → runUpDue s st = false →
        (st.state = .arming → answers .setpointInstant s fun t =>
          sent none t ∧ t.pac.stripe = some st ∧ changesOnly { outs := true, pac := true, tim := true, obs := true } s t) ∧
        (st.state = .armed → answers .setpointInstant s fun t =>
          sent none t ∧ t.pac.stripe = some { st with wait := st.wait - 1 } ∧ changesOnly { outs := true, pac := true, tim := true, obs := true } s t) ∧
        (st.state.moving = true → paceMaster s = false → answers .setpointInstant s fun t =>
          sent none t ∧ t.pac.stripe = some { st with k := st.k + 1 } ∧ changesOnly { outs := true, pac := true, tim := true, obs := true } s t) ∧
        (st.state.moving = true → paceMaster s = true → beyond (st.stopPoint st.k) (vlimHi s) = false →
          beyond (st.stopPoint (st.k + 1)) (vlimHi s) = false → answers .setpointInstant s fun t =>
            sent (st.setPoint st.k) t ∧ t.pac.stripe = some { st with k := st.k + 1 } ∧
            changesOnly { outs := true, pac := true, tim := true, obs := true } s t) ∧
        (st.state = .stopping → paceMaster s = true → (∀ e, st.stopEnd = some e → beyond e (vlimHi s) = false) → answers .setpointInstant s fun t =>
          sent (st.setPoint st.k) t ∧ t.pac.stripe = some { st with k := st.k + 1 } ∧
          changesOnly { outs := true, pac := true, tim := true, obs := true } s t) ∧
        (st.state.moving = true → paceMaster s = true →
          beyond (st.stopPoint st.k) (vlimHi s) = true ∨ beyond (st.stopPoint (st.k + 1)) (vlimHi s) = true → answers .setpointInstant s fun t =>
            ∃ st', t.pac.stripe = some st' ∧ st'.state = .stopping ∧ st'.stop.isSome = true ∧ st'.abort = some (2, st.cutSlot st.nextGroup))) ∧
    (∀ st, s.pac.stripe = some st →
      (runUpDue s st = true → (paceMaster s = false ∨ atStart s st.adm.y0 st.cpp st.slotFirst st.plan.runup = true) → answers .runUpStart s fun t =>
        t = { s with
          pac := { s.pac with stripe := some { st with
            state := .runUp, k := 0, trigArmed := true, tgt := (targetOf st st.slotFirst).1, tgtFrac := (targetOf st st.slotFirst).2, tgtFrom := s.enc.edge } },
          enc := { s.enc with tgt := (targetOf st st.slotFirst).1, trigDone := false } }) ∧
      (runUpDue s st = true → paceMaster s = true → atStart s st.adm.y0 st.cpp st.slotFirst st.plan.runup = false → answers .runUpStart s fun t =>
        t.pac.stripe = none ∧ t.pac.abortSlot = 0 ∧ changesOnly Parts.ending s t) ∧
      (runUpDue s st = false → exec .runUpStart s = .next s) ∧
      (atRest s st = true → answers .stopAtRest s fun t =>
        t.pac.stripe = none ∧ (∀ a, s.pac.adm = some a → a.id = st.adm.id → ∃ a', t.pac.adm = some a' ∧ a'.id = a.id ∧ a'.hold = false) ∧
        changesOnly Parts.ending s t) ∧
      (atRest s st = false → exec .stopAtRest s = .next s) ∧
      (∀ (due cor : Nat) (bad : List (Fin 128 × Fin 128)), st.due = some due →
        (s.enc.edge < issueEdge st due → exec (.slotTrigger cor bad) s = .next s) ∧
        (issueEdge st due ≤ s.enc.edge → answers (.slotTrigger cor bad) s fun t =>
          t.enc.trigSlot = st.nextSlot ∧ t.enc.late = (if due < issueEdge st due then s.enc.late + 1 else s.enc.late) ∧
          t.swl.flight = some (st.nextSlot, issueEdge st due) ∧
          ((voting s = true → st.state ≠ .arming ∧ st.state ≠ .armed) → ∃ st', t.pac.stripe = some st' ∧
            st'.nextSlot = st.nextSlot + 1 ∧ st'.lastSlot = some st.nextSlot ∧ st'.lastIssue = some (issueEdge st due) ∧
            (voting s = false → st.abort = none → st.nextSlot + 1 < st.slotEnd → st.state = .runUp → st'.state = .writing) ∧
            (voting s = false → st.abort = none → st.slotEnd ≤ st.nextSlot + 1 → st'.state = .runOut ∧ st'.doneRaised = true ∧ st'.trigArmed = false)) ∧
          (∀ l, l < 128 → (laneGet s l).state = .active → (laneGet t l).alive = ((laneGet s l).alive + 1) % 65536 ∧ (laneGet t l).lastSlot = st.nextSlot ∧
            ∃ b, Output.swathFrame l b ∈ t.outs ∧ b.length = 1040 ∧ (laneGet t l).queue = wordsOfBytes b) ∧
          (∀ l, (laneGet s l).state ≠ .active → laneGet t l = laneGet s l) ∧
          (∀ ho id, s.twn.handover = some ho → ho.committed = true → ho.cmd = some id → 8 * ho.group ≤ st.nextSlot →
            (voting s = true → st.state ≠ .arming ∧ st.state ≠ .armed) → t.twn.handover = none ∧ cmdFind t id = none) ∧
          changesOnly { Parts.ending with swl := true, lft := true } s t)))
end

