-- ==== Sys2Proof/Laws/Tables.lean ====
section
/-! SUPPORT. Sparse tables and loft memory: a read after a write, and that every operation keeps the canonical form. -/

-- One theorem at a time: elaborating the package as one text in many threads at once takes more memory than the check allows.
set_option Elab.async false

namespace Sys2Proof.Machine

variable {α : Type}

theorem tget_nil (k : Nat) (d : α) : tget [] k d = d := rfl

@[simp] theorem tget_tput_same (t : Tbl α) (k : Nat) (v d : α) : tget (tput t k v) k d = v := by
  induction t with
  | nil => simp [tput, tget]
  | cons p t ih =>
    obtain ⟨i, w⟩ := p
    simp only [tput]
    split
    · simp [tget]
    · split
      · simp [tget]
      · simp only [tget]
        split
        · omega
        · exact ih

theorem tget_tput_ne (t : Tbl α) {k j : Nat} (v d : α) (h : j ≠ k) : tget (tput t k v) j d = tget t j d := by
  induction t with
  | nil => simp [tput, tget, h.symm]
  | cons p t ih =>
    obtain ⟨i, w⟩ := p
    simp only [tput]
    split
    · simp [tget, h.symm]
    · split
      · rename_i h2
        subst h2
        simp [tget, h.symm]
      · simp only [tget, ih]

theorem tget_tdel_same (t : Tbl α) (k : Nat) (d : α) : tget (tdel t k) k d = d := by
  induction t with
  | nil => rfl
  | cons p t ih =>
    obtain ⟨i, w⟩ := p
    by_cases h : i = k
    · simpa [tdel, h] using ih
    · simp only [tdel, List.filter_cons, bne_iff_ne, ne_eq, h, not_false_eq_true, if_true, tget, if_false]
      exact ih

theorem tget_tdel_ne (t : Tbl α) {k j : Nat} (d : α) (h : j ≠ k) : tget (tdel t k) j d = tget t j d := by
  induction t with
  | nil => rfl
  | cons p t ih =>
    obtain ⟨i, w⟩ := p
    by_cases hi : i = k
    · have : ¬ (k = j) := fun e => h e.symm
      simpa [tdel, hi, tget, this] using ih
    · simp only [tdel, List.filter_cons, bne_iff_ne, ne_eq, hi, not_false_eq_true, if_true, tget]
      rw [← ih]
      rfl

variable [DecidableEq α]

@[simp] theorem tget_tset_same (t : Tbl α) (k : Nat) (v d : α) : tget (tset t k v d) k d = v := by
  unfold tset
  split
  · rename_i h
    rw [tget_tdel_same, h]
  · exact tget_tput_same t k v d

theorem tget_tset_ne (t : Tbl α) {k j : Nat} (v d : α) (h : j ≠ k) : tget (tset t k v d) j d = tget t j d := by
  unfold tset
  split
  · exact tget_tdel_ne t d h
  · exact tget_tput_ne t v d h

/-! ### The canonical form -/

/-- The form as a sorted list without default entries. -/
theorem tableWf_iff (d : α) (t : Tbl α) :
    tableWf d t = true ↔ t.Pairwise (fun p q => p.1 < q.1) ∧ ∀ p ∈ t, p.2 ≠ d := by
  induction t with
  | nil => simp [tableWf]
  | cons p t ih =>
    obtain ⟨i, v⟩ := p
    cases t with
    | nil => simp [tableWf]
    | cons q t =>
      obtain ⟨j, w⟩ := q
      simp only [tableWf, Bool.and_eq_true, bne_iff_ne, decide_eq_true_eq, ih, List.pairwise_cons, List.mem_cons,
        forall_eq_or_imp]
      constructor
      · rintro ⟨⟨hv, hij⟩, ⟨hj, hs⟩, hw, hn⟩
        exact ⟨⟨⟨hij, fun p hp => Nat.lt_trans hij (hj p hp)⟩, hj, hs⟩, hv, hw, hn⟩
      · rintro ⟨⟨⟨hij, -⟩, hj, hs⟩, hv, hw, hn⟩
        exact ⟨⟨hv, hij⟩, ⟨hj, hs⟩, hw, hn⟩

theorem tableWf_filter (d : α) (t : Tbl α) (f : Nat × α → Bool) (h : tableWf d t = true) :
    tableWf d (t.filter f) = true := by
  rw [tableWf_iff] at h ⊢
  exact ⟨h.1.filter f, fun p hp => h.2 p (List.mem_filter.mp hp).1⟩

omit [DecidableEq α] in
theorem tput_mem {t : Tbl α} {k : Nat} {v : α} {p : Nat × α} (h : p ∈ tput t k v) : p = (k, v) ∨ p ∈ t := by
  induction t with
  | nil => simpa [tput] using h
  | cons q t ih =>
    obtain ⟨i, w⟩ := q
    simp only [tput] at h
    split at h
    · simpa using h
    · split at h
      · rcases List.mem_cons.mp h with h | h
        · exact .inl h
        · exact .inr (List.mem_cons_of_mem _ h)
      · rcases List.mem_cons.mp h with h | h
        · exact .inr (h ▸ List.mem_cons_self)
        · exact (ih h).imp_right (List.mem_cons_of_mem _)

omit [DecidableEq α] in
theorem tput_sorted {t : Tbl α} (k : Nat) (v : α) (h : t.Pairwise (fun p q => p.1 < q.1)) :
    (tput t k v).Pairwise (fun p q => p.1 < q.1) := by
  induction t with
  | nil => simp [tput]
  | cons q t ih =>
    obtain ⟨i, w⟩ := q
    simp only [tput]
    rw [List.pairwise_cons] at h
    split
    · rename_i hk
      refine List.pairwise_cons.mpr ⟨fun p hp => ?_, List.pairwise_cons.mpr h⟩
      rcases List.mem_cons.mp hp with rfl | hp
      · exact hk
      · exact Nat.lt_trans hk (h.1 p hp)
    · split
      · rename_i hk
        subst hk
        exact List.pairwise_cons.mpr h
      · refine List.pairwise_cons.mpr ⟨fun p hp => ?_, ih h.2⟩
        rcases tput_mem hp with rfl | hp
        · show i < k
          omega
        · exact h.1 p hp

theorem tableWf_tset (d : α) (t : Tbl α) (k : Nat) (v : α) (h : tableWf d t = true) :
    tableWf d (tset t k v d) = true := by
  unfold tset
  split
  · exact tableWf_filter d t _ h
  · rename_i hv
    rw [tableWf_iff] at h ⊢
    refine ⟨tput_sorted k v h.1, fun p hp => ?_⟩
    rcases tput_mem hp with rfl | hp
    · exact hv
    · exact h.2 p hp

/-! ### Loft memory -/

theorem memSet_wf {m : List Host.Cell} (a : Nat) (v : Byte) (h : Memory.wf m = true) : Memory.wf (memSet m a v) = true :=
  tableWf_tset 0 m a v h

theorem memWrite_wf {m : List Host.Cell} (a : Nat) (bs : List Byte) (h : Memory.wf m = true) :
    Memory.wf (memWrite m a bs) = true := by
  induction bs generalizing m a with
  | nil => exact h
  | cons b bs ih => exact ih (a + 1) (memSet_wf a b h)

theorem mem_filter_wf {m : List Host.Cell} (f : Host.Cell → Bool) (h : Memory.wf m = true) :
    Memory.wf (m.filter f) = true := tableWf_filter 0 m f h

@[simp] theorem memGet_memSet_same (m : List Host.Cell) (a : Nat) (v : Byte) : memGet (memSet m a v) a = v :=
  tget_tset_same m a v 0

theorem memGet_memSet_ne (m : List Host.Cell) {a b : Nat} (v : Byte) (h : b ≠ a) :
    memGet (memSet m a v) b = memGet m b := tget_tset_ne m v 0 h

/-- A write leaves every byte outside it alone. -/
theorem memGet_memWrite_outside (m : List Host.Cell) (a b : Nat) (bs : List Byte) (h : b < a ∨ a + bs.length ≤ b) :
    memGet (memWrite m a bs) b = memGet m b := by
  induction bs generalizing m a with
  | nil => rfl
  | cons x bs ih =>
    simp only [List.length_cons] at h
    rw [memWrite, ih _ _ (by omega), memGet_memSet_ne _ _ (by omega)]

/-- A read after a write gives what was written. -/
theorem memGet_memWrite_inside (m : List Host.Cell) (a i : Nat) (bs : List Byte) (h : i < bs.length) :
    memGet (memWrite m a bs) (a + i) = bs[i] := by
  induction bs generalizing m a i with
  | nil => simp at h
  | cons x bs ih =>
    cases i with
    | zero => simp [memWrite, memGet_memWrite_outside]
    | succ i =>
      have := ih (memSet m a x) (a + 1) i (by simpa using h)
      rw [memWrite, ← Nat.add_assoc, Nat.add_right_comm, this]
      rfl

end Sys2Proof.Machine
end

