-- ==== Sys2Proof/Laws/Does.lean ====
section
/-! SUPPORT. What every operation does at most: it touches the parts named and keeps the bounds. The rules by which the
lemmas of the other files follow from the operations' texts. -/

-- One theorem at a time: elaborating the package as one text in many threads at once takes more memory than the check allows.
set_option Elab.async false

namespace Sys2Proof.Machine

/-- From `s` to `t` only the chosen parts differ, and the bounds are kept. -/
structure Does (F : Parts) (s t : State) : Prop where
  only : changesOnly F s t
  keeps : Bounded s → Bounded t

/-- What the bounds see of a state. -/
def watched (s : State) : List Host.Cell × List Entry × List (Nat × Nat × List Byte) × Nat × Nat × List MkRec :=
  (s.lft.mem, s.hst.hold, s.obs.trq, s.slo.count, s.slo.head, s.store.recs)

theorem bounded_of_watched {s t : State} (e : watched t = watched s) (b : Bounded s) : Bounded t := by
  simp only [watched, Prod.mk.injEq] at e
  obtain ⟨e1, e2, e3, e4, e5, e6⟩ := e
  exact ⟨e1 ▸ b.mem, e2 ▸ b.hold, e2 ▸ b.minor, e3 ▸ b.trace, e4 ▸ b.silo, e5 ▸ b.head, e6 ▸ b.store⟩

namespace Does

theorem refl (F : Parts) (s : State) : Does F s s := ⟨rfl, id⟩

theorem trans {F : Parts} {a b c : State} (h : Does F a b) (g : Does F b c) : Does F a c :=
  ⟨Eq.trans g.only h.only, fun i => g.keeps (h.keeps i)⟩

end Does

theorem Parts.le_trans {A B C : Parts} (h : A.le B = true) (g : B.le C = true) : A.le C = true := by
  simp only [Parts.le, Bool.and_eq_true, Bool.or_eq_true, Bool.not_eq_true'] at h g ⊢
  obtain ⟨⟨⟨⟨⟨⟨⟨⟨⟨⟨⟨⟨⟨⟨⟨⟨⟨⟨⟨⟨⟨⟨l_outs, l_free⟩, l_pins⟩, l_glb⟩, l_regs⟩, l_latch⟩, l_halves⟩, l_hst⟩, l_chains⟩, l_chk⟩, l_units⟩, l_dos⟩, l_pac⟩, l_enc⟩, l_swl⟩, l_twn⟩, l_lft⟩, l_tim⟩, l_grn⟩, l_slo⟩, l_store⟩, l_obs⟩, l_readbacks⟩ := h
  obtain ⟨⟨⟨⟨⟨⟨⟨⟨⟨⟨⟨⟨⟨⟨⟨⟨⟨⟨⟨⟨⟨⟨g_outs, g_free⟩, g_pins⟩, g_glb⟩, g_regs⟩, g_latch⟩, g_halves⟩, g_hst⟩, g_chains⟩, g_chk⟩, g_units⟩, g_dos⟩, g_pac⟩, g_enc⟩, g_swl⟩, g_twn⟩, g_lft⟩, g_tim⟩, g_grn⟩, g_slo⟩, g_store⟩, g_obs⟩, g_readbacks⟩ := g
  refine ⟨⟨⟨⟨⟨⟨⟨⟨⟨⟨⟨⟨⟨⟨⟨⟨⟨⟨⟨⟨⟨⟨?_, ?_⟩, ?_⟩, ?_⟩, ?_⟩, ?_⟩, ?_⟩, ?_⟩, ?_⟩, ?_⟩, ?_⟩, ?_⟩, ?_⟩, ?_⟩, ?_⟩, ?_⟩, ?_⟩, ?_⟩, ?_⟩, ?_⟩, ?_⟩, ?_⟩, ?_⟩
  · exact l_outs.elim .inl (fun q => g_outs.elim (fun r => by rw [q] at r; cases r) .inr)
  · exact l_free.elim .inl (fun q => g_free.elim (fun r => by rw [q] at r; cases r) .inr)
  · exact l_pins.elim .inl (fun q => g_pins.elim (fun r => by rw [q] at r; cases r) .inr)
  · exact l_glb.elim .inl (fun q => g_glb.elim (fun r => by rw [q] at r; cases r) .inr)
  · exact l_regs.elim .inl (fun q => g_regs.elim (fun r => by rw [q] at r; cases r) .inr)
  · exact l_latch.elim .inl (fun q => g_latch.elim (fun r => by rw [q] at r; cases r) .inr)
  · exact l_halves.elim .inl (fun q => g_halves.elim (fun r => by rw [q] at r; cases r) .inr)
  · exact l_hst.elim .inl (fun q => g_hst.elim (fun r => by rw [q] at r; cases r) .inr)
  · exact l_chains.elim .inl (fun q => g_chains.elim (fun r => by rw [q] at r; cases r) .inr)
  · exact l_chk.elim .inl (fun q => g_chk.elim (fun r => by rw [q] at r; cases r) .inr)
  · exact l_units.elim .inl (fun q => g_units.elim (fun r => by rw [q] at r; cases r) .inr)
  · exact l_dos.elim .inl (fun q => g_dos.elim (fun r => by rw [q] at r; cases r) .inr)
  · exact l_pac.elim .inl (fun q => g_pac.elim (fun r => by rw [q] at r; cases r) .inr)
  · exact l_enc.elim .inl (fun q => g_enc.elim (fun r => by rw [q] at r; cases r) .inr)
  · exact l_swl.elim .inl (fun q => g_swl.elim (fun r => by rw [q] at r; cases r) .inr)
  · exact l_twn.elim .inl (fun q => g_twn.elim (fun r => by rw [q] at r; cases r) .inr)
  · exact l_lft.elim .inl (fun q => g_lft.elim (fun r => by rw [q] at r; cases r) .inr)
  · exact l_tim.elim .inl (fun q => g_tim.elim (fun r => by rw [q] at r; cases r) .inr)
  · exact l_grn.elim .inl (fun q => g_grn.elim (fun r => by rw [q] at r; cases r) .inr)
  · exact l_slo.elim .inl (fun q => g_slo.elim (fun r => by rw [q] at r; cases r) .inr)
  · exact l_store.elim .inl (fun q => g_store.elim (fun r => by rw [q] at r; cases r) .inr)
  · exact l_obs.elim .inl (fun q => g_obs.elim (fun r => by rw [q] at r; cases r) .inr)
  · exact l_readbacks.elim .inl (fun q => g_readbacks.elim (fun r => by rw [q] at r; cases r) .inr)

theorem blank_mono {A F : Parts} {s t : State} (hF : A.le F = true) (h : t.blank A = s.blank A) :
    t.blank F = s.blank F := by
  obtain ⟨a_outs, a_free, a_pins, a_glb, a_regs, a_latch, a_halves, a_hst, a_chains, a_chk, a_units, a_dos, a_pac, a_enc, a_swl, a_twn, a_lft, a_tim, a_grn, a_slo, a_store, a_obs, a_readbacks⟩ := A
  obtain ⟨f_outs, f_free, f_pins, f_glb, f_regs, f_latch, f_halves, f_hst, f_chains, f_chk, f_units, f_dos, f_pac, f_enc, f_swl, f_twn, f_lft, f_tim, f_grn, f_slo, f_store, f_obs, f_readbacks⟩ := F
  simp only [Parts.le, Bool.and_eq_true, Bool.or_eq_true, Bool.not_eq_true'] at hF
  simp only [State.blank, State.mk.injEq] at h ⊢
  obtain ⟨hp, h_outs, h_free, h_pins, h_glb, h_regs, h_latch, h_halves, h_hst, h_chains, h_chk, h_units, h_dos, h_pac, h_enc, h_swl, h_twn, h_lft, h_tim, h_grn, h_slo, h_store, h_obs, h_readbacks⟩ := h
  obtain ⟨⟨⟨⟨⟨⟨⟨⟨⟨⟨⟨⟨⟨⟨⟨⟨⟨⟨⟨⟨⟨⟨l_outs, l_free⟩, l_pins⟩, l_glb⟩, l_regs⟩, l_latch⟩, l_halves⟩, l_hst⟩, l_chains⟩, l_chk⟩, l_units⟩, l_dos⟩, l_pac⟩, l_enc⟩, l_swl⟩, l_twn⟩, l_lft⟩, l_tim⟩, l_grn⟩, l_slo⟩, l_store⟩, l_obs⟩, l_readbacks⟩ := hF
  refine ⟨hp, ?_, ?_, ?_, ?_, ?_, ?_, ?_, ?_, ?_, ?_, ?_, ?_, ?_, ?_, ?_, ?_, ?_, ?_, ?_, ?_, ?_, ?_, ?_⟩
  · cases f_outs <;> simp_all
  · cases f_free <;> simp_all
  · cases f_pins <;> simp_all
  · cases f_glb <;> simp_all
  · cases f_regs <;> simp_all
  · cases f_latch <;> simp_all
  · cases f_halves <;> simp_all
  · cases f_hst <;> simp_all
  · cases f_chains <;> simp_all
  · cases f_chk <;> simp_all
  · cases f_units <;> simp_all
  · cases f_dos <;> simp_all
  · cases f_pac <;> simp_all
  · cases f_enc <;> simp_all
  · cases f_swl <;> simp_all
  · cases f_twn <;> simp_all
  · cases f_lft <;> simp_all
  · cases f_tim <;> simp_all
  · cases f_grn <;> simp_all
  · cases f_slo <;> simp_all
  · cases f_store <;> simp_all
  · cases f_obs <;> simp_all
  · cases f_readbacks <;> simp_all

namespace Does

theorem weaken {A F : Parts} {s0 s t : State} (hF : A.le F = true) (h : Does F s0 s) (g : Does A s t) : Does F s0 t :=
  h.trans ⟨blank_mono hF g.only, g.keeps⟩

/-- An update of chosen parts that the bounds do not see. -/
theorem leaf {F : Parts} {s0 u : State} {x0 x1 x2 x3 x4 x5 x6 x7 x8 x9 x10 x11 x12 x13 x14 x15 x16 x17 x18 x19 x20 x21 x22} (h : Does F s0 u)
    (e : State.blank F ⟨u.pending, x0, x1, x2, x3, x4, x5, x6, x7, x8, x9, x10, x11, x12, x13, x14, x15, x16, x17, x18, x19, x20, x21, x22⟩ = State.blank F u)
    (b : watched ⟨u.pending, x0, x1, x2, x3, x4, x5, x6, x7, x8, x9, x10, x11, x12, x13, x14, x15, x16, x17, x18, x19, x20, x21, x22⟩ = watched u) :
    Does F s0 ⟨u.pending, x0, x1, x2, x3, x4, x5, x6, x7, x8, x9, x10, x11, x12, x13, x14, x15, x16, x17, x18, x19, x20, x21, x22⟩ := h.trans ⟨e, bounded_of_watched b⟩

/-- An update of chosen parts that keeps the bounds. -/
theorem leafB {F : Parts} {s0 u : State} {x0 x1 x2 x3 x4 x5 x6 x7 x8 x9 x10 x11 x12 x13 x14 x15 x16 x17 x18 x19 x20 x21 x22} (h : Does F s0 u)
    (e : State.blank F ⟨u.pending, x0, x1, x2, x3, x4, x5, x6, x7, x8, x9, x10, x11, x12, x13, x14, x15, x16, x17, x18, x19, x20, x21, x22⟩ = State.blank F u)
    (b : Bounded u → Bounded ⟨u.pending, x0, x1, x2, x3, x4, x5, x6, x7, x8, x9, x10, x11, x12, x13, x14, x15, x16, x17, x18, x19, x20, x21, x22⟩) :
    Does F s0 ⟨u.pending, x0, x1, x2, x3, x4, x5, x6, x7, x8, x9, x10, x11, x12, x13, x14, x15, x16, x17, x18, x19, x20, x21, x22⟩ := h.trans ⟨e, b⟩

theorem foldl {F : Parts} {α : Type} {s0 s : State} {f : State → α → State} {l : List α} (h : Does F s0 s)
    (hf : ∀ a u, Does F s0 u → Does F s0 (f u a)) : Does F s0 (l.foldl f s) := by
  induction l generalizing s with
  | nil => exact h
  | cons a l ih => exact ih (hf a s h)

theorem foldlSnd {F : Parts} {α β : Type} {s0 : State} {p : β × State} {f : β × State → α → β × State} {l : List α}
    (h : Does F s0 p.2) (hf : ∀ a q, Does F s0 q.2 → Does F s0 (f q a).2) : Does F s0 (l.foldl f p).2 := by
  induction l generalizing p with
  | nil => exact h
  | cons a l ih => exact ih (hf a p h)

theorem ite {F : Parts} {s a b : State} {c : Prop} [Decidable c] (ha : Does F s a) (hb : Does F s b) :
    Does F s (if c then a else b) := by split <;> assumption

/-- What holds of an intermediate state is found once. -/
theorem cut {F : Parts} {s z t : State} (h : Does F s z) (g : Does F s z → Does F s t) : Does F s t := g h

theorem cutSnd {F : Parts} {α : Type} {s t : State} {z : α × State} (h : Does F s z.2)
    (g : Does F s z.2 → Does F s t) : Does F s t := g h

theorem cutFst {F : Parts} {α : Type} {s t : State} {z : State × α} (h : Does F s z.1)
    (g : Does F s z.1 → Does F s t) : Does F s t := g h

/-- The state of a result that has been taken apart. -/
theorem snd {F : Parts} {α : Type} {s0 t : State} {p : α × State} {x : α} (e : p = (x, t)) (h : Does F s0 p.2) :
    Does F s0 t := by subst e; exact h

theorem fst {F : Parts} {α : Type} {s0 t : State} {p : State × α} {x : α} (e : p = (t, x)) (h : Does F s0 p.1) :
    Does F s0 t := by subst e; exact h

end Does

/-- The state that a partial operation gives, if it gives one. -/
def DoesM (F : Parts) (s : State) (o : Option State) : Prop := ∀ t, o = some t → Does F s t

theorem DoesM.some {F : Parts} {s t : State} (h : Does F s t) : DoesM F s (.some t) := fun _ e => by
  cases e; exact h

theorem DoesM.none {F : Parts} {s : State} : DoesM F s .none := fun _ e => by cases e

theorem DoesM.ite {F : Parts} {s : State} {a b : Option State} {c : Prop} [Decidable c]
    (ha : DoesM F s a) (hb : DoesM F s b) : DoesM F s (if c then a else b) := by split <;> assumption

theorem DoesM.weaken {A F : Parts} {s0 s : State} {o : Option State} (hF : A.le F = true) (h : Does F s0 s)
    (g : DoesM A s o) : DoesM F s0 o := fun t e => h.weaken hF (g t e)

/-- Every next state that an outcome gives. -/
def DoesO (F : Parts) (s : State) (o : Host.Outcome State Fault Refusal) : Prop := ∀ t, o = .next t → Does F s t

theorem DoesO.next {F : Parts} {s t : State} (h : Does F s t) : DoesO F s (.next t) := fun _ e => by
  cases e; exact h

theorem DoesO.cut {F : Parts} {s z : State} {o : Host.Outcome State Fault Refusal} (h : Does F s z)
    (g : Does F s z → DoesO F s o) : DoesO F s o := g h

theorem DoesO.cutSnd {F : Parts} {α : Type} {s : State} {z : α × State} {o : Host.Outcome State Fault Refusal}
    (h : Does F s z.2) (g : Does F s z.2 → DoesO F s o) : DoesO F s o := g h

theorem DoesO.cutFst {F : Parts} {α : Type} {s : State} {z : State × α} {o : Host.Outcome State Fault Refusal}
    (h : Does F s z.1) (g : Does F s z.1 → DoesO F s o) : DoesO F s o := g h

theorem DoesO.ite {F : Parts} {s : State} {a b : Host.Outcome State Fault Refusal} {c : Prop} [Decidable c]
    (ha : DoesO F s a) (hb : DoesO F s b) : DoesO F s (if c then a else b) := by split <;> assumption

theorem DoesO.fault {F : Parts} {s : State} (f : Fault) : DoesO F s (.fault f) := fun _ e => by cases e

theorem DoesO.weaken {A F : Parts} {s0 s : State} {o : Host.Outcome State Fault Refusal} (hF : A.le F = true)
    (h : Does F s0 s) (g : DoesO A s o) : DoesO F s0 o := fun t e => h.weaken hF (g t e)

end Sys2Proof.Machine
end

