-- ==== Sys2Proof/Laws/DoesOps.lean ====
section
/-! SUPPORT. What each operation of Machine/Ops.lean touches at most, and that it keeps the bounds. -/

-- One theorem at a time: elaborating the package as one text in many threads at once takes more memory than the check allows.
set_option Elab.async false

set_option linter.unusedSimpArgs false
set_option linter.unusedTactic false
set_option linter.unreachableTactic false

namespace Sys2Proof.Machine

theorem does_regSet {F : Parts} {s0 s : State} (off : Nat) (v : Nat) (h : Does F s0 s)
    (hF : Parts.le { regs := true } F = true) : Does F s0 (regSet s off v) := by
  refine Does.weaken hF h ?_
  unfold regSet
  repeat' (first
    | exact Eq.refl true
    | with_reducible exact Does.refl _ _
    | with_reducible assumption
    | ((fail_if_no_progress (extract_lets z)); refine Does.cut (z := z) ?_ (fun q => ?_); rotate_left; clear_value z)
    | fail_if_no_progress (extract_lets z)
    | fail_if_no_progress (with_reducible refine Does.leaf ?_ ?_ ?_; pick_goal 2; (focus (simp +zetaDelta only [State.blank, cond_true, cond_false]; first | done | fail)); pick_goal 2; (focus (simp +zetaDelta only [watched]; first | done | fail)))
    | (dsimp +zetaDelta only))

theorem does_emit {F : Parts} {s0 s : State} (o : Output) (h : Does F s0 s)
    (hF : Parts.le { outs := true } F = true) : Does F s0 (emit o s) := by
  refine Does.weaken hF h ?_
  unfold emit
  repeat' (first
    | exact Eq.refl true
    | with_reducible exact Does.refl _ _
    | with_reducible assumption
    | ((fail_if_no_progress (extract_lets z)); refine Does.cut (z := z) ?_ (fun q => ?_); rotate_left; clear_value z)
    | fail_if_no_progress (extract_lets z)
    | fail_if_no_progress (with_reducible refine Does.leaf ?_ ?_ ?_; pick_goal 2; (focus (simp +zetaDelta only [State.blank, cond_true, cond_false]; first | done | fail)); pick_goal 2; (focus (simp +zetaDelta only [watched]; first | done | fail)))
    | (dsimp +zetaDelta only))

theorem does_emitAll {F : Parts} {s0 s : State} (os : List Output) (h : Does F s0 s)
    (hF : Parts.le { outs := true } F = true) : Does F s0 (emitAll os s) := by
  refine Does.weaken hF h ?_
  unfold emitAll
  repeat' (first
    | exact Eq.refl true
    | with_reducible exact Does.refl _ _
    | with_reducible assumption
    | with_reducible apply does_emit
    | (with_reducible refine Does.foldl ?_ (fun _ _ _ => ?_))
    | (with_reducible refine Does.foldlSnd ?_ (fun _ _ _ => ?_)))

theorem does_drawFree {F : Parts} {s0 s : State}  (h : Does F s0 s)
    (hF : Parts.le { free := true } F = true) : Does F s0 (drawFree s).2 := by
  refine Does.weaken hF h ?_
  unfold drawFree
  repeat' (first
    | exact Eq.refl true
    | with_reducible exact Does.refl _ _
    | with_reducible assumption
    | ((fail_if_no_progress (extract_lets z)); refine Does.cut (z := z) ?_ (fun q => ?_); rotate_left; clear_value z)
    | fail_if_no_progress (extract_lets z)
    | fail_if_no_progress (with_reducible refine Does.leaf ?_ ?_ ?_; pick_goal 2; (focus (simp +zetaDelta only [State.blank, cond_true, cond_false]; first | done | fail)); pick_goal 2; (focus (simp +zetaDelta only [watched]; first | done | fail)))
    | (dsimp +zetaDelta only))

theorem does_chainSet {F : Parts} {s0 s : State} (c : Nat) (x : Chain) (h : Does F s0 s)
    (hF : Parts.le { chains := true } F = true) : Does F s0 (chainSet s c x) := by
  refine Does.weaken hF h ?_
  unfold chainSet
  repeat' (first
    | exact Eq.refl true
    | with_reducible exact Does.refl _ _
    | with_reducible assumption
    | ((fail_if_no_progress (extract_lets z)); refine Does.cut (z := z) ?_ (fun q => ?_); rotate_left; clear_value z)
    | fail_if_no_progress (extract_lets z)
    | fail_if_no_progress (with_reducible refine Does.leaf ?_ ?_ ?_; pick_goal 2; (focus (simp +zetaDelta only [State.blank, cond_true, cond_false]; first | done | fail)); pick_goal 2; (focus (simp +zetaDelta only [watched]; first | done | fail)))
    | (dsimp +zetaDelta only))

theorem does_encSet {F : Parts} {s0 s : State} (n : Nat) (x : EncCh) (h : Does F s0 s)
    (hF : Parts.le { enc := true } F = true) : Does F s0 (encSet s n x) := by
  refine Does.weaken hF h ?_
  unfold encSet
  repeat' (first
    | exact Eq.refl true
    | with_reducible exact Does.refl _ _
    | with_reducible assumption
    | ((fail_if_no_progress (extract_lets z)); refine Does.cut (z := z) ?_ (fun q => ?_); rotate_left; clear_value z)
    | fail_if_no_progress (extract_lets z)
    | fail_if_no_progress (with_reducible refine Does.leaf ?_ ?_ ?_; pick_goal 2; (focus (simp +zetaDelta only [State.blank, cond_true, cond_false]; first | done | fail)); pick_goal 2; (focus (simp +zetaDelta only [watched]; first | done | fail)))
    | (dsimp +zetaDelta only))

theorem does_cmpSet {F : Parts} {s0 s : State} (k : Nat) (x : Cmp) (h : Does F s0 s)
    (hF : Parts.le { enc := true } F = true) : Does F s0 (cmpSet s k x) := by
  refine Does.weaken hF h ?_
  unfold cmpSet
  repeat' (first
    | exact Eq.refl true
    | with_reducible exact Does.refl _ _
    | with_reducible assumption
    | ((fail_if_no_progress (extract_lets z)); refine Does.cut (z := z) ?_ (fun q => ?_); rotate_left; clear_value z)
    | fail_if_no_progress (extract_lets z)
    | fail_if_no_progress (with_reducible refine Does.leaf ?_ ?_ ?_; pick_goal 2; (focus (simp +zetaDelta only [State.blank, cond_true, cond_false]; first | done | fail)); pick_goal 2; (focus (simp +zetaDelta only [watched]; first | done | fail)))
    | (dsimp +zetaDelta only))

theorem does_laneSet {F : Parts} {s0 s : State} (l : Nat) (x : Lane) (h : Does F s0 s)
    (hF : Parts.le { swl := true } F = true) : Does F s0 (laneSet s l x) := by
  refine Does.weaken hF h ?_
  unfold laneSet
  repeat' (first
    | exact Eq.refl true
    | with_reducible exact Does.refl _ _
    | with_reducible assumption
    | ((fail_if_no_progress (extract_lets z)); refine Does.cut (z := z) ?_ (fun q => ?_); rotate_left; clear_value z)
    | fail_if_no_progress (extract_lets z)
    | fail_if_no_progress (with_reducible refine Does.leaf ?_ ?_ ?_; pick_goal 2; (focus (simp +zetaDelta only [State.blank, cond_true, cond_false]; first | done | fail)); pick_goal 2; (focus (simp +zetaDelta only [watched]; first | done | fail)))
    | (dsimp +zetaDelta only))

theorem does_retSet {F : Parts} {s0 s : State} (k : Nat) (x : RetLane) (h : Does F s0 s)
    (hF : Parts.le { swl := true } F = true) : Does F s0 (retSet s k x) := by
  refine Does.weaken hF h ?_
  unfold retSet
  repeat' (first
    | exact Eq.refl true
    | with_reducible exact Does.refl _ _
    | with_reducible assumption
    | ((fail_if_no_progress (extract_lets z)); refine Does.cut (z := z) ?_ (fun q => ?_); rotate_left; clear_value z)
    | fail_if_no_progress (extract_lets z)
    | fail_if_no_progress (with_reducible refine Does.leaf ?_ ?_ ?_; pick_goal 2; (focus (simp +zetaDelta only [State.blank, cond_true, cond_false]; first | done | fail)); pick_goal 2; (focus (simp +zetaDelta only [watched]; first | done | fail)))
    | (dsimp +zetaDelta only))

theorem does_dxpSet {F : Parts} {s0 s : State} (k : Nat) (x : DxpLane) (h : Does F s0 s)
    (hF : Parts.le { twn := true } F = true) : Does F s0 (dxpSet s k x) := by
  refine Does.weaken hF h ?_
  unfold dxpSet
  repeat' (first
    | exact Eq.refl true
    | with_reducible exact Does.refl _ _
    | with_reducible assumption
    | ((fail_if_no_progress (extract_lets z)); refine Does.cut (z := z) ?_ (fun q => ?_); rotate_left; clear_value z)
    | fail_if_no_progress (extract_lets z)
    | fail_if_no_progress (with_reducible refine Does.leaf ?_ ?_ ?_; pick_goal 2; (focus (simp +zetaDelta only [State.blank, cond_true, cond_false]; first | done | fail)); pick_goal 2; (focus (simp +zetaDelta only [watched]; first | done | fail)))
    | (dsimp +zetaDelta only))

theorem does_lftSet {F : Parts} {s0 s : State} (c : Nat) (x : LftCh) (h : Does F s0 s)
    (hF : Parts.le { lft := true } F = true) : Does F s0 (lftSet s c x) := by
  refine Does.weaken hF h ?_
  unfold lftSet
  repeat' (first
    | exact Eq.refl true
    | with_reducible exact Does.refl _ _
    | with_reducible assumption
    | ((fail_if_no_progress (extract_lets z)); refine Does.cut (z := z) ?_ (fun q => ?_); rotate_left; clear_value z)
    | fail_if_no_progress (extract_lets z)
    | fail_if_no_progress (with_reducible refine Does.leaf ?_ ?_ ?_; pick_goal 2; (focus (simp +zetaDelta only [State.blank, cond_true, cond_false]; first | done | fail)); pick_goal 2; (focus (simp +zetaDelta only [watched]; first | done | fail)))
    | (dsimp +zetaDelta only))

theorem does_portSet {F : Parts} {s0 s : State} (p : Nat) (x : Port) (h : Does F s0 s)
    (hF : Parts.le { tim := true } F = true) : Does F s0 (portSet s p x) := by
  refine Does.weaken hF h ?_
  unfold portSet
  repeat' (first
    | exact Eq.refl true
    | with_reducible exact Does.refl _ _
    | with_reducible assumption
    | ((fail_if_no_progress (extract_lets z)); refine Does.cut (z := z) ?_ (fun q => ?_); rotate_left; clear_value z)
    | fail_if_no_progress (extract_lets z)
    | fail_if_no_progress (with_reducible refine Does.leaf ?_ ?_ ?_; pick_goal 2; (focus (simp +zetaDelta only [State.blank, cond_true, cond_false]; first | done | fail)); pick_goal 2; (focus (simp +zetaDelta only [watched]; first | done | fail)))
    | (dsimp +zetaDelta only))

theorem does_domSet {F : Parts} {s0 s : State} (b : Bool) (x : Dom) (h : Does F s0 s)
    (hF : Parts.le { tim := true } F = true) : Does F s0 (domSet s b x) := by
  refine Does.weaken hF h ?_
  unfold domSet
  repeat' (first
    | exact Eq.refl true
    | with_reducible exact Does.refl _ _
    | with_reducible assumption
    | ((fail_if_no_progress (extract_lets z)); refine Does.cut (z := z) ?_ (fun q => ?_); rotate_left; clear_value z)
    | fail_if_no_progress (extract_lets z)
    | with_reducible refine Does.ite ?_ ?_
    | fail_if_no_progress (with_reducible refine Does.leaf ?_ ?_ ?_; pick_goal 2; (focus (simp +zetaDelta only [State.blank, cond_true, cond_false]; first | done | fail)); pick_goal 2; (focus (simp +zetaDelta only [watched]; first | done | fail)))
    | (dsimp +zetaDelta only)
    | split)

end Sys2Proof.Machine
end

