-- ==== Sys2Proof/Laws/DoesFlags.lean ====
section
/-! SUPPORT. What each operation of Machine/Flags.lean touches at most, and that it keeps the bounds. -/

-- One theorem at a time: elaborating the package as one text in many threads at once takes more memory than the check allows.
set_option Elab.async false

set_option linter.unusedSimpArgs false
set_option linter.unusedTactic false
set_option linter.unreachableTactic false

namespace Sys2Proof.Machine

theorem cntAdd_foldl_trq (n : Nat) (f : Nat → Nat) (l : List Nat) (o : Obs) :
    (l.foldl (fun o k => cntAdd o (f k) n) o).trq = o.trq := by
  induction l generalizing o with
  | nil => rfl
  | cons a l ih => exact ih _

theorem does_obsCount {F : Parts} {s0 s : State} (lo : Nat) (hi : Nat) (ev : Nat) (u : Option Nat) (n : Nat) (h : Does F s0 s)
    (hF : Parts.le { obs := true } F = true) : Does F s0 (obsCount lo hi ev u n s) := by
  refine Does.weaken hF h ?_
  unfold obsCount
  split
  · exact Does.refl _ _
  · exact ⟨rfl, fun b => ⟨b.mem, b.hold, b.minor, (cntAdd_foldl_trq n _ _ _).symm ▸ b.trace, b.silo, b.head, b.store⟩⟩


theorem does_cntHst {F : Parts} {s0 s : State} (ev : Nat) (u : Option Nat) (n : Nat) (h : Does F s0 s)
    (hF : Parts.le { obs := true } F = true) : Does F s0 (cntHst ev u n s) := by
  refine Does.weaken hF h ?_
  unfold cntHst
  repeat' (first
    | exact Eq.refl true
    | with_reducible exact Does.refl _ _
    | with_reducible assumption
    | with_reducible apply does_obsCount)

theorem does_cntChk {F : Parts} {s0 s : State} (ev : Nat) (u : Option Nat) (n : Nat) (h : Does F s0 s)
    (hF : Parts.le { obs := true } F = true) : Does F s0 (cntChk ev u n s) := by
  refine Does.weaken hF h ?_
  unfold cntChk
  repeat' (first
    | exact Eq.refl true
    | with_reducible exact Does.refl _ _
    | with_reducible assumption
    | with_reducible apply does_obsCount)

theorem does_chkFrame {F : Parts} {s0 s : State} (ev : Nat) (path : Nat) (n : Nat) (h : Does F s0 s)
    (hF : Parts.le { obs := true } F = true) : Does F s0 (chkFrame ev path n s) := by
  refine Does.weaken hF h ?_
  unfold chkFrame
  repeat' (first
    | exact Eq.refl true
    | with_reducible exact Does.refl _ _
    | with_reducible assumption
    | with_reducible apply does_cntChk)

theorem does_cntShv {F : Parts} {s0 s : State} (ev : Nat) (u : Option Nat) (n : Nat) (h : Does F s0 s)
    (hF : Parts.le { obs := true } F = true) : Does F s0 (cntShv ev u n s) := by
  refine Does.weaken hF h ?_
  unfold cntShv
  repeat' (first
    | exact Eq.refl true
    | with_reducible exact Does.refl _ _
    | with_reducible assumption
    | with_reducible apply does_obsCount)

theorem does_cntThr {F : Parts} {s0 s : State} (ev : Nat) (u : Option Nat) (n : Nat) (h : Does F s0 s)
    (hF : Parts.le { obs := true } F = true) : Does F s0 (cntThr ev u n s) := by
  refine Does.weaken hF h ?_
  unfold cntThr
  repeat' (first
    | exact Eq.refl true
    | with_reducible exact Does.refl _ _
    | with_reducible assumption
    | with_reducible apply does_obsCount)

theorem does_cntDos {F : Parts} {s0 s : State} (ev : Nat) (u : Option Nat) (n : Nat) (h : Does F s0 s)
    (hF : Parts.le { obs := true } F = true) : Does F s0 (cntDos ev u n s) := by
  refine Does.weaken hF h ?_
  unfold cntDos
  repeat' (first
    | exact Eq.refl true
    | with_reducible exact Does.refl _ _
    | with_reducible assumption
    | with_reducible apply does_obsCount)

theorem does_cntPac {F : Parts} {s0 s : State} (ev : Nat) (u : Option Nat) (n : Nat) (h : Does F s0 s)
    (hF : Parts.le { obs := true } F = true) : Does F s0 (cntPac ev u n s) := by
  refine Does.weaken hF h ?_
  unfold cntPac
  repeat' (first
    | exact Eq.refl true
    | with_reducible exact Does.refl _ _
    | with_reducible assumption
    | with_reducible apply does_obsCount)

theorem does_cntEnc {F : Parts} {s0 s : State} (ev : Nat) (u : Option Nat) (n : Nat) (h : Does F s0 s)
    (hF : Parts.le { obs := true } F = true) : Does F s0 (cntEnc ev u n s) := by
  refine Does.weaken hF h ?_
  unfold cntEnc
  repeat' (first
    | exact Eq.refl true
    | with_reducible exact Does.refl _ _
    | with_reducible assumption
    | with_reducible apply does_obsCount)

theorem does_cntSwl {F : Parts} {s0 s : State} (ev : Nat) (u : Option Nat) (n : Nat) (h : Does F s0 s)
    (hF : Parts.le { obs := true } F = true) : Does F s0 (cntSwl ev u n s) := by
  refine Does.weaken hF h ?_
  unfold cntSwl
  repeat' (first
    | exact Eq.refl true
    | with_reducible exact Does.refl _ _
    | with_reducible assumption
    | with_reducible apply does_obsCount)

theorem does_cntTwn {F : Parts} {s0 s : State} (ev : Nat) (u : Option Nat) (n : Nat) (h : Does F s0 s)
    (hF : Parts.le { obs := true } F = true) : Does F s0 (cntTwn ev u n s) := by
  refine Does.weaken hF h ?_
  unfold cntTwn
  repeat' (first
    | exact Eq.refl true
    | with_reducible exact Does.refl _ _
    | with_reducible assumption
    | with_reducible apply does_obsCount)

theorem does_cntLft {F : Parts} {s0 s : State} (ev : Nat) (u : Option Nat) (n : Nat) (h : Does F s0 s)
    (hF : Parts.le { obs := true } F = true) : Does F s0 (cntLft ev u n s) := by
  refine Does.weaken hF h ?_
  unfold cntLft
  repeat' (first
    | exact Eq.refl true
    | with_reducible exact Does.refl _ _
    | with_reducible assumption
    | with_reducible apply does_obsCount)

theorem does_cntTim {F : Parts} {s0 s : State} (ev : Nat) (u : Option Nat) (n : Nat) (h : Does F s0 s)
    (hF : Parts.le { obs := true } F = true) : Does F s0 (cntTim ev u n s) := by
  refine Does.weaken hF h ?_
  unfold cntTim
  repeat' (first
    | exact Eq.refl true
    | with_reducible exact Does.refl _ _
    | with_reducible assumption
    | with_reducible apply does_obsCount)

theorem does_cntGrn {F : Parts} {s0 s : State} (ev : Nat) (u : Option Nat) (n : Nat) (h : Does F s0 s)
    (hF : Parts.le { obs := true } F = true) : Does F s0 (cntGrn ev u n s) := by
  refine Does.weaken hF h ?_
  unfold cntGrn
  repeat' (first
    | exact Eq.refl true
    | with_reducible exact Does.refl _ _
    | with_reducible assumption
    | with_reducible apply does_obsCount)

theorem does_takeSnap {F : Parts} {s0 s : State}  (h : Does F s0 s)
    (hF : Parts.le { obs := true } F = true) : Does F s0 (takeSnap s) := by
  refine Does.weaken hF h ?_
  unfold takeSnap
  repeat' (first
    | exact Eq.refl true
    | with_reducible exact Does.refl _ _
    | with_reducible assumption
    | ((fail_if_no_progress (extract_lets z)); refine Does.cut (z := z) ?_ (fun q => ?_); rotate_left; clear_value z)
    | fail_if_no_progress (extract_lets z)
    | fail_if_no_progress (with_reducible refine Does.leaf ?_ ?_ ?_; pick_goal 2; (focus (simp +zetaDelta only [State.blank, cond_true, cond_false]; first | done | fail)); pick_goal 2; (focus (simp +zetaDelta only [watched]; first | done | fail)))
    | (dsimp +zetaDelta only))

theorem does_trySnap {F : Parts} {s0 s : State}  (h : Does F s0 s)
    (hF : Parts.le { obs := true } F = true) : Does F s0 (trySnap s) := by
  refine Does.weaken hF h ?_
  unfold trySnap
  repeat' (first
    | exact Eq.refl true
    | with_reducible exact Does.refl _ _
    | with_reducible assumption
    | ((fail_if_no_progress (extract_lets z)); refine Does.cut (z := z) ?_ (fun q => ?_); rotate_left; clear_value z)
    | fail_if_no_progress (extract_lets z)
    | with_reducible apply does_takeSnap
    | with_reducible refine Does.ite ?_ ?_
    | fail_if_no_progress (with_reducible refine Does.leaf ?_ ?_ ?_; pick_goal 2; (focus (simp +zetaDelta only [State.blank, cond_true, cond_false]; first | done | fail)); pick_goal 2; (focus (simp +zetaDelta only [watched]; first | done | fail)))
    | (dsimp +zetaDelta only)
    | split)

theorem does_trcPush {F : Parts} {s0 s : State} (kind : Nat) (body : List Byte) (h : Does F s0 s)
    (hF : Parts.le { obs := true } F = true) : Does F s0 (trcPush kind body s) := by
  refine Does.weaken hF h ?_
  unfold trcPush
  split
  · exact Does.refl _ _
  · split
    · exact ⟨rfl, fun b => ⟨b.mem, b.hold, b.minor, b.trace, b.silo, b.head, b.store⟩⟩
    · refine ⟨rfl, fun b => ⟨b.mem, b.hold, b.minor, ?_, b.silo, b.head, b.store⟩⟩
      simp only [List.length_append, List.length_singleton]
      omega


theorem does_trcSync {F : Parts} {s0 s : State}  (h : Does F s0 s)
    (hF : Parts.le { obs := true } F = true) : Does F s0 (trcSync s) := by
  refine Does.weaken hF h ?_
  unfold trcSync
  repeat' (first
    | exact Eq.refl true
    | with_reducible exact Does.refl _ _
    | with_reducible assumption
    | with_reducible apply does_trcPush)

theorem does_siloEnter {F : Parts} {s0 s : State} (cls : Nat) (flags : Nat) (code : Nat) (p : List Byte) (h : Does F s0 s)
    (hF : Parts.le { slo := true, obs := true } F = true) : Does F s0 (siloEnter cls flags code p s) := by
  refine Does.weaken hF h ?_
  unfold siloEnter
  split
  · exact ⟨rfl, fun b => ⟨b.mem, b.hold, b.minor, b.trace, b.silo, b.head, b.store⟩⟩
  · refine does_cntGrn _ _ _ ⟨rfl, fun b => ⟨b.mem, b.hold, b.minor, b.trace, ?_, ?_, b.store⟩⟩ rfl
    · exact Nat.min_le_left _ _
    · exact Nat.mod_lt _ (by decide)


theorem does_siloRecord {F : Parts} {s0 s : State} (code : Nat) (p : List Byte) (h : Does F s0 s)
    (hF : Parts.le { slo := true, obs := true } F = true) : Does F s0 (siloRecord code p s) := by
  refine Does.weaken hF h ?_
  unfold siloRecord
  repeat' (first
    | exact Eq.refl true
    | with_reducible exact Does.refl _ _
    | with_reducible assumption
    | with_reducible apply does_siloEnter)

theorem does_siloFreeze {F : Parts} {s0 s : State} (cause : Nat) (h : Does F s0 s)
    (hF : Parts.le { slo := true } F = true) : Does F s0 (siloFreeze cause s) := by
  refine Does.weaken hF h ?_
  unfold siloFreeze
  repeat' (first
    | exact Eq.refl true
    | with_reducible exact Does.refl _ _
    | with_reducible assumption
    | ((fail_if_no_progress (extract_lets z)); refine Does.cut (z := z) ?_ (fun q => ?_); rotate_left; clear_value z)
    | fail_if_no_progress (extract_lets z)
    | fail_if_no_progress (with_reducible refine Does.leaf ?_ ?_ ?_; pick_goal 2; (focus (simp +zetaDelta only [State.blank, cond_true, cond_false]; first | done | fail)); pick_goal 2; (focus (simp +zetaDelta only [watched]; first | done | fail)))
    | (dsimp +zetaDelta only))

theorem does_signal {F : Parts} {s0 s : State} (vec : Nat) (h : Does F s0 s)
    (hF : Parts.le { outs := true, hst := true } F = true) : Does F s0 (signal vec s) := by
  refine Does.weaken hF h ?_
  unfold signal
  repeat' (first
    | exact Eq.refl true
    | with_reducible exact Does.refl _ _
    | with_reducible assumption
    | ((fail_if_no_progress (extract_lets z)); refine Does.cut (z := z) ?_ (fun q => ?_); rotate_left; clear_value z)
    | fail_if_no_progress (extract_lets z)
    | with_reducible apply does_emit
    | with_reducible refine Does.ite ?_ ?_
    | fail_if_no_progress (with_reducible refine Does.leaf ?_ ?_ ?_; pick_goal 2; (focus (simp +zetaDelta only [State.blank, cond_true, cond_false]; first | done | fail)); pick_goal 2; (focus (simp +zetaDelta only [watched]; first | done | fail)))
    | (dsimp +zetaDelta only)
    | split)

theorem does_writeEntry {F : Parts} {s0 s : State} (e : Entry) (h : Does F s0 s)
    (hF : Parts.le { outs := true, hst := true, obs := true } F = true) : Does F s0 (writeEntry e s) := by
  refine Does.weaken hF h ?_
  unfold writeEntry
  repeat' (first
    | exact Eq.refl true
    | with_reducible exact Does.refl _ _
    | with_reducible assumption
    | ((fail_if_no_progress (extract_lets z)); refine Does.cut (z := z) ?_ (fun q => ?_); rotate_left; clear_value z)
    | ((fail_if_no_progress (extract_lets z)); refine Does.cutSnd (z := z) ?_ (fun q => ?_); rotate_left; clear_value z)
    | fail_if_no_progress (extract_lets z)
    | with_reducible apply does_emit
    | with_reducible apply does_cntHst
    | with_reducible apply does_signal
    | with_reducible refine Does.ite ?_ ?_
    | fail_if_no_progress (with_reducible refine Does.leaf ?_ ?_ ?_; pick_goal 2; (focus (simp +zetaDelta only [State.blank, cond_true, cond_false]; first | done | fail)); pick_goal 2; (focus (simp +zetaDelta only [watched]; first | done | fail)))
    | (dsimp +zetaDelta only)
    | split)

theorem does_holdEntry {F : Parts} {s0 s : State} (e : Entry) (h : Does F s0 s)
    (hF : Parts.le { outs := true, hst := true, obs := true } F = true) : Does F s0 (holdEntry e s) := by
  refine Does.weaken hF h ?_
  have sig : ∀ u, Does { outs := true, hst := true, obs := true } s u →
      Does { outs := true, hst := true, obs := true } s
        (if u.hst.held18 then u else signal 18 { u with hst := { u.hst with held18 := true } }) := by
    intro u hu
    split
    · exact hu
    · refine does_signal 18 (hu.trans ⟨rfl, fun b => ⟨b.mem, b.hold, b.minor, b.trace, b.silo, b.head, b.store⟩⟩) rfl
  unfold holdEntry
  extract_lets sg
  split
  · exact sig _ ⟨rfl, fun b => ⟨b.mem, b.hold, b.minor, b.trace, b.silo, b.head, b.store⟩⟩
  · split
    · exact sig _ ⟨rfl, fun b => ⟨b.mem, b.hold, b.minor, b.trace, b.silo, b.head, b.store⟩⟩
    · rename_i h1 h2
      refine sig _ (does_cntHst _ _ _ ⟨rfl, fun b => ⟨b.mem, ?_, ?_, b.trace, b.silo, b.head, b.store⟩⟩ rfl)
      · simp only [List.length_append, List.length_singleton]
        omega
      · simp only [List.filter_append, List.length_append, List.filter_cons, List.filter_nil]
        have := b.minor
        split
        · rename_i hm
          have : ¬ 256 ≤ (List.filter Entry.minor s.hst.hold).length := fun q => h1 ⟨hm, q⟩
          simp only [List.length_singleton]
          omega
        · simpa using this


theorem does_pushEntry {F : Parts} {s0 s : State} (e : Entry) (h : Does F s0 s)
    (hF : Parts.le { outs := true, hst := true, obs := true } F = true) : Does F s0 (pushEntry e s) := by
  refine Does.weaken hF h ?_
  unfold pushEntry
  repeat' (first
    | exact Eq.refl true
    | with_reducible exact Does.refl _ _
    | with_reducible assumption
    | with_reducible apply does_writeEntry
    | with_reducible apply does_holdEntry
    | with_reducible refine Does.ite ?_ ?_
    | split)

theorem does_raise {F : Parts} {s0 s : State} (code : Nat) (cls : Nat) (p : List Byte) (h : Does F s0 s)
    (hF : Parts.le { outs := true, glb := true, hst := true, slo := true, obs := true } F = true) : Does F s0 (raise code cls p s) := by
  refine Does.weaken hF h ?_
  unfold raise
  repeat' (first
    | exact Eq.refl true
    | with_reducible exact Does.refl _ _
    | with_reducible assumption
    | ((fail_if_no_progress (extract_lets z)); refine Does.cut (z := z) ?_ (fun q => ?_); rotate_left; clear_value z)
    | ((fail_if_no_progress (extract_lets z)); refine Does.cutSnd (z := z) ?_ (fun q => ?_); rotate_left; clear_value z)
    | fail_if_no_progress (extract_lets z)
    | with_reducible apply does_siloEnter
    | with_reducible apply does_pushEntry
    | with_reducible apply does_signal
    | with_reducible apply does_emit
    | with_reducible apply does_trySnap
    | with_reducible apply does_trcPush
    | with_reducible refine Does.ite ?_ ?_
    | fail_if_no_progress (with_reducible refine Does.leaf ?_ ?_ ?_; pick_goal 2; (focus (simp +zetaDelta only [State.blank, cond_true, cond_false]; first | done | fail)); pick_goal 2; (focus (simp +zetaDelta only [watched]; first | done | fail)))
    | (dsimp +zetaDelta only)
    | split)

theorem does_raiseItems {F : Parts} {s0 s : State} (code : Nat) (cls : Nat) (items : List (Nat × Nat)) (h : Does F s0 s)
    (hF : Parts.le { outs := true, glb := true, hst := true, slo := true, obs := true } F = true) : Does F s0 (raiseItems code cls items s) := by
  refine Does.weaken hF h ?_
  unfold raiseItems
  repeat' (first
    | exact Eq.refl true
    | with_reducible exact Does.refl _ _
    | with_reducible assumption
    | with_reducible apply does_raise)

theorem does_overflowReport {F : Parts} {s0 s : State}  (h : Does F s0 s)
    (hF : Parts.le { outs := true, glb := true, hst := true, slo := true, obs := true } F = true) : Does F s0 (overflowReport s) := by
  refine Does.weaken hF h ?_
  unfold overflowReport
  repeat' (first
    | exact Eq.refl true
    | with_reducible exact Does.refl _ _
    | with_reducible assumption
    | ((fail_if_no_progress (extract_lets z)); refine Does.cut (z := z) ?_ (fun q => ?_); rotate_left; clear_value z)
    | ((fail_if_no_progress (extract_lets z)); refine Does.cutSnd (z := z) ?_ (fun q => ?_); rotate_left; clear_value z)
    | fail_if_no_progress (extract_lets z)
    | with_reducible apply does_raiseItems
    | with_reducible refine Does.ite ?_ ?_
    | fail_if_no_progress (with_reducible refine Does.leaf ?_ ?_ ?_; pick_goal 2; (focus (simp +zetaDelta only [State.blank, cond_true, cond_false]; first | done | fail)); pick_goal 2; (focus (simp +zetaDelta only [watched]; first | done | fail)))
    | (dsimp +zetaDelta only)
    | split)

theorem does_drainHold {F : Parts} {s0 x2 : State} (x1 : Nat) (h : Does F s0 x2)
    (hF : Parts.le { outs := true, hst := true, obs := true } F = true) : Does F s0 (drainHold x1 x2) := by
  refine Does.weaken hF h ?_
  clear hF h
  induction x1 generalizing x2 with
  | zero => exact Does.refl _ _
  | succ n ih =>
    unfold drainHold
    split
    · exact Does.refl _ _
    · rename_i e t he
      split
      · refine Does.trans ?_ ih
        refine does_writeEntry _ ⟨rfl, fun b => ⟨b.mem, ?_, ?_, b.trace, b.silo, b.head, b.store⟩⟩ rfl
        · have := b.hold
          rw [he] at this
          exact Nat.le_trans (Nat.le_succ _) this
        · have := b.minor
          rw [he, List.filter_cons] at this
          split at this
          · exact Nat.le_trans (Nat.le_succ _) this
          · exact this
      · exact Does.refl _ _


theorem does_cmdRun {F : Parts} {s0 s : State} (id : Nat) (h : Does F s0 s)
    (hF : Parts.le { hst := true } F = true) : Does F s0 (cmdRun id s) := by
  refine Does.weaken hF h ?_
  unfold cmdRun
  repeat' (first
    | exact Eq.refl true
    | with_reducible exact Does.refl _ _
    | with_reducible assumption
    | ((fail_if_no_progress (extract_lets z)); refine Does.cut (z := z) ?_ (fun q => ?_); rotate_left; clear_value z)
    | fail_if_no_progress (extract_lets z)
    | with_reducible refine Does.ite ?_ ?_
    | fail_if_no_progress (with_reducible refine Does.leaf ?_ ?_ ?_; pick_goal 2; (focus (simp +zetaDelta only [State.blank, cond_true, cond_false]; first | done | fail)); pick_goal 2; (focus (simp +zetaDelta only [watched]; first | done | fail)))
    | (dsimp +zetaDelta only)
    | split)

theorem does_complete {F : Parts} {s0 s : State} (id : Nat) (status : Nat) (data : List Byte) (h : Does F s0 s)
    (hF : Parts.le { outs := true, hst := true, obs := true } F = true) : Does F s0 (complete id status data s) := by
  refine Does.weaken hF h ?_
  unfold complete
  repeat' (first
    | exact Eq.refl true
    | with_reducible exact Does.refl _ _
    | with_reducible assumption
    | ((fail_if_no_progress (extract_lets z)); refine Does.cut (z := z) ?_ (fun q => ?_); rotate_left; clear_value z)
    | fail_if_no_progress (extract_lets z)
    | with_reducible apply does_pushEntry
    | with_reducible refine Does.snd (by assumption) ?_
    | fail_if_no_progress (with_reducible refine Does.leaf ?_ ?_ ?_; pick_goal 2; (focus (simp +zetaDelta only [State.blank, cond_true, cond_false]; first | done | fail)); pick_goal 2; (focus (simp +zetaDelta only [watched]; first | done | fail)))
    | (dsimp +zetaDelta only)
    | split)

theorem does_completeOpt {F : Parts} {s0 s : State} (id : Option Nat) (status : Nat) (data : List Byte) (h : Does F s0 s)
    (hF : Parts.le { outs := true, hst := true, obs := true } F = true) : Does F s0 (completeOpt id status data s) := by
  refine Does.weaken hF h ?_
  unfold completeOpt
  repeat' (first
    | exact Eq.refl true
    | with_reducible exact Does.refl _ _
    | with_reducible assumption
    | ((fail_if_no_progress (extract_lets z)); refine Does.cut (z := z) ?_ (fun q => ?_); rotate_left; clear_value z)
    | fail_if_no_progress (extract_lets z)
    | with_reducible apply does_complete
    | with_reducible refine Does.snd (by assumption) ?_
    | fail_if_no_progress (with_reducible refine Does.leaf ?_ ?_ ?_; pick_goal 2; (focus (simp +zetaDelta only [State.blank, cond_true, cond_false]; first | done | fail)); pick_goal 2; (focus (simp +zetaDelta only [watched]; first | done | fail)))
    | (dsimp +zetaDelta only)
    | split)

theorem does_pushRecord {F : Parts} {s0 s : State} (r : MkRec) (h : Does F s0 s)
    (hF : Parts.le { outs := true, glb := true, hst := true, pac := true, slo := true, store := true, obs := true } F = true) : Does F s0 (pushRecord r s) := by
  refine Does.weaken hF h ?_
  unfold pushRecord
  extract_lets r' full ms s1 s2 s3
  have h1 : Does { outs := true, glb := true, hst := true, pac := true, slo := true, store := true, obs := true } s s1 := by
    refine ⟨rfl, fun b => ⟨b.mem, b.hold, b.minor, b.trace, b.silo, b.head, ?_⟩⟩
    have := b.store
    simp only [s1, full, ms]
    split
    · exact this
    · rename_i hf
      simp only [ge_iff_le, decide_eq_true_eq, Nat.not_le] at hf
      simp only [List.length_append, List.length_singleton]
      omega
  clear_value s1
  have h2 := does_raise 5 2 r'.bytes h1 rfl
  have h3 : Does { outs := true, glb := true, hst := true, pac := true, slo := true, store := true, obs := true } s s3 := by
    simp only [s3]
    split
    · exact does_raiseItems _ _ _ h2 rfl
    · exact h2
  clear_value s3
  split
  · exact h3.trans ⟨rfl, fun b => ⟨b.mem, b.hold, b.minor, b.trace, b.silo, b.head, b.store⟩⟩
  · exact h3


end Sys2Proof.Machine
end

