-- ==== Sys2Proof/Laws/DoesLoft.lean ====
section
/-! SUPPORT. What each operation of Machine/Loft.lean touches at most, and that it keeps the bounds. -/

-- One theorem at a time: elaborating the package as one text in many threads at once takes more memory than the check allows.
set_option Elab.async false

set_option linter.unusedSimpArgs false
set_option linter.unusedTactic false
set_option linter.unreachableTactic false

namespace Sys2Proof.Machine

theorem does_rptPut {F : Parts} {s0 s : State} (i : Nat) (r : Rpt) (h : Does F s0 s)
    (hF : Parts.le { lft := true } F = true) : Does F s0 (rptPut s i r) := by
  refine Does.weaken hF h ?_
  unfold rptPut
  repeat' (first
    | exact Eq.refl true
    | with_reducible exact Does.refl _ _
    | with_reducible assumption
    | ((fail_if_no_progress (extract_lets z)); refine Does.cut (z := z) ?_ (fun q => ?_); rotate_left; clear_value z)
    | fail_if_no_progress (extract_lets z)
    | fail_if_no_progress (with_reducible refine Does.leaf ?_ ?_ ?_; pick_goal 2; (focus (simp +zetaDelta only [State.blank, cond_true, cond_false]; first | done | fail)); pick_goal 2; (focus (simp +zetaDelta only [watched]; first | done | fail)))
    | (dsimp +zetaDelta only))

theorem does_putBlock {F : Parts} {s0 s : State} (w : LftReq) (h : Does F s0 s)
    (hF : Parts.le { outs := true, glb := true, hst := true, lft := true, slo := true, obs := true } F = true) : Does F s0 (putBlock w s) := by
  refine Does.weaken hF h ?_
  unfold putBlock
  extract_lets blk hit m out l s1 s2
  have h1 : Does { outs := true, glb := true, hst := true, lft := true, slo := true, obs := true } s s1 :=
    ⟨rfl, fun b => ⟨memWrite_wf _ _ b.mem, b.hold, b.minor, b.trace, b.silo, b.head, b.store⟩⟩
  clear_value s1
  have h2 : Does { outs := true, glb := true, hst := true, lft := true, slo := true, obs := true } s s2 := by
    simp only [s2]
    split
    · exact does_rptPut _ _ h1 rfl
    · exact h1
  clear_value s2
  split
  · exact does_raiseItems _ _ _ (h2.trans ⟨rfl, fun b => ⟨b.mem, b.hold, b.minor, b.trace, b.silo, b.head, b.store⟩⟩) rfl
  · exact h2


theorem does_queueRead {F : Parts} {s0 s : State} (r : LftReq) (h : Does F s0 s)
    (hF : Parts.le { lft := true } F = true) : Does F s0 (queueRead r s) := by
  refine Does.weaken hF h ?_
  unfold queueRead
  repeat' (first
    | exact Eq.refl true
    | with_reducible exact Does.refl _ _
    | with_reducible assumption
    | ((fail_if_no_progress (extract_lets z)); refine Does.cut (z := z) ?_ (fun q => ?_); rotate_left; clear_value z)
    | ((fail_if_no_progress (extract_lets z)); refine Does.cutSnd (z := z) ?_ (fun q => ?_); rotate_left; clear_value z)
    | fail_if_no_progress (extract_lets z)
    | with_reducible apply does_lftSet
    | with_reducible refine Does.snd (by assumption) ?_
    | fail_if_no_progress (with_reducible refine Does.leaf ?_ ?_ ?_; pick_goal 2; (focus (simp +zetaDelta only [State.blank, cond_true, cond_false]; first | done | fail)); pick_goal 2; (focus (simp +zetaDelta only [watched]; first | done | fail)))
    | (dsimp +zetaDelta only)
    | split)

theorem does_coverBlock {F : Parts} {s0 s : State} (blk : Nat) (h : Does F s0 s)
    (hF : Parts.le { lft := true } F = true) : Does F s0 (coverBlock blk s) := by
  refine Does.weaken hF h ?_
  unfold coverBlock
  repeat' (first
    | exact Eq.refl true
    | with_reducible exact Does.refl _ _
    | with_reducible assumption
    | ((fail_if_no_progress (extract_lets z)); refine Does.cut (z := z) ?_ (fun q => ?_); rotate_left; clear_value z)
    | fail_if_no_progress (extract_lets z)
    | with_reducible refine Does.snd (by assumption) ?_
    | fail_if_no_progress (with_reducible refine Does.leaf ?_ ?_ ?_; pick_goal 2; (focus (simp +zetaDelta only [State.blank, cond_true, cond_false]; first | done | fail)); pick_goal 2; (focus (simp +zetaDelta only [watched]; first | done | fail)))
    | (dsimp +zetaDelta only)
    | split)

theorem does_enterWrite {F : Parts} {s0 s : State} (client : Nat) (blk : Nat) (data : List Byte) (poison : Bool) (h : Does F s0 s)
    (hF : Parts.le { lft := true } F = true) : Does F s0 (enterWrite client blk data poison s) := by
  refine Does.weaken hF h ?_
  unfold enterWrite
  repeat' (first
    | exact Eq.refl true
    | with_reducible exact Does.refl _ _
    | with_reducible assumption
    | ((fail_if_no_progress (extract_lets z)); refine Does.cut (z := z) ?_ (fun q => ?_); rotate_left; clear_value z)
    | ((fail_if_no_progress (extract_lets z)); refine Does.cutSnd (z := z) ?_ (fun q => ?_); rotate_left; clear_value z)
    | fail_if_no_progress (extract_lets z)
    | with_reducible apply does_lftSet
    | with_reducible refine Does.ite ?_ ?_
    | fail_if_no_progress (with_reducible refine Does.leaf ?_ ?_ ?_; pick_goal 2; (focus (simp +zetaDelta only [State.blank, cond_true, cond_false]; first | done | fail)); pick_goal 2; (focus (simp +zetaDelta only [watched]; first | done | fail)))
    | (dsimp +zetaDelta only)
    | split)

theorem does_fillStep {F : Parts} {s0 s : State} (e : Nat) (h : Does F s0 s)
    (hF : Parts.le { lft := true } F = true) : Does F s0 (fillStep e s) := by
  refine Does.weaken hF h ?_
  unfold fillStep
  repeat' (first
    | exact Eq.refl true
    | with_reducible exact Does.refl _ _
    | with_reducible assumption
    | ((fail_if_no_progress (extract_lets z)); refine Does.cut (z := z) ?_ (fun q => ?_); rotate_left; clear_value z)
    | ((fail_if_no_progress (extract_lets z)); refine Does.cutSnd (z := z) ?_ (fun q => ?_); rotate_left; clear_value z)
    | fail_if_no_progress (extract_lets z)
    | with_reducible apply does_enterWrite
    | with_reducible refine Does.snd (by assumption) ?_
    | with_reducible refine Does.ite ?_ ?_
    | fail_if_no_progress (with_reducible refine Does.leaf ?_ ?_ ?_; pick_goal 2; (focus (simp +zetaDelta only [State.blank, cond_true, cond_false]; first | done | fail)); pick_goal 2; (focus (simp +zetaDelta only [watched]; first | done | fail)))
    | (dsimp +zetaDelta only)
    | split)

theorem does_notePoison {F : Parts} {s0 s : State} (poison : Bool) (blk : Nat) (h : Does F s0 s)
    (hF : Parts.le { outs := true, glb := true, hst := true, slo := true, obs := true } F = true) : Does F s0 (notePoison poison blk s) := by
  refine Does.weaken hF h ?_
  unfold notePoison
  repeat' (first
    | exact Eq.refl true
    | with_reducible exact Does.refl _ _
    | with_reducible assumption
    | with_reducible apply does_raiseItems
    | with_reducible refine Does.ite ?_ ?_
    | split)

theorem does_tryWrite {F : Parts} {s0 s : State} (w : WaitWrite) (h : Does F s0 s)
    (hF : Parts.le { outs := true, glb := true, hst := true, lft := true, slo := true, obs := true } F = true) : Does F s0 (tryWrite w s).2 := by
  refine Does.weaken hF h ?_
  unfold tryWrite
  extract_lets blk r whole served
  split
  · exact Does.refl _ _
  · rename_i s1 he
    have hs : Does { outs := true, glb := true, hst := true, lft := true, slo := true, obs := true } s s1 := by
      split at he
      · cases he
        exact Does.refl _ _
      · split at he
        · cases he
          exact ⟨rfl, fun b => ⟨b.mem, b.hold, b.minor, b.trace, b.silo, b.head, b.store⟩⟩
        · cases he
    clear he
    repeat' (first
      | exact Eq.refl true
      | with_reducible exact Does.refl _ _
      | with_reducible assumption
      | ((fail_if_no_progress (extract_lets z)); refine Does.cut (z := z) ?_ (fun q => ?_); rotate_left; clear_value z)
      | ((fail_if_no_progress (extract_lets z)); refine Does.cutSnd (z := z) ?_ (fun q => ?_); rotate_left; clear_value z)
      | fail_if_no_progress (extract_lets z)
      | with_reducible apply does_notePoison
      | with_reducible apply does_enterWrite
      | with_reducible apply does_coverBlock
      | with_reducible apply does_queueRead
      | with_reducible refine Does.snd (by assumption) ?_
      | with_reducible refine Does.ite ?_ ?_
      | fail_if_no_progress (with_reducible refine Does.leaf ?_ ?_ ?_; pick_goal 2; (focus (simp +zetaDelta only [State.blank, cond_true, cond_false]; first | done | fail)); pick_goal 2; (focus (simp +zetaDelta only [watched]; first | done | fail)))
      | (dsimp +zetaDelta only)
      | split)


theorem does_pushGo {F : Parts} {s0 x3 : State} (x1 : List WaitWrite) (x2 : List WaitWrite) (h : Does F s0 x3)
    (hF : Parts.le { outs := true, glb := true, hst := true, lft := true, slo := true, obs := true } F = true) : Does F s0 (pushGo x1 x2 x3) := by
  refine Does.weaken hF h ?_
  clear hF h
  induction x1 generalizing x2 x3 with
  | nil => unfold pushGo; exact ⟨rfl, fun b => ⟨b.mem, b.hold, b.minor, b.trace, b.silo, b.head, b.store⟩⟩
  | cons n l ih =>
    unfold pushGo
    repeat' (first
      | exact Eq.refl true
      | with_reducible exact Does.refl _ _
      | with_reducible assumption
      | with_reducible refine Does.trans ?_ (ih _)
      | ((fail_if_no_progress (extract_lets z)); refine Does.cut (z := z) ?_ (fun q => ?_); rotate_left; clear_value z)
      | fail_if_no_progress (extract_lets z)
      | with_reducible apply does_tryWrite
      | with_reducible refine Does.snd (by assumption) ?_
      | with_reducible refine Does.ite ?_ ?_
      | fail_if_no_progress (with_reducible refine Does.leaf ?_ ?_ ?_; pick_goal 2; (focus (simp +zetaDelta only [State.blank, cond_true, cond_false]; first | done | fail)); pick_goal 2; (focus (simp +zetaDelta only [watched]; first | done | fail)))
      | (dsimp +zetaDelta only)
      | split)


theorem does_pushWaits {F : Parts} {s0 s : State}  (h : Does F s0 s)
    (hF : Parts.le { outs := true, glb := true, hst := true, lft := true, slo := true, obs := true } F = true) : Does F s0 (pushWaits s) := by
  refine Does.weaken hF h ?_
  unfold pushWaits
  repeat' (first
    | exact Eq.refl true
    | with_reducible exact Does.refl _ _
    | with_reducible assumption
    | with_reducible apply does_pushGo)

theorem does_loftGoOn {F : Parts} {s0 s : State}  (h : Does F s0 s)
    (hF : Parts.le { outs := true, glb := true, hst := true, lft := true, slo := true, obs := true } F = true) : Does F s0 (loftGoOn s) := by
  refine Does.weaken hF h ?_
  unfold loftGoOn
  repeat' (first
    | exact Eq.refl true
    | with_reducible exact Does.refl _ _
    | with_reducible assumption
    | with_reducible apply does_pushWaits
    | with_reducible apply does_fillStep
    | (with_reducible refine Does.foldl ?_ (fun _ _ _ => ?_))
    | (with_reducible refine Does.foldlSnd ?_ (fun _ _ _ => ?_)))

theorem does_loftWrite {F : Parts} {s0 s : State} (client : Nat) (owner : Option Nat) (poison : Bool) (x1 : Nat) (bs : List Byte) (h : Does F s0 s)
    (hF : Parts.le { outs := true, glb := true, hst := true, lft := true, slo := true, obs := true } F = true) : Does F s0 (loftWrite client owner poison x1 bs s) := by
  refine Does.weaken hF h ?_
  unfold loftWrite
  repeat' (first
    | exact Eq.refl true
    | with_reducible exact Does.refl _ _
    | with_reducible assumption
    | ((fail_if_no_progress (extract_lets z)); refine Does.cut (z := z) ?_ (fun q => ?_); rotate_left; clear_value z)
    | fail_if_no_progress (extract_lets z)
    | with_reducible apply does_loftGoOn
    | fail_if_no_progress (with_reducible refine Does.leaf ?_ ?_ ?_; pick_goal 2; (focus (simp +zetaDelta only [State.blank, cond_true, cond_false]; first | done | fail)); pick_goal 2; (focus (simp +zetaDelta only [watched]; first | done | fail)))
    | (dsimp +zetaDelta only))

theorem does_rewriteBlock {F : Parts} {s0 s : State} (blk : Nat) (data : List Byte) (stale : Bool) (h : Does F s0 s)
    (hF : Parts.le { outs := true, glb := true, hst := true, lft := true, slo := true, obs := true } F = true) : Does F s0 (rewriteBlock blk data stale s) := by
  refine Does.weaken hF h ?_
  unfold rewriteBlock
  repeat' (first
    | exact Eq.refl true
    | with_reducible exact Does.refl _ _
    | with_reducible assumption
    | ((fail_if_no_progress (extract_lets z)); refine Does.cut (z := z) ?_ (fun q => ?_); rotate_left; clear_value z)
    | fail_if_no_progress (extract_lets z)
    | with_reducible apply does_pushWaits
    | with_reducible refine Does.ite ?_ ?_
    | fail_if_no_progress (with_reducible refine Does.leaf ?_ ?_ ?_; pick_goal 2; (focus (simp +zetaDelta only [State.blank, cond_true, cond_false]; first | done | fail)); pick_goal 2; (focus (simp +zetaDelta only [watched]; first | done | fail)))
    | (dsimp +zetaDelta only)
    | split)

theorem does_noteCe {F : Parts} {s0 s : State} (blk : Nat) (dev : Nat) (data : List Byte) (first : Bool) (part : Bool) (stale : Bool) (h : Does F s0 s)
    (hF : Parts.le { outs := true, glb := true, hst := true, lft := true, slo := true, obs := true } F = true) : Does F s0 (noteCe blk dev data first part stale s) := by
  refine Does.weaken hF h ?_
  unfold noteCe
  repeat' (first
    | exact Eq.refl true
    | with_reducible exact Does.refl _ _
    | with_reducible assumption
    | ((fail_if_no_progress (extract_lets z)); refine Does.cut (z := z) ?_ (fun q => ?_); rotate_left; clear_value z)
    | ((fail_if_no_progress (extract_lets z)); refine Does.cutSnd (z := z) ?_ (fun q => ?_); rotate_left; clear_value z)
    | fail_if_no_progress (extract_lets z)
    | with_reducible apply does_lftSet
    | with_reducible apply does_cntLft
    | with_reducible apply does_rewriteBlock
    | with_reducible apply does_rptPut
    | with_reducible apply does_raiseItems
    | with_reducible refine Does.snd (by assumption) ?_
    | with_reducible refine Does.ite ?_ ?_
    | fail_if_no_progress (with_reducible refine Does.leaf ?_ ?_ ?_; pick_goal 2; (focus (simp +zetaDelta only [State.blank, cond_true, cond_false]; first | done | fail)); pick_goal 2; (focus (simp +zetaDelta only [watched]; first | done | fail)))
    | (dsimp +zetaDelta only)
    | split)

theorem does_noteUe {F : Parts} {s0 s : State} (blk : Nat) (cls : Nat) (client : Nat) (h : Does F s0 s)
    (hF : Parts.le { outs := true, glb := true, hst := true, lft := true, slo := true, obs := true } F = true) : Does F s0 (noteUe blk cls client s) := by
  refine Does.weaken hF h ?_
  unfold noteUe
  repeat' (first
    | exact Eq.refl true
    | with_reducible exact Does.refl _ _
    | with_reducible assumption
    | ((fail_if_no_progress (extract_lets z)); refine Does.cut (z := z) ?_ (fun q => ?_); rotate_left; clear_value z)
    | ((fail_if_no_progress (extract_lets z)); refine Does.cutSnd (z := z) ?_ (fun q => ?_); rotate_left; clear_value z)
    | fail_if_no_progress (extract_lets z)
    | with_reducible apply does_lftSet
    | with_reducible apply does_raiseItems
    | fail_if_no_progress (with_reducible refine Does.leaf ?_ ?_ ?_; pick_goal 2; (focus (simp +zetaDelta only [State.blank, cond_true, cond_false]; first | done | fail)); pick_goal 2; (focus (simp +zetaDelta only [watched]; first | done | fail)))
    | (dsimp +zetaDelta only))

theorem does_noteClean {F : Parts} {s0 s : State} (blk : Nat) (h : Does F s0 s)
    (hF : Parts.le { lft := true } F = true) : Does F s0 (noteClean blk s) := by
  refine Does.weaken hF h ?_
  unfold noteClean
  repeat' (first
    | exact Eq.refl true
    | with_reducible exact Does.refl _ _
    | with_reducible assumption
    | ((fail_if_no_progress (extract_lets z)); refine Does.cut (z := z) ?_ (fun q => ?_); rotate_left; clear_value z)
    | fail_if_no_progress (extract_lets z)
    | with_reducible refine Does.snd (by assumption) ?_
    | with_reducible refine Does.ite ?_ ?_
    | fail_if_no_progress (with_reducible refine Does.leaf ?_ ?_ ?_; pick_goal 2; (focus (simp +zetaDelta only [State.blank, cond_true, cond_false]; first | done | fail)); pick_goal 2; (focus (simp +zetaDelta only [watched]; first | done | fail)))
    | (dsimp +zetaDelta only)
    | split)

theorem does_decodeBlock {F : Parts} {s0 s : State} (client : Nat) (blk : Nat) (raw : List Byte) (m : Mark) (stale : Bool) (h : Does F s0 s)
    (hF : Parts.le { outs := true, glb := true, hst := true, lft := true, slo := true, obs := true } F = true) : Does F s0 (decodeBlock client blk raw m stale s).2.2 := by
  refine Does.weaken hF h ?_
  unfold decodeBlock
  repeat' (first
    | exact Eq.refl true
    | with_reducible exact Does.refl _ _
    | with_reducible assumption
    | ((fail_if_no_progress (extract_lets z)); refine Does.cut (z := z) ?_ (fun q => ?_); rotate_left; clear_value z)
    | ((fail_if_no_progress (extract_lets z)); refine Does.cutSnd (z := z) ?_ (fun q => ?_); rotate_left; clear_value z)
    | fail_if_no_progress (extract_lets z)
    | with_reducible apply does_noteClean
    | with_reducible apply does_noteCe
    | with_reducible apply does_noteUe
    | with_reducible refine Does.snd (by assumption) ?_
    | with_reducible refine Does.ite ?_ ?_
    | (dsimp +zetaDelta only)
    | split)

theorem does_strikeBlock {F : Parts} {s0 s : State} (blk : Nat) (e : DramErr) (h : Does F s0 s)
    (hF : Parts.le { lft := true } F = true) : Does F s0 (strikeBlock blk e s) := by
  refine Does.weaken hF h ?_
  unfold strikeBlock
  repeat' (first
    | exact Eq.refl true
    | with_reducible exact Does.refl _ _
    | with_reducible assumption
    | ((fail_if_no_progress (extract_lets z)); refine Does.cut (z := z) ?_ (fun q => ?_); rotate_left; clear_value z)
    | ((fail_if_no_progress (extract_lets z)); refine Does.cutSnd (z := z) ?_ (fun q => ?_); rotate_left; clear_value z)
    | fail_if_no_progress (extract_lets z)
    | with_reducible refine Does.snd (by assumption) ?_
    | with_reducible refine Does.ite ?_ ?_
    | fail_if_no_progress (with_reducible refine Does.leaf ?_ ?_ ?_; pick_goal 2; (focus (simp +zetaDelta only [State.blank, cond_true, cond_false]; first | done | fail)); pick_goal 2; (focus (simp +zetaDelta only [watched]; first | done | fail)))
    | (with_reducible refine Does.leafB ?_ ?_ ?_; pick_goal 2; (focus (simp +zetaDelta only [State.blank, cond_true, cond_false]; first | done | fail)); pick_goal 2; (exact fun b => ⟨memWrite_wf _ _ b.mem, b.hold, b.minor, b.trace, b.silo, b.head, b.store⟩))
    | (dsimp +zetaDelta only)
    | split)


theorem does_readBlocks {F : Parts} {s0 x3 : State} (client : Nat) (x1 : Nat) (x2 : Nat) (h : Does F s0 x3)
    (hF : Parts.le { outs := true, glb := true, hst := true, lft := true, slo := true, obs := true } F = true) : Does F s0 (readBlocks client x1 x2 x3).2.2 := by
  refine Does.weaken hF h ?_
  clear hF h
  induction x1 generalizing x2 x3 with
  | zero => unfold readBlocks; exact Does.refl _ _
  | succ n ih =>
    unfold readBlocks
    repeat' (first
      | exact Eq.refl true
      | with_reducible exact Does.refl _ _
      | with_reducible assumption
      | with_reducible refine Does.trans ?_ (ih _)
      | ((fail_if_no_progress (extract_lets z)); refine Does.cut (z := z) ?_ (fun q => ?_); rotate_left; clear_value z)
      | ((fail_if_no_progress (extract_lets z)); refine Does.cutSnd (z := z) ?_ (fun q => ?_); rotate_left; clear_value z)
      | fail_if_no_progress (extract_lets z)
      | with_reducible apply does_decodeBlock
      | with_reducible apply does_cntLft
      | with_reducible refine Does.snd (by assumption) ?_
      | with_reducible refine Does.ite ?_ ?_
      | (dsimp +zetaDelta only)
      | split)


theorem does_fillRegion {F : Parts} {s0 s : State} (e : Nat) (h : Does F s0 s)
    (hF : Parts.le { lft := true } F = true) : Does F s0 (fillRegion e s) := by
  refine Does.weaken hF h ?_
  unfold fillRegion
  repeat' (first
    | exact Eq.refl true
    | with_reducible exact Does.refl _ _
    | with_reducible assumption
    | ((fail_if_no_progress (extract_lets z)); refine Does.cut (z := z) ?_ (fun q => ?_); rotate_left; clear_value z)
    | fail_if_no_progress (extract_lets z)
    | with_reducible refine Does.snd (by assumption) ?_
    | with_reducible refine Does.ite ?_ ?_
    | fail_if_no_progress (with_reducible refine Does.leaf ?_ ?_ ?_; pick_goal 2; (focus (simp +zetaDelta only [State.blank, cond_true, cond_false]; first | done | fail)); pick_goal 2; (focus (simp +zetaDelta only [watched]; first | done | fail)))
    | (dsimp +zetaDelta only)
    | split)

theorem does_accessRow {F : Parts} {s0 s : State} (c : Nat) (r : LftReq) (h : Does F s0 s)
    (hF : Parts.le { free := true, lft := true, obs := true } F = true) : Does F s0 (accessRow c r s) := by
  refine Does.weaken hF h ?_
  unfold accessRow
  repeat' (first
    | exact Eq.refl true
    | with_reducible exact Does.refl _ _
    | with_reducible assumption
    | ((fail_if_no_progress (extract_lets z)); refine Does.cut (z := z) ?_ (fun q => ?_); rotate_left; clear_value z)
    | ((fail_if_no_progress (extract_lets z)); refine Does.cutSnd (z := z) ?_ (fun q => ?_); rotate_left; clear_value z)
    | fail_if_no_progress (extract_lets z)
    | with_reducible apply does_lftSet
    | with_reducible apply does_cntLft
    | with_reducible refine Does.ite ?_ ?_
    | fail_if_no_progress (with_reducible refine Does.leaf ?_ ?_ ?_; pick_goal 2; (focus (simp +zetaDelta only [State.blank, cond_true, cond_false]; first | done | fail)); pick_goal 2; (focus (simp +zetaDelta only [watched]; first | done | fail)))
    | (dsimp +zetaDelta only)
    | split)

theorem does_issueWrite {F : Parts} {s0 s : State} (c : Nat) (w : LftReq) (h : Does F s0 s)
    (hF : Parts.le { outs := true, free := true, glb := true, hst := true, lft := true, slo := true, obs := true } F = true) : Does F s0 (issueWrite c w s) := by
  refine Does.weaken hF h ?_
  unfold issueWrite
  repeat' (first
    | exact Eq.refl true
    | with_reducible exact Does.refl _ _
    | with_reducible assumption
    | ((fail_if_no_progress (extract_lets z)); refine Does.cut (z := z) ?_ (fun q => ?_); rotate_left; clear_value z)
    | ((fail_if_no_progress (extract_lets z)); refine Does.cutSnd (z := z) ?_ (fun q => ?_); rotate_left; clear_value z)
    | fail_if_no_progress (extract_lets z)
    | with_reducible apply does_accessRow
    | with_reducible apply does_lftSet
    | with_reducible apply does_putBlock
    | with_reducible apply does_cntLft
    | with_reducible refine Does.snd (by assumption) ?_
    | with_reducible refine Does.ite ?_ ?_
    | fail_if_no_progress (with_reducible refine Does.leaf ?_ ?_ ?_; pick_goal 2; (focus (simp +zetaDelta only [State.blank, cond_true, cond_false]; first | done | fail)); pick_goal 2; (focus (simp +zetaDelta only [watched]; first | done | fail)))
    | (dsimp +zetaDelta only)
    | split)

theorem does_issueRead {F : Parts} {s0 s : State} (c : Nat) (r : LftReq) (h : Does F s0 s)
    (hF : Parts.le { free := true, lft := true, obs := true } F = true) : Does F s0 (issueRead c r s) := by
  refine Does.weaken hF h ?_
  unfold issueRead
  repeat' (first
    | exact Eq.refl true
    | with_reducible exact Does.refl _ _
    | with_reducible assumption
    | ((fail_if_no_progress (extract_lets z)); refine Does.cut (z := z) ?_ (fun q => ?_); rotate_left; clear_value z)
    | ((fail_if_no_progress (extract_lets z)); refine Does.cutSnd (z := z) ?_ (fun q => ?_); rotate_left; clear_value z)
    | fail_if_no_progress (extract_lets z)
    | with_reducible apply does_lftSet
    | with_reducible apply does_cntLft
    | with_reducible apply does_accessRow
    | with_reducible refine Does.snd (by assumption) ?_
    | with_reducible refine Does.ite ?_ ?_
    | fail_if_no_progress (with_reducible refine Does.leaf ?_ ?_ ?_; pick_goal 2; (focus (simp +zetaDelta only [State.blank, cond_true, cond_false]; first | done | fail)); pick_goal 2; (focus (simp +zetaDelta only [watched]; first | done | fail)))
    | (dsimp +zetaDelta only)
    | split)

theorem does_issueFor {F : Parts} {s0 s : State} (c : Nat) (r : LftReq) (h : Does F s0 s)
    (hF : Parts.le { outs := true, free := true, glb := true, hst := true, lft := true, slo := true, obs := true } F = true) : Does F s0 (issueFor c r s) := by
  refine Does.weaken hF h ?_
  unfold issueFor
  repeat' (first
    | exact Eq.refl true
    | with_reducible exact Does.refl _ _
    | with_reducible assumption
    | ((fail_if_no_progress (extract_lets z)); refine Does.cut (z := z) ?_ (fun q => ?_); rotate_left; clear_value z)
    | ((fail_if_no_progress (extract_lets z)); refine Does.cutSnd (z := z) ?_ (fun q => ?_); rotate_left; clear_value z)
    | fail_if_no_progress (extract_lets z)
    | with_reducible apply does_issueRead
    | with_reducible apply does_issueWrite
    | with_reducible refine Does.ite ?_ ?_
    | (dsimp +zetaDelta only)
    | split)

theorem does_issueNext {F : Parts} {s0 s : State} (c : Nat) (h : Does F s0 s)
    (hF : Parts.le { outs := true, free := true, glb := true, hst := true, lft := true, slo := true, obs := true } F = true) : Does F s0 (issueNext c s) := by
  refine Does.weaken hF h ?_
  unfold issueNext
  repeat' (first
    | exact Eq.refl true
    | with_reducible exact Does.refl _ _
    | with_reducible assumption
    | ((fail_if_no_progress (extract_lets z)); refine Does.cut (z := z) ?_ (fun q => ?_); rotate_left; clear_value z)
    | ((fail_if_no_progress (extract_lets z)); refine Does.cutSnd (z := z) ?_ (fun q => ?_); rotate_left; clear_value z)
    | fail_if_no_progress (extract_lets z)
    | with_reducible apply does_issueWrite
    | with_reducible apply does_lftSet
    | with_reducible apply does_issueFor
    | with_reducible refine Does.snd (by assumption) ?_
    | with_reducible refine Does.ite ?_ ?_
    | fail_if_no_progress (with_reducible refine Does.leaf ?_ ?_ ?_; pick_goal 2; (focus (simp +zetaDelta only [State.blank, cond_true, cond_false]; first | done | fail)); pick_goal 2; (focus (simp +zetaDelta only [watched]; first | done | fail)))
    | (dsimp +zetaDelta only)
    | split)

theorem does_startBatch {F : Parts} {s0 s : State} (c : Nat) (h : Does F s0 s)
    (hF : Parts.le { lft := true } F = true) : Does F s0 (startBatch c s) := by
  refine Does.weaken hF h ?_
  unfold startBatch
  repeat' (first
    | exact Eq.refl true
    | with_reducible exact Does.refl _ _
    | with_reducible assumption
    | ((fail_if_no_progress (extract_lets z)); refine Does.cut (z := z) ?_ (fun q => ?_); rotate_left; clear_value z)
    | ((fail_if_no_progress (extract_lets z)); refine Does.cutSnd (z := z) ?_ (fun q => ?_); rotate_left; clear_value z)
    | fail_if_no_progress (extract_lets z)
    | with_reducible apply does_lftSet
    | with_reducible refine Does.ite ?_ ?_
    | fail_if_no_progress (with_reducible refine Does.leaf ?_ ?_ ?_; pick_goal 2; (focus (simp +zetaDelta only [State.blank, cond_true, cond_false]; first | done | fail)); pick_goal 2; (focus (simp +zetaDelta only [watched]; first | done | fail)))
    | (dsimp +zetaDelta only)
    | split)

theorem does_payOwed {F : Parts} {s0 s : State} (c : Nat) (h : Does F s0 s)
    (hF : Parts.le { lft := true, obs := true } F = true) : Does F s0 (payOwed c s) := by
  refine Does.weaken hF h ?_
  unfold payOwed
  repeat' (first
    | exact Eq.refl true
    | with_reducible exact Does.refl _ _
    | with_reducible assumption
    | ((fail_if_no_progress (extract_lets z)); refine Does.cut (z := z) ?_ (fun q => ?_); rotate_left; clear_value z)
    | ((fail_if_no_progress (extract_lets z)); refine Does.cutSnd (z := z) ?_ (fun q => ?_); rotate_left; clear_value z)
    | fail_if_no_progress (extract_lets z)
    | with_reducible apply does_cntLft
    | with_reducible apply does_lftSet
    | with_reducible refine Does.ite ?_ ?_
    | fail_if_no_progress (with_reducible refine Does.leaf ?_ ?_ ?_; pick_goal 2; (focus (simp +zetaDelta only [State.blank, cond_true, cond_false]; first | done | fail)); pick_goal 2; (focus (simp +zetaDelta only [watched]; first | done | fail)))
    | (dsimp +zetaDelta only)
    | split)

theorem does_refreshTick {F : Parts} {s0 s : State} (c : Nat) (h : Does F s0 s)
    (hF : Parts.le { lft := true, obs := true } F = true) : Does F s0 (refreshTick c s) := by
  refine Does.weaken hF h ?_
  unfold refreshTick
  repeat' (first
    | exact Eq.refl true
    | with_reducible exact Does.refl _ _
    | with_reducible assumption
    | ((fail_if_no_progress (extract_lets z)); refine Does.cut (z := z) ?_ (fun q => ?_); rotate_left; clear_value z)
    | ((fail_if_no_progress (extract_lets z)); refine Does.cutSnd (z := z) ?_ (fun q => ?_); rotate_left; clear_value z)
    | fail_if_no_progress (extract_lets z)
    | with_reducible apply does_cntLft
    | with_reducible apply does_lftSet
    | with_reducible refine Does.ite ?_ ?_
    | fail_if_no_progress (with_reducible refine Does.leaf ?_ ?_ ?_; pick_goal 2; (focus (simp +zetaDelta only [State.blank, cond_true, cond_false]; first | done | fail)); pick_goal 2; (focus (simp +zetaDelta only [watched]; first | done | fail)))
    | (dsimp +zetaDelta only)
    | split)

theorem does_setRate2x {F : Parts} {s0 s : State} (c : Nat) (on : Bool) (h : Does F s0 s)
    (hF : Parts.le { outs := true, glb := true, hst := true, lft := true, slo := true, obs := true } F = true) : Does F s0 (setRate2x c on s) := by
  refine Does.weaken hF h ?_
  unfold setRate2x
  repeat' (first
    | exact Eq.refl true
    | with_reducible exact Does.refl _ _
    | with_reducible assumption
    | ((fail_if_no_progress (extract_lets z)); refine Does.cut (z := z) ?_ (fun q => ?_); rotate_left; clear_value z)
    | ((fail_if_no_progress (extract_lets z)); refine Does.cutSnd (z := z) ?_ (fun q => ?_); rotate_left; clear_value z)
    | fail_if_no_progress (extract_lets z)
    | with_reducible apply does_lftSet
    | with_reducible apply does_raiseItems
    | with_reducible apply does_cntLft
    | with_reducible refine Does.ite ?_ ?_
    | fail_if_no_progress (with_reducible refine Does.leaf ?_ ?_ ?_; pick_goal 2; (focus (simp +zetaDelta only [State.blank, cond_true, cond_false]; first | done | fail)); pick_goal 2; (focus (simp +zetaDelta only [watched]; first | done | fail)))
    | (dsimp +zetaDelta only)
    | split)

theorem does_sensorRead {F : Parts} {s0 s : State} (c : Nat) (dimm : Nat) (n : Nat) (t : Option (BitVec 16)) (h : Does F s0 s)
    (hF : Parts.le { outs := true, glb := true, hst := true, lft := true, slo := true, obs := true } F = true) : Does F s0 (sensorRead c dimm n t s) := by
  refine Does.weaken hF h ?_
  unfold sensorRead
  repeat' (first
    | exact Eq.refl true
    | with_reducible exact Does.refl _ _
    | with_reducible assumption
    | ((fail_if_no_progress (extract_lets z)); refine Does.cut (z := z) ?_ (fun q => ?_); rotate_left; clear_value z)
    | ((fail_if_no_progress (extract_lets z)); refine Does.cutSnd (z := z) ?_ (fun q => ?_); rotate_left; clear_value z)
    | fail_if_no_progress (extract_lets z)
    | with_reducible apply does_lftSet
    | with_reducible apply does_raiseItems
    | with_reducible refine Does.snd (by assumption) ?_
    | with_reducible refine Does.ite ?_ ?_
    | fail_if_no_progress (with_reducible refine Does.leaf ?_ ?_ ?_; pick_goal 2; (focus (simp +zetaDelta only [State.blank, cond_true, cond_false]; first | done | fail)); pick_goal 2; (focus (simp +zetaDelta only [watched]; first | done | fail)))
    | (dsimp +zetaDelta only)
    | split)

theorem does_rateTick {F : Parts} {s0 s : State} (c : Nat) (h : Does F s0 s)
    (hF : Parts.le { outs := true, glb := true, hst := true, lft := true, slo := true, obs := true } F = true) : Does F s0 (rateTick c s) := by
  refine Does.weaken hF h ?_
  unfold rateTick
  repeat' (first
    | exact Eq.refl true
    | with_reducible exact Does.refl _ _
    | with_reducible assumption
    | ((fail_if_no_progress (extract_lets z)); refine Does.cut (z := z) ?_ (fun q => ?_); rotate_left; clear_value z)
    | ((fail_if_no_progress (extract_lets z)); refine Does.cutSnd (z := z) ?_ (fun q => ?_); rotate_left; clear_value z)
    | fail_if_no_progress (extract_lets z)
    | with_reducible apply does_setRate2x
    | with_reducible refine Does.ite ?_ ?_
    | (dsimp +zetaDelta only)
    | split)

theorem does_tempTick {F : Parts} {s0 s : State} (c : Nat) (t0 : List (Option (BitVec 16))) (t1 : List (Option (BitVec 16))) (h : Does F s0 s)
    (hF : Parts.le { outs := true, glb := true, hst := true, lft := true, slo := true, obs := true } F = true) : Does F s0 (tempTick c t0 t1 s) := by
  refine Does.weaken hF h ?_
  unfold tempTick
  repeat' (first
    | exact Eq.refl true
    | with_reducible exact Does.refl _ _
    | with_reducible assumption
    | ((fail_if_no_progress (extract_lets z)); refine Does.cut (z := z) ?_ (fun q => ?_); rotate_left; clear_value z)
    | ((fail_if_no_progress (extract_lets z)); refine Does.cutSnd (z := z) ?_ (fun q => ?_); rotate_left; clear_value z)
    | fail_if_no_progress (extract_lets z)
    | with_reducible apply does_sensorRead
    | with_reducible apply does_rateTick
    | with_reducible apply does_lftSet
    | (with_reducible refine Does.foldl ?_ (fun _ _ _ => ?_))
    | (with_reducible refine Does.foldlSnd ?_ (fun _ _ _ => ?_))
    | with_reducible refine Does.ite ?_ ?_
    | fail_if_no_progress (with_reducible refine Does.leaf ?_ ?_ ?_; pick_goal 2; (focus (simp +zetaDelta only [State.blank, cond_true, cond_false]; first | done | fail)); pick_goal 2; (focus (simp +zetaDelta only [watched]; first | done | fail)))
    | (dsimp +zetaDelta only)
    | split)

end Sys2Proof.Machine
end

