-- ==== Sys2Proof/Laws/DoesGranary.lean ====
section
/-! SUPPORT. What each operation of Machine/Granary.lean touches at most, and that it keeps the bounds. -/

-- One theorem at a time: elaborating the package as one text in many threads at once takes more memory than the check allows.
set_option Elab.async false

set_option linter.unusedSimpArgs false
set_option linter.unusedTactic false
set_option linter.unreachableTactic false

namespace Sys2Proof.Machine

theorem does_wearAdd {F : Parts} {s0 s : State} (w : Nat) (h : Does F s0 s)
    (hF : Parts.le { outs := true, glb := true, hst := true, grn := true, slo := true, obs := true } F = true) : Does F s0 (wearAdd w s) := by
  refine Does.weaken hF h ?_
  unfold wearAdd
  repeat' (first
    | exact Eq.refl true
    | with_reducible exact Does.refl _ _
    | with_reducible assumption
    | ((fail_if_no_progress (extract_lets z)); refine Does.cut (z := z) ?_ (fun q => ?_); rotate_left; clear_value z)
    | ((fail_if_no_progress (extract_lets z)); refine Does.cutSnd (z := z) ?_ (fun q => ?_); rotate_left; clear_value z)
    | fail_if_no_progress (extract_lets z)
    | with_reducible apply does_cntGrn
    | with_reducible apply does_raiseItems
    | with_reducible refine Does.ite ?_ ?_
    | fail_if_no_progress (with_reducible refine Does.leaf ?_ ?_ ?_; pick_goal 2; (focus (simp +zetaDelta only [State.blank, cond_true, cond_false]; first | done | fail)); pick_goal 2; (focus (simp +zetaDelta only [watched]; first | done | fail)))
    | (dsimp +zetaDelta only)
    | split)

theorem does_grnStore {F : Parts} {s0 s : State} (w : Nat) (v : Nat) (h : Does F s0 s)
    (hF : Parts.le { grn := true } F = true) : Does F s0 (grnStore w v s) := by
  refine Does.weaken hF h ?_
  unfold grnStore
  repeat' (first
    | exact Eq.refl true
    | with_reducible exact Does.refl _ _
    | with_reducible assumption
    | ((fail_if_no_progress (extract_lets z)); refine Does.cut (z := z) ?_ (fun q => ?_); rotate_left; clear_value z)
    | fail_if_no_progress (extract_lets z)
    | with_reducible refine Does.ite ?_ ?_
    | fail_if_no_progress (with_reducible refine Does.leaf ?_ ?_ ?_; pick_goal 2; (focus (simp +zetaDelta only [State.blank, cond_true, cond_false]; first | done | fail)); pick_goal 2; (focus (simp +zetaDelta only [watched]; first | done | fail)))
    | (dsimp +zetaDelta only)
    | split)

theorem does_writeFailed {F : Parts} {s0 s : State} (w : Nat) (h : Does F s0 s)
    (hF : Parts.le { outs := true, free := true, glb := true, hst := true, grn := true, slo := true, obs := true } F = true) : Does F s0 (writeFailed w s) := by
  refine Does.weaken hF h ?_
  unfold writeFailed
  repeat' (first
    | exact Eq.refl true
    | with_reducible exact Does.refl _ _
    | with_reducible assumption
    | ((fail_if_no_progress (extract_lets z)); refine Does.cut (z := z) ?_ (fun q => ?_); rotate_left; clear_value z)
    | ((fail_if_no_progress (extract_lets z)); refine Does.cutSnd (z := z) ?_ (fun q => ?_); rotate_left; clear_value z)
    | fail_if_no_progress (extract_lets z)
    | with_reducible apply does_drawFree
    | with_reducible apply does_raiseItems
    | with_reducible refine Does.snd (by assumption) ?_
    | fail_if_no_progress (with_reducible refine Does.leaf ?_ ?_ ?_; pick_goal 2; (focus (simp +zetaDelta only [State.blank, cond_true, cond_false]; first | done | fail)); pick_goal 2; (focus (simp +zetaDelta only [watched]; first | done | fail)))
    | (dsimp +zetaDelta only)
    | split)

theorem does_tryWord {F : Parts} {s0 x2 : State} (w : Nat) (x1 : Nat) (h : Does F s0 x2)
    (hF : Parts.le { outs := true, free := true, glb := true, hst := true, grn := true, slo := true, obs := true } F = true) : Does F s0 (tryWord w x1 x2).2 := by
  refine Does.weaken hF h ?_
  clear hF h
  induction x1 generalizing x2 with
  | zero => unfold tryWord; exact does_writeFailed _ (Does.refl _ _) rfl
  | succ n ih =>
    unfold tryWord
    repeat' (first
      | exact Eq.refl true
      | with_reducible exact Does.refl _ _
      | with_reducible assumption
      | with_reducible refine Does.trans ?_ (ih)
      | ((fail_if_no_progress (extract_lets z)); refine Does.cut (z := z) ?_ (fun q => ?_); rotate_left; clear_value z)
      | ((fail_if_no_progress (extract_lets z)); refine Does.cutSnd (z := z) ?_ (fun q => ?_); rotate_left; clear_value z)
      | fail_if_no_progress (extract_lets z)
      | with_reducible apply does_writeFailed
      | with_reducible apply does_drawFree
      | with_reducible apply does_wearAdd
      | with_reducible refine Does.snd (by assumption) ?_
      | with_reducible refine Does.ite ?_ ?_
      | (dsimp +zetaDelta only)
      | split)


theorem does_putWord {F : Parts} {s0 s : State} (w : Nat) (v : Nat) (n : Nat) (h : Does F s0 s)
    (hF : Parts.le { outs := true, free := true, glb := true, hst := true, grn := true, slo := true, obs := true } F = true) : Does F s0 (putWord w v n s).2 := by
  refine Does.weaken hF h ?_
  unfold putWord
  repeat' (first
    | exact Eq.refl true
    | with_reducible exact Does.refl _ _
    | with_reducible assumption
    | ((fail_if_no_progress (extract_lets z)); refine Does.cut (z := z) ?_ (fun q => ?_); rotate_left; clear_value z)
    | ((fail_if_no_progress (extract_lets z)); refine Does.cutSnd (z := z) ?_ (fun q => ?_); rotate_left; clear_value z)
    | fail_if_no_progress (extract_lets z)
    | with_reducible apply does_tryWord
    | with_reducible apply does_grnStore
    | with_reducible refine Does.snd (by assumption) ?_
    | with_reducible refine Does.ite ?_ ?_
    | (dsimp +zetaDelta only)
    | split)

theorem does_putRecord {F : Parts} {s0 x2 : State} (x1 : List (Nat × Nat)) (h : Does F s0 x2)
    (hF : Parts.le { outs := true, free := true, glb := true, hst := true, grn := true, slo := true, obs := true } F = true) : Does F s0 (putRecord x1 x2) := by
  refine Does.weaken hF h ?_
  clear hF h
  induction x1 generalizing x2 with
  | nil => unfold putRecord; exact Does.refl _ _
  | cons n l ih =>
    unfold putRecord
    repeat' (first
      | exact Eq.refl true
      | with_reducible exact Does.refl _ _
      | with_reducible assumption
      | with_reducible refine Does.trans ?_ (ih)
      | ((fail_if_no_progress (extract_lets z)); refine Does.cut (z := z) ?_ (fun q => ?_); rotate_left; clear_value z)
      | ((fail_if_no_progress (extract_lets z)); refine Does.cutSnd (z := z) ?_ (fun q => ?_); rotate_left; clear_value z)
      | fail_if_no_progress (extract_lets z)
      | with_reducible apply does_putWord
      | with_reducible refine Does.snd (by assumption) ?_
      | with_reducible refine Does.ite ?_ ?_
      | (dsimp +zetaDelta only)
      | split)


theorem does_persist {F : Parts} {s0 s : State} (off : Nat) (req : Nat) (h : Does F s0 s)
    (hF : Parts.le { grn := true, obs := true } F = true) : Does F s0 (persist off req s) := by
  refine Does.weaken hF h ?_
  unfold persist
  repeat' (first
    | exact Eq.refl true
    | with_reducible exact Does.refl _ _
    | with_reducible assumption
    | ((fail_if_no_progress (extract_lets z)); refine Does.cut (z := z) ?_ (fun q => ?_); rotate_left; clear_value z)
    | ((fail_if_no_progress (extract_lets z)); refine Does.cutSnd (z := z) ?_ (fun q => ?_); rotate_left; clear_value z)
    | fail_if_no_progress (extract_lets z)
    | with_reducible apply does_cntGrn
    | fail_if_no_progress (with_reducible refine Does.leaf ?_ ?_ ?_; pick_goal 2; (focus (simp +zetaDelta only [State.blank, cond_true, cond_false]; first | done | fail)); pick_goal 2; (focus (simp +zetaDelta only [watched]; first | done | fail)))
    | (dsimp +zetaDelta only))

theorem does_startJobWord {F : Parts} {s0 s : State}  (h : Does F s0 s)
    (hF : Parts.le { grn := true } F = true) : Does F s0 (startJobWord s) := by
  refine Does.weaken hF h ?_
  unfold startJobWord
  repeat' (first
    | exact Eq.refl true
    | with_reducible exact Does.refl _ _
    | with_reducible assumption
    | ((fail_if_no_progress (extract_lets z)); refine Does.cut (z := z) ?_ (fun q => ?_); rotate_left; clear_value z)
    | ((fail_if_no_progress (extract_lets z)); refine Does.cutSnd (z := z) ?_ (fun q => ?_); rotate_left; clear_value z)
    | fail_if_no_progress (extract_lets z)
    | with_reducible refine Does.snd (by assumption) ?_
    | with_reducible refine Does.ite ?_ ?_
    | fail_if_no_progress (with_reducible refine Does.leaf ?_ ?_ ?_; pick_goal 2; (focus (simp +zetaDelta only [State.blank, cond_true, cond_false]; first | done | fail)); pick_goal 2; (focus (simp +zetaDelta only [watched]; first | done | fail)))
    | (dsimp +zetaDelta only)
    | split)

theorem does_advanceJob {F : Parts} {s0 s : State} (ok : Bool) (h : Does F s0 s)
    (hF : Parts.le { grn := true } F = true) : Does F s0 (advanceJob ok s) := by
  refine Does.weaken hF h ?_
  unfold advanceJob
  repeat' (first
    | exact Eq.refl true
    | with_reducible exact Does.refl _ _
    | with_reducible assumption
    | ((fail_if_no_progress (extract_lets z)); refine Does.cut (z := z) ?_ (fun q => ?_); rotate_left; clear_value z)
    | fail_if_no_progress (extract_lets z)
    | with_reducible refine Does.snd (by assumption) ?_
    | with_reducible refine Does.ite ?_ ?_
    | fail_if_no_progress (with_reducible refine Does.leaf ?_ ?_ ?_; pick_goal 2; (focus (simp +zetaDelta only [State.blank, cond_true, cond_false]; first | done | fail)); pick_goal 2; (focus (simp +zetaDelta only [watched]; first | done | fail)))
    | (dsimp +zetaDelta only)
    | split)

theorem does_queueJob {F : Parts} {s0 s : State} (j : GrnJob) (h : Does F s0 s)
    (hF : Parts.le { grn := true } F = true) : Does F s0 (queueJob j s) := by
  refine Does.weaken hF h ?_
  unfold queueJob
  repeat' (first
    | exact Eq.refl true
    | with_reducible exact Does.refl _ _
    | with_reducible assumption
    | ((fail_if_no_progress (extract_lets z)); refine Does.cut (z := z) ?_ (fun q => ?_); rotate_left; clear_value z)
    | fail_if_no_progress (extract_lets z)
    | with_reducible apply does_startJobWord
    | fail_if_no_progress (with_reducible refine Does.leaf ?_ ?_ ?_; pick_goal 2; (focus (simp +zetaDelta only [State.blank, cond_true, cond_false]; first | done | fail)); pick_goal 2; (focus (simp +zetaDelta only [watched]; first | done | fail)))
    | (dsimp +zetaDelta only))

theorem does_drainOne {F : Parts} {s0 s : State}  (h : Does F s0 s)
    (hF : Parts.le { grn := true } F = true) : Does F s0 (drainOne s) := by
  refine Does.weaken hF h ?_
  unfold drainOne
  repeat' (first
    | exact Eq.refl true
    | with_reducible exact Does.refl _ _
    | with_reducible assumption
    | ((fail_if_no_progress (extract_lets z)); refine Does.cut (z := z) ?_ (fun q => ?_); rotate_left; clear_value z)
    | fail_if_no_progress (extract_lets z)
    | with_reducible refine Does.snd (by assumption) ?_
    | with_reducible refine Does.ite ?_ ?_
    | fail_if_no_progress (with_reducible refine Does.leaf ?_ ?_ ?_; pick_goal 2; (focus (simp +zetaDelta only [State.blank, cond_true, cond_false]; first | done | fail)); pick_goal 2; (focus (simp +zetaDelta only [watched]; first | done | fail)))
    | (dsimp +zetaDelta only)
    | split)

theorem does_ringStore {F : Parts} {s0 s : State} (item : Nat) (e : Nat) (v : Nat) (h : Does F s0 s)
    (hF : Parts.le { grn := true } F = true) : Does F s0 (ringStore item e v s) := by
  refine Does.weaken hF h ?_
  unfold ringStore
  repeat' (first
    | exact Eq.refl true
    | with_reducible exact Does.refl _ _
    | with_reducible assumption
    | ((fail_if_no_progress (extract_lets z)); refine Does.cut (z := z) ?_ (fun q => ?_); rotate_left; clear_value z)
    | fail_if_no_progress (extract_lets z)
    | fail_if_no_progress (with_reducible refine Does.leaf ?_ ?_ ?_; pick_goal 2; (focus (simp +zetaDelta only [State.blank, cond_true, cond_false]; first | done | fail)); pick_goal 2; (focus (simp +zetaDelta only [watched]; first | done | fail)))
    | (dsimp +zetaDelta only))

theorem does_lostPersist {F : Parts} {s0 s : State} (x : WordWrite) (h : Does F s0 s)
    (hF : Parts.le { slo := true, obs := true } F = true) : Does F s0 (lostPersist x s) := by
  refine Does.weaken hF h ?_
  unfold lostPersist
  repeat' (first
    | exact Eq.refl true
    | with_reducible exact Does.refl _ _
    | with_reducible assumption
    | ((fail_if_no_progress (extract_lets z)); refine Does.cut (z := z) ?_ (fun q => ?_); rotate_left; clear_value z)
    | ((fail_if_no_progress (extract_lets z)); refine Does.cutSnd (z := z) ?_ (fun q => ?_); rotate_left; clear_value z)
    | fail_if_no_progress (extract_lets z)
    | with_reducible apply does_siloRecord
    | with_reducible refine Does.snd (by assumption) ?_
    | with_reducible refine Does.ite ?_ ?_
    | fail_if_no_progress (with_reducible refine Does.leaf ?_ ?_ ?_; pick_goal 2; (focus (simp +zetaDelta only [State.blank, cond_true, cond_false]; first | done | fail)); pick_goal 2; (focus (simp +zetaDelta only [watched]; first | done | fail)))
    | (dsimp +zetaDelta only)
    | split)

theorem does_putRing {F : Parts} {s0 x3 : State} (x1 : Nat) (x2 : WordWrite) (h : Does F s0 x3)
    (hF : Parts.le { outs := true, free := true, glb := true, hst := true, grn := true, slo := true, obs := true } F = true) : Does F s0 (putRing x1 x2 x3) := by
  refine Does.weaken hF h ?_
  clear hF h
  induction x1 generalizing x2 x3 with
  | zero => unfold putRing; exact does_lostPersist _ (Does.refl _ _) rfl
  | succ n ih =>
    unfold putRing
    repeat' (first
      | exact Eq.refl true
      | with_reducible exact Does.refl _ _
      | with_reducible assumption
      | with_reducible refine Does.trans ?_ (ih _)
      | ((fail_if_no_progress (extract_lets z)); refine Does.cut (z := z) ?_ (fun q => ?_); rotate_left; clear_value z)
      | ((fail_if_no_progress (extract_lets z)); refine Does.cutSnd (z := z) ?_ (fun q => ?_); rotate_left; clear_value z)
      | fail_if_no_progress (extract_lets z)
      | with_reducible apply does_lostPersist
      | with_reducible apply does_tryWord
      | with_reducible apply does_ringStore
      | with_reducible refine Does.snd (by assumption) ?_
      | with_reducible refine Does.ite ?_ ?_
      | fail_if_no_progress (with_reducible refine Does.leaf ?_ ?_ ?_; pick_goal 2; (focus (simp +zetaDelta only [State.blank, cond_true, cond_false]; first | done | fail)); pick_goal 2; (focus (simp +zetaDelta only [watched]; first | done | fail)))
      | (dsimp +zetaDelta only)
      | split)


theorem does_finishWord {F : Parts} {s0 s : State} (x : WordWrite) (h : Does F s0 s)
    (hF : Parts.le { outs := true, free := true, glb := true, hst := true, grn := true, slo := true, obs := true } F = true) : Does F s0 (finishWord s x) := by
  refine Does.weaken hF h ?_
  unfold finishWord
  repeat' (first
    | exact Eq.refl true
    | with_reducible exact Does.refl _ _
    | with_reducible assumption
    | ((fail_if_no_progress (extract_lets z)); refine Does.cut (z := z) ?_ (fun q => ?_); rotate_left; clear_value z)
    | ((fail_if_no_progress (extract_lets z)); refine Does.cutSnd (z := z) ?_ (fun q => ?_); rotate_left; clear_value z)
    | fail_if_no_progress (extract_lets z)
    | with_reducible apply does_putRing
    | with_reducible apply does_putWord
    | with_reducible apply does_advanceJob
    | with_reducible refine Does.snd (by assumption) ?_
    | with_reducible refine Does.ite ?_ ?_
    | (dsimp +zetaDelta only)
    | split)

theorem does_finishWrites {F : Parts} {s0 s : State}  (h : Does F s0 s)
    (hF : Parts.le { outs := true, free := true, glb := true, hst := true, grn := true, slo := true, obs := true } F = true) : Does F s0 (finishWrites s) := by
  refine Does.weaken hF h ?_
  unfold finishWrites
  repeat' (first
    | exact Eq.refl true
    | with_reducible exact Does.refl _ _
    | with_reducible assumption
    | ((fail_if_no_progress (extract_lets z)); refine Does.cut (z := z) ?_ (fun q => ?_); rotate_left; clear_value z)
    | ((fail_if_no_progress (extract_lets z)); refine Does.cutSnd (z := z) ?_ (fun q => ?_); rotate_left; clear_value z)
    | fail_if_no_progress (extract_lets z)
    | with_reducible apply does_finishWord
    | with_reducible apply does_putRing
    | (with_reducible refine Does.foldl ?_ (fun _ _ _ => ?_))
    | (with_reducible refine Does.foldlSnd ?_ (fun _ _ _ => ?_))
    | with_reducible refine Does.ite ?_ ?_
    | fail_if_no_progress (with_reducible refine Does.leaf ?_ ?_ ?_; pick_goal 2; (focus (simp +zetaDelta only [State.blank, cond_true, cond_false]; first | done | fail)); pick_goal 2; (focus (simp +zetaDelta only [watched]; first | done | fail)))
    | (dsimp +zetaDelta only)
    | split)

theorem does_loadRings {F : Parts} {s0 s : State}  (h : Does F s0 s)
    (hF : Parts.le { regs := true } F = true) : Does F s0 (loadRings s) := by
  refine Does.weaken hF h ?_
  unfold loadRings
  repeat' (first
    | exact Eq.refl true
    | with_reducible exact Does.refl _ _
    | with_reducible assumption
    | ((fail_if_no_progress (extract_lets z)); refine Does.cut (z := z) ?_ (fun q => ?_); rotate_left; clear_value z)
    | ((fail_if_no_progress (extract_lets z)); refine Does.cutSnd (z := z) ?_ (fun q => ?_); rotate_left; clear_value z)
    | fail_if_no_progress (extract_lets z)
    | with_reducible apply does_regSet
    | with_reducible refine Does.snd (by assumption) ?_
    | (with_reducible refine Does.foldl ?_ (fun _ _ _ => ?_))
    | (with_reducible refine Does.foldlSnd ?_ (fun _ _ _ => ?_))
    | with_reducible refine Does.ite ?_ ?_
    | fail_if_no_progress (with_reducible refine Does.leaf ?_ ?_ ?_; pick_goal 2; (focus (simp +zetaDelta only [State.blank, cond_true, cond_false]; first | done | fail)); pick_goal 2; (focus (simp +zetaDelta only [watched]; first | done | fail)))
    | (dsimp +zetaDelta only)
    | split)

theorem does_setDirty {F : Parts} {s0 s : State}  (h : Does F s0 s)
    (hF : Parts.le { dos := true } F = true) : Does F s0 (setDirty s) := by
  refine Does.weaken hF h ?_
  unfold setDirty
  repeat' (first
    | exact Eq.refl true
    | with_reducible exact Does.refl _ _
    | with_reducible assumption
    | ((fail_if_no_progress (extract_lets z)); refine Does.cut (z := z) ?_ (fun q => ?_); rotate_left; clear_value z)
    | fail_if_no_progress (extract_lets z)
    | fail_if_no_progress (with_reducible refine Does.leaf ?_ ?_ ?_; pick_goal 2; (focus (simp +zetaDelta only [State.blank, cond_true, cond_false]; first | done | fail)); pick_goal 2; (focus (simp +zetaDelta only [watched]; first | done | fail)))
    | (dsimp +zetaDelta only))

theorem does_raiseDirty {F : Parts} {s0 s : State}  (h : Does F s0 s)
    (hF : Parts.le { outs := true, glb := true, hst := true, slo := true, obs := true } F = true) : Does F s0 (raiseDirty s) := by
  refine Does.weaken hF h ?_
  unfold raiseDirty
  repeat' (first
    | exact Eq.refl true
    | with_reducible exact Does.refl _ _
    | with_reducible assumption
    | ((fail_if_no_progress (extract_lets z)); refine Does.cut (z := z) ?_ (fun q => ?_); rotate_left; clear_value z)
    | ((fail_if_no_progress (extract_lets z)); refine Does.cutSnd (z := z) ?_ (fun q => ?_); rotate_left; clear_value z)
    | fail_if_no_progress (extract_lets z)
    | with_reducible apply does_raiseItems
    | with_reducible refine Does.snd (by assumption) ?_
    | (dsimp +zetaDelta only)
    | split)

end Sys2Proof.Machine
end

