-- ==== Sys2Proof/Laws/DoesStripe.lean ====
section
/-! SUPPORT. What each operation of Machine/Stripe.lean touches at most, and that it keeps the bounds. -/

-- One theorem at a time: elaborating the package as one text in many threads at once takes more memory than the check allows.
set_option Elab.async false

set_option linter.unusedSimpArgs false
set_option linter.unusedTactic false
set_option linter.unreachableTactic false

namespace Sys2Proof.Machine

theorem does_gangOnPort {F : Parts} {s0 s : State} (kind : Nat) (seq : Nat) (sec : Nat) (ns : Nat) (late : Bool) (body : List Byte) (p : Nat) (h : Does F s0 s)
    (hF : Parts.le { outs := true, tim := true, obs := true } F = true) : Does F s0 (gangOnPort kind seq sec ns late body p s) := by
  refine Does.weaken hF h ?_
  unfold gangOnPort
  repeat' (first
    | exact Eq.refl true
    | with_reducible exact Does.refl _ _
    | with_reducible assumption
    | ((fail_if_no_progress (extract_lets z)); refine Does.cut (z := z) ?_ (fun q => ?_); rotate_left; clear_value z)
    | ((fail_if_no_progress (extract_lets z)); refine Does.cutSnd (z := z) ?_ (fun q => ?_); rotate_left; clear_value z)
    | fail_if_no_progress (extract_lets z)
    | with_reducible apply does_chkFrame
    | with_reducible apply does_cntTim
    | with_reducible apply does_emit
    | with_reducible apply does_portSet
    | fail_if_no_progress (with_reducible refine Does.leaf ?_ ?_ ?_; pick_goal 2; (focus (simp +zetaDelta only [State.blank, cond_true, cond_false]; first | done | fail)); pick_goal 2; (focus (simp +zetaDelta only [watched]; first | done | fail)))
    | (dsimp +zetaDelta only))

theorem does_gangSend {F : Parts} {s0 s : State} (kind : Nat) (late : Nat → Bool) (sec : Nat) (ns : Nat) (body : List Byte) (given : Option Nat) (on : List Nat) (h : Does F s0 s)
    (hF : Parts.le { outs := true, tim := true, obs := true } F = true) : Does F s0 (gangSend kind late sec ns body given on s).1 := by
  refine Does.weaken hF h ?_
  unfold gangSend
  repeat' (first
    | exact Eq.refl true
    | with_reducible exact Does.refl _ _
    | with_reducible assumption
    | ((fail_if_no_progress (extract_lets z)); refine Does.cut (z := z) ?_ (fun q => ?_); rotate_left; clear_value z)
    | ((fail_if_no_progress (extract_lets z)); refine Does.cutSnd (z := z) ?_ (fun q => ?_); rotate_left; clear_value z)
    | ((fail_if_no_progress (extract_lets z)); refine Does.cutFst (z := z) ?_ (fun q => ?_); rotate_left; clear_value z)
    | fail_if_no_progress (extract_lets z)
    | with_reducible apply does_gangOnPort
    | with_reducible refine Does.fst (by assumption) ?_
    | (with_reducible refine Does.foldl ?_ (fun _ _ _ => ?_))
    | (with_reducible refine Does.foldlSnd ?_ (fun _ _ _ => ?_))
    | with_reducible refine Does.ite ?_ ?_
    | fail_if_no_progress (with_reducible refine Does.leaf ?_ ?_ ?_; pick_goal 2; (focus (simp +zetaDelta only [State.blank, cond_true, cond_false]; first | done | fail)); pick_goal 2; (focus (simp +zetaDelta only [watched]; first | done | fail)))
    | (dsimp +zetaDelta only)
    | split)

theorem does_abortFrame {F : Parts} {s0 s : State} (w : WaitAbort) (h : Does F s0 s)
    (hF : Parts.le { outs := true, tim := true, obs := true } F = true) : Does F s0 (abortFrame w s) := by
  refine Does.weaken hF h ?_
  unfold abortFrame
  repeat' (first
    | exact Eq.refl true
    | with_reducible exact Does.refl _ _
    | with_reducible assumption
    | ((fail_if_no_progress (extract_lets z)); refine Does.cut (z := z) ?_ (fun q => ?_); rotate_left; clear_value z)
    | ((fail_if_no_progress (extract_lets z)); refine Does.cutSnd (z := z) ?_ (fun q => ?_); rotate_left; clear_value z)
    | ((fail_if_no_progress (extract_lets z)); refine Does.cutFst (z := z) ?_ (fun q => ?_); rotate_left; clear_value z)
    | fail_if_no_progress (extract_lets z)
    | with_reducible apply does_gangSend
    | with_reducible apply does_portSet
    | with_reducible refine Does.snd (by assumption) ?_
    | with_reducible refine Does.fst (by assumption) ?_
    | (with_reducible refine Does.foldl ?_ (fun _ _ _ => ?_))
    | (with_reducible refine Does.foldlSnd ?_ (fun _ _ _ => ?_))
    | with_reducible refine Does.ite ?_ ?_
    | fail_if_no_progress (with_reducible refine Does.leaf ?_ ?_ ?_; pick_goal 2; (focus (simp +zetaDelta only [State.blank, cond_true, cond_false]; first | done | fail)); pick_goal 2; (focus (simp +zetaDelta only [watched]; first | done | fail)))
    | (dsimp +zetaDelta only)
    | split)

theorem does_gangAbort {F : Parts} {s0 s : State} (cause : Nat) (h : Does F s0 s)
    (hF : Parts.le { outs := true, tim := true, obs := true } F = true) : Does F s0 (gangAbort cause s) := by
  refine Does.weaken hF h ?_
  unfold gangAbort
  repeat' (first
    | exact Eq.refl true
    | with_reducible exact Does.refl _ _
    | with_reducible assumption
    | with_reducible apply does_abortFrame
    | with_reducible refine Does.ite ?_ ?_
    | split)

theorem does_flushAborts {F : Parts} {s0 s : State}  (h : Does F s0 s)
    (hF : Parts.le { outs := true, tim := true, obs := true } F = true) : Does F s0 (flushAborts s) := by
  refine Does.weaken hF h ?_
  unfold flushAborts
  repeat' (first
    | exact Eq.refl true
    | with_reducible exact Does.refl _ _
    | with_reducible assumption
    | ((fail_if_no_progress (extract_lets z)); refine Does.cut (z := z) ?_ (fun q => ?_); rotate_left; clear_value z)
    | fail_if_no_progress (extract_lets z)
    | with_reducible apply does_abortFrame
    | (with_reducible refine Does.foldl ?_ (fun _ _ _ => ?_))
    | (with_reducible refine Does.foldlSnd ?_ (fun _ _ _ => ?_))
    | with_reducible refine Does.ite ?_ ?_
    | fail_if_no_progress (with_reducible refine Does.leaf ?_ ?_ ?_; pick_goal 2; (focus (simp +zetaDelta only [State.blank, cond_true, cond_false]; first | done | fail)); pick_goal 2; (focus (simp +zetaDelta only [watched]; first | done | fail)))
    | (dsimp +zetaDelta only)
    | split)

theorem does_dxpSend {F : Parts} {s0 s : State} (ty : Nat) (arg : Nat) (p : List Nat) (h : Does F s0 s)
    (hF : Parts.le { outs := true, twn := true, obs := true } F = true) : Does F s0 (dxpSend ty arg p s) := by
  refine Does.weaken hF h ?_
  unfold dxpSend
  repeat' (first
    | exact Eq.refl true
    | with_reducible exact Does.refl _ _
    | with_reducible assumption
    | ((fail_if_no_progress (extract_lets z)); refine Does.cut (z := z) ?_ (fun q => ?_); rotate_left; clear_value z)
    | ((fail_if_no_progress (extract_lets z)); refine Does.cutSnd (z := z) ?_ (fun q => ?_); rotate_left; clear_value z)
    | fail_if_no_progress (extract_lets z)
    | with_reducible apply does_chkFrame
    | with_reducible apply does_cntTwn
    | with_reducible apply does_emit
    | with_reducible refine Does.ite ?_ ?_
    | fail_if_no_progress (with_reducible refine Does.leaf ?_ ?_ ?_; pick_goal 2; (focus (simp +zetaDelta only [State.blank, cond_true, cond_false]; first | done | fail)); pick_goal 2; (focus (simp +zetaDelta only [watched]; first | done | fail)))
    | (dsimp +zetaDelta only)
    | split)

theorem does_raiseLoss {F : Parts} {s0 s : State} (a : Account) (r : MkRec) (h : Does F s0 s)
    (hF : Parts.le { outs := true, glb := true, hst := true, pac := true, slo := true, store := true, obs := true } F = true) : Does F s0 (raiseLoss a r s) := by
  refine Does.weaken hF h ?_
  unfold raiseLoss
  repeat' (first
    | exact Eq.refl true
    | with_reducible exact Does.refl _ _
    | with_reducible assumption
    | ((fail_if_no_progress (extract_lets z)); refine Does.cut (z := z) ?_ (fun q => ?_); rotate_left; clear_value z)
    | ((fail_if_no_progress (extract_lets z)); refine Does.cutSnd (z := z) ?_ (fun q => ?_); rotate_left; clear_value z)
    | fail_if_no_progress (extract_lets z)
    | with_reducible apply does_pushRecord
    | (with_reducible refine Does.foldl ?_ (fun _ _ _ => ?_))
    | (with_reducible refine Does.foldlSnd ?_ (fun _ _ _ => ?_))
    | with_reducible refine Does.ite ?_ ?_
    | fail_if_no_progress (with_reducible refine Does.leaf ?_ ?_ ?_; pick_goal 2; (focus (simp +zetaDelta only [State.blank, cond_true, cond_false]; first | done | fail)); pick_goal 2; (focus (simp +zetaDelta only [watched]; first | done | fail)))
    | (dsimp +zetaDelta only)
    | split)

theorem does_raiseStripeLoss {F : Parts} {s0 s : State} (r : MkRec) (h : Does F s0 s)
    (hF : Parts.le { outs := true, glb := true, hst := true, pac := true, slo := true, store := true, obs := true } F = true) : Does F s0 (raiseStripeLoss r s) := by
  refine Does.weaken hF h ?_
  unfold raiseStripeLoss
  repeat' (first
    | exact Eq.refl true
    | with_reducible exact Does.refl _ _
    | with_reducible assumption
    | ((fail_if_no_progress (extract_lets z)); refine Does.cut (z := z) ?_ (fun q => ?_); rotate_left; clear_value z)
    | fail_if_no_progress (extract_lets z)
    | with_reducible apply does_raiseLoss
    | with_reducible refine Does.snd (by assumption) ?_
    | fail_if_no_progress (with_reducible refine Does.leaf ?_ ?_ ?_; pick_goal 2; (focus (simp +zetaDelta only [State.blank, cond_true, cond_false]; first | done | fail)); pick_goal 2; (focus (simp +zetaDelta only [watched]; first | done | fail)))
    | (dsimp +zetaDelta only)
    | split)

theorem does_closeRun {F : Parts} {s0 s : State} (a : Account) (l : Nat) (x : LaneAcc) (h : Does F s0 s)
    (hF : Parts.le { outs := true, glb := true, hst := true, pac := true, slo := true, store := true, obs := true } F = true) : Does F s0 (closeRun a l x s).2 := by
  refine Does.weaken hF h ?_
  unfold closeRun
  repeat' (first
    | exact Eq.refl true
    | with_reducible exact Does.refl _ _
    | with_reducible assumption
    | ((fail_if_no_progress (extract_lets z)); refine Does.cut (z := z) ?_ (fun q => ?_); rotate_left; clear_value z)
    | fail_if_no_progress (extract_lets z)
    | with_reducible apply does_raiseLoss
    | with_reducible refine Does.snd (by assumption) ?_
    | with_reducible refine Does.ite ?_ ?_
    | fail_if_no_progress (with_reducible refine Does.leaf ?_ ?_ ?_; pick_goal 2; (focus (simp +zetaDelta only [State.blank, cond_true, cond_false]; first | done | fail)); pick_goal 2; (focus (simp +zetaDelta only [watched]; first | done | fail)))
    | (dsimp +zetaDelta only)
    | split)

theorem does_drainLane {F : Parts} {s0 x3 : State} (a : Account) (l : Nat) (x1 : Nat) (x2 : LaneAcc) (h : Does F s0 x3)
    (hF : Parts.le { outs := true, glb := true, hst := true, pac := true, slo := true, store := true, obs := true } F = true) : Does F s0 (drainLane a l x1 x2 x3).2 := by
  refine Does.weaken hF h ?_
  clear hF h
  induction x1 generalizing x2 x3 with
  | zero => unfold drainLane; exact Does.refl _ _
  | succ n ih =>
    unfold drainLane
    repeat' (first
      | exact Eq.refl true
      | with_reducible exact Does.refl _ _
      | with_reducible assumption
      | with_reducible refine Does.trans ?_ (ih _)
      | ((fail_if_no_progress (extract_lets z)); refine Does.cut (z := z) ?_ (fun q => ?_); rotate_left; clear_value z)
      | ((fail_if_no_progress (extract_lets z)); refine Does.cutSnd (z := z) ?_ (fun q => ?_); rotate_left; clear_value z)
      | fail_if_no_progress (extract_lets z)
      | with_reducible apply does_closeRun
      | with_reducible refine Does.snd (by assumption) ?_
      | with_reducible refine Does.ite ?_ ?_
      | fail_if_no_progress (with_reducible refine Does.leaf ?_ ?_ ?_; pick_goal 2; (focus (simp +zetaDelta only [State.blank, cond_true, cond_false]; first | done | fail)); pick_goal 2; (focus (simp +zetaDelta only [watched]; first | done | fail)))
      | (dsimp +zetaDelta only)
      | split)


theorem does_accLane {F : Parts} {s0 s : State} (a : Account) (l : Nat) (f : Nat × FrameFate × Bool → Nat × FrameFate × Bool) (h : Does F s0 s)
    (hF : Parts.le { outs := true, glb := true, hst := true, pac := true, slo := true, store := true, obs := true } F = true) : Does F s0 (accLane a l f s).2 := by
  refine Does.weaken hF h ?_
  unfold accLane
  repeat' (first
    | exact Eq.refl true
    | with_reducible exact Does.refl _ _
    | with_reducible assumption
    | ((fail_if_no_progress (extract_lets z)); refine Does.cut (z := z) ?_ (fun q => ?_); rotate_left; clear_value z)
    | ((fail_if_no_progress (extract_lets z)); refine Does.cutSnd (z := z) ?_ (fun q => ?_); rotate_left; clear_value z)
    | fail_if_no_progress (extract_lets z)
    | with_reducible apply does_drainLane
    | with_reducible refine Does.snd (by assumption) ?_
    | fail_if_no_progress (with_reducible refine Does.leaf ?_ ?_ ?_; pick_goal 2; (focus (simp +zetaDelta only [State.blank, cond_true, cond_false]; first | done | fail)); pick_goal 2; (focus (simp +zetaDelta only [watched]; first | done | fail)))
    | (dsimp +zetaDelta only)
    | split)

theorem does_settleLane {F : Parts} {s0 s : State} (cur : Bool) (l : Nat) (f : Nat × FrameFate × Bool → Nat × FrameFate × Bool) (h : Does F s0 s)
    (hF : Parts.le { outs := true, glb := true, hst := true, pac := true, slo := true, store := true, obs := true } F = true) : Does F s0 (settleLane cur l f s) := by
  refine Does.weaken hF h ?_
  unfold settleLane
  repeat' (first
    | exact Eq.refl true
    | with_reducible exact Does.refl _ _
    | with_reducible assumption
    | ((fail_if_no_progress (extract_lets z)); refine Does.cut (z := z) ?_ (fun q => ?_); rotate_left; clear_value z)
    | ((fail_if_no_progress (extract_lets z)); refine Does.cutSnd (z := z) ?_ (fun q => ?_); rotate_left; clear_value z)
    | fail_if_no_progress (extract_lets z)
    | with_reducible apply does_accLane
    | with_reducible refine Does.snd (by assumption) ?_
    | with_reducible refine Does.ite ?_ ?_
    | fail_if_no_progress (with_reducible refine Does.leaf ?_ ?_ ?_; pick_goal 2; (focus (simp +zetaDelta only [State.blank, cond_true, cond_false]; first | done | fail)); pick_goal 2; (focus (simp +zetaDelta only [watched]; first | done | fail)))
    | (dsimp +zetaDelta only)
    | split)

theorem does_settleAll {F : Parts} {s0 s : State}  (h : Does F s0 s)
    (hF : Parts.le { outs := true, glb := true, hst := true, pac := true, slo := true, store := true, obs := true } F = true) : Does F s0 (settleAll s) := by
  refine Does.weaken hF h ?_
  unfold settleAll
  repeat' (first
    | exact Eq.refl true
    | with_reducible exact Does.refl _ _
    | with_reducible assumption
    | with_reducible apply does_settleLane
    | (with_reducible refine Does.foldl ?_ (fun _ _ _ => ?_))
    | (with_reducible refine Does.foldlSnd ?_ (fun _ _ _ => ?_)))

theorem does_endAccount {F : Parts} {s0 s : State}  (h : Does F s0 s)
    (hF : Parts.le { outs := true, glb := true, hst := true, pac := true, slo := true, store := true, obs := true } F = true) : Does F s0 (endAccount s) := by
  refine Does.weaken hF h ?_
  unfold endAccount
  repeat' (first
    | exact Eq.refl true
    | with_reducible exact Does.refl _ _
    | with_reducible assumption
    | ((fail_if_no_progress (extract_lets z)); refine Does.cut (z := z) ?_ (fun q => ?_); rotate_left; clear_value z)
    | fail_if_no_progress (extract_lets z)
    | with_reducible apply does_settleAll
    | with_reducible refine Does.snd (by assumption) ?_
    | fail_if_no_progress (with_reducible refine Does.leaf ?_ ?_ ?_; pick_goal 2; (focus (simp +zetaDelta only [State.blank, cond_true, cond_false]; first | done | fail)); pick_goal 2; (focus (simp +zetaDelta only [watched]; first | done | fail)))
    | (dsimp +zetaDelta only)
    | split)

theorem does_calDone {F : Parts} {s0 s : State} (cmd : Option Nat) (n : Nat) (outcome : Nat) (h : Does F s0 s)
    (hF : Parts.le { outs := true, hst := true, enc := true, obs := true } F = true) : Does F s0 (calDone cmd n outcome s) := by
  refine Does.weaken hF h ?_
  unfold calDone
  repeat' (first
    | exact Eq.refl true
    | with_reducible exact Does.refl _ _
    | with_reducible assumption
    | ((fail_if_no_progress (extract_lets z)); refine Does.cut (z := z) ?_ (fun q => ?_); rotate_left; clear_value z)
    | fail_if_no_progress (extract_lets z)
    | with_reducible apply does_complete
    | with_reducible refine Does.snd (by assumption) ?_
    | with_reducible refine Does.ite ?_ ?_
    | fail_if_no_progress (with_reducible refine Does.leaf ?_ ?_ ?_; pick_goal 2; (focus (simp +zetaDelta only [State.blank, cond_true, cond_false]; first | done | fail)); pick_goal 2; (focus (simp +zetaDelta only [watched]; first | done | fail)))
    | (dsimp +zetaDelta only)
    | split)

theorem does_releaseCoefs {F : Parts} {s0 s : State}  (h : Does F s0 s)
    (hF : Parts.le { outs := true, hst := true, enc := true, obs := true } F = true) : Does F s0 (releaseCoefs s) := by
  refine Does.weaken hF h ?_
  unfold releaseCoefs
  repeat' (first
    | exact Eq.refl true
    | with_reducible exact Does.refl _ _
    | with_reducible assumption
    | ((fail_if_no_progress (extract_lets z)); refine Does.cut (z := z) ?_ (fun q => ?_); rotate_left; clear_value z)
    | ((fail_if_no_progress (extract_lets z)); refine Does.cutSnd (z := z) ?_ (fun q => ?_); rotate_left; clear_value z)
    | fail_if_no_progress (extract_lets z)
    | with_reducible apply does_calDone
    | with_reducible apply does_encSet
    | with_reducible refine Does.snd (by assumption) ?_
    | (with_reducible refine Does.foldl ?_ (fun _ _ _ => ?_))
    | (with_reducible refine Does.foldlSnd ?_ (fun _ _ _ => ?_))
    | fail_if_no_progress (with_reducible refine Does.leaf ?_ ?_ ?_; pick_goal 2; (focus (simp +zetaDelta only [State.blank, cond_true, cond_false]; first | done | fail)); pick_goal 2; (focus (simp +zetaDelta only [watched]; first | done | fail)))
    | (dsimp +zetaDelta only)
    | split)

theorem does_handoverDone {F : Parts} {s0 s : State}  (h : Does F s0 s)
    (hF : Parts.le { outs := true, hst := true, twn := true, obs := true } F = true) : Does F s0 (handoverDone s) := by
  refine Does.weaken hF h ?_
  unfold handoverDone
  repeat' (first
    | exact Eq.refl true
    | with_reducible exact Does.refl _ _
    | with_reducible assumption
    | ((fail_if_no_progress (extract_lets z)); refine Does.cut (z := z) ?_ (fun q => ?_); rotate_left; clear_value z)
    | fail_if_no_progress (extract_lets z)
    | with_reducible apply does_completeOpt
    | with_reducible refine Does.snd (by assumption) ?_
    | with_reducible refine Does.ite ?_ ?_
    | fail_if_no_progress (with_reducible refine Does.leaf ?_ ?_ ?_; pick_goal 2; (focus (simp +zetaDelta only [State.blank, cond_true, cond_false]; first | done | fail)); pick_goal 2; (focus (simp +zetaDelta only [watched]; first | done | fail)))
    | (dsimp +zetaDelta only)
    | split)

theorem does_dropStripe {F : Parts} {s0 s : State} (keep : Bool) (h : Does F s0 s)
    (hF : Parts.le { outs := true, hst := true, units := true, pac := true, twn := true, obs := true } F = true) : Does F s0 (dropStripe keep s) := by
  refine Does.weaken hF h ?_
  unfold dropStripe
  repeat' (first
    | exact Eq.refl true
    | with_reducible exact Does.refl _ _
    | with_reducible assumption
    | ((fail_if_no_progress (extract_lets z)); refine Does.cut (z := z) ?_ (fun q => ?_); rotate_left; clear_value z)
    | ((fail_if_no_progress (extract_lets z)); refine Does.cutSnd (z := z) ?_ (fun q => ?_); rotate_left; clear_value z)
    | fail_if_no_progress (extract_lets z)
    | with_reducible apply does_handoverDone
    | with_reducible refine Does.snd (by assumption) ?_
    | with_reducible refine Does.ite ?_ ?_
    | fail_if_no_progress (with_reducible refine Does.leaf ?_ ?_ ?_; pick_goal 2; (focus (simp +zetaDelta only [State.blank, cond_true, cond_false]; first | done | fail)); pick_goal 2; (focus (simp +zetaDelta only [watched]; first | done | fail)))
    | (dsimp +zetaDelta only)
    | split)

theorem does_discardStripe {F : Parts} {s0 s : State} (keep : Bool) (status : Nat) (h : Does F s0 s)
    (hF : Parts.le { outs := true, glb := true, hst := true, units := true, pac := true, enc := true, twn := true, slo := true, store := true, obs := true } F = true) : Does F s0 (discardStripe keep status s) := by
  refine Does.weaken hF h ?_
  unfold discardStripe
  repeat' (first
    | exact Eq.refl true
    | with_reducible exact Does.refl _ _
    | with_reducible assumption
    | ((fail_if_no_progress (extract_lets z)); refine Does.cut (z := z) ?_ (fun q => ?_); rotate_left; clear_value z)
    | ((fail_if_no_progress (extract_lets z)); refine Does.cutSnd (z := z) ?_ (fun q => ?_); rotate_left; clear_value z)
    | fail_if_no_progress (extract_lets z)
    | with_reducible apply does_releaseCoefs
    | with_reducible apply does_endAccount
    | with_reducible apply does_dropStripe
    | with_reducible apply does_completeOpt
    | with_reducible refine Does.snd (by assumption) ?_
    | with_reducible refine Does.ite ?_ ?_
    | fail_if_no_progress (with_reducible refine Does.leaf ?_ ?_ ?_; pick_goal 2; (focus (simp +zetaDelta only [State.blank, cond_true, cond_false]; first | done | fail)); pick_goal 2; (focus (simp +zetaDelta only [watched]; first | done | fail)))
    | (dsimp +zetaDelta only)
    | split)

theorem does_setStripe {F : Parts} {s0 s : State} (st : Stripe) (h : Does F s0 s)
    (hF : Parts.le { pac := true } F = true) : Does F s0 (setStripe st s) := by
  refine Does.weaken hF h ?_
  unfold setStripe
  repeat' (first
    | exact Eq.refl true
    | with_reducible exact Does.refl _ _
    | with_reducible assumption
    | ((fail_if_no_progress (extract_lets z)); refine Does.cut (z := z) ?_ (fun q => ?_); rotate_left; clear_value z)
    | fail_if_no_progress (extract_lets z)
    | fail_if_no_progress (with_reducible refine Does.leaf ?_ ?_ ?_; pick_goal 2; (focus (simp +zetaDelta only [State.blank, cond_true, cond_false]; first | done | fail)); pick_goal 2; (focus (simp +zetaDelta only [watched]; first | done | fail)))
    | (dsimp +zetaDelta only))

theorem does_closeCut {F : Parts} {s0 s : State} (rest : Bool) (h : Does F s0 s)
    (hF : Parts.le { outs := true, glb := true, hst := true, pac := true, slo := true, store := true, obs := true } F = true) : Does F s0 (closeCut rest s) := by
  refine Does.weaken hF h ?_
  unfold closeCut
  repeat' (first
    | exact Eq.refl true
    | with_reducible exact Does.refl _ _
    | with_reducible assumption
    | ((fail_if_no_progress (extract_lets z)); refine Does.cut (z := z) ?_ (fun q => ?_); rotate_left; clear_value z)
    | ((fail_if_no_progress (extract_lets z)); refine Does.cutSnd (z := z) ?_ (fun q => ?_); rotate_left; clear_value z)
    | fail_if_no_progress (extract_lets z)
    | with_reducible apply does_setStripe
    | with_reducible apply does_raiseStripeLoss
    | with_reducible refine Does.snd (by assumption) ?_
    | with_reducible refine Does.ite ?_ ?_
    | fail_if_no_progress (with_reducible refine Does.leaf ?_ ?_ ?_; pick_goal 2; (focus (simp +zetaDelta only [State.blank, cond_true, cond_false]; first | done | fail)); pick_goal 2; (focus (simp +zetaDelta only [watched]; first | done | fail)))
    | (dsimp +zetaDelta only)
    | split)

theorem does_abortRunning {F : Parts} {s0 s : State} (cause : Nat) (gc : Option Nat) (run : Bool) (gang : Bool) (h : Does F s0 s)
    (hF : Parts.le { outs := true, glb := true, hst := true, units := true, pac := true, enc := true, twn := true, tim := true, slo := true, store := true, obs := true } F = true) : Does F s0 (abortRunning cause gc run gang s) := by
  refine Does.weaken hF h ?_
  unfold abortRunning
  repeat' (first
    | exact Eq.refl true
    | with_reducible exact Does.refl _ _
    | with_reducible assumption
    | ((fail_if_no_progress (extract_lets z)); refine Does.cut (z := z) ?_ (fun q => ?_); rotate_left; clear_value z)
    | ((fail_if_no_progress (extract_lets z)); refine Does.cutSnd (z := z) ?_ (fun q => ?_); rotate_left; clear_value z)
    | fail_if_no_progress (extract_lets z)
    | with_reducible apply does_setStripe
    | with_reducible apply does_closeCut
    | with_reducible apply does_raiseItems
    | with_reducible apply does_dxpSend
    | with_reducible apply does_releaseCoefs
    | with_reducible apply does_gangAbort
    | with_reducible refine Does.snd (by assumption) ?_
    | with_reducible refine Does.ite ?_ ?_
    | fail_if_no_progress (with_reducible refine Does.leaf ?_ ?_ ?_; pick_goal 2; (focus (simp +zetaDelta only [State.blank, cond_true, cond_false]; first | done | fail)); pick_goal 2; (focus (simp +zetaDelta only [watched]; first | done | fail)))
    | (dsimp +zetaDelta only)
    | split)

theorem does_widenAbort {F : Parts} {s0 s : State} (gc : Nat) (h : Does F s0 s)
    (hF : Parts.le { pac := true } F = true) : Does F s0 (widenAbort gc s) := by
  refine Does.weaken hF h ?_
  unfold widenAbort
  repeat' (first
    | exact Eq.refl true
    | with_reducible exact Does.refl _ _
    | with_reducible assumption
    | ((fail_if_no_progress (extract_lets z)); refine Does.cut (z := z) ?_ (fun q => ?_); rotate_left; clear_value z)
    | fail_if_no_progress (extract_lets z)
    | with_reducible apply does_setStripe
    | with_reducible refine Does.snd (by assumption) ?_
    | with_reducible refine Does.ite ?_ ?_
    | fail_if_no_progress (with_reducible refine Does.leaf ?_ ?_ ?_; pick_goal 2; (focus (simp +zetaDelta only [State.blank, cond_true, cond_false]; first | done | fail)); pick_goal 2; (focus (simp +zetaDelta only [watched]; first | done | fail)))
    | (dsimp +zetaDelta only)
    | split)

theorem does_abortFault {F : Parts} {s0 s : State}  (h : Does F s0 s)
    (hF : Parts.le { outs := true, glb := true, hst := true, units := true, pac := true, enc := true, twn := true, tim := true, slo := true, store := true, obs := true } F = true) : Does F s0 (abortFault s) := by
  refine Does.weaken hF h ?_
  unfold abortFault
  repeat' (first
    | exact Eq.refl true
    | with_reducible exact Does.refl _ _
    | with_reducible assumption
    | with_reducible apply does_abortRunning)

theorem does_abortOrDiscard {F : Parts} {s0 s : State} (cause : Nat) (gang : Bool) (event : Bool) (armStatus : Nat) (h : Does F s0 s)
    (hF : Parts.le { outs := true, glb := true, hst := true, units := true, pac := true, enc := true, twn := true, tim := true, slo := true, store := true, obs := true } F = true) : Does F s0 (abortOrDiscard cause gang event armStatus s) := by
  refine Does.weaken hF h ?_
  unfold abortOrDiscard
  repeat' (first
    | exact Eq.refl true
    | with_reducible exact Does.refl _ _
    | with_reducible assumption
    | ((fail_if_no_progress (extract_lets z)); refine Does.cut (z := z) ?_ (fun q => ?_); rotate_left; clear_value z)
    | ((fail_if_no_progress (extract_lets z)); refine Does.cutSnd (z := z) ?_ (fun q => ?_); rotate_left; clear_value z)
    | fail_if_no_progress (extract_lets z)
    | with_reducible apply does_abortRunning
    | with_reducible apply does_discardStripe
    | with_reducible apply does_raiseItems
    | with_reducible refine Does.snd (by assumption) ?_
    | with_reducible refine Does.ite ?_ ?_
    | fail_if_no_progress (with_reducible refine Does.leaf ?_ ?_ ?_; pick_goal 2; (focus (simp +zetaDelta only [State.blank, cond_true, cond_false]; first | done | fail)); pick_goal 2; (focus (simp +zetaDelta only [watched]; first | done | fail)))
    | (dsimp +zetaDelta only)
    | split)

theorem does_abortOrDiscardFree {F : Parts} {s0 s : State} (cause : Nat) (gang : Bool) (event : Bool) (h : Does F s0 s)
    (hF : Parts.le { outs := true, free := true, glb := true, hst := true, units := true, pac := true, enc := true, twn := true, tim := true, slo := true, store := true, obs := true } F = true) : Does F s0 (abortOrDiscardFree cause gang event s) := by
  refine Does.weaken hF h ?_
  unfold abortOrDiscardFree
  repeat' (first
    | exact Eq.refl true
    | with_reducible exact Does.refl _ _
    | with_reducible assumption
    | ((fail_if_no_progress (extract_lets z)); refine Does.cut (z := z) ?_ (fun q => ?_); rotate_left; clear_value z)
    | ((fail_if_no_progress (extract_lets z)); refine Does.cutSnd (z := z) ?_ (fun q => ?_); rotate_left; clear_value z)
    | fail_if_no_progress (extract_lets z)
    | with_reducible apply does_drawFree
    | with_reducible apply does_abortOrDiscard
    | with_reducible refine Does.snd (by assumption) ?_
    | (dsimp +zetaDelta only)
    | split)

theorem does_closeLate {F : Parts} {s0 s : State}  (h : Does F s0 s)
    (hF : Parts.le { outs := true, glb := true, hst := true, pac := true, slo := true, store := true, obs := true } F = true) : Does F s0 (closeLate s) := by
  refine Does.weaken hF h ?_
  unfold closeLate
  repeat' (first
    | exact Eq.refl true
    | with_reducible exact Does.refl _ _
    | with_reducible assumption
    | ((fail_if_no_progress (extract_lets z)); refine Does.cut (z := z) ?_ (fun q => ?_); rotate_left; clear_value z)
    | ((fail_if_no_progress (extract_lets z)); refine Does.cutSnd (z := z) ?_ (fun q => ?_); rotate_left; clear_value z)
    | fail_if_no_progress (extract_lets z)
    | with_reducible apply does_setStripe
    | with_reducible apply does_raiseStripeLoss
    | with_reducible refine Does.snd (by assumption) ?_
    | with_reducible refine Does.ite ?_ ?_
    | fail_if_no_progress (with_reducible refine Does.leaf ?_ ?_ ?_; pick_goal 2; (focus (simp +zetaDelta only [State.blank, cond_true, cond_false]; first | done | fail)); pick_goal 2; (focus (simp +zetaDelta only [watched]; first | done | fail)))
    | (dsimp +zetaDelta only)
    | split)

theorem does_flushRuns {F : Parts} {s0 s : State}  (h : Does F s0 s)
    (hF : Parts.le { outs := true, glb := true, hst := true, pac := true, slo := true, store := true, obs := true } F = true) : Does F s0 (flushRuns s) := by
  refine Does.weaken hF h ?_
  unfold flushRuns
  repeat' (first
    | exact Eq.refl true
    | with_reducible exact Does.refl _ _
    | with_reducible assumption
    | ((fail_if_no_progress (extract_lets z)); refine Does.cut (z := z) ?_ (fun q => ?_); rotate_left; clear_value z)
    | ((fail_if_no_progress (extract_lets z)); refine Does.cutSnd (z := z) ?_ (fun q => ?_); rotate_left; clear_value z)
    | fail_if_no_progress (extract_lets z)
    | with_reducible apply does_closeRun
    | with_reducible apply does_closeLate
    | with_reducible refine Does.snd (by assumption) ?_
    | (with_reducible refine Does.foldl ?_ (fun _ _ _ => ?_))
    | (with_reducible refine Does.foldlSnd ?_ (fun _ _ _ => ?_))
    | fail_if_no_progress (with_reducible refine Does.leaf ?_ ?_ ?_; pick_goal 2; (focus (simp +zetaDelta only [State.blank, cond_true, cond_false]; first | done | fail)); pick_goal 2; (focus (simp +zetaDelta only [watched]; first | done | fail)))
    | (dsimp +zetaDelta only)
    | split)

theorem does_fatalRecords {F : Parts} {s0 s : State}  (h : Does F s0 s)
    (hF : Parts.le { outs := true, glb := true, hst := true, pac := true, slo := true, store := true, obs := true } F = true) : Does F s0 (fatalRecords s) := by
  refine Does.weaken hF h ?_
  unfold fatalRecords
  repeat' (first
    | exact Eq.refl true
    | with_reducible exact Does.refl _ _
    | with_reducible assumption
    | ((fail_if_no_progress (extract_lets z)); refine Does.cut (z := z) ?_ (fun q => ?_); rotate_left; clear_value z)
    | ((fail_if_no_progress (extract_lets z)); refine Does.cutSnd (z := z) ?_ (fun q => ?_); rotate_left; clear_value z)
    | fail_if_no_progress (extract_lets z)
    | with_reducible apply does_flushRuns
    | with_reducible apply does_raiseLoss
    | with_reducible refine Does.snd (by assumption) ?_
    | (with_reducible refine Does.foldl ?_ (fun _ _ _ => ?_))
    | (with_reducible refine Does.foldlSnd ?_ (fun _ _ _ => ?_))
    | with_reducible refine Does.ite ?_ ?_
    | fail_if_no_progress (with_reducible refine Does.leaf ?_ ?_ ?_; pick_goal 2; (focus (simp +zetaDelta only [State.blank, cond_true, cond_false]; first | done | fail)); pick_goal 2; (focus (simp +zetaDelta only [watched]; first | done | fail)))
    | (dsimp +zetaDelta only)
    | split)

theorem does_tableRecord {F : Parts} {s0 s : State} (kind : Nat) (status : Nat) (tag : Nat) (first : Nat) (count : Nat) (h : Does F s0 s)
    (hF : Parts.le { slo := true, obs := true } F = true) : Does F s0 (tableRecord kind status tag first count s) := by
  refine Does.weaken hF h ?_
  unfold tableRecord
  repeat' (first
    | exact Eq.refl true
    | with_reducible exact Does.refl _ _
    | with_reducible assumption
    | with_reducible apply does_siloRecord)

theorem does_msgRecord {F : Parts} {s0 s : State} (m : TableMsg) (status : Nat) (h : Does F s0 s)
    (hF : Parts.le { slo := true, obs := true } F = true) : Does F s0 (msgRecord m status s) := by
  refine Does.weaken hF h ?_
  unfold msgRecord
  repeat' (first
    | exact Eq.refl true
    | with_reducible exact Does.refl _ _
    | with_reducible assumption
    | with_reducible apply does_tableRecord)

theorem does_fatalTable {F : Parts} {s0 s : State} (status : Nat) (h : Does F s0 s)
    (hF : Parts.le { dos := true, twn := true, grn := true, slo := true, obs := true } F = true) : Does F s0 (fatalTable status s) := by
  refine Does.weaken hF h ?_
  unfold fatalTable
  repeat' (first
    | exact Eq.refl true
    | with_reducible exact Does.refl _ _
    | with_reducible assumption
    | ((fail_if_no_progress (extract_lets z)); refine Does.cut (z := z) ?_ (fun q => ?_); rotate_left; clear_value z)
    | ((fail_if_no_progress (extract_lets z)); refine Does.cutSnd (z := z) ?_ (fun q => ?_); rotate_left; clear_value z)
    | fail_if_no_progress (extract_lets z)
    | with_reducible apply does_startJobWord
    | with_reducible apply does_msgRecord
    | with_reducible refine Does.snd (by assumption) ?_
    | with_reducible refine Does.ite ?_ ?_
    | fail_if_no_progress (with_reducible refine Does.leaf ?_ ?_ ?_; pick_goal 2; (focus (simp +zetaDelta only [State.blank, cond_true, cond_false]; first | done | fail)); pick_goal 2; (focus (simp +zetaDelta only [watched]; first | done | fail)))
    | (dsimp +zetaDelta only)
    | split)

theorem does_fatalBy {F : Parts} {s0 s : State} (hk : Bool) (cause : Nat) (unit : Nat) (fatalStatus : Nat) (h : Does F s0 s)
    (hF : Parts.le { outs := true, pins := true, glb := true, hst := true, chk := true, dos := true, pac := true, swl := true, twn := true, tim := true, grn := true, slo := true, store := true, obs := true, readbacks := true } F = true) : Does F s0 (fatalBy hk cause unit fatalStatus s) := by
  refine Does.weaken hF h ?_
  unfold fatalBy
  repeat' (first
    | exact Eq.refl true
    | with_reducible exact Does.refl _ _
    | with_reducible assumption
    | ((fail_if_no_progress (extract_lets z)); refine Does.cut (z := z) ?_ (fun q => ?_); rotate_left; clear_value z)
    | ((fail_if_no_progress (extract_lets z)); refine Does.cutSnd (z := z) ?_ (fun q => ?_); rotate_left; clear_value z)
    | fail_if_no_progress (extract_lets z)
    | with_reducible apply does_trySnap
    | with_reducible apply does_raiseItems
    | with_reducible apply does_fatalRecords
    | with_reducible apply does_siloFreeze
    | with_reducible apply does_complete
    | with_reducible apply does_fatalTable
    | with_reducible refine Does.snd (by assumption) ?_
    | (with_reducible refine Does.foldl ?_ (fun _ _ _ => ?_))
    | (with_reducible refine Does.foldlSnd ?_ (fun _ _ _ => ?_))
    | with_reducible refine Does.ite ?_ ?_
    | fail_if_no_progress (with_reducible refine Does.leaf ?_ ?_ ?_; pick_goal 2; (focus (simp +zetaDelta only [State.blank, cond_true, cond_false]; first | done | fail)); pick_goal 2; (focus (simp +zetaDelta only [watched]; first | done | fail)))
    | (dsimp +zetaDelta only)
    | split)

theorem does_goFatal {F : Parts} {s0 s : State} (cause : Nat) (unit : Nat) (fatalStatus : Nat) (h : Does F s0 s)
    (hF : Parts.le { outs := true, pins := true, glb := true, hst := true, chk := true, dos := true, pac := true, swl := true, twn := true, tim := true, grn := true, slo := true, store := true, obs := true, readbacks := true } F = true) : Does F s0 (goFatal cause unit fatalStatus s) := by
  refine Does.weaken hF h ?_
  unfold goFatal
  repeat' (first
    | exact Eq.refl true
    | with_reducible exact Does.refl _ _
    | with_reducible assumption
    | with_reducible apply does_fatalBy)

end Sys2Proof.Machine
end

