-- ==== Sys2Proof/Laws/DoesEncoder.lean ====
section
/-! SUPPORT. What each operation of Machine/Encoder.lean touches at most, and that it keeps the bounds. -/

-- One theorem at a time: elaborating the package as one text in many threads at once takes more memory than the check allows.
set_option Elab.async false

set_option linter.unusedSimpArgs false
set_option linter.unusedTactic false
set_option linter.unreachableTactic false

namespace Sys2Proof.Machine

theorem does_speedEdge {F : Parts} {s0 s : State} (n : Nat) (cycle : Nat) (h : Does F s0 s)
    (hF : Parts.le { enc := true, obs := true } F = true) : Does F s0 (speedEdge n cycle s) := by
  refine Does.weaken hF h ?_
  unfold speedEdge
  repeat' (first
    | exact Eq.refl true
    | with_reducible exact Does.refl _ _
    | with_reducible assumption
    | ((fail_if_no_progress (extract_lets z)); refine Does.cut (z := z) ?_ (fun q => ?_); rotate_left; clear_value z)
    | ((fail_if_no_progress (extract_lets z)); refine Does.cutSnd (z := z) ?_ (fun q => ?_); rotate_left; clear_value z)
    | fail_if_no_progress (extract_lets z)
    | with_reducible apply does_cntEnc
    | with_reducible apply does_encSet
    | with_reducible refine Does.snd (by assumption) ?_
    | with_reducible refine Does.ite ?_ ?_
    | fail_if_no_progress (with_reducible refine Does.leaf ?_ ?_ ?_; pick_goal 2; (focus (simp +zetaDelta only [State.blank, cond_true, cond_false]; first | done | fail)); pick_goal 2; (focus (simp +zetaDelta only [watched]; first | done | fail)))
    | (dsimp +zetaDelta only)
    | split)

theorem does_reopen {F : Parts} {s0 s : State} (n : Nat) (h : Does F s0 s)
    (hF : Parts.le { enc := true } F = true) : Does F s0 (reopen n s) := by
  refine Does.weaken hF h ?_
  unfold reopen
  repeat' (first
    | exact Eq.refl true
    | with_reducible exact Does.refl _ _
    | with_reducible assumption
    | ((fail_if_no_progress (extract_lets z)); refine Does.cut (z := z) ?_ (fun q => ?_); rotate_left; clear_value z)
    | ((fail_if_no_progress (extract_lets z)); refine Does.cutSnd (z := z) ?_ (fun q => ?_); rotate_left; clear_value z)
    | fail_if_no_progress (extract_lets z)
    | with_reducible apply does_encSet
    | with_reducible refine Does.ite ?_ ?_
    | fail_if_no_progress (with_reducible refine Does.leaf ?_ ?_ ?_; pick_goal 2; (focus (simp +zetaDelta only [State.blank, cond_true, cond_false]; first | done | fail)); pick_goal 2; (focus (simp +zetaDelta only [watched]; first | done | fail)))
    | (dsimp +zetaDelta only)
    | split)

theorem does_applyCoef {F : Parts} {s0 s : State} (n : Nat) (c : Coef) (cmd : Option Nat) (h : Does F s0 s)
    (hF : Parts.le { outs := true, hst := true, enc := true, obs := true } F = true) : Does F s0 (applyCoef n c cmd s) := by
  refine Does.weaken hF h ?_
  unfold applyCoef
  repeat' (first
    | exact Eq.refl true
    | with_reducible exact Does.refl _ _
    | with_reducible assumption
    | ((fail_if_no_progress (extract_lets z)); refine Does.cut (z := z) ?_ (fun q => ?_); rotate_left; clear_value z)
    | ((fail_if_no_progress (extract_lets z)); refine Does.cutSnd (z := z) ?_ (fun q => ?_); rotate_left; clear_value z)
    | fail_if_no_progress (extract_lets z)
    | with_reducible apply does_calDone
    | with_reducible apply does_encSet
    | with_reducible refine Does.ite ?_ ?_
    | fail_if_no_progress (with_reducible refine Does.leaf ?_ ?_ ?_; pick_goal 2; (focus (simp +zetaDelta only [State.blank, cond_true, cond_false]; first | done | fail)); pick_goal 2; (focus (simp +zetaDelta only [watched]; first | done | fail)))
    | (dsimp +zetaDelta only)
    | split)

theorem does_trackFault {F : Parts} {s0 s : State} (n : Nat) (cause : Nat) (h : Does F s0 s)
    (hF : Parts.le { outs := true, glb := true, hst := true, enc := true, slo := true, obs := true } F = true) : Does F s0 (trackFault n cause s) := by
  refine Does.weaken hF h ?_
  unfold trackFault
  repeat' (first
    | exact Eq.refl true
    | with_reducible exact Does.refl _ _
    | with_reducible assumption
    | ((fail_if_no_progress (extract_lets z)); refine Does.cut (z := z) ?_ (fun q => ?_); rotate_left; clear_value z)
    | ((fail_if_no_progress (extract_lets z)); refine Does.cutSnd (z := z) ?_ (fun q => ?_); rotate_left; clear_value z)
    | fail_if_no_progress (extract_lets z)
    | with_reducible apply does_raiseItems
    | with_reducible apply does_calDone
    | with_reducible apply does_reopen
    | with_reducible apply does_encSet
    | with_reducible refine Does.ite ?_ ?_
    | fail_if_no_progress (with_reducible refine Does.leaf ?_ ?_ ?_; pick_goal 2; (focus (simp +zetaDelta only [State.blank, cond_true, cond_false]; first | done | fail)); pick_goal 2; (focus (simp +zetaDelta only [watched]; first | done | fail)))
    | (dsimp +zetaDelta only)
    | split)

theorem does_sampleCh {F : Parts} {s0 s : State} (n : Nat) (p : EncPair) (h : Does F s0 s)
    (hF : Parts.le { outs := true, glb := true, hst := true, enc := true, slo := true, obs := true } F = true) : Does F s0 (sampleCh n p s) := by
  refine Does.weaken hF h ?_
  unfold sampleCh
  repeat' (first
    | exact Eq.refl true
    | with_reducible exact Does.refl _ _
    | with_reducible assumption
    | ((fail_if_no_progress (extract_lets z)); refine Does.cut (z := z) ?_ (fun q => ?_); rotate_left; clear_value z)
    | ((fail_if_no_progress (extract_lets z)); refine Does.cutSnd (z := z) ?_ (fun q => ?_); rotate_left; clear_value z)
    | fail_if_no_progress (extract_lets z)
    | with_reducible apply does_encSet
    | with_reducible apply does_trackFault
    | with_reducible refine Does.snd (by assumption) ?_
    | with_reducible refine Does.ite ?_ ?_
    | fail_if_no_progress (with_reducible refine Does.leaf ?_ ?_ ?_; pick_goal 2; (focus (simp +zetaDelta only [State.blank, cond_true, cond_false]; first | done | fail)); pick_goal 2; (focus (simp +zetaDelta only [watched]; first | done | fail)))
    | (dsimp +zetaDelta only)
    | split)

theorem does_edgesAt {F : Parts} {s0 s : State} (n : Nat) (x1 : Nat) (b : Nat) (h : Does F s0 s)
    (hF : Parts.le { enc := true } F = true) : Does F s0 (edgesAt s n x1 b) := by
  refine Does.weaken hF h ?_
  unfold edgesAt
  repeat' (first
    | exact Eq.refl true
    | with_reducible exact Does.refl _ _
    | with_reducible assumption
    | ((fail_if_no_progress (extract_lets z)); refine Does.cut (z := z) ?_ (fun q => ?_); rotate_left; clear_value z)
    | ((fail_if_no_progress (extract_lets z)); refine Does.cutSnd (z := z) ?_ (fun q => ?_); rotate_left; clear_value z)
    | fail_if_no_progress (extract_lets z)
    | with_reducible apply does_encSet
    | with_reducible refine Does.ite ?_ ?_
    | fail_if_no_progress (with_reducible refine Does.leaf ?_ ?_ ?_; pick_goal 2; (focus (simp +zetaDelta only [State.blank, cond_true, cond_false]; first | done | fail)); pick_goal 2; (focus (simp +zetaDelta only [watched]; first | done | fail)))
    | (dsimp +zetaDelta only)
    | split)

theorem does_cmpSample {F : Parts} {s0 s : State} (k : Nat) (pos : Nat) (h : Does F s0 s)
    (hF : Parts.le { outs := true, glb := true, hst := true, enc := true, slo := true, obs := true } F = true) : Does F s0 (cmpSample k pos s) := by
  refine Does.weaken hF h ?_
  unfold cmpSample
  repeat' (first
    | exact Eq.refl true
    | with_reducible exact Does.refl _ _
    | with_reducible assumption
    | ((fail_if_no_progress (extract_lets z)); refine Does.cut (z := z) ?_ (fun q => ?_); rotate_left; clear_value z)
    | ((fail_if_no_progress (extract_lets z)); refine Does.cutSnd (z := z) ?_ (fun q => ?_); rotate_left; clear_value z)
    | fail_if_no_progress (extract_lets z)
    | with_reducible apply does_raiseItems
    | with_reducible apply does_cmpSet
    | with_reducible refine Does.ite ?_ ?_
    | fail_if_no_progress (with_reducible refine Does.leaf ?_ ?_ ?_; pick_goal 2; (focus (simp +zetaDelta only [State.blank, cond_true, cond_false]; first | done | fail)); pick_goal 2; (focus (simp +zetaDelta only [watched]; first | done | fail)))
    | (dsimp +zetaDelta only)
    | split)

theorem does_cmpArmOp {F : Parts} {s0 s : State} (k : Nat) (h : Does F s0 s)
    (hF : Parts.le { enc := true } F = true) : Does F s0 (cmpArmOp k s) := by
  refine Does.weaken hF h ?_
  unfold cmpArmOp
  repeat' (first
    | exact Eq.refl true
    | with_reducible exact Does.refl _ _
    | with_reducible assumption
    | ((fail_if_no_progress (extract_lets z)); refine Does.cut (z := z) ?_ (fun q => ?_); rotate_left; clear_value z)
    | ((fail_if_no_progress (extract_lets z)); refine Does.cutSnd (z := z) ?_ (fun q => ?_); rotate_left; clear_value z)
    | fail_if_no_progress (extract_lets z)
    | with_reducible apply does_cmpSet
    | fail_if_no_progress (with_reducible refine Does.leaf ?_ ?_ ?_; pick_goal 2; (focus (simp +zetaDelta only [State.blank, cond_true, cond_false]; first | done | fail)); pick_goal 2; (focus (simp +zetaDelta only [watched]; first | done | fail)))
    | (dsimp +zetaDelta only))

theorem does_cmpDisarmOp {F : Parts} {s0 s : State} (k : Nat) (h : Does F s0 s)
    (hF : Parts.le { enc := true } F = true) : Does F s0 (cmpDisarmOp k s) := by
  refine Does.weaken hF h ?_
  unfold cmpDisarmOp
  repeat' (first
    | exact Eq.refl true
    | with_reducible exact Does.refl _ _
    | with_reducible assumption
    | ((fail_if_no_progress (extract_lets z)); refine Does.cut (z := z) ?_ (fun q => ?_); rotate_left; clear_value z)
    | fail_if_no_progress (extract_lets z)
    | with_reducible apply does_cmpSet
    | fail_if_no_progress (with_reducible refine Does.leaf ?_ ?_ ?_; pick_goal 2; (focus (simp +zetaDelta only [State.blank, cond_true, cond_false]; first | done | fail)); pick_goal 2; (focus (simp +zetaDelta only [watched]; first | done | fail)))
    | (dsimp +zetaDelta only))

theorem does_cmpCommit {F : Parts} {s0 s : State} (k : Nat) (hi : Nat) (h : Does F s0 s)
    (hF : Parts.le { enc := true } F = true) : Does F s0 (cmpCommit k hi s) := by
  refine Does.weaken hF h ?_
  unfold cmpCommit
  repeat' (first
    | exact Eq.refl true
    | with_reducible exact Does.refl _ _
    | with_reducible assumption
    | ((fail_if_no_progress (extract_lets z)); refine Does.cut (z := z) ?_ (fun q => ?_); rotate_left; clear_value z)
    | ((fail_if_no_progress (extract_lets z)); refine Does.cutSnd (z := z) ?_ (fun q => ?_); rotate_left; clear_value z)
    | fail_if_no_progress (extract_lets z)
    | with_reducible apply does_cmpSet
    | with_reducible refine Does.ite ?_ ?_
    | fail_if_no_progress (with_reducible refine Does.leaf ?_ ?_ ?_; pick_goal 2; (focus (simp +zetaDelta only [State.blank, cond_true, cond_false]; first | done | fail)); pick_goal 2; (focus (simp +zetaDelta only [watched]; first | done | fail)))
    | (dsimp +zetaDelta only)
    | split)

theorem does_targetAt {F : Parts} {s0 s : State} (e : Nat) (pos : Nat) (h : Does F s0 s)
    (hF : Parts.le { outs := true, glb := true, hst := true, pac := true, slo := true, obs := true } F = true) : Does F s0 (targetAt e pos s) := by
  refine Does.weaken hF h ?_
  unfold targetAt
  repeat' (first
    | exact Eq.refl true
    | with_reducible exact Does.refl _ _
    | with_reducible assumption
    | ((fail_if_no_progress (extract_lets z)); refine Does.cut (z := z) ?_ (fun q => ?_); rotate_left; clear_value z)
    | ((fail_if_no_progress (extract_lets z)); refine Does.cutSnd (z := z) ?_ (fun q => ?_); rotate_left; clear_value z)
    | fail_if_no_progress (extract_lets z)
    | with_reducible apply does_setStripe
    | with_reducible apply does_raiseItems
    | with_reducible refine Does.snd (by assumption) ?_
    | with_reducible refine Does.ite ?_ ?_
    | fail_if_no_progress (with_reducible refine Does.leaf ?_ ?_ ?_; pick_goal 2; (focus (simp +zetaDelta only [State.blank, cond_true, cond_false]; first | done | fail)); pick_goal 2; (focus (simp +zetaDelta only [watched]; first | done | fail)))
    | (dsimp +zetaDelta only)
    | split)

theorem does_raiseOverrun {F : Parts} {s0 s : State} (pos : Nat) (limit : Nat) (h : Does F s0 s)
    (hF : Parts.le { outs := true, glb := true, hst := true, pac := true, slo := true, obs := true } F = true) : Does F s0 (raiseOverrun pos limit s) := by
  refine Does.weaken hF h ?_
  unfold raiseOverrun
  repeat' (first
    | exact Eq.refl true
    | with_reducible exact Does.refl _ _
    | with_reducible assumption
    | ((fail_if_no_progress (extract_lets z)); refine Does.cut (z := z) ?_ (fun q => ?_); rotate_left; clear_value z)
    | fail_if_no_progress (extract_lets z)
    | with_reducible apply does_raiseItems
    | with_reducible apply does_setStripe
    | with_reducible refine Does.snd (by assumption) ?_
    | with_reducible refine Does.ite ?_ ?_
    | fail_if_no_progress (with_reducible refine Does.leaf ?_ ?_ ?_; pick_goal 2; (focus (simp +zetaDelta only [State.blank, cond_true, cond_false]; first | done | fail)); pick_goal 2; (focus (simp +zetaDelta only [watched]; first | done | fail)))
    | (dsimp +zetaDelta only)
    | split)

theorem does_limitCheck {F : Parts} {s0 s : State} (pos : Nat) (h : Does F s0 s)
    (hF : Parts.le { outs := true, glb := true, hst := true, units := true, pac := true, enc := true, twn := true, tim := true, slo := true, store := true, obs := true } F = true) : Does F s0 (limitCheck pos s) := by
  refine Does.weaken hF h ?_
  unfold limitCheck
  repeat' (first
    | exact Eq.refl true
    | with_reducible exact Does.refl _ _
    | with_reducible assumption
    | ((fail_if_no_progress (extract_lets z)); refine Does.cut (z := z) ?_ (fun q => ?_); rotate_left; clear_value z)
    | ((fail_if_no_progress (extract_lets z)); refine Does.cutSnd (z := z) ?_ (fun q => ?_); rotate_left; clear_value z)
    | fail_if_no_progress (extract_lets z)
    | with_reducible apply does_abortRunning
    | with_reducible apply does_raiseOverrun
    | with_reducible refine Does.snd (by assumption) ?_
    | with_reducible refine Does.ite ?_ ?_
    | fail_if_no_progress (with_reducible refine Does.leaf ?_ ?_ ?_; pick_goal 2; (focus (simp +zetaDelta only [State.blank, cond_true, cond_false]; first | done | fail)); pick_goal 2; (focus (simp +zetaDelta only [watched]; first | done | fail)))
    | (dsimp +zetaDelta only)
    | split)

theorem does_crossCheck {F : Parts} {s0 s : State} (p : List Nat) (h : Does F s0 s)
    (hF : Parts.le { outs := true, glb := true, hst := true, units := true, pac := true, enc := true, twn := true, tim := true, slo := true, store := true, obs := true } F = true) : Does F s0 (crossCheck p s) := by
  refine Does.weaken hF h ?_
  unfold crossCheck
  repeat' (first
    | exact Eq.refl true
    | with_reducible exact Does.refl _ _
    | with_reducible assumption
    | ((fail_if_no_progress (extract_lets z)); refine Does.cut (z := z) ?_ (fun q => ?_); rotate_left; clear_value z)
    | ((fail_if_no_progress (extract_lets z)); refine Does.cutSnd (z := z) ?_ (fun q => ?_); rotate_left; clear_value z)
    | fail_if_no_progress (extract_lets z)
    | with_reducible apply does_raiseItems
    | with_reducible apply does_setStripe
    | with_reducible apply does_abortFault
    | with_reducible refine Does.snd (by assumption) ?_
    | with_reducible refine Does.ite ?_ ?_
    | fail_if_no_progress (with_reducible refine Does.leaf ?_ ?_ ?_; pick_goal 2; (focus (simp +zetaDelta only [State.blank, cond_true, cond_false]; first | done | fail)); pick_goal 2; (focus (simp +zetaDelta only [watched]; first | done | fail)))
    | (dsimp +zetaDelta only)
    | split)

theorem does_encFaultStripe {F : Parts} {s0 after : State}  (h : Does F s0 after)
    (hF : Parts.le { outs := true, free := true, glb := true, hst := true, units := true, pac := true, enc := true, twn := true, tim := true, slo := true, store := true, obs := true } F = true) : Does F s0 (encFaultStripe before after) := by
  refine Does.weaken hF h ?_
  unfold encFaultStripe
  repeat' (first
    | exact Eq.refl true
    | with_reducible exact Does.refl _ _
    | with_reducible assumption
    | ((fail_if_no_progress (extract_lets z)); refine Does.cut (z := z) ?_ (fun q => ?_); rotate_left; clear_value z)
    | ((fail_if_no_progress (extract_lets z)); refine Does.cutSnd (z := z) ?_ (fun q => ?_); rotate_left; clear_value z)
    | fail_if_no_progress (extract_lets z)
    | with_reducible apply does_setStripe
    | with_reducible apply does_abortFault
    | with_reducible apply does_abortOrDiscardFree
    | with_reducible refine Does.snd (by assumption) ?_
    | with_reducible refine Does.ite ?_ ?_
    | fail_if_no_progress (with_reducible refine Does.leaf ?_ ?_ ?_; pick_goal 2; (focus (simp +zetaDelta only [State.blank, cond_true, cond_false]; first | done | fail)); pick_goal 2; (focus (simp +zetaDelta only [watched]; first | done | fail)))
    | (dsimp +zetaDelta only)
    | split)

theorem does_encEdge {F : Parts} {s0 s : State} (off : Nat) (prev : List Nat) (h : Does F s0 s)
    (hF : Parts.le { outs := true, glb := true, hst := true, units := true, pac := true, enc := true, twn := true, tim := true, slo := true, store := true, obs := true } F = true) : Does F s0 (encEdge off prev s).2 := by
  refine Does.weaken hF h ?_
  unfold encEdge
  repeat' (first
    | exact Eq.refl true
    | with_reducible exact Does.refl _ _
    | with_reducible assumption
    | ((fail_if_no_progress (extract_lets z)); refine Does.cut (z := z) ?_ (fun q => ?_); rotate_left; clear_value z)
    | ((fail_if_no_progress (extract_lets z)); refine Does.cutSnd (z := z) ?_ (fun q => ?_); rotate_left; clear_value z)
    | fail_if_no_progress (extract_lets z)
    | with_reducible apply does_edgesAt
    | with_reducible apply does_cmpSample
    | with_reducible apply does_crossCheck
    | with_reducible apply does_limitCheck
    | with_reducible apply does_targetAt
    | (with_reducible refine Does.foldl ?_ (fun _ _ _ => ?_))
    | (with_reducible refine Does.foldlSnd ?_ (fun _ _ _ => ?_))
    | with_reducible refine Does.ite ?_ ?_
    | fail_if_no_progress (with_reducible refine Does.leaf ?_ ?_ ?_; pick_goal 2; (focus (simp +zetaDelta only [State.blank, cond_true, cond_false]; first | done | fail)); pick_goal 2; (focus (simp +zetaDelta only [watched]; first | done | fail)))
    | (dsimp +zetaDelta only)
    | split)

theorem does_presetLoad {F : Parts} {s0 s : State} (n : Nat) (h : Does F s0 s)
    (hF : Parts.le { enc := true } F = true) : Does F s0 (presetLoad n s) := by
  refine Does.weaken hF h ?_
  unfold presetLoad
  repeat' (first
    | exact Eq.refl true
    | with_reducible exact Does.refl _ _
    | with_reducible assumption
    | ((fail_if_no_progress (extract_lets z)); refine Does.cut (z := z) ?_ (fun q => ?_); rotate_left; clear_value z)
    | ((fail_if_no_progress (extract_lets z)); refine Does.cutSnd (z := z) ?_ (fun q => ?_); rotate_left; clear_value z)
    | fail_if_no_progress (extract_lets z)
    | with_reducible apply does_encSet
    | with_reducible refine Does.ite ?_ ?_
    | fail_if_no_progress (with_reducible refine Does.leaf ?_ ?_ ?_; pick_goal 2; (focus (simp +zetaDelta only [State.blank, cond_true, cond_false]; first | done | fail)); pick_goal 2; (focus (simp +zetaDelta only [watched]; first | done | fail)))
    | (dsimp +zetaDelta only)
    | split)

theorem does_encEnable {F : Parts} {s0 s : State} (n : Nat) (was : Bool) (h : Does F s0 s)
    (hF : Parts.le { enc := true } F = true) : Does F s0 (encEnable n was s) := by
  refine Does.weaken hF h ?_
  unfold encEnable
  repeat' (first
    | exact Eq.refl true
    | with_reducible exact Does.refl _ _
    | with_reducible assumption
    | ((fail_if_no_progress (extract_lets z)); refine Does.cut (z := z) ?_ (fun q => ?_); rotate_left; clear_value z)
    | ((fail_if_no_progress (extract_lets z)); refine Does.cutSnd (z := z) ?_ (fun q => ?_); rotate_left; clear_value z)
    | fail_if_no_progress (extract_lets z)
    | with_reducible apply does_encSet
    | with_reducible refine Does.ite ?_ ?_
    | fail_if_no_progress (with_reducible refine Does.leaf ?_ ?_ ?_; pick_goal 2; (focus (simp +zetaDelta only [State.blank, cond_true, cond_false]; first | done | fail)); pick_goal 2; (focus (simp +zetaDelta only [watched]; first | done | fail)))
    | (dsimp +zetaDelta only)
    | split)

end Sys2Proof.Machine
end

