-- ==== Sys2Proof/Laws/DoesRing.lean ====
section
/-! SUPPORT. What each operation of Machine/Ring.lean touches at most, and that it keeps the bounds. -/

-- One theorem at a time: elaborating the package as one text in many threads at once takes more memory than the check allows.
set_option Elab.async false

set_option linter.unusedSimpArgs false
set_option linter.unusedTactic false
set_option linter.unreachableTactic false

namespace Sys2Proof.Machine

theorem does_ok {F : Parts} {s0 s : State}  (h : Does F s0 s)
    (hF : Parts.le {} F = true) : DoesO F s0 (ok s) := by
  refine DoesO.weaken hF h ?_
  unfold ok
  repeat' (first
    | exact Eq.refl true
    | with_reducible exact Does.refl _ _
    | with_reducible assumption
    | with_reducible apply DoesO.next)

theorem does_withLen {F : Parts} {s0 k : State} (data : List Byte) (n : Nat) (h : Does F s0 k)
    (hF : Parts.le {} F = true) : DoesO F s0 (withLen data n k) := by
  refine DoesO.weaken hF h ?_
  unfold withLen
  repeat' (first
    | exact Eq.refl true
    | with_reducible exact Does.refl _ _
    | with_reducible assumption
    | with_reducible exact DoesO.fault _
    | ((fail_if_no_progress (extract_lets z)); refine Does.cut (z := z) ?_ (fun q => ?_); rotate_left; clear_value z)
    | ((fail_if_no_progress (extract_lets z)); refine DoesO.cut (z := z) ?_ (fun q => ?_); rotate_left; clear_value z)
    | fail_if_no_progress (extract_lets z)
    | with_reducible apply DoesO.next
    | with_reducible refine Does.ite ?_ ?_
    | with_reducible refine DoesO.ite ?_ ?_
    | fail_if_no_progress (with_reducible refine Does.leaf ?_ ?_ ?_; pick_goal 2; (focus (simp +zetaDelta only [State.blank, cond_true, cond_false]; first | done | fail)); pick_goal 2; (focus (simp +zetaDelta only [watched]; first | done | fail)))
    | (dsimp +zetaDelta only)
    | split)

theorem does_startCmd {F : Parts} {s0 s : State} (id : Nat) (h : Does F s0 s)
    (hF : Parts.le { outs := true, hst := true, obs := true } F = true) : Does F s0 (startCmd id s) := by
  refine Does.weaken hF h ?_
  unfold startCmd
  repeat' (first
    | exact Eq.refl true
    | with_reducible exact Does.refl _ _
    | with_reducible assumption
    | ((fail_if_no_progress (extract_lets z)); refine Does.cut (z := z) ?_ (fun q => ?_); rotate_left; clear_value z)
    | ((fail_if_no_progress (extract_lets z)); refine Does.cutSnd (z := z) ?_ (fun q => ?_); rotate_left; clear_value z)
    | fail_if_no_progress (extract_lets z)
    | with_reducible apply does_complete
    | with_reducible refine Does.snd (by assumption) ?_
    | with_reducible refine Does.ite ?_ ?_
    | fail_if_no_progress (with_reducible refine Does.leaf ?_ ?_ ?_; pick_goal 2; (focus (simp +zetaDelta only [State.blank, cond_true, cond_false]; first | done | fail)); pick_goal 2; (focus (simp +zetaDelta only [watched]; first | done | fail)))
    | (dsimp +zetaDelta only)
    | split)

theorem does_readHost {F : Parts} {s0 s : State} (x1 : Nat) (n : Nat) (h : Does F s0 s)
    (hF : Parts.le { outs := true } F = true) : Does F s0 (readHost x1 n s) := by
  refine Does.weaken hF h ?_
  unfold readHost
  repeat' (first
    | exact Eq.refl true
    | with_reducible exact Does.refl _ _
    | with_reducible assumption
    | with_reducible apply does_emitAll)

theorem does_writeHost {F : Parts} {s0 s : State} (x1 : Nat) (bs : List Byte) (h : Does F s0 s)
    (hF : Parts.le { outs := true } F = true) : Does F s0 (writeHost x1 bs s) := by
  refine Does.weaken hF h ?_
  unfold writeHost
  repeat' (first
    | exact Eq.refl true
    | with_reducible exact Does.refl _ _
    | with_reducible assumption
    | with_reducible apply does_emit
    | with_reducible refine Does.ite ?_ ?_
    | split)

theorem does_issueFetch {F : Parts} {s0 s : State}  (h : Does F s0 s)
    (hF : Parts.le { outs := true, hst := true } F = true) : Does F s0 (issueFetch s) := by
  refine Does.weaken hF h ?_
  unfold issueFetch
  repeat' (first
    | exact Eq.refl true
    | with_reducible exact Does.refl _ _
    | with_reducible assumption
    | ((fail_if_no_progress (extract_lets z)); refine Does.cut (z := z) ?_ (fun q => ?_); rotate_left; clear_value z)
    | ((fail_if_no_progress (extract_lets z)); refine Does.cutSnd (z := z) ?_ (fun q => ?_); rotate_left; clear_value z)
    | fail_if_no_progress (extract_lets z)
    | with_reducible apply does_emit
    | with_reducible refine Does.ite ?_ ?_
    | fail_if_no_progress (with_reducible refine Does.leaf ?_ ?_ ?_; pick_goal 2; (focus (simp +zetaDelta only [State.blank, cond_true, cond_false]; first | done | fail)); pick_goal 2; (focus (simp +zetaDelta only [watched]; first | done | fail)))
    | (dsimp +zetaDelta only)
    | split)

theorem does_acceptEntry {F : Parts} {s0 s : State} (e : List Byte) (h : Does F s0 s)
    (hF : Parts.le { outs := true, hst := true, obs := true } F = true) : Does F s0 (acceptEntry e s) := by
  refine Does.weaken hF h ?_
  unfold acceptEntry
  repeat' (first
    | exact Eq.refl true
    | with_reducible exact Does.refl _ _
    | with_reducible assumption
    | ((fail_if_no_progress (extract_lets z)); refine Does.cut (z := z) ?_ (fun q => ?_); rotate_left; clear_value z)
    | ((fail_if_no_progress (extract_lets z)); refine Does.cutSnd (z := z) ?_ (fun q => ?_); rotate_left; clear_value z)
    | fail_if_no_progress (extract_lets z)
    | with_reducible apply does_cntHst
    | with_reducible apply does_startCmd
    | with_reducible refine Does.ite ?_ ?_
    | fail_if_no_progress (with_reducible refine Does.leaf ?_ ?_ ?_; pick_goal 2; (focus (simp +zetaDelta only [State.blank, cond_true, cond_false]; first | done | fail)); pick_goal 2; (focus (simp +zetaDelta only [watched]; first | done | fail)))
    | (dsimp +zetaDelta only)
    | split)

theorem does_startDesc {F : Parts} {s0 s : State} (c : Nat) (addr : Nat) (h : Does F s0 s)
    (hF : Parts.le { outs := true, chains := true } F = true) : Does F s0 (startDesc c addr s) := by
  refine Does.weaken hF h ?_
  unfold startDesc
  repeat' (first
    | exact Eq.refl true
    | with_reducible exact Does.refl _ _
    | with_reducible assumption
    | ((fail_if_no_progress (extract_lets z)); refine Does.cut (z := z) ?_ (fun q => ?_); rotate_left; clear_value z)
    | ((fail_if_no_progress (extract_lets z)); refine Does.cutSnd (z := z) ?_ (fun q => ?_); rotate_left; clear_value z)
    | fail_if_no_progress (extract_lets z)
    | with_reducible apply does_emit
    | with_reducible apply does_chainSet
    | fail_if_no_progress (with_reducible refine Does.leaf ?_ ?_ ?_; pick_goal 2; (focus (simp +zetaDelta only [State.blank, cond_true, cond_false]; first | done | fail)); pick_goal 2; (focus (simp +zetaDelta only [watched]; first | done | fail)))
    | (dsimp +zetaDelta only))

theorem does_endStatus {F : Parts} {s0 s : State} (c : Nat) (status : Nat) (h : Does F s0 s)
    (hF : Parts.le { outs := true, chains := true, obs := true } F = true) : Does F s0 (endStatus c status s) := by
  refine Does.weaken hF h ?_
  unfold endStatus
  repeat' (first
    | exact Eq.refl true
    | with_reducible exact Does.refl _ _
    | with_reducible assumption
    | ((fail_if_no_progress (extract_lets z)); refine Does.cut (z := z) ?_ (fun q => ?_); rotate_left; clear_value z)
    | ((fail_if_no_progress (extract_lets z)); refine Does.cutSnd (z := z) ?_ (fun q => ?_); rotate_left; clear_value z)
    | fail_if_no_progress (extract_lets z)
    | with_reducible apply does_cntHst
    | with_reducible apply does_emit
    | with_reducible apply does_chainSet
    | fail_if_no_progress (with_reducible refine Does.leaf ?_ ?_ ?_; pick_goal 2; (focus (simp +zetaDelta only [State.blank, cond_true, cond_false]; first | done | fail)); pick_goal 2; (focus (simp +zetaDelta only [watched]; first | done | fail)))
    | (dsimp +zetaDelta only))

theorem does_ownerStopped {F : Parts} {s0 s : State} (c : Nat) (status : Nat) (h : Does F s0 s)
    (hF : Parts.le { outs := true, hst := true, chains := true, obs := true } F = true) : Does F s0 (ownerStopped c status s) := by
  refine Does.weaken hF h ?_
  unfold ownerStopped
  repeat' (first
    | exact Eq.refl true
    | with_reducible exact Does.refl _ _
    | with_reducible assumption
    | ((fail_if_no_progress (extract_lets z)); refine Does.cut (z := z) ?_ (fun q => ?_); rotate_left; clear_value z)
    | ((fail_if_no_progress (extract_lets z)); refine Does.cutSnd (z := z) ?_ (fun q => ?_); rotate_left; clear_value z)
    | fail_if_no_progress (extract_lets z)
    | with_reducible apply does_complete
    | with_reducible apply does_chainSet
    | with_reducible refine Does.snd (by assumption) ?_
    | fail_if_no_progress (with_reducible refine Does.leaf ?_ ?_ ?_; pick_goal 2; (focus (simp +zetaDelta only [State.blank, cond_true, cond_false]; first | done | fail)); pick_goal 2; (focus (simp +zetaDelta only [watched]; first | done | fail)))
    | (dsimp +zetaDelta only)
    | split)

theorem does_stopChain {F : Parts} {s0 s : State} (c : Nat) (status : Nat) (h : Does F s0 s)
    (hF : Parts.le { outs := true, glb := true, hst := true, chains := true, slo := true, obs := true } F = true) : Does F s0 (stopChain c status s) := by
  refine Does.weaken hF h ?_
  unfold stopChain
  repeat' (first
    | exact Eq.refl true
    | with_reducible exact Does.refl _ _
    | with_reducible assumption
    | ((fail_if_no_progress (extract_lets z)); refine Does.cut (z := z) ?_ (fun q => ?_); rotate_left; clear_value z)
    | ((fail_if_no_progress (extract_lets z)); refine Does.cutSnd (z := z) ?_ (fun q => ?_); rotate_left; clear_value z)
    | fail_if_no_progress (extract_lets z)
    | with_reducible apply does_endStatus
    | with_reducible apply does_raiseItems
    | with_reducible apply does_signal
    | with_reducible apply does_chainSet
    | with_reducible apply does_ownerStopped
    | fail_if_no_progress (with_reducible refine Does.leaf ?_ ?_ ?_; pick_goal 2; (focus (simp +zetaDelta only [State.blank, cond_true, cond_false]; first | done | fail)); pick_goal 2; (focus (simp +zetaDelta only [watched]; first | done | fail)))
    | (dsimp +zetaDelta only))

theorem does_withdrawChain {F : Parts} {s0 s : State} (c : Nat) (h : Does F s0 s)
    (hF : Parts.le { outs := true, hst := true, chains := true, obs := true } F = true) : Does F s0 (withdrawChain c s) := by
  refine Does.weaken hF h ?_
  unfold withdrawChain
  repeat' (first
    | exact Eq.refl true
    | with_reducible exact Does.refl _ _
    | with_reducible assumption
    | ((fail_if_no_progress (extract_lets z)); refine Does.cut (z := z) ?_ (fun q => ?_); rotate_left; clear_value z)
    | ((fail_if_no_progress (extract_lets z)); refine Does.cutSnd (z := z) ?_ (fun q => ?_); rotate_left; clear_value z)
    | fail_if_no_progress (extract_lets z)
    | with_reducible apply does_endStatus
    | with_reducible apply does_ownerStopped
    | with_reducible apply does_chainSet
    | with_reducible refine Does.ite ?_ ?_
    | fail_if_no_progress (with_reducible refine Does.leaf ?_ ?_ ?_; pick_goal 2; (focus (simp +zetaDelta only [State.blank, cond_true, cond_false]; first | done | fail)); pick_goal 2; (focus (simp +zetaDelta only [watched]; first | done | fail)))
    | (dsimp +zetaDelta only)
    | split)

theorem does_scanPut {F : Parts} {s0 s : State} (k : Nat) (x : Scan) (h : Does F s0 s)
    (hF : Parts.le { chk := true } F = true) : Does F s0 (scanPut k x s) := by
  refine Does.weaken hF h ?_
  unfold scanPut
  repeat' (first
    | exact Eq.refl true
    | with_reducible exact Does.refl _ _
    | with_reducible assumption
    | ((fail_if_no_progress (extract_lets z)); refine Does.cut (z := z) ?_ (fun q => ?_); rotate_left; clear_value z)
    | fail_if_no_progress (extract_lets z)
    | fail_if_no_progress (with_reducible refine Does.leaf ?_ ?_ ?_; pick_goal 2; (focus (simp +zetaDelta only [State.blank, cond_true, cond_false]; first | done | fail)); pick_goal 2; (focus (simp +zetaDelta only [watched]; first | done | fail)))
    | (dsimp +zetaDelta only))

theorem does_loadDrop {F : Parts} {s0 s : State} (id : Nat) (h : Does F s0 s)
    (hF : Parts.le { chk := true } F = true) : Does F s0 (loadDrop id s) := by
  refine Does.weaken hF h ?_
  unfold loadDrop
  repeat' (first
    | exact Eq.refl true
    | with_reducible exact Does.refl _ _
    | with_reducible assumption
    | ((fail_if_no_progress (extract_lets z)); refine Does.cut (z := z) ?_ (fun q => ?_); rotate_left; clear_value z)
    | fail_if_no_progress (extract_lets z)
    | fail_if_no_progress (with_reducible refine Does.leaf ?_ ?_ ?_; pick_goal 2; (focus (simp +zetaDelta only [State.blank, cond_true, cond_false]; first | done | fail)); pick_goal 2; (focus (simp +zetaDelta only [watched]; first | done | fail)))
    | (dsimp +zetaDelta only))

theorem does_scanResult {F : Parts} {s0 s : State} (x : Scan) (h : Does F s0 s)
    (hF : Parts.le { outs := true, hst := true, chk := true, obs := true } F = true) : Does F s0 (scanResult x s) := by
  refine Does.weaken hF h ?_
  unfold scanResult
  repeat' (first
    | exact Eq.refl true
    | with_reducible exact Does.refl _ _
    | with_reducible assumption
    | ((fail_if_no_progress (extract_lets z)); refine Does.cut (z := z) ?_ (fun q => ?_); rotate_left; clear_value z)
    | ((fail_if_no_progress (extract_lets z)); refine Does.cutSnd (z := z) ?_ (fun q => ?_); rotate_left; clear_value z)
    | fail_if_no_progress (extract_lets z)
    | with_reducible apply does_complete
    | with_reducible apply does_loadDrop
    | with_reducible refine Does.snd (by assumption) ?_
    | with_reducible refine Does.ite ?_ ?_
    | fail_if_no_progress (with_reducible refine Does.leaf ?_ ?_ ?_; pick_goal 2; (focus (simp +zetaDelta only [State.blank, cond_true, cond_false]; first | done | fail)); pick_goal 2; (focus (simp +zetaDelta only [watched]; first | done | fail)))
    | (dsimp +zetaDelta only)
    | split)

theorem does_scanRead {F : Parts} {s0 s : State} (k : Nat) (x : Scan) (h : Does F s0 s)
    (hF : Parts.le { lft := true } F = true) : Does F s0 (scanRead k x s) := by
  refine Does.weaken hF h ?_
  unfold scanRead
  repeat' (first
    | exact Eq.refl true
    | with_reducible exact Does.refl _ _
    | with_reducible assumption
    | with_reducible apply does_queueRead
    | with_reducible refine Does.ite ?_ ?_
    | split)

theorem does_scanTake {F : Parts} {s0 s : State} (k : Nat) (x : Scan) (h : Does F s0 s)
    (hF : Parts.le { chk := true, lft := true } F = true) : Does F s0 (scanTake k x s) := by
  refine Does.weaken hF h ?_
  unfold scanTake
  repeat' (first
    | exact Eq.refl true
    | with_reducible exact Does.refl _ _
    | with_reducible assumption
    | with_reducible apply does_scanRead
    | with_reducible apply does_scanPut)

theorem does_scanFree {F : Parts} {s0 s : State} (k : Nat) (h : Does F s0 s)
    (hF : Parts.le { chk := true, lft := true } F = true) : Does F s0 (scanFree k s) := by
  refine Does.weaken hF h ?_
  unfold scanFree
  repeat' (first
    | exact Eq.refl true
    | with_reducible exact Does.refl _ _
    | with_reducible assumption
    | ((fail_if_no_progress (extract_lets z)); refine Does.cut (z := z) ?_ (fun q => ?_); rotate_left; clear_value z)
    | ((fail_if_no_progress (extract_lets z)); refine Does.cutSnd (z := z) ?_ (fun q => ?_); rotate_left; clear_value z)
    | fail_if_no_progress (extract_lets z)
    | with_reducible apply does_scanTake
    | with_reducible refine Does.snd (by assumption) ?_
    | fail_if_no_progress (with_reducible refine Does.leaf ?_ ?_ ?_; pick_goal 2; (focus (simp +zetaDelta only [State.blank, cond_true, cond_false]; first | done | fail)); pick_goal 2; (focus (simp +zetaDelta only [watched]; first | done | fail)))
    | (dsimp +zetaDelta only)
    | split)

theorem does_scanStart {F : Parts} {s0 s : State} (x : Scan) (h : Does F s0 s)
    (hF : Parts.le { chk := true, lft := true } F = true) : Does F s0 (scanStart x s) := by
  refine Does.weaken hF h ?_
  unfold scanStart
  repeat' (first
    | exact Eq.refl true
    | with_reducible exact Does.refl _ _
    | with_reducible assumption
    | ((fail_if_no_progress (extract_lets z)); refine Does.cut (z := z) ?_ (fun q => ?_); rotate_left; clear_value z)
    | fail_if_no_progress (extract_lets z)
    | with_reducible apply does_scanTake
    | with_reducible refine Does.snd (by assumption) ?_
    | fail_if_no_progress (with_reducible refine Does.leaf ?_ ?_ ?_; pick_goal 2; (focus (simp +zetaDelta only [State.blank, cond_true, cond_false]; first | done | fail)); pick_goal 2; (focus (simp +zetaDelta only [watched]; first | done | fail)))
    | (dsimp +zetaDelta only)
    | split)

theorem does_scanFeed {F : Parts} {s0 s : State} (k : Nat) (cls : Nat) (bs : List Byte) (h : Does F s0 s)
    (hF : Parts.le { outs := true, hst := true, chk := true, lft := true, obs := true } F = true) : Does F s0 (scanFeed k cls bs s) := by
  refine Does.weaken hF h ?_
  unfold scanFeed
  repeat' (first
    | exact Eq.refl true
    | with_reducible exact Does.refl _ _
    | with_reducible assumption
    | ((fail_if_no_progress (extract_lets z)); refine Does.cut (z := z) ?_ (fun q => ?_); rotate_left; clear_value z)
    | ((fail_if_no_progress (extract_lets z)); refine Does.cutSnd (z := z) ?_ (fun q => ?_); rotate_left; clear_value z)
    | fail_if_no_progress (extract_lets z)
    | with_reducible apply does_scanResult
    | with_reducible apply does_scanFree
    | with_reducible apply does_cntChk
    | with_reducible apply does_scanRead
    | with_reducible apply does_scanPut
    | with_reducible refine Does.snd (by assumption) ?_
    | with_reducible refine Does.ite ?_ ?_
    | fail_if_no_progress (with_reducible refine Does.leaf ?_ ?_ ?_; pick_goal 2; (focus (simp +zetaDelta only [State.blank, cond_true, cond_false]; first | done | fail)); pick_goal 2; (focus (simp +zetaDelta only [watched]; first | done | fail)))
    | (dsimp +zetaDelta only)
    | split)

theorem does_loadRead {F : Parts} {s0 s : State} (x : Load) (h : Does F s0 s)
    (hF : Parts.le { lft := true } F = true) : Does F s0 (loadRead x s) := by
  refine Does.weaken hF h ?_
  unfold loadRead
  repeat' (first
    | exact Eq.refl true
    | with_reducible exact Does.refl _ _
    | with_reducible assumption
    | with_reducible apply does_queueRead)

theorem does_startLoad {F : Parts} {s0 s : State} (id : Nat) (c : Nat) (cmd : Cmd) (h : Does F s0 s)
    (hF : Parts.le { chains := true, chk := true, lft := true } F = true) : Does F s0 (startLoad id c cmd s) := by
  refine Does.weaken hF h ?_
  unfold startLoad
  repeat' (first
    | exact Eq.refl true
    | with_reducible exact Does.refl _ _
    | with_reducible assumption
    | ((fail_if_no_progress (extract_lets z)); refine Does.cut (z := z) ?_ (fun q => ?_); rotate_left; clear_value z)
    | ((fail_if_no_progress (extract_lets z)); refine Does.cutSnd (z := z) ?_ (fun q => ?_); rotate_left; clear_value z)
    | fail_if_no_progress (extract_lets z)
    | with_reducible apply does_chainSet
    | with_reducible apply does_loadRead
    | fail_if_no_progress (with_reducible refine Does.leaf ?_ ?_ ?_; pick_goal 2; (focus (simp +zetaDelta only [State.blank, cond_true, cond_false]; first | done | fail)); pick_goal 2; (focus (simp +zetaDelta only [watched]; first | done | fail)))
    | (dsimp +zetaDelta only))

theorem does_loadCheck {F : Parts} {s0 s : State} (x : Load) (h : Does F s0 s)
    (hF : Parts.le { outs := true, hst := true, chk := true, lft := true, obs := true } F = true) : Does F s0 (loadCheck x s) := by
  refine Does.weaken hF h ?_
  unfold loadCheck
  repeat' (first
    | exact Eq.refl true
    | with_reducible exact Does.refl _ _
    | with_reducible assumption
    | ((fail_if_no_progress (extract_lets z)); refine Does.cut (z := z) ?_ (fun q => ?_); rotate_left; clear_value z)
    | ((fail_if_no_progress (extract_lets z)); refine Does.cutSnd (z := z) ?_ (fun q => ?_); rotate_left; clear_value z)
    | fail_if_no_progress (extract_lets z)
    | with_reducible apply does_complete
    | with_reducible apply does_loadDrop
    | with_reducible apply does_scanResult
    | with_reducible apply does_scanStart
    | with_reducible refine Does.ite ?_ ?_
    | (dsimp +zetaDelta only)
    | split)

theorem does_loadFeed {F : Parts} {s0 s : State} (id : Nat) (cls : Nat) (bs : List Byte) (h : Does F s0 s)
    (hF : Parts.le { outs := true, hst := true, chk := true, lft := true, obs := true } F = true) : Does F s0 (loadFeed id cls bs s) := by
  refine Does.weaken hF h ?_
  unfold loadFeed
  repeat' (first
    | exact Eq.refl true
    | with_reducible exact Does.refl _ _
    | with_reducible assumption
    | ((fail_if_no_progress (extract_lets z)); refine Does.cut (z := z) ?_ (fun q => ?_); rotate_left; clear_value z)
    | ((fail_if_no_progress (extract_lets z)); refine Does.cutSnd (z := z) ?_ (fun q => ?_); rotate_left; clear_value z)
    | fail_if_no_progress (extract_lets z)
    | with_reducible apply does_loadCheck
    | with_reducible apply does_loadRead
    | with_reducible refine Does.snd (by assumption) ?_
    | with_reducible refine Does.ite ?_ ?_
    | fail_if_no_progress (with_reducible refine Does.leaf ?_ ?_ ?_; pick_goal 2; (focus (simp +zetaDelta only [State.blank, cond_true, cond_false]; first | done | fail)); pick_goal 2; (focus (simp +zetaDelta only [watched]; first | done | fail)))
    | (dsimp +zetaDelta only)
    | split)

theorem does_feedCrc {F : Parts} {s0 s : State} (c : Nat) (d : Desc) (bs : List Byte) (h : Does F s0 s)
    (hF : Parts.le { chains := true } F = true) : Does F s0 (feedCrc c d bs s) := by
  refine Does.weaken hF h ?_
  unfold feedCrc
  repeat' (first
    | exact Eq.refl true
    | with_reducible exact Does.refl _ _
    | with_reducible assumption
    | ((fail_if_no_progress (extract_lets z)); refine Does.cut (z := z) ?_ (fun q => ?_); rotate_left; clear_value z)
    | ((fail_if_no_progress (extract_lets z)); refine Does.cutSnd (z := z) ?_ (fun q => ?_); rotate_left; clear_value z)
    | fail_if_no_progress (extract_lets z)
    | with_reducible apply does_chainSet
    | with_reducible refine Does.ite ?_ ?_
    | fail_if_no_progress (with_reducible refine Does.leaf ?_ ?_ ?_; pick_goal 2; (focus (simp +zetaDelta only [State.blank, cond_true, cond_false]; first | done | fail)); pick_goal 2; (focus (simp +zetaDelta only [watched]; first | done | fail)))
    | (dsimp +zetaDelta only)
    | split)

theorem does_hostLoftWrite {F : Parts} {s0 s : State} (c : Nat) (poison : Bool) (x1 : Nat) (bs : List Byte) (h : Does F s0 s)
    (hF : Parts.le { outs := true, glb := true, hst := true, pac := true, lft := true, slo := true, obs := true } F = true) : Does F s0 (hostLoftWrite c poison x1 bs s) := by
  refine Does.weaken hF h ?_
  unfold hostLoftWrite
  repeat' (first
    | exact Eq.refl true
    | with_reducible exact Does.refl _ _
    | with_reducible assumption
    | ((fail_if_no_progress (extract_lets z)); refine Does.cut (z := z) ?_ (fun q => ?_); rotate_left; clear_value z)
    | ((fail_if_no_progress (extract_lets z)); refine Does.cutSnd (z := z) ?_ (fun q => ?_); rotate_left; clear_value z)
    | fail_if_no_progress (extract_lets z)
    | with_reducible apply does_loftWrite
    | with_reducible refine Does.snd (by assumption) ?_
    | with_reducible refine Does.ite ?_ ?_
    | fail_if_no_progress (with_reducible refine Does.leaf ?_ ?_ ?_; pick_goal 2; (focus (simp +zetaDelta only [State.blank, cond_true, cond_false]; first | done | fail)); pick_goal 2; (focus (simp +zetaDelta only [watched]; first | done | fail)))
    | (dsimp +zetaDelta only)
    | split)

theorem does_queueBurst {F : Parts} {s0 s : State} (c : Nat) (x1 : Nat) (n : Nat) (h : Does F s0 s)
    (hF : Parts.le { lft := true } F = true) : Does F s0 (queueBurst c x1 n s) := by
  refine Does.weaken hF h ?_
  unfold queueBurst
  repeat' (first
    | exact Eq.refl true
    | with_reducible exact Does.refl _ _
    | with_reducible assumption
    | with_reducible apply does_queueRead
    | (with_reducible refine Does.foldl ?_ (fun _ _ _ => ?_))
    | (with_reducible refine Does.foldlSnd ?_ (fun _ _ _ => ?_)))

theorem does_copyParts {F : Parts} {s0 x5 : State} (c : Nat) (x : Chain) (x1 : Nat) (x2 : Nat) (x3 : Nat) (x4 : Nat) (h : Does F s0 x5)
    (hF : Parts.le { outs := true, glb := true, hst := true, pac := true, lft := true, slo := true, obs := true } F = true) : Does F s0 (copyParts c x x1 x2 x3 x4 x5) := by
  refine Does.weaken hF h ?_
  clear hF h
  induction x1 generalizing x2 x3 x4 x5 with
  | zero => unfold copyParts; exact Does.refl _ _
  | succ n ih =>
    unfold copyParts
    split
    · exact Does.refl _ _
    · exact Does.trans (does_hostLoftWrite _ _ _ _ (Does.refl _ _) rfl) (ih _ _ _)


theorem does_storeCrc {F : Parts} {s0 s : State} (c : Nat) (d : Desc) (h : Does F s0 s)
    (hF : Parts.le { outs := true, glb := true, hst := true, chains := true, pac := true, lft := true, slo := true, obs := true } F = true) : Does F s0 (storeCrc c d s) := by
  refine Does.weaken hF h ?_
  unfold storeCrc
  repeat' (first
    | exact Eq.refl true
    | with_reducible exact Does.refl _ _
    | with_reducible assumption
    | ((fail_if_no_progress (extract_lets z)); refine Does.cut (z := z) ?_ (fun q => ?_); rotate_left; clear_value z)
    | ((fail_if_no_progress (extract_lets z)); refine Does.cutSnd (z := z) ?_ (fun q => ?_); rotate_left; clear_value z)
    | fail_if_no_progress (extract_lets z)
    | with_reducible apply does_chainSet
    | with_reducible apply does_hostLoftWrite
    | with_reducible apply does_writeHost
    | with_reducible refine Does.ite ?_ ?_
    | fail_if_no_progress (with_reducible refine Does.leaf ?_ ?_ ?_; pick_goal 2; (focus (simp +zetaDelta only [State.blank, cond_true, cond_false]; first | done | fail)); pick_goal 2; (focus (simp +zetaDelta only [watched]; first | done | fail)))
    | (dsimp +zetaDelta only)
    | split)

theorem does_burstDone {F : Parts} {s0 s : State} (c : Nat) (n : Nat) (d : Desc) (h : Does F s0 s)
    (hF : Parts.le { outs := true, glb := true, hst := true, chains := true, pac := true, lft := true, slo := true, obs := true } F = true) : Does F s0 (burstDone c n d s) := by
  refine Does.weaken hF h ?_
  unfold burstDone
  repeat' (first
    | exact Eq.refl true
    | with_reducible exact Does.refl _ _
    | with_reducible assumption
    | ((fail_if_no_progress (extract_lets z)); refine Does.cut (z := z) ?_ (fun q => ?_); rotate_left; clear_value z)
    | ((fail_if_no_progress (extract_lets z)); refine Does.cutSnd (z := z) ?_ (fun q => ?_); rotate_left; clear_value z)
    | fail_if_no_progress (extract_lets z)
    | with_reducible apply does_cntHst
    | with_reducible apply does_chainSet
    | with_reducible apply does_withdrawChain
    | with_reducible apply does_storeCrc
    | with_reducible refine Does.ite ?_ ?_
    | fail_if_no_progress (with_reducible refine Does.leaf ?_ ?_ ?_; pick_goal 2; (focus (simp +zetaDelta only [State.blank, cond_true, cond_false]; first | done | fail)); pick_goal 2; (focus (simp +zetaDelta only [watched]; first | done | fail)))
    | (dsimp +zetaDelta only)
    | split)

theorem does_burstLanded {F : Parts} {s0 s : State} (c : Nat) (n : Nat) (d : Desc) (h : Does F s0 s)
    (hF : Parts.le { outs := true, glb := true, hst := true, chains := true, pac := true, lft := true, slo := true, obs := true } F = true) : Does F s0 (burstLanded c n d s) := by
  refine Does.weaken hF h ?_
  unfold burstLanded
  repeat' (first
    | exact Eq.refl true
    | with_reducible exact Does.refl _ _
    | with_reducible assumption
    | ((fail_if_no_progress (extract_lets z)); refine Does.cut (z := z) ?_ (fun q => ?_); rotate_left; clear_value z)
    | fail_if_no_progress (extract_lets z)
    | with_reducible apply does_chainSet
    | with_reducible apply does_burstDone
    | with_reducible refine Does.ite ?_ ?_
    | fail_if_no_progress (with_reducible refine Does.leaf ?_ ?_ ?_; pick_goal 2; (focus (simp +zetaDelta only [State.blank, cond_true, cond_false]; first | done | fail)); pick_goal 2; (focus (simp +zetaDelta only [watched]; first | done | fail)))
    | (dsimp +zetaDelta only)
    | split)

theorem does_landBursts {F : Parts} {s0 s : State}  (h : Does F s0 s)
    (hF : Parts.le { outs := true, glb := true, hst := true, chains := true, pac := true, lft := true, slo := true, obs := true } F = true) : Does F s0 (landBursts s) := by
  refine Does.weaken hF h ?_
  unfold landBursts
  repeat' (first
    | exact Eq.refl true
    | with_reducible exact Does.refl _ _
    | with_reducible assumption
    | ((fail_if_no_progress (extract_lets z)); refine Does.cut (z := z) ?_ (fun q => ?_); rotate_left; clear_value z)
    | ((fail_if_no_progress (extract_lets z)); refine Does.cutSnd (z := z) ?_ (fun q => ?_); rotate_left; clear_value z)
    | fail_if_no_progress (extract_lets z)
    | with_reducible apply does_burstDone
    | with_reducible refine Does.snd (by assumption) ?_
    | (with_reducible refine Does.foldl ?_ (fun _ _ _ => ?_))
    | (with_reducible refine Does.foldlSnd ?_ (fun _ _ _ => ?_))
    | with_reducible refine Does.ite ?_ ?_
    | fail_if_no_progress (with_reducible refine Does.leaf ?_ ?_ ?_; pick_goal 2; (focus (simp +zetaDelta only [State.blank, cond_true, cond_false]; first | done | fail)); pick_goal 2; (focus (simp +zetaDelta only [watched]; first | done | fail)))
    | (dsimp +zetaDelta only)
    | split)

theorem does_endDescriptor {F : Parts} {s0 s : State} (c : Nat) (d : Desc) (h : Does F s0 s)
    (hF : Parts.le { outs := true, glb := true, hst := true, chains := true, chk := true, lft := true, slo := true, obs := true } F = true) : Does F s0 (endDescriptor c d s) := by
  refine Does.weaken hF h ?_
  unfold endDescriptor
  repeat' (first
    | exact Eq.refl true
    | with_reducible exact Does.refl _ _
    | with_reducible assumption
    | ((fail_if_no_progress (extract_lets z)); refine Does.cut (z := z) ?_ (fun q => ?_); rotate_left; clear_value z)
    | ((fail_if_no_progress (extract_lets z)); refine Does.cutSnd (z := z) ?_ (fun q => ?_); rotate_left; clear_value z)
    | fail_if_no_progress (extract_lets z)
    | with_reducible apply does_stopChain
    | with_reducible apply does_chainSet
    | with_reducible apply does_endStatus
    | with_reducible apply does_signal
    | with_reducible apply does_startDesc
    | with_reducible apply does_startLoad
    | with_reducible refine Does.snd (by assumption) ?_
    | with_reducible refine Does.ite ?_ ?_
    | fail_if_no_progress (with_reducible refine Does.leaf ?_ ?_ ?_; pick_goal 2; (focus (simp +zetaDelta only [State.blank, cond_true, cond_false]; first | done | fail)); pick_goal 2; (focus (simp +zetaDelta only [watched]; first | done | fail)))
    | (dsimp +zetaDelta only)
    | split)

theorem does_kickChain {F : Parts} {s0 s : State} (first : Bool) (c : Nat) (v : Nat) (h : Does F s0 s)
    (hF : Parts.le { outs := true, chains := true } F = true) : Does F s0 (kickChain first c v s) := by
  refine Does.weaken hF h ?_
  unfold kickChain
  repeat' (first
    | exact Eq.refl true
    | with_reducible exact Does.refl _ _
    | with_reducible assumption
    | ((fail_if_no_progress (extract_lets z)); refine Does.cut (z := z) ?_ (fun q => ?_); rotate_left; clear_value z)
    | ((fail_if_no_progress (extract_lets z)); refine Does.cutSnd (z := z) ?_ (fun q => ?_); rotate_left; clear_value z)
    | fail_if_no_progress (extract_lets z)
    | with_reducible apply does_chainSet
    | with_reducible apply does_startDesc
    | with_reducible apply does_emit
    | with_reducible refine Does.snd (by assumption) ?_
    | with_reducible refine Does.ite ?_ ?_
    | fail_if_no_progress (with_reducible refine Does.leaf ?_ ?_ ?_; pick_goal 2; (focus (simp +zetaDelta only [State.blank, cond_true, cond_false]; first | done | fail)); pick_goal 2; (focus (simp +zetaDelta only [watched]; first | done | fail)))
    | (dsimp +zetaDelta only)
    | split)

theorem does_applyPoll {F : Parts} {s0 s : State} (b : List Byte) (h : Does F s0 s)
    (hF : Parts.le { outs := true, glb := true, hst := true, chains := true, slo := true, obs := true } F = true) : Does F s0 (applyPoll b s) := by
  refine Does.weaken hF h ?_
  unfold applyPoll
  repeat' (first
    | exact Eq.refl true
    | with_reducible exact Does.refl _ _
    | with_reducible assumption
    | ((fail_if_no_progress (extract_lets z)); refine Does.cut (z := z) ?_ (fun q => ?_); rotate_left; clear_value z)
    | ((fail_if_no_progress (extract_lets z)); refine Does.cutSnd (z := z) ?_ (fun q => ?_); rotate_left; clear_value z)
    | fail_if_no_progress (extract_lets z)
    | with_reducible apply does_kickChain
    | with_reducible apply does_issueFetch
    | with_reducible apply does_overflowReport
    | with_reducible apply does_drainHold
    | (with_reducible refine Does.foldl ?_ (fun _ _ _ => ?_))
    | (with_reducible refine Does.foldlSnd ?_ (fun _ _ _ => ?_))
    | fail_if_no_progress (with_reducible refine Does.leaf ?_ ?_ ?_; pick_goal 2; (focus (simp +zetaDelta only [State.blank, cond_true, cond_false]; first | done | fail)); pick_goal 2; (focus (simp +zetaDelta only [watched]; first | done | fail)))
    | (dsimp +zetaDelta only))

end Sys2Proof.Machine
end

