-- ==== Sys2Proof/Laws/DoesHostRows.lean ====
section
/-! SUPPORT. What each operation of Machine/HostRows.lean touches at most, and that it keeps the bounds. -/

-- One theorem at a time: elaborating the package as one text in many threads at once takes more memory than the check allows.
set_option Elab.async false

set_option linter.unusedSimpArgs false
set_option linter.unusedTactic false
set_option linter.unreachableTactic false

namespace Sys2Proof.Machine

theorem does_execDoorbellPoll {F : Parts} {s0 s : State}  (h : Does F s0 s)
    (hF : Parts.le { outs := true, hst := true, obs := true } F = true) : DoesO F s0 (execDoorbellPoll s) := by
  refine DoesO.weaken hF h ?_
  unfold execDoorbellPoll
  repeat' (first
    | exact Eq.refl true
    | with_reducible exact Does.refl _ _
    | with_reducible assumption
    | ((fail_if_no_progress (extract_lets z)); refine Does.cut (z := z) ?_ (fun q => ?_); rotate_left; clear_value z)
    | ((fail_if_no_progress (extract_lets z)); refine DoesO.cut (z := z) ?_ (fun q => ?_); rotate_left; clear_value z)
    | fail_if_no_progress (extract_lets z)
    | with_reducible apply does_ok
    | with_reducible apply does_cntHst
    | with_reducible apply does_emit
    | with_reducible refine Does.ite ?_ ?_
    | with_reducible refine DoesO.ite ?_ ?_
    | fail_if_no_progress (with_reducible refine Does.leaf ?_ ?_ ?_; pick_goal 2; (focus (simp +zetaDelta only [State.blank, cond_true, cond_false]; first | done | fail)); pick_goal 2; (focus (simp +zetaDelta only [watched]; first | done | fail)))
    | (dsimp +zetaDelta only)
    | split)

theorem does_execDoorbellPollComplete {F : Parts} {s0 s : State} (data : Option (List Byte)) (h : Does F s0 s)
    (hF : Parts.le { outs := true, glb := true, hst := true, chains := true, slo := true, obs := true } F = true) : DoesO F s0 (execDoorbellPollComplete data s) := by
  refine DoesO.weaken hF h ?_
  unfold execDoorbellPollComplete
  repeat' (first
    | exact Eq.refl true
    | with_reducible exact Does.refl _ _
    | with_reducible assumption
    | with_reducible exact DoesO.fault _
    | ((fail_if_no_progress (extract_lets z)); refine Does.cut (z := z) ?_ (fun q => ?_); rotate_left; clear_value z)
    | ((fail_if_no_progress (extract_lets z)); refine DoesO.cut (z := z) ?_ (fun q => ?_); rotate_left; clear_value z)
    | fail_if_no_progress (extract_lets z)
    | with_reducible apply does_ok
    | with_reducible apply does_emit
    | with_reducible apply does_withLen
    | with_reducible apply does_applyPoll
    | with_reducible refine Does.snd (by assumption) ?_
    | with_reducible refine Does.ite ?_ ?_
    | with_reducible refine DoesO.ite ?_ ?_
    | fail_if_no_progress (with_reducible refine Does.leaf ?_ ?_ ?_; pick_goal 2; (focus (simp +zetaDelta only [State.blank, cond_true, cond_false]; first | done | fail)); pick_goal 2; (focus (simp +zetaDelta only [watched]; first | done | fail)))
    | (dsimp +zetaDelta only)
    | split)

theorem does_execCommandFetchComplete {F : Parts} {s0 s : State} (data : Option (List Byte)) (h : Does F s0 s)
    (hF : Parts.le { outs := true, hst := true, obs := true } F = true) : DoesO F s0 (execCommandFetchComplete data s) := by
  refine DoesO.weaken hF h ?_
  unfold execCommandFetchComplete
  repeat' (first
    | exact Eq.refl true
    | with_reducible exact Does.refl _ _
    | with_reducible assumption
    | with_reducible exact DoesO.fault _
    | ((fail_if_no_progress (extract_lets z)); refine Does.cut (z := z) ?_ (fun q => ?_); rotate_left; clear_value z)
    | ((fail_if_no_progress (extract_lets z)); refine Does.cutSnd (z := z) ?_ (fun q => ?_); rotate_left; clear_value z)
    | ((fail_if_no_progress (extract_lets z)); refine DoesO.cut (z := z) ?_ (fun q => ?_); rotate_left; clear_value z)
    | ((fail_if_no_progress (extract_lets z)); refine DoesO.cutSnd (z := z) ?_ (fun q => ?_); rotate_left; clear_value z)
    | fail_if_no_progress (extract_lets z)
    | with_reducible apply does_ok
    | with_reducible apply does_emit
    | with_reducible apply does_withLen
    | with_reducible apply does_issueFetch
    | with_reducible apply does_acceptEntry
    | with_reducible refine Does.snd (by assumption) ?_
    | (with_reducible refine Does.foldl ?_ (fun _ _ _ => ?_))
    | (with_reducible refine Does.foldlSnd ?_ (fun _ _ _ => ?_))
    | with_reducible refine Does.ite ?_ ?_
    | with_reducible refine DoesO.ite ?_ ?_
    | fail_if_no_progress (with_reducible refine Does.leaf ?_ ?_ ?_; pick_goal 2; (focus (simp +zetaDelta only [State.blank, cond_true, cond_false]; first | done | fail)); pick_goal 2; (focus (simp +zetaDelta only [watched]; first | done | fail)))
    | (dsimp +zetaDelta only)
    | split)

theorem does_execCommandStart {F : Parts} {s0 s : State} (id : Nat) (h : Does F s0 s)
    (hF : Parts.le { outs := true, hst := true, obs := true } F = true) : DoesO F s0 (execCommandStart id s) := by
  refine DoesO.weaken hF h ?_
  unfold execCommandStart
  repeat' (first
    | exact Eq.refl true
    | with_reducible exact Does.refl _ _
    | with_reducible assumption
    | ((fail_if_no_progress (extract_lets z)); refine Does.cut (z := z) ?_ (fun q => ?_); rotate_left; clear_value z)
    | ((fail_if_no_progress (extract_lets z)); refine DoesO.cut (z := z) ?_ (fun q => ?_); rotate_left; clear_value z)
    | fail_if_no_progress (extract_lets z)
    | with_reducible apply does_ok
    | with_reducible apply does_startCmd
    | with_reducible refine Does.snd (by assumption) ?_
    | with_reducible refine Does.ite ?_ ?_
    | with_reducible refine DoesO.ite ?_ ?_
    | fail_if_no_progress (with_reducible refine Does.leaf ?_ ?_ ?_; pick_goal 2; (focus (simp +zetaDelta only [State.blank, cond_true, cond_false]; first | done | fail)); pick_goal 2; (focus (simp +zetaDelta only [watched]; first | done | fail)))
    | (dsimp +zetaDelta only)
    | split)

theorem does_execHoldQueueDrain {F : Parts} {s0 s : State}  (h : Does F s0 s)
    (hF : Parts.le { outs := true, glb := true, hst := true, slo := true, obs := true } F = true) : DoesO F s0 (execHoldQueueDrain s) := by
  refine DoesO.weaken hF h ?_
  unfold execHoldQueueDrain
  repeat' (first
    | exact Eq.refl true
    | with_reducible exact Does.refl _ _
    | with_reducible assumption
    | with_reducible apply does_ok
    | with_reducible apply does_overflowReport
    | with_reducible apply does_drainHold
    | with_reducible refine Does.ite ?_ ?_
    | with_reducible refine DoesO.ite ?_ ?_
    | split)

theorem does_execMsixModerationTimer {F : Parts} {s0 s : State}  (h : Does F s0 s)
    (hF : Parts.le { outs := true, hst := true } F = true) : DoesO F s0 (execMsixModerationTimer s) := by
  refine DoesO.weaken hF h ?_
  unfold execMsixModerationTimer
  repeat' (first
    | exact Eq.refl true
    | with_reducible exact Does.refl _ _
    | with_reducible assumption
    | ((fail_if_no_progress (extract_lets z)); refine Does.cut (z := z) ?_ (fun q => ?_); rotate_left; clear_value z)
    | ((fail_if_no_progress (extract_lets z)); refine DoesO.cut (z := z) ?_ (fun q => ?_); rotate_left; clear_value z)
    | fail_if_no_progress (extract_lets z)
    | with_reducible apply does_ok
    | with_reducible apply does_signal
    | with_reducible refine Does.ite ?_ ?_
    | with_reducible refine DoesO.ite ?_ ?_
    | fail_if_no_progress (with_reducible refine Does.leaf ?_ ?_ ?_; pick_goal 2; (focus (simp +zetaDelta only [State.blank, cond_true, cond_false]; first | done | fail)); pick_goal 2; (focus (simp +zetaDelta only [watched]; first | done | fail)))
    | (dsimp +zetaDelta only)
    | split)

theorem does_execDescriptorReadComplete {F : Parts} {s0 s : State} (c : Fin 16) (data : Option (List Byte)) (h : Does F s0 s)
    (hF : Parts.le { outs := true, glb := true, hst := true, chains := true, slo := true, obs := true } F = true) : DoesO F s0 (execDescriptorReadComplete c data s) := by
  refine DoesO.weaken hF h ?_
  unfold execDescriptorReadComplete
  repeat' (first
    | exact Eq.refl true
    | with_reducible exact Does.refl _ _
    | with_reducible assumption
    | with_reducible exact DoesO.fault _
    | ((fail_if_no_progress (extract_lets z)); refine Does.cut (z := z) ?_ (fun q => ?_); rotate_left; clear_value z)
    | ((fail_if_no_progress (extract_lets z)); refine Does.cutSnd (z := z) ?_ (fun q => ?_); rotate_left; clear_value z)
    | ((fail_if_no_progress (extract_lets z)); refine DoesO.cut (z := z) ?_ (fun q => ?_); rotate_left; clear_value z)
    | ((fail_if_no_progress (extract_lets z)); refine DoesO.cutSnd (z := z) ?_ (fun q => ?_); rotate_left; clear_value z)
    | fail_if_no_progress (extract_lets z)
    | with_reducible apply does_ok
    | with_reducible apply does_stopChain
    | with_reducible apply does_withLen
    | with_reducible apply does_chainSet
    | with_reducible apply does_startDesc
    | with_reducible apply does_raiseItems
    | with_reducible refine Does.snd (by assumption) ?_
    | with_reducible refine Does.ite ?_ ?_
    | with_reducible refine DoesO.ite ?_ ?_
    | fail_if_no_progress (with_reducible refine Does.leaf ?_ ?_ ?_; pick_goal 2; (focus (simp +zetaDelta only [State.blank, cond_true, cond_false]; first | done | fail)); pick_goal 2; (focus (simp +zetaDelta only [watched]; first | done | fail)))
    | (dsimp +zetaDelta only)
    | split)

theorem does_deferBurst {F : Parts} {s0 s : State} (c : Nat) (h : Does F s0 s)
    (hF : Parts.le { chains := true, obs := true } F = true) : Does F s0 (deferBurst c s) := by
  refine Does.weaken hF h ?_
  unfold deferBurst
  repeat' (first
    | exact Eq.refl true
    | with_reducible exact Does.refl _ _
    | with_reducible assumption
    | ((fail_if_no_progress (extract_lets z)); refine Does.cut (z := z) ?_ (fun q => ?_); rotate_left; clear_value z)
    | ((fail_if_no_progress (extract_lets z)); refine Does.cutSnd (z := z) ?_ (fun q => ?_); rotate_left; clear_value z)
    | fail_if_no_progress (extract_lets z)
    | with_reducible apply does_cntHst
    | with_reducible apply does_chainSet
    | with_reducible refine Does.ite ?_ ?_
    | fail_if_no_progress (with_reducible refine Does.leaf ?_ ?_ ?_; pick_goal 2; (focus (simp +zetaDelta only [State.blank, cond_true, cond_false]; first | done | fail)); pick_goal 2; (focus (simp +zetaDelta only [watched]; first | done | fail)))
    | (dsimp +zetaDelta only)
    | split)

theorem does_execDmaBurstStart {F : Parts} {s0 s : State} (turn : BurstTurn) (h : Does F s0 s)
    (hF : Parts.le { outs := true, hst := true, chains := true, lft := true, obs := true } F = true) : DoesO F s0 (execDmaBurstStart turn s) := by
  refine DoesO.weaken hF h ?_
  unfold execDmaBurstStart
  repeat' (first
    | exact Eq.refl true
    | with_reducible exact Does.refl _ _
    | with_reducible assumption
    | ((fail_if_no_progress (extract_lets z)); refine Does.cut (z := z) ?_ (fun q => ?_); rotate_left; clear_value z)
    | ((fail_if_no_progress (extract_lets z)); refine Does.cutSnd (z := z) ?_ (fun q => ?_); rotate_left; clear_value z)
    | ((fail_if_no_progress (extract_lets z)); refine DoesO.cut (z := z) ?_ (fun q => ?_); rotate_left; clear_value z)
    | ((fail_if_no_progress (extract_lets z)); refine DoesO.cutSnd (z := z) ?_ (fun q => ?_); rotate_left; clear_value z)
    | fail_if_no_progress (extract_lets z)
    | with_reducible apply does_ok
    | with_reducible apply does_chainSet
    | with_reducible apply does_queueBurst
    | with_reducible apply does_deferBurst
    | with_reducible apply does_readHost
    | with_reducible refine Does.snd (by assumption) ?_
    | with_reducible refine Does.ite ?_ ?_
    | with_reducible refine DoesO.ite ?_ ?_
    | fail_if_no_progress (with_reducible refine Does.leaf ?_ ?_ ?_; pick_goal 2; (focus (simp +zetaDelta only [State.blank, cond_true, cond_false]; first | done | fail)); pick_goal 2; (focus (simp +zetaDelta only [watched]; first | done | fail)))
    | (dsimp +zetaDelta only)
    | split)

theorem does_execDmaBurstEnd {F : Parts} {s0 s : State} (c : Fin 16) (data : Option (List Byte)) (h : Does F s0 s)
    (hF : Parts.le { outs := true, glb := true, hst := true, chains := true, pac := true, lft := true, slo := true, obs := true } F = true) : DoesO F s0 (execDmaBurstEnd c data s) := by
  refine DoesO.weaken hF h ?_
  unfold execDmaBurstEnd
  repeat' (first
    | exact Eq.refl true
    | with_reducible exact Does.refl _ _
    | with_reducible assumption
    | with_reducible exact DoesO.fault _
    | ((fail_if_no_progress (extract_lets z)); refine Does.cut (z := z) ?_ (fun q => ?_); rotate_left; clear_value z)
    | ((fail_if_no_progress (extract_lets z)); refine Does.cutSnd (z := z) ?_ (fun q => ?_); rotate_left; clear_value z)
    | ((fail_if_no_progress (extract_lets z)); refine DoesO.cut (z := z) ?_ (fun q => ?_); rotate_left; clear_value z)
    | ((fail_if_no_progress (extract_lets z)); refine DoesO.cutSnd (z := z) ?_ (fun q => ?_); rotate_left; clear_value z)
    | fail_if_no_progress (extract_lets z)
    | with_reducible apply does_ok
    | with_reducible apply does_chainSet
    | with_reducible apply does_withLen
    | with_reducible apply does_burstLanded
    | with_reducible apply does_feedCrc
    | with_reducible apply does_hostLoftWrite
    | with_reducible apply does_burstDone
    | with_reducible apply does_writeHost
    | with_reducible apply does_copyParts
    | with_reducible refine Does.snd (by assumption) ?_
    | with_reducible refine Does.ite ?_ ?_
    | with_reducible refine DoesO.ite ?_ ?_
    | fail_if_no_progress (with_reducible refine Does.leaf ?_ ?_ ?_; pick_goal 2; (focus (simp +zetaDelta only [State.blank, cond_true, cond_false]; first | done | fail)); pick_goal 2; (focus (simp +zetaDelta only [watched]; first | done | fail)))
    | (dsimp +zetaDelta only)
    | split)

theorem does_execDescriptorEnd {F : Parts} {s0 s : State} (c : Fin 16) (h : Does F s0 s)
    (hF : Parts.le { outs := true, glb := true, hst := true, chains := true, chk := true, lft := true, slo := true, obs := true } F = true) : DoesO F s0 (execDescriptorEnd c s) := by
  refine DoesO.weaken hF h ?_
  unfold execDescriptorEnd
  repeat' (first
    | exact Eq.refl true
    | with_reducible exact Does.refl _ _
    | with_reducible assumption
    | ((fail_if_no_progress (extract_lets z)); refine Does.cut (z := z) ?_ (fun q => ?_); rotate_left; clear_value z)
    | ((fail_if_no_progress (extract_lets z)); refine Does.cutSnd (z := z) ?_ (fun q => ?_); rotate_left; clear_value z)
    | ((fail_if_no_progress (extract_lets z)); refine DoesO.cut (z := z) ?_ (fun q => ?_); rotate_left; clear_value z)
    | ((fail_if_no_progress (extract_lets z)); refine DoesO.cutSnd (z := z) ?_ (fun q => ?_); rotate_left; clear_value z)
    | fail_if_no_progress (extract_lets z)
    | with_reducible apply does_ok
    | with_reducible apply does_endDescriptor
    | with_reducible refine Does.snd (by assumption) ?_
    | with_reducible refine Does.ite ?_ ?_
    | with_reducible refine DoesO.ite ?_ ?_
    | fail_if_no_progress (with_reducible refine Does.leaf ?_ ?_ ?_; pick_goal 2; (focus (simp +zetaDelta only [State.blank, cond_true, cond_false]; first | done | fail)); pick_goal 2; (focus (simp +zetaDelta only [watched]; first | done | fail)))
    | (dsimp +zetaDelta only)
    | split)

theorem does_execNop {F : Parts} {s0 s : State} (id : Nat) (h : Does F s0 s)
    (hF : Parts.le { outs := true, hst := true, obs := true } F = true) : DoesO F s0 (execNop id s) := by
  refine DoesO.weaken hF h ?_
  unfold execNop
  repeat' (first
    | exact Eq.refl true
    | with_reducible exact Does.refl _ _
    | with_reducible assumption
    | ((fail_if_no_progress (extract_lets z)); refine Does.cut (z := z) ?_ (fun q => ?_); rotate_left; clear_value z)
    | ((fail_if_no_progress (extract_lets z)); refine DoesO.cut (z := z) ?_ (fun q => ?_); rotate_left; clear_value z)
    | fail_if_no_progress (extract_lets z)
    | with_reducible apply does_ok
    | with_reducible apply does_complete
    | with_reducible refine Does.snd (by assumption) ?_
    | with_reducible refine Does.ite ?_ ?_
    | with_reducible refine DoesO.ite ?_ ?_
    | fail_if_no_progress (with_reducible refine Does.leaf ?_ ?_ ?_; pick_goal 2; (focus (simp +zetaDelta only [State.blank, cond_true, cond_false]; first | done | fail)); pick_goal 2; (focus (simp +zetaDelta only [watched]; first | done | fail)))
    | (dsimp +zetaDelta only)
    | split)

theorem does_execSheafLoad {F : Parts} {s0 s : State} (id : Nat) (h : Does F s0 s)
    (hF : Parts.le { outs := true, regs := true, hst := true, chains := true, obs := true } F = true) : DoesO F s0 (execSheafLoad id s) := by
  refine DoesO.weaken hF h ?_
  unfold execSheafLoad
  repeat' (first
    | exact Eq.refl true
    | with_reducible exact Does.refl _ _
    | with_reducible assumption
    | ((fail_if_no_progress (extract_lets z)); refine Does.cut (z := z) ?_ (fun q => ?_); rotate_left; clear_value z)
    | ((fail_if_no_progress (extract_lets z)); refine Does.cutSnd (z := z) ?_ (fun q => ?_); rotate_left; clear_value z)
    | ((fail_if_no_progress (extract_lets z)); refine DoesO.cut (z := z) ?_ (fun q => ?_); rotate_left; clear_value z)
    | ((fail_if_no_progress (extract_lets z)); refine DoesO.cutSnd (z := z) ?_ (fun q => ?_); rotate_left; clear_value z)
    | fail_if_no_progress (extract_lets z)
    | with_reducible apply does_ok
    | with_reducible apply does_complete
    | with_reducible apply does_regSet
    | with_reducible apply does_startDesc
    | with_reducible apply does_cmdRun
    | with_reducible apply does_chainSet
    | with_reducible refine Does.snd (by assumption) ?_
    | with_reducible refine Does.ite ?_ ?_
    | with_reducible refine DoesO.ite ?_ ?_
    | fail_if_no_progress (with_reducible refine Does.leaf ?_ ?_ ?_; pick_goal 2; (focus (simp +zetaDelta only [State.blank, cond_true, cond_false]; first | done | fail)); pick_goal 2; (focus (simp +zetaDelta only [watched]; first | done | fail)))
    | (dsimp +zetaDelta only)
    | split)

theorem does_execScanCheck {F : Parts} {s0 s : State} (id : Nat) (h : Does F s0 s)
    (hF : Parts.le { outs := true, hst := true, chk := true, lft := true, obs := true } F = true) : DoesO F s0 (execScanCheck id s) := by
  refine DoesO.weaken hF h ?_
  unfold execScanCheck
  repeat' (first
    | exact Eq.refl true
    | with_reducible exact Does.refl _ _
    | with_reducible assumption
    | ((fail_if_no_progress (extract_lets z)); refine Does.cut (z := z) ?_ (fun q => ?_); rotate_left; clear_value z)
    | ((fail_if_no_progress (extract_lets z)); refine Does.cutSnd (z := z) ?_ (fun q => ?_); rotate_left; clear_value z)
    | ((fail_if_no_progress (extract_lets z)); refine DoesO.cut (z := z) ?_ (fun q => ?_); rotate_left; clear_value z)
    | ((fail_if_no_progress (extract_lets z)); refine DoesO.cutSnd (z := z) ?_ (fun q => ?_); rotate_left; clear_value z)
    | fail_if_no_progress (extract_lets z)
    | with_reducible apply does_ok
    | with_reducible apply does_complete
    | with_reducible apply does_scanStart
    | with_reducible apply does_cmdRun
    | with_reducible refine Does.snd (by assumption) ?_
    | with_reducible refine Does.ite ?_ ?_
    | with_reducible refine DoesO.ite ?_ ?_
    | fail_if_no_progress (with_reducible refine Does.leaf ?_ ?_ ?_; pick_goal 2; (focus (simp +zetaDelta only [State.blank, cond_true, cond_false]; first | done | fail)); pick_goal 2; (focus (simp +zetaDelta only [watched]; first | done | fail)))
    | (dsimp +zetaDelta only)
    | split)

theorem does_readbackRead {F : Parts} {s0 s : State} (j : ReadbackJob) (h : Does F s0 s)
    (hF : Parts.le { lft := true } F = true) : Does F s0 (readbackRead j s) := by
  refine Does.weaken hF h ?_
  unfold readbackRead
  repeat' (first
    | exact Eq.refl true
    | with_reducible exact Does.refl _ _
    | with_reducible assumption
    | ((fail_if_no_progress (extract_lets z)); refine Does.cut (z := z) ?_ (fun q => ?_); rotate_left; clear_value z)
    | fail_if_no_progress (extract_lets z)
    | with_reducible apply does_queueRead
    | with_reducible refine Does.snd (by assumption) ?_
    | fail_if_no_progress (with_reducible refine Does.leaf ?_ ?_ ?_; pick_goal 2; (focus (simp +zetaDelta only [State.blank, cond_true, cond_false]; first | done | fail)); pick_goal 2; (focus (simp +zetaDelta only [watched]; first | done | fail)))
    | (dsimp +zetaDelta only)
    | split)

theorem does_readbackFeed {F : Parts} {s0 s : State} (id : Nat) (cls : Nat) (h : Does F s0 s)
    (hF : Parts.le { lft := true, readbacks := true } F = true) : Does F s0 (readbackFeed id cls s) := by
  refine Does.weaken hF h ?_
  unfold readbackFeed
  repeat' (first
    | exact Eq.refl true
    | with_reducible exact Does.refl _ _
    | with_reducible assumption
    | ((fail_if_no_progress (extract_lets z)); refine Does.cut (z := z) ?_ (fun q => ?_); rotate_left; clear_value z)
    | ((fail_if_no_progress (extract_lets z)); refine Does.cutSnd (z := z) ?_ (fun q => ?_); rotate_left; clear_value z)
    | fail_if_no_progress (extract_lets z)
    | with_reducible apply does_readbackRead
    | with_reducible refine Does.snd (by assumption) ?_
    | with_reducible refine Does.ite ?_ ?_
    | fail_if_no_progress (with_reducible refine Does.leaf ?_ ?_ ?_; pick_goal 2; (focus (simp +zetaDelta only [State.blank, cond_true, cond_false]; first | done | fail)); pick_goal 2; (focus (simp +zetaDelta only [watched]; first | done | fail)))
    | (dsimp +zetaDelta only)
    | split)

theorem does_execReadback {F : Parts} {s0 s : State} (id : Nat) (h : Does F s0 s)
    (hF : Parts.le { outs := true, hst := true, lft := true, obs := true, readbacks := true } F = true) : DoesO F s0 (execReadback id s) := by
  refine DoesO.weaken hF h ?_
  unfold execReadback
  repeat' (first
    | exact Eq.refl true
    | with_reducible exact Does.refl _ _
    | with_reducible assumption
    | ((fail_if_no_progress (extract_lets z)); refine Does.cut (z := z) ?_ (fun q => ?_); rotate_left; clear_value z)
    | ((fail_if_no_progress (extract_lets z)); refine Does.cutSnd (z := z) ?_ (fun q => ?_); rotate_left; clear_value z)
    | ((fail_if_no_progress (extract_lets z)); refine DoesO.cut (z := z) ?_ (fun q => ?_); rotate_left; clear_value z)
    | ((fail_if_no_progress (extract_lets z)); refine DoesO.cutSnd (z := z) ?_ (fun q => ?_); rotate_left; clear_value z)
    | fail_if_no_progress (extract_lets z)
    | with_reducible apply does_ok
    | with_reducible apply does_complete
    | with_reducible apply does_readbackRead
    | with_reducible apply does_cmdRun
    | with_reducible refine Does.snd (by assumption) ?_
    | with_reducible refine Does.ite ?_ ?_
    | with_reducible refine DoesO.ite ?_ ?_
    | fail_if_no_progress (with_reducible refine Does.leaf ?_ ?_ ?_; pick_goal 2; (focus (simp +zetaDelta only [State.blank, cond_true, cond_false]; first | done | fail)); pick_goal 2; (focus (simp +zetaDelta only [watched]; first | done | fail)))
    | (dsimp +zetaDelta only)
    | split)

theorem does_execReadbackComplete {F : Parts} {s0 s : State}  (h : Does F s0 s)
    (hF : Parts.le { outs := true, hst := true, obs := true, readbacks := true } F = true) : DoesO F s0 (execReadbackComplete s) := by
  refine DoesO.weaken hF h ?_
  unfold execReadbackComplete
  repeat' (first
    | exact Eq.refl true
    | with_reducible exact Does.refl _ _
    | with_reducible assumption
    | ((fail_if_no_progress (extract_lets z)); refine Does.cut (z := z) ?_ (fun q => ?_); rotate_left; clear_value z)
    | ((fail_if_no_progress (extract_lets z)); refine Does.cutSnd (z := z) ?_ (fun q => ?_); rotate_left; clear_value z)
    | ((fail_if_no_progress (extract_lets z)); refine DoesO.cut (z := z) ?_ (fun q => ?_); rotate_left; clear_value z)
    | ((fail_if_no_progress (extract_lets z)); refine DoesO.cutSnd (z := z) ?_ (fun q => ?_); rotate_left; clear_value z)
    | fail_if_no_progress (extract_lets z)
    | with_reducible apply does_ok
    | with_reducible apply does_complete
    | with_reducible apply does_writeHost
    | with_reducible refine Does.snd (by assumption) ?_
    | (with_reducible refine Does.foldl ?_ (fun _ _ _ => ?_))
    | (with_reducible refine Does.foldlSnd ?_ (fun _ _ _ => ?_))
    | with_reducible refine Does.ite ?_ ?_
    | with_reducible refine DoesO.ite ?_ ?_
    | fail_if_no_progress (with_reducible refine Does.leaf ?_ ?_ ?_; pick_goal 2; (focus (simp +zetaDelta only [State.blank, cond_true, cond_false]; first | done | fail)); pick_goal 2; (focus (simp +zetaDelta only [watched]; first | done | fail)))
    | (dsimp +zetaDelta only)
    | split)

end Sys2Proof.Machine
end

