-- ==== Sys2Proof/Laws/DoesAdmission.lean ====
section
/-! SUPPORT. What each operation of Machine/Admission.lean touches at most, and that it keeps the bounds. -/

-- One theorem at a time: elaborating the package as one text in many threads at once takes more memory than the check allows.
set_option Elab.async false

set_option linter.unusedSimpArgs false
set_option linter.unusedTactic false
set_option linter.unreachableTactic false

namespace Sys2Proof.Machine

theorem does_admitRead {F : Parts} {s0 s : State} (x1 : Admission) (h : Does F s0 s)
    (hF : Parts.le { lft := true } F = true) : Does F s0 (admitRead x1 s) := by
  refine Does.weaken hF h ?_
  unfold admitRead
  repeat' (first
    | exact Eq.refl true
    | with_reducible exact Does.refl _ _
    | with_reducible assumption
    | with_reducible apply does_queueRead
    | with_reducible refine Does.ite ?_ ?_
    | split)

theorem does_putAdm {F : Parts} {s0 s : State} (x1 : Admission) (h : Does F s0 s)
    (hF : Parts.le { pac := true } F = true) : Does F s0 (putAdm x1 s) := by
  refine Does.weaken hF h ?_
  unfold putAdm
  repeat' (first
    | exact Eq.refl true
    | with_reducible exact Does.refl _ _
    | with_reducible assumption
    | ((fail_if_no_progress (extract_lets z)); refine Does.cut (z := z) ?_ (fun q => ?_); rotate_left; clear_value z)
    | fail_if_no_progress (extract_lets z)
    | fail_if_no_progress (with_reducible refine Does.leaf ?_ ?_ ?_; pick_goal 2; (focus (simp +zetaDelta only [State.blank, cond_true, cond_false]; first | done | fail)); pick_goal 2; (focus (simp +zetaDelta only [watched]; first | done | fail)))
    | (dsimp +zetaDelta only))

theorem does_startWork {F : Parts} {s0 s : State} (x1 : Admission) (h : Does F s0 s)
    (hF : Parts.le { pac := true, lft := true } F = true) : Does F s0 (startWork x1 s) := by
  refine Does.weaken hF h ?_
  unfold startWork
  repeat' (first
    | exact Eq.refl true
    | with_reducible exact Does.refl _ _
    | with_reducible assumption
    | ((fail_if_no_progress (extract_lets z)); refine Does.cut (z := z) ?_ (fun q => ?_); rotate_left; clear_value z)
    | ((fail_if_no_progress (extract_lets z)); refine Does.cutSnd (z := z) ?_ (fun q => ?_); rotate_left; clear_value z)
    | fail_if_no_progress (extract_lets z)
    | with_reducible apply does_admitRead
    | with_reducible apply does_putAdm
    | with_reducible refine Does.ite ?_ ?_
    | fail_if_no_progress (with_reducible refine Does.leaf ?_ ?_ ?_; pick_goal 2; (focus (simp +zetaDelta only [State.blank, cond_true, cond_false]; first | done | fail)); pick_goal 2; (focus (simp +zetaDelta only [watched]; first | done | fail)))
    | (dsimp +zetaDelta only)
    | split)

theorem does_endScan {F : Parts} {s0 s : State}  (h : Does F s0 s)
    (hF : Parts.le { chk := true, lft := true } F = true) : Does F s0 (endScan s) := by
  refine Does.weaken hF h ?_
  unfold endScan
  repeat' (first
    | exact Eq.refl true
    | with_reducible exact Does.refl _ _
    | with_reducible assumption
    | ((fail_if_no_progress (extract_lets z)); refine Does.cut (z := z) ?_ (fun q => ?_); rotate_left; clear_value z)
    | ((fail_if_no_progress (extract_lets z)); refine Does.cutSnd (z := z) ?_ (fun q => ?_); rotate_left; clear_value z)
    | fail_if_no_progress (extract_lets z)
    | with_reducible apply does_scanFree
    | (with_reducible refine Does.foldl ?_ (fun _ _ _ => ?_))
    | (with_reducible refine Does.foldlSnd ?_ (fun _ _ _ => ?_))
    | with_reducible refine Does.ite ?_ ?_
    | fail_if_no_progress (with_reducible refine Does.leaf ?_ ?_ ?_; pick_goal 2; (focus (simp +zetaDelta only [State.blank, cond_true, cond_false]; first | done | fail)); pick_goal 2; (focus (simp +zetaDelta only [watched]; first | done | fail)))
    | (dsimp +zetaDelta only)
    | split)

theorem does_dropReads {F : Parts} {s0 s : State} (gone : ReadFor → Bool) (h : Does F s0 s)
    (hF : Parts.le { lft := true } F = true) : Does F s0 (dropReads gone s) := by
  refine Does.weaken hF h ?_
  unfold dropReads
  repeat' (first
    | exact Eq.refl true
    | with_reducible exact Does.refl _ _
    | with_reducible assumption
    | ((fail_if_no_progress (extract_lets z)); refine Does.cut (z := z) ?_ (fun q => ?_); rotate_left; clear_value z)
    | ((fail_if_no_progress (extract_lets z)); refine Does.cutSnd (z := z) ?_ (fun q => ?_); rotate_left; clear_value z)
    | fail_if_no_progress (extract_lets z)
    | with_reducible apply does_lftSet
    | (with_reducible refine Does.foldl ?_ (fun _ _ _ => ?_))
    | (with_reducible refine Does.foldlSnd ?_ (fun _ _ _ => ?_))
    | fail_if_no_progress (with_reducible refine Does.leaf ?_ ?_ ?_; pick_goal 2; (focus (simp +zetaDelta only [State.blank, cond_true, cond_false]; first | done | fail)); pick_goal 2; (focus (simp +zetaDelta only [watched]; first | done | fail)))
    | (dsimp +zetaDelta only))

theorem does_dropWaits {F : Parts} {s0 s : State} (client : Nat) (h : Does F s0 s)
    (hF : Parts.le { lft := true } F = true) : Does F s0 (dropWaits client s) := by
  refine Does.weaken hF h ?_
  unfold dropWaits
  repeat' (first
    | exact Eq.refl true
    | with_reducible exact Does.refl _ _
    | with_reducible assumption
    | ((fail_if_no_progress (extract_lets z)); refine Does.cut (z := z) ?_ (fun q => ?_); rotate_left; clear_value z)
    | fail_if_no_progress (extract_lets z)
    | fail_if_no_progress (with_reducible refine Does.leaf ?_ ?_ ?_; pick_goal 2; (focus (simp +zetaDelta only [State.blank, cond_true, cond_false]; first | done | fail)); pick_goal 2; (focus (simp +zetaDelta only [watched]; first | done | fail)))
    | (dsimp +zetaDelta only))

theorem does_endAdmWork {F : Parts} {s0 s : State}  (h : Does F s0 s)
    (hF : Parts.le { chk := true, lft := true } F = true) : Does F s0 (endAdmWork s) := by
  refine Does.weaken hF h ?_
  unfold endAdmWork
  repeat' (first
    | exact Eq.refl true
    | with_reducible exact Does.refl _ _
    | with_reducible assumption
    | with_reducible apply does_dropReads
    | with_reducible apply does_endScan)

theorem does_dropAdmission {F : Parts} {s0 s : State} (status : Nat) (h : Does F s0 s)
    (hF : Parts.le { outs := true, hst := true, chk := true, pac := true, lft := true, obs := true } F = true) : Does F s0 (dropAdmission status s) := by
  refine Does.weaken hF h ?_
  unfold dropAdmission
  repeat' (first
    | exact Eq.refl true
    | with_reducible exact Does.refl _ _
    | with_reducible assumption
    | ((fail_if_no_progress (extract_lets z)); refine Does.cut (z := z) ?_ (fun q => ?_); rotate_left; clear_value z)
    | ((fail_if_no_progress (extract_lets z)); refine Does.cutSnd (z := z) ?_ (fun q => ?_); rotate_left; clear_value z)
    | fail_if_no_progress (extract_lets z)
    | with_reducible apply does_endAdmWork
    | with_reducible apply does_completeOpt
    | with_reducible apply does_dropWaits
    | with_reducible refine Does.snd (by assumption) ?_
    | with_reducible refine Does.ite ?_ ?_
    | fail_if_no_progress (with_reducible refine Does.leaf ?_ ?_ ?_; pick_goal 2; (focus (simp +zetaDelta only [State.blank, cond_true, cond_false]; first | done | fail)); pick_goal 2; (focus (simp +zetaDelta only [watched]; first | done | fail)))
    | (dsimp +zetaDelta only)
    | split)

theorem does_execStripeAdmit {F : Parts} {s0 s : State} (id : Nat) (h : Does F s0 s)
    (hF : Parts.le { outs := true, glb := true, hst := true, chk := true, pac := true, lft := true, slo := true, store := true, obs := true } F = true) : DoesO F s0 (execStripeAdmit id s) := by
  refine DoesO.weaken hF h ?_
  unfold execStripeAdmit
  repeat' (first
    | exact Eq.refl true
    | with_reducible exact Does.refl _ _
    | with_reducible assumption
    | ((fail_if_no_progress (extract_lets z)); refine Does.cut (z := z) ?_ (fun q => ?_); rotate_left; clear_value z)
    | ((fail_if_no_progress (extract_lets z)); refine Does.cutSnd (z := z) ?_ (fun q => ?_); rotate_left; clear_value z)
    | ((fail_if_no_progress (extract_lets z)); refine DoesO.cut (z := z) ?_ (fun q => ?_); rotate_left; clear_value z)
    | ((fail_if_no_progress (extract_lets z)); refine DoesO.cutSnd (z := z) ?_ (fun q => ?_); rotate_left; clear_value z)
    | fail_if_no_progress (extract_lets z)
    | with_reducible apply does_ok
    | with_reducible apply does_complete
    | with_reducible apply does_readBlocks
    | with_reducible apply does_dropAdmission
    | with_reducible apply does_cmdRun
    | with_reducible apply does_startWork
    | with_reducible refine Does.snd (by assumption) ?_
    | with_reducible refine Does.ite ?_ ?_
    | with_reducible refine DoesO.ite ?_ ?_
    | fail_if_no_progress (with_reducible refine Does.leaf ?_ ?_ ?_; pick_goal 2; (focus (simp +zetaDelta only [State.blank, cond_true, cond_false]; first | done | fail)); pick_goal 2; (focus (simp +zetaDelta only [watched]; first | done | fail)))
    | (with_reducible refine Does.leafB ?_ ?_ ?_; pick_goal 2; (focus (simp +zetaDelta only [State.blank, cond_true, cond_false]; first | done | fail)); pick_goal 2; (exact fun b => ⟨b.mem, b.hold, b.minor, b.trace, b.silo, b.head, Nat.zero_le _⟩))
    | (dsimp +zetaDelta only)
    | split)


theorem does_execAdmitGuardWaitEnd {F : Parts} {s0 s : State}  (h : Does F s0 s)
    (hF : Parts.le { pac := true, lft := true } F = true) : DoesO F s0 (execAdmitGuardWaitEnd s) := by
  refine DoesO.weaken hF h ?_
  unfold execAdmitGuardWaitEnd
  repeat' (first
    | exact Eq.refl true
    | with_reducible exact Does.refl _ _
    | with_reducible assumption
    | ((fail_if_no_progress (extract_lets z)); refine Does.cut (z := z) ?_ (fun q => ?_); rotate_left; clear_value z)
    | ((fail_if_no_progress (extract_lets z)); refine DoesO.cut (z := z) ?_ (fun q => ?_); rotate_left; clear_value z)
    | fail_if_no_progress (extract_lets z)
    | with_reducible apply does_ok
    | with_reducible apply does_startWork
    | with_reducible refine Does.snd (by assumption) ?_
    | with_reducible refine Does.ite ?_ ?_
    | with_reducible refine DoesO.ite ?_ ?_
    | fail_if_no_progress (with_reducible refine Does.leaf ?_ ?_ ?_; pick_goal 2; (focus (simp +zetaDelta only [State.blank, cond_true, cond_false]; first | done | fail)); pick_goal 2; (focus (simp +zetaDelta only [watched]; first | done | fail)))
    | (dsimp +zetaDelta only)
    | split)

theorem does_writeBins {F : Parts} {s0 s : State} (x1 : Admission) (out : SheafOut) (h : Does F s0 s)
    (hF : Parts.le { outs := true, glb := true, hst := true, lft := true, slo := true, obs := true } F = true) : Does F s0 (writeBins x1 out s) := by
  refine Does.weaken hF h ?_
  unfold writeBins
  repeat' (first
    | exact Eq.refl true
    | with_reducible exact Does.refl _ _
    | with_reducible assumption
    | ((fail_if_no_progress (extract_lets z)); refine Does.cut (z := z) ?_ (fun q => ?_); rotate_left; clear_value z)
    | ((fail_if_no_progress (extract_lets z)); refine Does.cutSnd (z := z) ?_ (fun q => ?_); rotate_left; clear_value z)
    | fail_if_no_progress (extract_lets z)
    | with_reducible apply does_loftWrite
    | (with_reducible refine Does.foldl ?_ (fun _ _ _ => ?_))
    | (with_reducible refine Does.foldlSnd ?_ (fun _ _ _ => ?_))
    | (dsimp +zetaDelta only))

theorem does_admitBinned {F : Parts} {s0 s : State} (x1 : Admission) (h : Does F s0 s)
    (hF : Parts.le { outs := true, glb := true, hst := true, chk := true, lft := true, slo := true, obs := true } F = true) : Does F s0 (admitBinned x1 s) := by
  refine Does.weaken hF h ?_
  unfold admitBinned
  repeat' (first
    | exact Eq.refl true
    | with_reducible exact Does.refl _ _
    | with_reducible assumption
    | ((fail_if_no_progress (extract_lets z)); refine Does.cut (z := z) ?_ (fun q => ?_); rotate_left; clear_value z)
    | ((fail_if_no_progress (extract_lets z)); refine Does.cutSnd (z := z) ?_ (fun q => ?_); rotate_left; clear_value z)
    | fail_if_no_progress (extract_lets z)
    | with_reducible apply does_endScan
    | with_reducible apply does_writeBins
    | with_reducible refine Does.snd (by assumption) ?_
    | with_reducible refine Does.ite ?_ ?_
    | fail_if_no_progress (with_reducible refine Does.leaf ?_ ?_ ?_; pick_goal 2; (focus (simp +zetaDelta only [State.blank, cond_true, cond_false]; first | done | fail)); pick_goal 2; (focus (simp +zetaDelta only [watched]; first | done | fail)))
    | (dsimp +zetaDelta only)
    | split)

theorem does_admitFeed {F : Parts} {s0 s : State} (cls : Nat) (bs : List Byte) (h : Does F s0 s)
    (hF : Parts.le { outs := true, glb := true, hst := true, chk := true, pac := true, lft := true, slo := true, obs := true } F = true) : Does F s0 (admitFeed cls bs s) := by
  refine Does.weaken hF h ?_
  unfold admitFeed
  repeat' (first
    | exact Eq.refl true
    | with_reducible exact Does.refl _ _
    | with_reducible assumption
    | ((fail_if_no_progress (extract_lets z)); refine Does.cut (z := z) ?_ (fun q => ?_); rotate_left; clear_value z)
    | ((fail_if_no_progress (extract_lets z)); refine Does.cutSnd (z := z) ?_ (fun q => ?_); rotate_left; clear_value z)
    | fail_if_no_progress (extract_lets z)
    | with_reducible apply does_cntChk
    | with_reducible apply does_scanPut
    | with_reducible apply does_admitRead
    | with_reducible apply does_putAdm
    | with_reducible apply does_scanStart
    | with_reducible apply does_admitBinned
    | with_reducible refine Does.snd (by assumption) ?_
    | with_reducible refine Does.ite ?_ ?_
    | fail_if_no_progress (with_reducible refine Does.leaf ?_ ?_ ?_; pick_goal 2; (focus (simp +zetaDelta only [State.blank, cond_true, cond_false]; first | done | fail)); pick_goal 2; (focus (simp +zetaDelta only [watched]; first | done | fail)))
    | (dsimp +zetaDelta only)
    | split)

theorem does_countRecord {F : Parts} {s0 s : State}  (h : Does F s0 s)
    (hF : Parts.le { free := true, obs := true } F = true) : Does F s0 (countRecord s) := by
  refine Does.weaken hF h ?_
  unfold countRecord
  repeat' (first
    | exact Eq.refl true
    | with_reducible exact Does.refl _ _
    | with_reducible assumption
    | ((fail_if_no_progress (extract_lets z)); refine Does.cut (z := z) ?_ (fun q => ?_); rotate_left; clear_value z)
    | ((fail_if_no_progress (extract_lets z)); refine Does.cutSnd (z := z) ?_ (fun q => ?_); rotate_left; clear_value z)
    | fail_if_no_progress (extract_lets z)
    | with_reducible apply does_drawFree
    | with_reducible apply does_cntShv
    | with_reducible refine Does.snd (by assumption) ?_
    | (dsimp +zetaDelta only)
    | split)

theorem does_countShv {F : Parts} {s0 s : State} (x1 : Admission) (out : SheafOut) (h : Does F s0 s)
    (hF : Parts.le { free := true, obs := true } F = true) : Does F s0 (countShv x1 out s) := by
  refine Does.weaken hF h ?_
  unfold countShv
  repeat' (first
    | exact Eq.refl true
    | with_reducible exact Does.refl _ _
    | with_reducible assumption
    | ((fail_if_no_progress (extract_lets z)); refine Does.cut (z := z) ?_ (fun q => ?_); rotate_left; clear_value z)
    | ((fail_if_no_progress (extract_lets z)); refine Does.cutSnd (z := z) ?_ (fun q => ?_); rotate_left; clear_value z)
    | fail_if_no_progress (extract_lets z)
    | with_reducible apply does_cntShv
    | with_reducible apply does_countRecord
    | (with_reducible refine Does.foldl ?_ (fun _ _ _ => ?_))
    | (with_reducible refine Does.foldlSnd ?_ (fun _ _ _ => ?_))
    | (dsimp +zetaDelta only))

theorem does_admitDone {F : Parts} {s0 s : State} (x1 : Admission) (r : Refuse) (p : Plan) (tag : Nat) (slots : Nat) (h : Does F s0 s)
    (hF : Parts.le { outs := true, hst := true, obs := true } F = true) : Does F s0 (admitDone x1 r p tag slots s) := by
  refine Does.weaken hF h ?_
  unfold admitDone
  repeat' (first
    | exact Eq.refl true
    | with_reducible exact Does.refl _ _
    | with_reducible assumption
    | ((fail_if_no_progress (extract_lets z)); refine Does.cut (z := z) ?_ (fun q => ?_); rotate_left; clear_value z)
    | ((fail_if_no_progress (extract_lets z)); refine Does.cutSnd (z := z) ?_ (fun q => ?_); rotate_left; clear_value z)
    | fail_if_no_progress (extract_lets z)
    | with_reducible apply does_completeOpt
    | with_reducible apply does_writeHost
    | with_reducible refine Does.ite ?_ ?_
    | (dsimp +zetaDelta only)
    | split)

theorem does_execAdmissionComplete {F : Parts} {s0 s : State}  (h : Does F s0 s)
    (hF : Parts.le { outs := true, free := true, hst := true, pac := true, obs := true } F = true) : DoesO F s0 (execAdmissionComplete s) := by
  refine DoesO.weaken hF h ?_
  unfold execAdmissionComplete
  repeat' (first
    | exact Eq.refl true
    | with_reducible exact Does.refl _ _
    | with_reducible assumption
    | ((fail_if_no_progress (extract_lets z)); refine Does.cut (z := z) ?_ (fun q => ?_); rotate_left; clear_value z)
    | ((fail_if_no_progress (extract_lets z)); refine Does.cutSnd (z := z) ?_ (fun q => ?_); rotate_left; clear_value z)
    | ((fail_if_no_progress (extract_lets z)); refine DoesO.cut (z := z) ?_ (fun q => ?_); rotate_left; clear_value z)
    | ((fail_if_no_progress (extract_lets z)); refine DoesO.cutSnd (z := z) ?_ (fun q => ?_); rotate_left; clear_value z)
    | fail_if_no_progress (extract_lets z)
    | with_reducible apply does_ok
    | with_reducible apply does_completeOpt
    | with_reducible apply does_admitDone
    | with_reducible apply does_putAdm
    | with_reducible apply does_countShv
    | with_reducible refine Does.snd (by assumption) ?_
    | with_reducible refine Does.ite ?_ ?_
    | with_reducible refine DoesO.ite ?_ ?_
    | fail_if_no_progress (with_reducible refine Does.leaf ?_ ?_ ?_; pick_goal 2; (focus (simp +zetaDelta only [State.blank, cond_true, cond_false]; first | done | fail)); pick_goal 2; (focus (simp +zetaDelta only [watched]; first | done | fail)))
    | (dsimp +zetaDelta only)
    | split)

end Sys2Proof.Machine
end

