-- ==== Sys2Proof/Laws/DoesBuild.lean ====
section
/-! SUPPORT. What each operation of Machine/Build.lean touches at most, and that it keeps the bounds. -/

-- One theorem at a time: elaborating the package as one text in many threads at once takes more memory than the check allows.
set_option Elab.async false

set_option linter.unusedSimpArgs false
set_option linter.unusedTactic false
set_option linter.unreachableTactic false

namespace Sys2Proof.Machine

theorem does_grpPut {F : Parts} {s0 s : State} (j : Nat) (g : Group) (h : Does F s0 s)
    (hF : Parts.le { pac := true } F = true) : Does F s0 (grpPut j g s) := by
  refine Does.weaken hF h ?_
  unfold grpPut
  repeat' (first
    | exact Eq.refl true
    | with_reducible exact Does.refl _ _
    | with_reducible assumption
    | ((fail_if_no_progress (extract_lets z)); refine Does.cut (z := z) ?_ (fun q => ?_); rotate_left; clear_value z)
    | fail_if_no_progress (extract_lets z)
    | with_reducible apply does_setStripe
    | with_reducible refine Does.snd (by assumption) ?_
    | fail_if_no_progress (with_reducible refine Does.leaf ?_ ?_ ?_; pick_goal 2; (focus (simp +zetaDelta only [State.blank, cond_true, cond_false]; first | done | fail)); pick_goal 2; (focus (simp +zetaDelta only [watched]; first | done | fail)))
    | (dsimp +zetaDelta only)
    | split)

theorem does_dealLane {F : Parts} {s0 s : State} (l : Nat) (h : Does F s0 s)
    (hF : Parts.le { units := true, pac := true, obs := true } F = true) : Does F s0 (dealLane l s) := by
  refine Does.weaken hF h ?_
  unfold dealLane
  repeat' (first
    | exact Eq.refl true
    | with_reducible exact Does.refl _ _
    | with_reducible assumption
    | ((fail_if_no_progress (extract_lets z)); refine Does.cut (z := z) ?_ (fun q => ?_); rotate_left; clear_value z)
    | ((fail_if_no_progress (extract_lets z)); refine Does.cutSnd (z := z) ?_ (fun q => ?_); rotate_left; clear_value z)
    | fail_if_no_progress (extract_lets z)
    | with_reducible apply does_grpPut
    | with_reducible apply does_cntThr
    | with_reducible refine Does.snd (by assumption) ?_
    | with_reducible refine Does.ite ?_ ?_
    | fail_if_no_progress (with_reducible refine Does.leaf ?_ ?_ ?_; pick_goal 2; (focus (simp +zetaDelta only [State.blank, cond_true, cond_false]; first | done | fail)); pick_goal 2; (focus (simp +zetaDelta only [watched]; first | done | fail)))
    | (dsimp +zetaDelta only)
    | split)

theorem does_dealAll {F : Parts} {s0 s : State}  (h : Does F s0 s)
    (hF : Parts.le { units := true, pac := true, obs := true } F = true) : Does F s0 (dealAll s) := by
  refine Does.weaken hF h ?_
  unfold dealAll
  repeat' (first
    | exact Eq.refl true
    | with_reducible exact Does.refl _ _
    | with_reducible assumption
    | with_reducible apply does_dealLane
    | (with_reducible refine Does.foldl ?_ (fun _ _ _ => ?_))
    | (with_reducible refine Does.foldlSnd ?_ (fun _ _ _ => ?_)))

theorem does_deliverRun {F : Parts} {s0 s : State} (thr : Nat) (r : Run) (h : Does F s0 s)
    (hF : Parts.le { dos := true, pac := true, swl := true, obs := true } F = true) : Does F s0 (deliverRun thr r s) := by
  refine Does.weaken hF h ?_
  unfold deliverRun
  repeat' (first
    | exact Eq.refl true
    | with_reducible exact Does.refl _ _
    | with_reducible assumption
    | ((fail_if_no_progress (extract_lets z)); refine Does.cut (z := z) ?_ (fun q => ?_); rotate_left; clear_value z)
    | ((fail_if_no_progress (extract_lets z)); refine Does.cutSnd (z := z) ?_ (fun q => ?_); rotate_left; clear_value z)
    | fail_if_no_progress (extract_lets z)
    | with_reducible apply does_grpPut
    | with_reducible apply does_cntThr
    | with_reducible apply does_cntDos
    | with_reducible refine Does.snd (by assumption) ?_
    | (with_reducible refine Does.foldl ?_ (fun _ _ _ => ?_))
    | (with_reducible refine Does.foldlSnd ?_ (fun _ _ _ => ?_))
    | with_reducible refine Does.ite ?_ ?_
    | fail_if_no_progress (with_reducible refine Does.leaf ?_ ?_ ?_; pick_goal 2; (focus (simp +zetaDelta only [State.blank, cond_true, cond_false]; first | done | fail)); pick_goal 2; (focus (simp +zetaDelta only [watched]; first | done | fail)))
    | (dsimp +zetaDelta only)
    | split)

theorem does_queueBin {F : Parts} {s0 s : State} (rank : Nat) (tile : Nat) (pass : Nat) (group : Nat) (b : Bin) (h : Does F s0 s)
    (hF : Parts.le { lft := true } F = true) : Does F s0 (queueBin rank tile pass group b s) := by
  refine Does.weaken hF h ?_
  unfold queueBin
  repeat' (first
    | exact Eq.refl true
    | with_reducible exact Does.refl _ _
    | with_reducible assumption
    | with_reducible apply does_queueRead
    | (with_reducible refine Does.foldl ?_ (fun _ _ _ => ?_))
    | (with_reducible refine Does.foldlSnd ?_ (fun _ _ _ => ?_)))

theorem does_startWorkUnits {F : Parts} {s0 s : State}  (h : Does F s0 s)
    (hF : Parts.le { pac := true, lft := true } F = true) : Does F s0 (startWorkUnits s) := by
  refine Does.weaken hF h ?_
  unfold startWorkUnits
  repeat' (first
    | exact Eq.refl true
    | with_reducible exact Does.refl _ _
    | with_reducible assumption
    | ((fail_if_no_progress (extract_lets z)); refine Does.cut (z := z) ?_ (fun q => ?_); rotate_left; clear_value z)
    | ((fail_if_no_progress (extract_lets z)); refine Does.cutSnd (z := z) ?_ (fun q => ?_); rotate_left; clear_value z)
    | fail_if_no_progress (extract_lets z)
    | with_reducible apply does_queueBin
    | with_reducible apply does_setStripe
    | with_reducible refine Does.snd (by assumption) ?_
    | (with_reducible refine Does.foldl ?_ (fun _ _ _ => ?_))
    | (with_reducible refine Does.foldlSnd ?_ (fun _ _ _ => ?_))
    | with_reducible refine Does.ite ?_ ?_
    | fail_if_no_progress (with_reducible refine Does.leaf ?_ ?_ ?_; pick_goal 2; (focus (simp +zetaDelta only [State.blank, cond_true, cond_false]; first | done | fail)); pick_goal 2; (focus (simp +zetaDelta only [watched]; first | done | fail)))
    | (dsimp +zetaDelta only)
    | split)

theorem does_loseJobs {F : Parts} {s0 s : State} (j : Nat) (h : Does F s0 s)
    (hF : Parts.le { pac := true } F = true) : Does F s0 (loseJobs j s) := by
  refine Does.weaken hF h ?_
  unfold loseJobs
  repeat' (first
    | exact Eq.refl true
    | with_reducible exact Does.refl _ _
    | with_reducible assumption
    | ((fail_if_no_progress (extract_lets z)); refine Does.cut (z := z) ?_ (fun q => ?_); rotate_left; clear_value z)
    | ((fail_if_no_progress (extract_lets z)); refine Does.cutSnd (z := z) ?_ (fun q => ?_); rotate_left; clear_value z)
    | fail_if_no_progress (extract_lets z)
    | with_reducible apply does_setStripe
    | with_reducible refine Does.snd (by assumption) ?_
    | fail_if_no_progress (with_reducible refine Does.leaf ?_ ?_ ?_; pick_goal 2; (focus (simp +zetaDelta only [State.blank, cond_true, cond_false]; first | done | fail)); pick_goal 2; (focus (simp +zetaDelta only [watched]; first | done | fail)))
    | (dsimp +zetaDelta only)
    | split)

theorem does_groupRecords {F : Parts} {s0 s : State} (st : Stripe) (j : Nat) (g : Group) (launched : Bool) (left : List Nat) (h : Does F s0 s)
    (hF : Parts.le { outs := true, glb := true, hst := true, pac := true, slo := true, store := true, obs := true } F = true) : Does F s0 (groupRecords st j g launched left s) := by
  refine Does.weaken hF h ?_
  unfold groupRecords
  repeat' (first
    | exact Eq.refl true
    | with_reducible exact Does.refl _ _
    | with_reducible assumption
    | ((fail_if_no_progress (extract_lets z)); refine Does.cut (z := z) ?_ (fun q => ?_); rotate_left; clear_value z)
    | ((fail_if_no_progress (extract_lets z)); refine Does.cutSnd (z := z) ?_ (fun q => ?_); rotate_left; clear_value z)
    | fail_if_no_progress (extract_lets z)
    | with_reducible apply does_raiseStripeLoss
    | with_reducible apply does_pushRecord
    | with_reducible refine Does.snd (by assumption) ?_
    | (with_reducible refine Does.foldl ?_ (fun _ _ _ => ?_))
    | (with_reducible refine Does.foldlSnd ?_ (fun _ _ _ => ?_))
    | with_reducible refine Does.ite ?_ ?_
    | fail_if_no_progress (with_reducible refine Does.leaf ?_ ?_ ?_; pick_goal 2; (focus (simp +zetaDelta only [State.blank, cond_true, cond_false]; first | done | fail)); pick_goal 2; (focus (simp +zetaDelta only [watched]; first | done | fail)))
    | (dsimp +zetaDelta only)
    | split)

theorem does_finalGroup {F : Parts} {s0 s : State} (j : Nat) (launched : Bool) (lane : Nat) (failed : Nat) (h : Does F s0 s)
    (hF : Parts.le { outs := true, free := true, glb := true, hst := true, units := true, pac := true, enc := true, twn := true, tim := true, slo := true, store := true, obs := true } F = true) : Does F s0 (finalGroup j launched lane failed s) := by
  refine Does.weaken hF h ?_
  unfold finalGroup
  repeat' (first
    | exact Eq.refl true
    | with_reducible exact Does.refl _ _
    | with_reducible assumption
    | ((fail_if_no_progress (extract_lets z)); refine Does.cut (z := z) ?_ (fun q => ?_); rotate_left; clear_value z)
    | ((fail_if_no_progress (extract_lets z)); refine Does.cutSnd (z := z) ?_ (fun q => ?_); rotate_left; clear_value z)
    | fail_if_no_progress (extract_lets z)
    | with_reducible apply does_setStripe
    | with_reducible apply does_groupRecords
    | with_reducible apply does_cntTwn
    | with_reducible apply does_raiseItems
    | with_reducible apply does_abortOrDiscardFree
    | with_reducible apply does_dealAll
    | with_reducible refine Does.snd (by assumption) ?_
    | with_reducible refine Does.ite ?_ ?_
    | fail_if_no_progress (with_reducible refine Does.leaf ?_ ?_ ?_; pick_goal 2; (focus (simp +zetaDelta only [State.blank, cond_true, cond_false]; first | done | fail)); pick_goal 2; (focus (simp +zetaDelta only [watched]; first | done | fail)))
    | (dsimp +zetaDelta only)
    | split)

theorem does_voteGroup {F : Parts} {s0 s : State} (j : Nat) (h : Does F s0 s)
    (hF : Parts.le { outs := true, free := true, glb := true, hst := true, units := true, pac := true, enc := true, twn := true, tim := true, slo := true, store := true, obs := true } F = true) : Does F s0 (voteGroup j s) := by
  refine Does.weaken hF h ?_
  unfold voteGroup
  repeat' (first
    | exact Eq.refl true
    | with_reducible exact Does.refl _ _
    | with_reducible assumption
    | ((fail_if_no_progress (extract_lets z)); refine Does.cut (z := z) ?_ (fun q => ?_); rotate_left; clear_value z)
    | ((fail_if_no_progress (extract_lets z)); refine Does.cutSnd (z := z) ?_ (fun q => ?_); rotate_left; clear_value z)
    | fail_if_no_progress (extract_lets z)
    | with_reducible apply does_finalGroup
    | with_reducible apply does_grpPut
    | with_reducible apply does_cntTwn
    | with_reducible apply does_dealAll
    | with_reducible apply does_raiseItems
    | with_reducible refine Does.snd (by assumption) ?_
    | with_reducible refine Does.ite ?_ ?_
    | fail_if_no_progress (with_reducible refine Does.leaf ?_ ?_ ?_; pick_goal 2; (focus (simp +zetaDelta only [State.blank, cond_true, cond_false]; first | done | fail)); pick_goal 2; (focus (simp +zetaDelta only [watched]; first | done | fail)))
    | (dsimp +zetaDelta only)
    | split)

theorem does_deadline {F : Parts} {s0 s : State} (j : Nat) (h : Does F s0 s)
    (hF : Parts.le { outs := true, free := true, glb := true, hst := true, units := true, pac := true, enc := true, twn := true, tim := true, slo := true, store := true, obs := true } F = true) : Does F s0 (deadline j s) := by
  refine Does.weaken hF h ?_
  unfold deadline
  repeat' (first
    | exact Eq.refl true
    | with_reducible exact Does.refl _ _
    | with_reducible assumption
    | ((fail_if_no_progress (extract_lets z)); refine Does.cut (z := z) ?_ (fun q => ?_); rotate_left; clear_value z)
    | ((fail_if_no_progress (extract_lets z)); refine Does.cutSnd (z := z) ?_ (fun q => ?_); rotate_left; clear_value z)
    | fail_if_no_progress (extract_lets z)
    | with_reducible apply does_finalGroup
    | with_reducible refine Does.snd (by assumption) ?_
    | with_reducible refine Does.ite ?_ ?_
    | fail_if_no_progress (with_reducible refine Does.leaf ?_ ?_ ?_; pick_goal 2; (focus (simp +zetaDelta only [State.blank, cond_true, cond_false]; first | done | fail)); pick_goal 2; (focus (simp +zetaDelta only [watched]; first | done | fail)))
    | (dsimp +zetaDelta only)
    | split)

theorem does_openGroup {F : Parts} {s0 s : State} (j : Nat) (h : Does F s0 s)
    (hF : Parts.le { pac := true, swl := true, lft := true } F = true) : Does F s0 (openGroup j s) := by
  refine Does.weaken hF h ?_
  unfold openGroup
  repeat' (first
    | exact Eq.refl true
    | with_reducible exact Does.refl _ _
    | with_reducible assumption
    | ((fail_if_no_progress (extract_lets z)); refine Does.cut (z := z) ?_ (fun q => ?_); rotate_left; clear_value z)
    | ((fail_if_no_progress (extract_lets z)); refine Does.cutSnd (z := z) ?_ (fun q => ?_); rotate_left; clear_value z)
    | fail_if_no_progress (extract_lets z)
    | with_reducible apply does_loseJobs
    | with_reducible apply does_setStripe
    | with_reducible apply does_queueBin
    | with_reducible refine Does.snd (by assumption) ?_
    | (with_reducible refine Does.foldl ?_ (fun _ _ _ => ?_))
    | (with_reducible refine Does.foldlSnd ?_ (fun _ _ _ => ?_))
    | fail_if_no_progress (with_reducible refine Does.leaf ?_ ?_ ?_; pick_goal 2; (focus (simp +zetaDelta only [State.blank, cond_true, cond_false]; first | done | fail)); pick_goal 2; (focus (simp +zetaDelta only [watched]; first | done | fail)))
    | (dsimp +zetaDelta only)
    | split)

theorem does_execGroupQueueOpen {F : Parts} {s0 s : State}  (h : Does F s0 s)
    (hF : Parts.le { units := true, pac := true, swl := true, lft := true, obs := true } F = true) : DoesO F s0 (execGroupQueueOpen s) := by
  refine DoesO.weaken hF h ?_
  unfold execGroupQueueOpen
  repeat' (first
    | exact Eq.refl true
    | with_reducible exact Does.refl _ _
    | with_reducible assumption
    | ((fail_if_no_progress (extract_lets z)); refine Does.cut (z := z) ?_ (fun q => ?_); rotate_left; clear_value z)
    | ((fail_if_no_progress (extract_lets z)); refine DoesO.cut (z := z) ?_ (fun q => ?_); rotate_left; clear_value z)
    | fail_if_no_progress (extract_lets z)
    | with_reducible apply does_ok
    | with_reducible apply does_dealAll
    | with_reducible apply does_openGroup
    | with_reducible apply DoesO.next
    | with_reducible refine Does.snd (by assumption) ?_
    | with_reducible refine Does.ite ?_ ?_
    | with_reducible refine DoesO.ite ?_ ?_
    | fail_if_no_progress (with_reducible refine Does.leaf ?_ ?_ ?_; pick_goal 2; (focus (simp +zetaDelta only [State.blank, cond_true, cond_false]; first | done | fail)); pick_goal 2; (focus (simp +zetaDelta only [watched]; first | done | fail)))
    | (dsimp +zetaDelta only)
    | split)

theorem does_retireThresher {F : Parts} {s0 s : State} (t : Nat) (cause : Nat) (h : Does F s0 s)
    (hF : Parts.le { outs := true, glb := true, hst := true, units := true, pac := true, slo := true, obs := true } F = true) : Does F s0 (retireThresher t cause s) := by
  refine Does.weaken hF h ?_
  unfold retireThresher
  repeat' (first
    | exact Eq.refl true
    | with_reducible exact Does.refl _ _
    | with_reducible assumption
    | ((fail_if_no_progress (extract_lets z)); refine Does.cut (z := z) ?_ (fun q => ?_); rotate_left; clear_value z)
    | ((fail_if_no_progress (extract_lets z)); refine Does.cutSnd (z := z) ?_ (fun q => ?_); rotate_left; clear_value z)
    | fail_if_no_progress (extract_lets z)
    | with_reducible apply does_grpPut
    | with_reducible apply does_dealAll
    | with_reducible apply does_raiseItems
    | with_reducible refine Does.snd (by assumption) ?_
    | (with_reducible refine Does.foldl ?_ (fun _ _ _ => ?_))
    | (with_reducible refine Does.foldlSnd ?_ (fun _ _ _ => ?_))
    | with_reducible refine Does.ite ?_ ?_
    | fail_if_no_progress (with_reducible refine Does.leaf ?_ ?_ ?_; pick_goal 2; (focus (simp +zetaDelta only [State.blank, cond_true, cond_false]; first | done | fail)); pick_goal 2; (focus (simp +zetaDelta only [watched]; first | done | fail)))
    | (dsimp +zetaDelta only)
    | split)

theorem does_execRunComplete {F : Parts} {s0 s : State} (lane : Fin 256) (check : Option Bool) (h : Does F s0 s)
    (hF : Parts.le { outs := true, glb := true, hst := true, units := true, dos := true, pac := true, swl := true, slo := true, obs := true } F = true) : DoesO F s0 (execRunComplete lane check s) := by
  refine DoesO.weaken hF h ?_
  unfold execRunComplete
  repeat' (first
    | exact Eq.refl true
    | with_reducible exact Does.refl _ _
    | with_reducible assumption
    | ((fail_if_no_progress (extract_lets z)); refine Does.cut (z := z) ?_ (fun q => ?_); rotate_left; clear_value z)
    | ((fail_if_no_progress (extract_lets z)); refine Does.cutSnd (z := z) ?_ (fun q => ?_); rotate_left; clear_value z)
    | ((fail_if_no_progress (extract_lets z)); refine DoesO.cut (z := z) ?_ (fun q => ?_); rotate_left; clear_value z)
    | ((fail_if_no_progress (extract_lets z)); refine DoesO.cutSnd (z := z) ?_ (fun q => ?_); rotate_left; clear_value z)
    | fail_if_no_progress (extract_lets z)
    | with_reducible apply does_ok
    | with_reducible apply does_retireThresher
    | with_reducible apply does_deliverRun
    | with_reducible apply does_dealLane
    | with_reducible refine Does.snd (by assumption) ?_
    | with_reducible refine Does.ite ?_ ?_
    | with_reducible refine DoesO.ite ?_ ?_
    | fail_if_no_progress (with_reducible refine Does.leaf ?_ ?_ ?_; pick_goal 2; (focus (simp +zetaDelta only [State.blank, cond_true, cond_false]; first | done | fail)); pick_goal 2; (focus (simp +zetaDelta only [watched]; first | done | fail)))
    | (dsimp +zetaDelta only)
    | split)

theorem does_thrRetireOp {F : Parts} {s0 s : State} (v : Nat) (h : Does F s0 s)
    (hF : Parts.le { outs := true, glb := true, hst := true, units := true, pac := true, slo := true, obs := true } F = true) : Does F s0 (thrRetireOp v s) := by
  refine Does.weaken hF h ?_
  unfold thrRetireOp
  repeat' (first
    | exact Eq.refl true
    | with_reducible exact Does.refl _ _
    | with_reducible assumption
    | with_reducible apply does_retireThresher
    | with_reducible refine Does.ite ?_ ?_
    | split)

theorem does_execGroupBuilt {F : Parts} {s0 s : State}  (h : Does F s0 s)
    (hF : Parts.le { outs := true, free := true, glb := true, hst := true, units := true, pac := true, enc := true, twn := true, tim := true, slo := true, store := true, obs := true } F = true) : DoesO F s0 (execGroupBuilt s) := by
  refine DoesO.weaken hF h ?_
  unfold execGroupBuilt
  repeat' (first
    | exact Eq.refl true
    | with_reducible exact Does.refl _ _
    | with_reducible assumption
    | ((fail_if_no_progress (extract_lets z)); refine Does.cut (z := z) ?_ (fun q => ?_); rotate_left; clear_value z)
    | ((fail_if_no_progress (extract_lets z)); refine Does.cutSnd (z := z) ?_ (fun q => ?_); rotate_left; clear_value z)
    | ((fail_if_no_progress (extract_lets z)); refine DoesO.cut (z := z) ?_ (fun q => ?_); rotate_left; clear_value z)
    | ((fail_if_no_progress (extract_lets z)); refine DoesO.cutSnd (z := z) ?_ (fun q => ?_); rotate_left; clear_value z)
    | fail_if_no_progress (extract_lets z)
    | with_reducible apply does_ok
    | with_reducible apply does_cntThr
    | with_reducible apply does_voteGroup
    | with_reducible apply does_dxpSend
    | with_reducible apply does_grpPut
    | with_reducible apply does_finalGroup
    | with_reducible refine Does.snd (by assumption) ?_
    | with_reducible refine Does.ite ?_ ?_
    | with_reducible refine DoesO.ite ?_ ?_
    | fail_if_no_progress (with_reducible refine Does.leaf ?_ ?_ ?_; pick_goal 2; (focus (simp +zetaDelta only [State.blank, cond_true, cond_false]; first | done | fail)); pick_goal 2; (focus (simp +zetaDelta only [watched]; first | done | fail)))
    | (dsimp +zetaDelta only)
    | split)

theorem does_execRound2Built {F : Parts} {s0 s : State}  (h : Does F s0 s)
    (hF : Parts.le { outs := true, free := true, glb := true, hst := true, units := true, pac := true, enc := true, twn := true, tim := true, slo := true, store := true, obs := true } F = true) : DoesO F s0 (execRound2Built s) := by
  refine DoesO.weaken hF h ?_
  unfold execRound2Built
  repeat' (first
    | exact Eq.refl true
    | with_reducible exact Does.refl _ _
    | with_reducible assumption
    | ((fail_if_no_progress (extract_lets z)); refine Does.cut (z := z) ?_ (fun q => ?_); rotate_left; clear_value z)
    | ((fail_if_no_progress (extract_lets z)); refine Does.cutSnd (z := z) ?_ (fun q => ?_); rotate_left; clear_value z)
    | ((fail_if_no_progress (extract_lets z)); refine DoesO.cut (z := z) ?_ (fun q => ?_); rotate_left; clear_value z)
    | ((fail_if_no_progress (extract_lets z)); refine DoesO.cutSnd (z := z) ?_ (fun q => ?_); rotate_left; clear_value z)
    | fail_if_no_progress (extract_lets z)
    | with_reducible apply does_ok
    | with_reducible apply does_voteGroup
    | with_reducible apply does_dxpSend
    | with_reducible apply does_grpPut
    | with_reducible refine Does.snd (by assumption) ?_
    | fail_if_no_progress (with_reducible refine Does.leaf ?_ ?_ ?_; pick_goal 2; (focus (simp +zetaDelta only [State.blank, cond_true, cond_false]; first | done | fail)); pick_goal 2; (focus (simp +zetaDelta only [watched]; first | done | fail)))
    | (dsimp +zetaDelta only)
    | split)

theorem does_execGroupDeadline {F : Parts} {s0 s : State}  (h : Does F s0 s)
    (hF : Parts.le { outs := true, free := true, glb := true, hst := true, units := true, pac := true, enc := true, twn := true, tim := true, slo := true, store := true, obs := true } F = true) : DoesO F s0 (execGroupDeadline s) := by
  refine DoesO.weaken hF h ?_
  unfold execGroupDeadline
  repeat' (first
    | exact Eq.refl true
    | with_reducible exact Does.refl _ _
    | with_reducible assumption
    | ((fail_if_no_progress (extract_lets z)); refine Does.cut (z := z) ?_ (fun q => ?_); rotate_left; clear_value z)
    | ((fail_if_no_progress (extract_lets z)); refine DoesO.cut (z := z) ?_ (fun q => ?_); rotate_left; clear_value z)
    | fail_if_no_progress (extract_lets z)
    | with_reducible apply does_ok
    | with_reducible apply does_deadline
    | with_reducible apply DoesO.next
    | with_reducible refine Does.snd (by assumption) ?_
    | fail_if_no_progress (with_reducible refine Does.leaf ?_ ?_ ?_; pick_goal 2; (focus (simp +zetaDelta only [State.blank, cond_true, cond_false]; first | done | fail)); pick_goal 2; (focus (simp +zetaDelta only [watched]; first | done | fail)))
    | (dsimp +zetaDelta only)
    | split)

theorem does_execRleJobComplete {F : Parts} {s0 s : State} (unit : Fin 32) (h : Does F s0 s)
    (hF : Parts.le { pac := true, lft := true, obs := true } F = true) : DoesO F s0 (execRleJobComplete unit s) := by
  refine DoesO.weaken hF h ?_
  unfold execRleJobComplete
  repeat' (first
    | exact Eq.refl true
    | with_reducible exact Does.refl _ _
    | with_reducible assumption
    | ((fail_if_no_progress (extract_lets z)); refine Does.cut (z := z) ?_ (fun q => ?_); rotate_left; clear_value z)
    | ((fail_if_no_progress (extract_lets z)); refine Does.cutSnd (z := z) ?_ (fun q => ?_); rotate_left; clear_value z)
    | ((fail_if_no_progress (extract_lets z)); refine DoesO.cut (z := z) ?_ (fun q => ?_); rotate_left; clear_value z)
    | ((fail_if_no_progress (extract_lets z)); refine DoesO.cutSnd (z := z) ?_ (fun q => ?_); rotate_left; clear_value z)
    | fail_if_no_progress (extract_lets z)
    | with_reducible apply does_ok
    | with_reducible apply does_cntShv
    | with_reducible apply does_setStripe
    | with_reducible apply does_startWorkUnits
    | with_reducible refine Does.snd (by assumption) ?_
    | fail_if_no_progress (with_reducible refine Does.leaf ?_ ?_ ?_; pick_goal 2; (focus (simp +zetaDelta only [State.blank, cond_true, cond_false]; first | done | fail)); pick_goal 2; (focus (simp +zetaDelta only [watched]; first | done | fail)))
    | (dsimp +zetaDelta only)
    | split)

theorem does_admitNoUnits {F : Parts} {s0 s : State}  (h : Does F s0 s)
    (hF : Parts.le { chk := true, pac := true, lft := true } F = true) : Does F s0 (admitNoUnits s) := by
  refine Does.weaken hF h ?_
  unfold admitNoUnits
  repeat' (first
    | exact Eq.refl true
    | with_reducible exact Does.refl _ _
    | with_reducible assumption
    | ((fail_if_no_progress (extract_lets z)); refine Does.cut (z := z) ?_ (fun q => ?_); rotate_left; clear_value z)
    | fail_if_no_progress (extract_lets z)
    | with_reducible apply does_putAdm
    | with_reducible apply does_dropWaits
    | with_reducible apply does_endAdmWork
    | with_reducible refine Does.snd (by assumption) ?_
    | with_reducible refine Does.ite ?_ ?_
    | fail_if_no_progress (with_reducible refine Does.leaf ?_ ?_ ?_; pick_goal 2; (focus (simp +zetaDelta only [State.blank, cond_true, cond_false]; first | done | fail)); pick_goal 2; (focus (simp +zetaDelta only [watched]; first | done | fail)))
    | (dsimp +zetaDelta only)
    | split)

theorem does_execIngestUnitFailure {F : Parts} {s0 s : State} (unit : Fin 32) (h : Does F s0 s)
    (hF : Parts.le { outs := true, free := true, glb := true, hst := true, chk := true, units := true, pac := true, enc := true, twn := true, lft := true, tim := true, slo := true, store := true, obs := true } F = true) : DoesO F s0 (execIngestUnitFailure unit s) := by
  refine DoesO.weaken hF h ?_
  unfold execIngestUnitFailure
  repeat' (first
    | exact Eq.refl true
    | with_reducible exact Does.refl _ _
    | with_reducible assumption
    | ((fail_if_no_progress (extract_lets z)); refine Does.cut (z := z) ?_ (fun q => ?_); rotate_left; clear_value z)
    | ((fail_if_no_progress (extract_lets z)); refine Does.cutSnd (z := z) ?_ (fun q => ?_); rotate_left; clear_value z)
    | ((fail_if_no_progress (extract_lets z)); refine DoesO.cut (z := z) ?_ (fun q => ?_); rotate_left; clear_value z)
    | ((fail_if_no_progress (extract_lets z)); refine DoesO.cutSnd (z := z) ?_ (fun q => ?_); rotate_left; clear_value z)
    | fail_if_no_progress (extract_lets z)
    | with_reducible apply does_ok
    | with_reducible apply does_admitNoUnits
    | with_reducible apply does_raiseItems
    | with_reducible apply does_cntShv
    | with_reducible apply does_setStripe
    | with_reducible apply does_loseJobs
    | with_reducible apply does_raiseStripeLoss
    | with_reducible apply does_abortOrDiscardFree
    | with_reducible apply does_startWorkUnits
    | with_reducible apply DoesO.next
    | with_reducible refine Does.snd (by assumption) ?_
    | (with_reducible refine Does.foldl ?_ (fun _ _ _ => ?_))
    | (with_reducible refine Does.foldlSnd ?_ (fun _ _ _ => ?_))
    | with_reducible refine Does.ite ?_ ?_
    | with_reducible refine DoesO.ite ?_ ?_
    | fail_if_no_progress (with_reducible refine Does.leaf ?_ ?_ ?_; pick_goal 2; (focus (simp +zetaDelta only [State.blank, cond_true, cond_false]; first | done | fail)); pick_goal 2; (focus (simp +zetaDelta only [watched]; first | done | fail)))
    | (dsimp +zetaDelta only)
    | split)

theorem does_execCribFillComplete {F : Parts} {s0 s : State}  (h : Does F s0 s)
    (hF : Parts.le { pac := true } F = true) : DoesO F s0 (execCribFillComplete s) := by
  refine DoesO.weaken hF h ?_
  unfold execCribFillComplete
  repeat' (first
    | exact Eq.refl true
    | with_reducible exact Does.refl _ _
    | with_reducible assumption
    | ((fail_if_no_progress (extract_lets z)); refine Does.cut (z := z) ?_ (fun q => ?_); rotate_left; clear_value z)
    | ((fail_if_no_progress (extract_lets z)); refine DoesO.cut (z := z) ?_ (fun q => ?_); rotate_left; clear_value z)
    | fail_if_no_progress (extract_lets z)
    | with_reducible apply does_ok
    | with_reducible apply does_setStripe
    | with_reducible refine Does.snd (by assumption) ?_
    | fail_if_no_progress (with_reducible refine Does.leaf ?_ ?_ ?_; pick_goal 2; (focus (simp +zetaDelta only [State.blank, cond_true, cond_false]; first | done | fail)); pick_goal 2; (focus (simp +zetaDelta only [watched]; first | done | fail)))
    | (dsimp +zetaDelta only)
    | split)

end Sys2Proof.Machine
end

