-- ==== Sys2Proof/Laws/DoesArm.lean ====
section
/-! SUPPORT. What each operation of Machine/Arm.lean touches at most, and that it keeps the bounds. -/

-- One theorem at a time: elaborating the package as one text in many threads at once takes more memory than the check allows.
set_option Elab.async false

set_option linter.unusedSimpArgs false
set_option linter.unusedTactic false
set_option linter.unreachableTactic false

namespace Sys2Proof.Machine

theorem does_reportBeamMap {F : Parts} {s0 s : State} (P : Nat) (h : Does F s0 s)
    (hF : Parts.le { outs := true, glb := true, hst := true, slo := true, obs := true } F = true) : Does F s0 (reportBeamMap P s) := by
  refine Does.weaken hF h ?_
  unfold reportBeamMap
  repeat' (first
    | exact Eq.refl true
    | with_reducible exact Does.refl _ _
    | with_reducible assumption
    | ((fail_if_no_progress (extract_lets z)); refine Does.cut (z := z) ?_ (fun q => ?_); rotate_left; clear_value z)
    | ((fail_if_no_progress (extract_lets z)); refine Does.cutSnd (z := z) ?_ (fun q => ?_); rotate_left; clear_value z)
    | fail_if_no_progress (extract_lets z)
    | with_reducible apply does_raiseItems
    | (with_reducible refine Does.foldl ?_ (fun _ _ _ => ?_))
    | (with_reducible refine Does.foldlSnd ?_ (fun _ _ _ => ?_))
    | (dsimp +zetaDelta only))

theorem does_beginArm {F : Parts} {s0 s : State} (x1 : Admission) (q : ArmReq) (h : Does F s0 s)
    (hF : Parts.le { outs := true, glb := true, hst := true, units := true, dos := true, pac := true, enc := true, twn := true, lft := true, slo := true, obs := true } F = true) : Does F s0 (beginArm x1 q s) := by
  refine Does.weaken hF h ?_
  unfold beginArm
  repeat' (first
    | exact Eq.refl true
    | with_reducible exact Does.refl _ _
    | with_reducible assumption
    | ((fail_if_no_progress (extract_lets z)); refine Does.cut (z := z) ?_ (fun q => ?_); rotate_left; clear_value z)
    | ((fail_if_no_progress (extract_lets z)); refine Does.cutSnd (z := z) ?_ (fun q => ?_); rotate_left; clear_value z)
    | fail_if_no_progress (extract_lets z)
    | with_reducible apply does_startWorkUnits
    | with_reducible apply does_reportBeamMap
    | with_reducible apply does_cmdRun
    | fail_if_no_progress (with_reducible refine Does.leaf ?_ ?_ ?_; pick_goal 2; (focus (simp +zetaDelta only [State.blank, cond_true, cond_false]; first | done | fail)); pick_goal 2; (focus (simp +zetaDelta only [watched]; first | done | fail)))
    | (dsimp +zetaDelta only))

theorem does_armEnd {F : Parts} {s0 s : State} (status : Nat) (h : Does F s0 s)
    (hF : Parts.le { outs := true, glb := true, hst := true, units := true, pac := true, enc := true, twn := true, slo := true, store := true, obs := true } F = true) : Does F s0 (armEnd status s) := by
  refine Does.weaken hF h ?_
  unfold armEnd
  repeat' (first
    | exact Eq.refl true
    | with_reducible exact Does.refl _ _
    | with_reducible assumption
    | ((fail_if_no_progress (extract_lets z)); refine Does.cut (z := z) ?_ (fun q => ?_); rotate_left; clear_value z)
    | ((fail_if_no_progress (extract_lets z)); refine Does.cutSnd (z := z) ?_ (fun q => ?_); rotate_left; clear_value z)
    | fail_if_no_progress (extract_lets z)
    | with_reducible apply does_discardStripe
    | with_reducible apply does_setStripe
    | with_reducible apply does_completeOpt
    | with_reducible refine Does.snd (by assumption) ?_
    | with_reducible refine Does.ite ?_ ?_
    | fail_if_no_progress (with_reducible refine Does.leaf ?_ ?_ ?_; pick_goal 2; (focus (simp +zetaDelta only [State.blank, cond_true, cond_false]; first | done | fail)); pick_goal 2; (focus (simp +zetaDelta only [watched]; first | done | fail)))
    | (dsimp +zetaDelta only)
    | split)

theorem does_armBoth {F : Parts} {s0 s : State}  (h : Does F s0 s)
    (hF : Parts.le { outs := true, glb := true, hst := true, units := true, pac := true, enc := true, twn := true, slo := true, store := true, obs := true } F = true) : Does F s0 (armBoth s) := by
  refine Does.weaken hF h ?_
  unfold armBoth
  repeat' (first
    | exact Eq.refl true
    | with_reducible exact Does.refl _ _
    | with_reducible assumption
    | ((fail_if_no_progress (extract_lets z)); refine Does.cut (z := z) ?_ (fun q => ?_); rotate_left; clear_value z)
    | fail_if_no_progress (extract_lets z)
    | with_reducible apply does_armEnd
    | with_reducible refine Does.snd (by assumption) ?_
    | fail_if_no_progress (with_reducible refine Does.leaf ?_ ?_ ?_; pick_goal 2; (focus (simp +zetaDelta only [State.blank, cond_true, cond_false]; first | done | fail)); pick_goal 2; (focus (simp +zetaDelta only [watched]; first | done | fail)))
    | (dsimp +zetaDelta only)
    | split)

theorem does_armRefuse {F : Parts} {s0 s : State} (status : Nat) (h : Does F s0 s)
    (hF : Parts.le { outs := true, glb := true, hst := true, units := true, pac := true, enc := true, twn := true, slo := true, store := true, obs := true } F = true) : Does F s0 (armRefuse status s) := by
  refine Does.weaken hF h ?_
  unfold armRefuse
  repeat' (first
    | exact Eq.refl true
    | with_reducible exact Does.refl _ _
    | with_reducible assumption
    | with_reducible apply does_armEnd
    | with_reducible apply does_dxpSend
    | with_reducible refine Does.ite ?_ ?_
    | split)

theorem does_armConclude {F : Parts} {s0 s : State}  (h : Does F s0 s)
    (hF : Parts.le { outs := true, glb := true, hst := true, units := true, pac := true, enc := true, twn := true, slo := true, store := true, obs := true } F = true) : Does F s0 (armConclude s) := by
  refine Does.weaken hF h ?_
  unfold armConclude
  repeat' (first
    | exact Eq.refl true
    | with_reducible exact Does.refl _ _
    | with_reducible assumption
    | ((fail_if_no_progress (extract_lets z)); refine Does.cut (z := z) ?_ (fun q => ?_); rotate_left; clear_value z)
    | ((fail_if_no_progress (extract_lets z)); refine Does.cutSnd (z := z) ?_ (fun q => ?_); rotate_left; clear_value z)
    | fail_if_no_progress (extract_lets z)
    | with_reducible apply does_armBoth
    | with_reducible apply does_dxpSend
    | with_reducible refine Does.snd (by assumption) ?_
    | with_reducible refine Does.ite ?_ ?_
    | fail_if_no_progress (with_reducible refine Does.leaf ?_ ?_ ?_; pick_goal 2; (focus (simp +zetaDelta only [State.blank, cond_true, cond_false]; first | done | fail)); pick_goal 2; (focus (simp +zetaDelta only [watched]; first | done | fail)))
    | (dsimp +zetaDelta only)
    | split)

theorem does_prerollEnd {F : Parts} {s0 s : State} (st : Stripe) (h : Does F s0 s)
    (hF : Parts.le { outs := true, glb := true, hst := true, units := true, pac := true, enc := true, twn := true, slo := true, store := true, obs := true } F = true) : Does F s0 (prerollEnd st s) := by
  refine Does.weaken hF h ?_
  unfold prerollEnd
  repeat' (first
    | exact Eq.refl true
    | with_reducible exact Does.refl _ _
    | with_reducible assumption
    | ((fail_if_no_progress (extract_lets z)); refine Does.cut (z := z) ?_ (fun q => ?_); rotate_left; clear_value z)
    | ((fail_if_no_progress (extract_lets z)); refine Does.cutSnd (z := z) ?_ (fun q => ?_); rotate_left; clear_value z)
    | fail_if_no_progress (extract_lets z)
    | with_reducible apply does_armRefuse
    | with_reducible apply does_armEnd
    | with_reducible apply does_armConclude
    | with_reducible apply does_dxpSend
    | with_reducible refine Does.ite ?_ ?_
    | fail_if_no_progress (with_reducible refine Does.leaf ?_ ?_ ?_; pick_goal 2; (focus (simp +zetaDelta only [State.blank, cond_true, cond_false]; first | done | fail)); pick_goal 2; (focus (simp +zetaDelta only [watched]; first | done | fail)))
    | (dsimp +zetaDelta only)
    | split)

theorem does_execStripeArm {F : Parts} {s0 s : State} (id : Nat) (h : Does F s0 s)
    (hF : Parts.le { outs := true, glb := true, hst := true, units := true, dos := true, pac := true, enc := true, twn := true, lft := true, slo := true, obs := true } F = true) : DoesO F s0 (execStripeArm id s) := by
  refine DoesO.weaken hF h ?_
  unfold execStripeArm
  repeat' (first
    | exact Eq.refl true
    | with_reducible exact Does.refl _ _
    | with_reducible assumption
    | ((fail_if_no_progress (extract_lets z)); refine Does.cut (z := z) ?_ (fun q => ?_); rotate_left; clear_value z)
    | ((fail_if_no_progress (extract_lets z)); refine Does.cutSnd (z := z) ?_ (fun q => ?_); rotate_left; clear_value z)
    | ((fail_if_no_progress (extract_lets z)); refine DoesO.cut (z := z) ?_ (fun q => ?_); rotate_left; clear_value z)
    | ((fail_if_no_progress (extract_lets z)); refine DoesO.cutSnd (z := z) ?_ (fun q => ?_); rotate_left; clear_value z)
    | fail_if_no_progress (extract_lets z)
    | with_reducible apply does_ok
    | with_reducible apply does_complete
    | with_reducible apply does_beginArm
    | with_reducible refine Does.snd (by assumption) ?_
    | with_reducible refine Does.ite ?_ ?_
    | with_reducible refine DoesO.ite ?_ ?_
    | fail_if_no_progress (with_reducible refine Does.leaf ?_ ?_ ?_; pick_goal 2; (focus (simp +zetaDelta only [State.blank, cond_true, cond_false]; first | done | fail)); pick_goal 2; (focus (simp +zetaDelta only [watched]; first | done | fail)))
    | (dsimp +zetaDelta only)
    | split)

theorem does_execPrerollComplete {F : Parts} {s0 s : State}  (h : Does F s0 s)
    (hF : Parts.le { outs := true, glb := true, hst := true, units := true, pac := true, enc := true, twn := true, slo := true, store := true, obs := true } F = true) : DoesO F s0 (execPrerollComplete s) := by
  refine DoesO.weaken hF h ?_
  unfold execPrerollComplete
  repeat' (first
    | exact Eq.refl true
    | with_reducible exact Does.refl _ _
    | with_reducible assumption
    | ((fail_if_no_progress (extract_lets z)); refine Does.cut (z := z) ?_ (fun q => ?_); rotate_left; clear_value z)
    | ((fail_if_no_progress (extract_lets z)); refine DoesO.cut (z := z) ?_ (fun q => ?_); rotate_left; clear_value z)
    | fail_if_no_progress (extract_lets z)
    | with_reducible apply does_ok
    | with_reducible apply does_prerollEnd
    | with_reducible refine Does.snd (by assumption) ?_
    | with_reducible refine Does.ite ?_ ?_
    | with_reducible refine DoesO.ite ?_ ?_
    | fail_if_no_progress (with_reducible refine Does.leaf ?_ ?_ ?_; pick_goal 2; (focus (simp +zetaDelta only [State.blank, cond_true, cond_false]; first | done | fail)); pick_goal 2; (focus (simp +zetaDelta only [watched]; first | done | fail)))
    | (dsimp +zetaDelta only)
    | split)

theorem does_execDxpArmReady {F : Parts} {s0 s : State} (m : ArmReady) (h : Does F s0 s)
    (hF : Parts.le { outs := true, glb := true, hst := true, units := true, pac := true, enc := true, twn := true, slo := true, store := true, obs := true } F = true) : DoesO F s0 (execDxpArmReady m s) := by
  refine DoesO.weaken hF h ?_
  unfold execDxpArmReady
  repeat' (first
    | exact Eq.refl true
    | with_reducible exact Does.refl _ _
    | with_reducible assumption
    | ((fail_if_no_progress (extract_lets z)); refine Does.cut (z := z) ?_ (fun q => ?_); rotate_left; clear_value z)
    | ((fail_if_no_progress (extract_lets z)); refine DoesO.cut (z := z) ?_ (fun q => ?_); rotate_left; clear_value z)
    | fail_if_no_progress (extract_lets z)
    | with_reducible apply does_ok
    | with_reducible apply does_armConclude
    | with_reducible refine Does.ite ?_ ?_
    | with_reducible refine DoesO.ite ?_ ?_
    | fail_if_no_progress (with_reducible refine Does.leaf ?_ ?_ ?_; pick_goal 2; (focus (simp +zetaDelta only [State.blank, cond_true, cond_false]; first | done | fail)); pick_goal 2; (focus (simp +zetaDelta only [watched]; first | done | fail)))
    | (dsimp +zetaDelta only)
    | split)

theorem does_execDxpArmResult {F : Parts} {s0 s : State} (status : W32) (h : Does F s0 s)
    (hF : Parts.le { outs := true, glb := true, hst := true, units := true, pac := true, enc := true, twn := true, slo := true, store := true, obs := true } F = true) : DoesO F s0 (execDxpArmResult status s) := by
  refine DoesO.weaken hF h ?_
  unfold execDxpArmResult
  repeat' (first
    | exact Eq.refl true
    | with_reducible exact Does.refl _ _
    | with_reducible assumption
    | ((fail_if_no_progress (extract_lets z)); refine Does.cut (z := z) ?_ (fun q => ?_); rotate_left; clear_value z)
    | ((fail_if_no_progress (extract_lets z)); refine Does.cutSnd (z := z) ?_ (fun q => ?_); rotate_left; clear_value z)
    | ((fail_if_no_progress (extract_lets z)); refine DoesO.cut (z := z) ?_ (fun q => ?_); rotate_left; clear_value z)
    | ((fail_if_no_progress (extract_lets z)); refine DoesO.cutSnd (z := z) ?_ (fun q => ?_); rotate_left; clear_value z)
    | fail_if_no_progress (extract_lets z)
    | with_reducible apply does_ok
    | with_reducible apply does_armEnd
    | with_reducible apply does_armBoth
    | with_reducible refine Does.ite ?_ ?_
    | with_reducible refine DoesO.ite ?_ ?_
    | fail_if_no_progress (with_reducible refine Does.leaf ?_ ?_ ?_; pick_goal 2; (focus (simp +zetaDelta only [State.blank, cond_true, cond_false]; first | done | fail)); pick_goal 2; (focus (simp +zetaDelta only [watched]; first | done | fail)))
    | (dsimp +zetaDelta only)
    | split)

theorem does_execTwinArmTimeout {F : Parts} {s0 s : State}  (h : Does F s0 s)
    (hF : Parts.le { outs := true, glb := true, hst := true, units := true, pac := true, enc := true, twn := true, slo := true, store := true, obs := true } F = true) : DoesO F s0 (execTwinArmTimeout s) := by
  refine DoesO.weaken hF h ?_
  unfold execTwinArmTimeout
  repeat' (first
    | exact Eq.refl true
    | with_reducible exact Does.refl _ _
    | with_reducible assumption
    | ((fail_if_no_progress (extract_lets z)); refine Does.cut (z := z) ?_ (fun q => ?_); rotate_left; clear_value z)
    | ((fail_if_no_progress (extract_lets z)); refine DoesO.cut (z := z) ?_ (fun q => ?_); rotate_left; clear_value z)
    | fail_if_no_progress (extract_lets z)
    | with_reducible apply does_ok
    | with_reducible apply does_armRefuse
    | with_reducible refine Does.snd (by assumption) ?_
    | with_reducible refine Does.ite ?_ ?_
    | with_reducible refine DoesO.ite ?_ ?_
    | fail_if_no_progress (with_reducible refine Does.leaf ?_ ?_ ?_; pick_goal 2; (focus (simp +zetaDelta only [State.blank, cond_true, cond_false]; first | done | fail)); pick_goal 2; (focus (simp +zetaDelta only [watched]; first | done | fail)))
    | (dsimp +zetaDelta only)
    | split)

theorem does_abortStripe {F : Parts} {s0 s : State} (id : Nat) (st : Stripe) (h : Does F s0 s)
    (hF : Parts.le { outs := true, free := true, glb := true, hst := true, units := true, pac := true, enc := true, twn := true, tim := true, slo := true, store := true, obs := true } F = true) : Does F s0 (abortStripe id st s) := by
  refine Does.weaken hF h ?_
  unfold abortStripe
  repeat' (first
    | exact Eq.refl true
    | with_reducible exact Does.refl _ _
    | with_reducible assumption
    | ((fail_if_no_progress (extract_lets z)); refine Does.cut (z := z) ?_ (fun q => ?_); rotate_left; clear_value z)
    | ((fail_if_no_progress (extract_lets z)); refine Does.cutSnd (z := z) ?_ (fun q => ?_); rotate_left; clear_value z)
    | fail_if_no_progress (extract_lets z)
    | with_reducible apply does_abortOrDiscardFree
    | with_reducible apply does_abortOrDiscard
    | with_reducible apply does_complete
    | with_reducible refine Does.ite ?_ ?_
    | (dsimp +zetaDelta only)
    | split)

theorem does_execStripeAbort {F : Parts} {s0 s : State} (id : Nat) (h : Does F s0 s)
    (hF : Parts.le { outs := true, free := true, glb := true, hst := true, chk := true, units := true, pac := true, enc := true, twn := true, lft := true, tim := true, slo := true, store := true, obs := true } F = true) : DoesO F s0 (execStripeAbort id s) := by
  refine DoesO.weaken hF h ?_
  unfold execStripeAbort
  repeat' (first
    | exact Eq.refl true
    | with_reducible exact Does.refl _ _
    | with_reducible assumption
    | ((fail_if_no_progress (extract_lets z)); refine Does.cut (z := z) ?_ (fun q => ?_); rotate_left; clear_value z)
    | ((fail_if_no_progress (extract_lets z)); refine DoesO.cut (z := z) ?_ (fun q => ?_); rotate_left; clear_value z)
    | fail_if_no_progress (extract_lets z)
    | with_reducible apply does_ok
    | with_reducible apply does_complete
    | with_reducible apply does_abortStripe
    | with_reducible apply does_dropAdmission
    | with_reducible refine Does.snd (by assumption) ?_
    | with_reducible refine Does.ite ?_ ?_
    | with_reducible refine DoesO.ite ?_ ?_
    | fail_if_no_progress (with_reducible refine Does.leaf ?_ ?_ ?_; pick_goal 2; (focus (simp +zetaDelta only [State.blank, cond_true, cond_false]; first | done | fail)); pick_goal 2; (focus (simp +zetaDelta only [watched]; first | done | fail)))
    | (dsimp +zetaDelta only)
    | split)

theorem does_execMakeupArmList {F : Parts} {s0 s : State} (id : Nat) (h : Does F s0 s)
    (hF : Parts.le { outs := true, hst := true, obs := true } F = true) : DoesO F s0 (execMakeupArmList id s) := by
  refine DoesO.weaken hF h ?_
  unfold execMakeupArmList
  repeat' (first
    | exact Eq.refl true
    | with_reducible exact Does.refl _ _
    | with_reducible assumption
    | ((fail_if_no_progress (extract_lets z)); refine Does.cut (z := z) ?_ (fun q => ?_); rotate_left; clear_value z)
    | ((fail_if_no_progress (extract_lets z)); refine Does.cutSnd (z := z) ?_ (fun q => ?_); rotate_left; clear_value z)
    | ((fail_if_no_progress (extract_lets z)); refine DoesO.cut (z := z) ?_ (fun q => ?_); rotate_left; clear_value z)
    | ((fail_if_no_progress (extract_lets z)); refine DoesO.cutSnd (z := z) ?_ (fun q => ?_); rotate_left; clear_value z)
    | fail_if_no_progress (extract_lets z)
    | with_reducible apply does_ok
    | with_reducible apply does_complete
    | with_reducible apply does_emit
    | with_reducible refine Does.snd (by assumption) ?_
    | with_reducible refine Does.ite ?_ ?_
    | with_reducible refine DoesO.ite ?_ ?_
    | fail_if_no_progress (with_reducible refine Does.leaf ?_ ?_ ?_; pick_goal 2; (focus (simp +zetaDelta only [State.blank, cond_true, cond_false]; first | done | fail)); pick_goal 2; (focus (simp +zetaDelta only [watched]; first | done | fail)))
    | (dsimp +zetaDelta only)
    | split)

theorem does_armMakeup {F : Parts} {s0 s : State} (id : Nat) (c : Cmd) (x1 : Admission) (recs : List MkRec) (h : Does F s0 s)
    (hF : Parts.le { outs := true, glb := true, hst := true, units := true, dos := true, pac := true, enc := true, twn := true, lft := true, slo := true, obs := true } F = true) : Does F s0 (armMakeup id c x1 recs s) := by
  refine Does.weaken hF h ?_
  unfold armMakeup
  repeat' (first
    | exact Eq.refl true
    | with_reducible exact Does.refl _ _
    | with_reducible assumption
    | ((fail_if_no_progress (extract_lets z)); refine Does.cut (z := z) ?_ (fun q => ?_); rotate_left; clear_value z)
    | ((fail_if_no_progress (extract_lets z)); refine Does.cutSnd (z := z) ?_ (fun q => ?_); rotate_left; clear_value z)
    | fail_if_no_progress (extract_lets z)
    | with_reducible apply does_complete
    | with_reducible apply does_beginArm
    | with_reducible refine Does.snd (by assumption) ?_
    | (with_reducible refine Does.foldl ?_ (fun _ _ _ => ?_))
    | (with_reducible refine Does.foldlSnd ?_ (fun _ _ _ => ?_))
    | with_reducible refine Does.ite ?_ ?_
    | fail_if_no_progress (with_reducible refine Does.leaf ?_ ?_ ?_; pick_goal 2; (focus (simp +zetaDelta only [State.blank, cond_true, cond_false]; first | done | fail)); pick_goal 2; (focus (simp +zetaDelta only [watched]; first | done | fail)))
    | (dsimp +zetaDelta only)
    | split)

theorem does_execMakeupArmArm {F : Parts} {s0 s : State} (id : Nat) (data : Option (List Byte)) (h : Does F s0 s)
    (hF : Parts.le { outs := true, glb := true, hst := true, units := true, dos := true, pac := true, enc := true, twn := true, lft := true, slo := true, obs := true } F = true) : DoesO F s0 (execMakeupArmArm id data s) := by
  refine DoesO.weaken hF h ?_
  unfold execMakeupArmArm
  repeat' (first
    | exact Eq.refl true
    | with_reducible exact Does.refl _ _
    | with_reducible assumption
    | with_reducible exact DoesO.fault _
    | ((fail_if_no_progress (extract_lets z)); refine Does.cut (z := z) ?_ (fun q => ?_); rotate_left; clear_value z)
    | ((fail_if_no_progress (extract_lets z)); refine Does.cutSnd (z := z) ?_ (fun q => ?_); rotate_left; clear_value z)
    | ((fail_if_no_progress (extract_lets z)); refine DoesO.cut (z := z) ?_ (fun q => ?_); rotate_left; clear_value z)
    | ((fail_if_no_progress (extract_lets z)); refine DoesO.cutSnd (z := z) ?_ (fun q => ?_); rotate_left; clear_value z)
    | fail_if_no_progress (extract_lets z)
    | with_reducible apply does_ok
    | with_reducible apply does_complete
    | with_reducible apply does_withLen
    | with_reducible apply does_armMakeup
    | with_reducible refine Does.snd (by assumption) ?_
    | with_reducible refine Does.ite ?_ ?_
    | with_reducible refine DoesO.ite ?_ ?_
    | fail_if_no_progress (with_reducible refine Does.leaf ?_ ?_ ?_; pick_goal 2; (focus (simp +zetaDelta only [State.blank, cond_true, cond_false]; first | done | fail)); pick_goal 2; (focus (simp +zetaDelta only [watched]; first | done | fail)))
    | (dsimp +zetaDelta only)
    | split)

end Sys2Proof.Machine
end

