-- ==== Sys2Proof/Laws/DoesSwath.lean ====
section
/-! SUPPORT. What each operation of Machine/Swath.lean touches at most, and that it keeps the bounds. -/

-- One theorem at a time: elaborating the package as one text in many threads at once takes more memory than the check allows.
set_option Elab.async false

set_option linter.unusedSimpArgs false
set_option linter.unusedTactic false
set_option linter.unreachableTactic false

namespace Sys2Proof.Machine

theorem does_settleFrames {F : Parts} {s0 s : State} (cur : Bool) (l : Nat) (f : Nat × FrameFate × Bool → Nat × FrameFate × Bool) (h : Does F s0 s)
    (hF : Parts.le { outs := true, glb := true, hst := true, pac := true, slo := true, store := true, obs := true } F = true) : Does F s0 (settleFrames cur l f s) := by
  refine Does.weaken hF h ?_
  unfold settleFrames
  repeat' (first
    | exact Eq.refl true
    | with_reducible exact Does.refl _ _
    | with_reducible assumption
    | ((fail_if_no_progress (extract_lets z)); refine Does.cut (z := z) ?_ (fun q => ?_); rotate_left; clear_value z)
    | ((fail_if_no_progress (extract_lets z)); refine Does.cutSnd (z := z) ?_ (fun q => ?_); rotate_left; clear_value z)
    | fail_if_no_progress (extract_lets z)
    | with_reducible apply does_settleLane
    | with_reducible apply does_cntSwl
    | with_reducible refine Does.snd (by assumption) ?_
    | with_reducible refine Does.ite ?_ ?_
    | fail_if_no_progress (with_reducible refine Does.leaf ?_ ?_ ?_; pick_goal 2; (focus (simp +zetaDelta only [State.blank, cond_true, cond_false]; first | done | fail)); pick_goal 2; (focus (simp +zetaDelta only [watched]; first | done | fail)))
    | (dsimp +zetaDelta only)
    | split)

theorem does_cutFrame {F : Parts} {s0 s : State} (l : Nat) (h : Does F s0 s)
    (hF : Parts.le { outs := true, glb := true, hst := true, pac := true, swl := true, slo := true, store := true, obs := true } F = true) : Does F s0 (cutFrame l s) := by
  refine Does.weaken hF h ?_
  unfold cutFrame
  repeat' (first
    | exact Eq.refl true
    | with_reducible exact Does.refl _ _
    | with_reducible assumption
    | ((fail_if_no_progress (extract_lets z)); refine Does.cut (z := z) ?_ (fun q => ?_); rotate_left; clear_value z)
    | ((fail_if_no_progress (extract_lets z)); refine Does.cutSnd (z := z) ?_ (fun q => ?_); rotate_left; clear_value z)
    | fail_if_no_progress (extract_lets z)
    | with_reducible apply does_emit
    | with_reducible apply does_laneSet
    | with_reducible apply does_settleFrames
    | with_reducible refine Does.snd (by assumption) ?_
    | with_reducible refine Does.ite ?_ ?_
    | fail_if_no_progress (with_reducible refine Does.leaf ?_ ?_ ?_; pick_goal 2; (focus (simp +zetaDelta only [State.blank, cond_true, cond_false]; first | done | fail)); pick_goal 2; (focus (simp +zetaDelta only [watched]; first | done | fail)))
    | (dsimp +zetaDelta only)
    | split)

theorem does_laneTo {F : Parts} {s0 s : State} (l : Nat) (goal : LaneState) (cause : Nat) (h : Does F s0 s)
    (hF : Parts.le { outs := true, glb := true, hst := true, pac := true, swl := true, slo := true, store := true, obs := true } F = true) : Does F s0 (laneTo l goal cause s) := by
  refine Does.weaken hF h ?_
  unfold laneTo
  repeat' (first
    | exact Eq.refl true
    | with_reducible exact Does.refl _ _
    | with_reducible assumption
    | ((fail_if_no_progress (extract_lets z)); refine Does.cut (z := z) ?_ (fun q => ?_); rotate_left; clear_value z)
    | ((fail_if_no_progress (extract_lets z)); refine Does.cutSnd (z := z) ?_ (fun q => ?_); rotate_left; clear_value z)
    | fail_if_no_progress (extract_lets z)
    | with_reducible apply does_raiseItems
    | with_reducible apply does_laneSet
    | with_reducible apply does_cutFrame
    | with_reducible refine Does.ite ?_ ?_
    | fail_if_no_progress (with_reducible refine Does.leaf ?_ ?_ ?_; pick_goal 2; (focus (simp +zetaDelta only [State.blank, cond_true, cond_false]; first | done | fail)); pick_goal 2; (focus (simp +zetaDelta only [watched]; first | done | fail)))
    | (dsimp +zetaDelta only)
    | split)

theorem does_takeChecked {F : Parts} {s0 s : State} (l : Nat) (h : Does F s0 s)
    (hF : Parts.le { free := true, swl := true } F = true) : Does F s0 (takeChecked l s) := by
  refine Does.weaken hF h ?_
  unfold takeChecked
  repeat' (first
    | exact Eq.refl true
    | with_reducible exact Does.refl _ _
    | with_reducible assumption
    | ((fail_if_no_progress (extract_lets z)); refine Does.cut (z := z) ?_ (fun q => ?_); rotate_left; clear_value z)
    | ((fail_if_no_progress (extract_lets z)); refine Does.cutSnd (z := z) ?_ (fun q => ?_); rotate_left; clear_value z)
    | fail_if_no_progress (extract_lets z)
    | with_reducible apply does_drawFree
    | with_reducible apply does_laneSet
    | with_reducible refine Does.snd (by assumption) ?_
    | with_reducible refine Does.ite ?_ ?_
    | fail_if_no_progress (with_reducible refine Does.leaf ?_ ?_ ?_; pick_goal 2; (focus (simp +zetaDelta only [State.blank, cond_true, cond_false]; first | done | fail)); pick_goal 2; (focus (simp +zetaDelta only [watched]; first | done | fail)))
    | (dsimp +zetaDelta only)
    | split)

theorem does_laneCtrl {F : Parts} {s0 s : State} (l : Nat) (old : Nat) (v : Nat) (h : Does F s0 s)
    (hF : Parts.le { outs := true, free := true, glb := true, regs := true, hst := true, pac := true, swl := true, slo := true, store := true, obs := true } F = true) : Does F s0 (laneCtrl l old v s) := by
  refine Does.weaken hF h ?_
  unfold laneCtrl
  repeat' (first
    | exact Eq.refl true
    | with_reducible exact Does.refl _ _
    | with_reducible assumption
    | ((fail_if_no_progress (extract_lets z)); refine Does.cut (z := z) ?_ (fun q => ?_); rotate_left; clear_value z)
    | ((fail_if_no_progress (extract_lets z)); refine Does.cutSnd (z := z) ?_ (fun q => ?_); rotate_left; clear_value z)
    | fail_if_no_progress (extract_lets z)
    | with_reducible apply does_takeChecked
    | with_reducible apply does_laneSet
    | with_reducible apply does_regSet
    | with_reducible apply does_laneTo
    | with_reducible refine Does.ite ?_ ?_
    | fail_if_no_progress (with_reducible refine Does.leaf ?_ ?_ ?_; pick_goal 2; (focus (simp +zetaDelta only [State.blank, cond_true, cond_false]; first | done | fail)); pick_goal 2; (focus (simp +zetaDelta only [watched]; first | done | fail)))
    | (dsimp +zetaDelta only)
    | split)

theorem does_goodReturn {F : Parts} {s0 s : State} (k : Nat) (h : Does F s0 s)
    (hF : Parts.le { outs := true, glb := true, hst := true, swl := true, slo := true, obs := true } F = true) : Does F s0 (goodReturn k s) := by
  refine Does.weaken hF h ?_
  unfold goodReturn
  repeat' (first
    | exact Eq.refl true
    | with_reducible exact Does.refl _ _
    | with_reducible assumption
    | ((fail_if_no_progress (extract_lets z)); refine Does.cut (z := z) ?_ (fun q => ?_); rotate_left; clear_value z)
    | ((fail_if_no_progress (extract_lets z)); refine Does.cutSnd (z := z) ?_ (fun q => ?_); rotate_left; clear_value z)
    | fail_if_no_progress (extract_lets z)
    | with_reducible apply does_retSet
    | with_reducible apply does_raiseItems
    | with_reducible refine Does.ite ?_ ?_
    | fail_if_no_progress (with_reducible refine Does.leaf ?_ ?_ ?_; pick_goal 2; (focus (simp +zetaDelta only [State.blank, cond_true, cond_false]; first | done | fail)); pick_goal 2; (focus (simp +zetaDelta only [watched]; first | done | fail)))
    | (dsimp +zetaDelta only)
    | split)

theorem does_badReturn {F : Parts} {s0 s : State} (k : Nat) (h : Does F s0 s)
    (hF : Parts.le { swl := true } F = true) : Does F s0 (badReturn k s) := by
  refine Does.weaken hF h ?_
  unfold badReturn
  repeat' (first
    | exact Eq.refl true
    | with_reducible exact Does.refl _ _
    | with_reducible assumption
    | ((fail_if_no_progress (extract_lets z)); refine Does.cut (z := z) ?_ (fun q => ?_); rotate_left; clear_value z)
    | ((fail_if_no_progress (extract_lets z)); refine Does.cutSnd (z := z) ?_ (fun q => ?_); rotate_left; clear_value z)
    | fail_if_no_progress (extract_lets z)
    | with_reducible apply does_retSet
    | with_reducible refine Does.ite ?_ ?_
    | fail_if_no_progress (with_reducible refine Does.leaf ?_ ?_ ?_; pick_goal 2; (focus (simp +zetaDelta only [State.blank, cond_true, cond_false]; first | done | fail)); pick_goal 2; (focus (simp +zetaDelta only [watched]; first | done | fail)))
    | (dsimp +zetaDelta only)
    | split)

theorem does_laneMsg {F : Parts} {s0 s : State} (k l : Nat) (act : State → State)
    (hact : ∀ u, Does F s0 u → Does F s0 (act u)) (h : Does F s0 s)
    (hF : Parts.le { outs := true, glb := true, hst := true, pac := true, swl := true, slo := true, store := true, obs := true } F = true) : DoesO F s0 (laneMsg k l act s) := by
  have h1 := does_goodReturn k h (Parts.le_trans rfl hF)
  unfold laneMsg
  split
  · exact DoesO.next h
  · split
    · exact DoesO.next (does_badReturn k h (Parts.le_trans rfl hF))
    · extract_lets s1
      have h2 : Does F s0 s1 := h1
      clear_value s1
      split
      · exact DoesO.next h2
      · refine DoesO.next (hact _ ?_)
        split
        · exact does_laneTo _ _ _ h2 (Parts.le_trans rfl hF)
        · exact h2


theorem does_settleStatus {F : Parts} {s0 s : State} (l : Nat) (rx : Nat) (high : Nat) (map : Nat) (h : Does F s0 s)
    (hF : Parts.le { outs := true, glb := true, hst := true, pac := true, slo := true, store := true, obs := true } F = true) : Does F s0 (settleStatus l rx high map s) := by
  refine Does.weaken hF h ?_
  unfold settleStatus
  repeat' (first
    | exact Eq.refl true
    | with_reducible exact Does.refl _ _
    | with_reducible assumption
    | ((fail_if_no_progress (extract_lets z)); refine Does.cut (z := z) ?_ (fun q => ?_); rotate_left; clear_value z)
    | ((fail_if_no_progress (extract_lets z)); refine Does.cutSnd (z := z) ?_ (fun q => ?_); rotate_left; clear_value z)
    | fail_if_no_progress (extract_lets z)
    | with_reducible apply does_settleFrames
    | with_reducible refine Does.ite ?_ ?_
    | (dsimp +zetaDelta only)
    | split)

theorem does_statusOp {F : Parts} {s0 s : State} (l : Nat) (rx : Nat) (high : Nat) (map : Nat) (crcErr : Nat) (h : Does F s0 s)
    (hF : Parts.le { outs := true, glb := true, hst := true, pac := true, swl := true, slo := true, store := true, obs := true } F = true) : Does F s0 (statusOp l rx high map crcErr s) := by
  refine Does.weaken hF h ?_
  unfold statusOp
  repeat' (first
    | exact Eq.refl true
    | with_reducible exact Does.refl _ _
    | with_reducible assumption
    | ((fail_if_no_progress (extract_lets z)); refine Does.cut (z := z) ?_ (fun q => ?_); rotate_left; clear_value z)
    | ((fail_if_no_progress (extract_lets z)); refine Does.cutSnd (z := z) ?_ (fun q => ?_); rotate_left; clear_value z)
    | fail_if_no_progress (extract_lets z)
    | with_reducible apply does_settleStatus
    | with_reducible apply does_laneSet
    | with_reducible apply does_laneTo
    | with_reducible refine Does.ite ?_ ?_
    | fail_if_no_progress (with_reducible refine Does.leaf ?_ ?_ ?_; pick_goal 2; (focus (simp +zetaDelta only [State.blank, cond_true, cond_false]; first | done | fail)); pick_goal 2; (focus (simp +zetaDelta only [watched]; first | done | fail)))
    | (dsimp +zetaDelta only)
    | split)

theorem does_execReturnStatus {F : Parts} {s0 s : State} (k : Fin 8) (lane : Fin 128) (rx : Fin 4) (high : W32) (map : W32) (crcErr : BitVec 16) (h : Does F s0 s)
    (hF : Parts.le { outs := true, glb := true, hst := true, pac := true, swl := true, slo := true, store := true, obs := true } F = true) : DoesO F s0 (execReturnStatus k lane rx high map crcErr s) := by
  refine DoesO.weaken hF h ?_
  unfold execReturnStatus
  repeat' (first
    | exact Eq.refl true
    | with_reducible exact Does.refl _ _
    | with_reducible assumption
    | with_reducible apply does_laneMsg
    | with_reducible apply does_statusOp
    | (intro u hu))

theorem does_tapReq {F : Parts} {s0 s : State} (l : Nat) (seq : Nat) (req : Nat) (preset : Nat) (h : Does F s0 s)
    (hF : Parts.le { swl := true } F = true) : Does F s0 (tapReq l seq req preset s) := by
  refine Does.weaken hF h ?_
  unfold tapReq
  repeat' (first
    | exact Eq.refl true
    | with_reducible exact Does.refl _ _
    | with_reducible assumption
    | ((fail_if_no_progress (extract_lets z)); refine Does.cut (z := z) ?_ (fun q => ?_); rotate_left; clear_value z)
    | ((fail_if_no_progress (extract_lets z)); refine Does.cutSnd (z := z) ?_ (fun q => ?_); rotate_left; clear_value z)
    | fail_if_no_progress (extract_lets z)
    | with_reducible apply does_laneSet
    | with_reducible refine Does.snd (by assumption) ?_
    | with_reducible refine Does.ite ?_ ?_
    | fail_if_no_progress (with_reducible refine Does.leaf ?_ ?_ ?_; pick_goal 2; (focus (simp +zetaDelta only [State.blank, cond_true, cond_false]; first | done | fail)); pick_goal 2; (focus (simp +zetaDelta only [watched]; first | done | fail)))
    | (dsimp +zetaDelta only)
    | split)

theorem does_execReturnTapReq {F : Parts} {s0 s : State} (k : Fin 8) (lane : Fin 128) (seq : Byte) (req : Byte) (preset : Byte) (h : Does F s0 s)
    (hF : Parts.le { outs := true, glb := true, hst := true, pac := true, swl := true, slo := true, store := true, obs := true } F = true) : DoesO F s0 (execReturnTapReq k lane seq req preset s) := by
  refine DoesO.weaken hF h ?_
  unfold execReturnTapReq
  repeat' (first
    | exact Eq.refl true
    | with_reducible exact Does.refl _ _
    | with_reducible assumption
    | with_reducible apply does_laneMsg
    | with_reducible apply does_tapReq
    | (intro u hu))

theorem does_execReturnTrained {F : Parts} {s0 s : State} (k : Fin 8) (lane : Fin 128) (_seq : Byte) (h : Does F s0 s)
    (hF : Parts.le { outs := true, glb := true, hst := true, pac := true, swl := true, slo := true, store := true, obs := true } F = true) : DoesO F s0 (execReturnTrained k lane _seq s) := by
  refine DoesO.weaken hF h ?_
  unfold execReturnTrained
  repeat' (first
    | exact Eq.refl true
    | with_reducible exact Does.refl _ _
    | with_reducible assumption
    | with_reducible apply does_laneMsg
    | with_reducible apply does_laneTo
    | with_reducible refine Does.ite ?_ ?_
    | with_reducible refine DoesO.ite ?_ ?_
    | split
    | (intro u hu))

theorem does_execReturnPrbsResult {F : Parts} {s0 s : State} (k : Fin 8) (lane : Fin 128) (errors : W32) (words : W32) (h : Does F s0 s)
    (hF : Parts.le { outs := true, glb := true, hst := true, pac := true, swl := true, slo := true, store := true, obs := true } F = true) : DoesO F s0 (execReturnPrbsResult k lane errors words s) := by
  refine DoesO.weaken hF h ?_
  unfold execReturnPrbsResult
  repeat' (first
    | exact Eq.refl true
    | with_reducible exact Does.refl _ _
    | with_reducible assumption
    | ((fail_if_no_progress (extract_lets z)); refine Does.cut (z := z) ?_ (fun q => ?_); rotate_left; clear_value z)
    | ((fail_if_no_progress (extract_lets z)); refine Does.cutSnd (z := z) ?_ (fun q => ?_); rotate_left; clear_value z)
    | ((fail_if_no_progress (extract_lets z)); refine DoesO.cut (z := z) ?_ (fun q => ?_); rotate_left; clear_value z)
    | ((fail_if_no_progress (extract_lets z)); refine DoesO.cutSnd (z := z) ?_ (fun q => ?_); rotate_left; clear_value z)
    | fail_if_no_progress (extract_lets z)
    | with_reducible apply does_laneMsg
    | with_reducible apply does_laneSet
    | with_reducible refine Does.ite ?_ ?_
    | with_reducible refine DoesO.ite ?_ ?_
    | fail_if_no_progress (with_reducible refine Does.leaf ?_ ?_ ?_; pick_goal 2; (focus (simp +zetaDelta only [State.blank, cond_true, cond_false]; first | done | fail)); pick_goal 2; (focus (simp +zetaDelta only [watched]; first | done | fail)))
    | (dsimp +zetaDelta only)
    | split
    | (intro u hu))

theorem does_execReturnIdle {F : Parts} {s0 s : State} (k : Fin 8) (fill : BitVec 96) (h : Does F s0 s)
    (hF : Parts.le { outs := true, glb := true, hst := true, swl := true, slo := true, obs := true } F = true) : DoesO F s0 (execReturnIdle k fill s) := by
  refine DoesO.weaken hF h ?_
  unfold execReturnIdle
  repeat' (first
    | exact Eq.refl true
    | with_reducible exact Does.refl _ _
    | with_reducible assumption
    | with_reducible apply does_ok
    | with_reducible apply does_goodReturn
    | with_reducible refine Does.ite ?_ ?_
    | with_reducible refine DoesO.ite ?_ ?_
    | split)

theorem does_execReturnMessageDiscard {F : Parts} {s0 s : State} (k : Fin 8) (h : Does F s0 s)
    (hF : Parts.le { swl := true } F = true) : DoesO F s0 (execReturnMessageDiscard k s) := by
  refine DoesO.weaken hF h ?_
  unfold execReturnMessageDiscard
  repeat' (first
    | exact Eq.refl true
    | with_reducible exact Does.refl _ _
    | with_reducible assumption
    | with_reducible apply does_ok
    | with_reducible apply does_badReturn
    | with_reducible refine Does.ite ?_ ?_
    | with_reducible refine DoesO.ite ?_ ?_
    | split)

theorem does_execReturnLaneTimeout {F : Parts} {s0 s : State} (k : Fin 8) (h : Does F s0 s)
    (hF : Parts.le { outs := true, glb := true, hst := true, swl := true, slo := true, obs := true } F = true) : DoesO F s0 (execReturnLaneTimeout k s) := by
  refine DoesO.weaken hF h ?_
  unfold execReturnLaneTimeout
  repeat' (first
    | exact Eq.refl true
    | with_reducible exact Does.refl _ _
    | with_reducible assumption
    | ((fail_if_no_progress (extract_lets z)); refine Does.cut (z := z) ?_ (fun q => ?_); rotate_left; clear_value z)
    | ((fail_if_no_progress (extract_lets z)); refine Does.cutSnd (z := z) ?_ (fun q => ?_); rotate_left; clear_value z)
    | ((fail_if_no_progress (extract_lets z)); refine DoesO.cut (z := z) ?_ (fun q => ?_); rotate_left; clear_value z)
    | ((fail_if_no_progress (extract_lets z)); refine DoesO.cutSnd (z := z) ?_ (fun q => ?_); rotate_left; clear_value z)
    | fail_if_no_progress (extract_lets z)
    | with_reducible apply does_ok
    | with_reducible apply does_raiseItems
    | with_reducible apply does_retSet
    | with_reducible refine Does.ite ?_ ?_
    | with_reducible refine DoesO.ite ?_ ?_
    | fail_if_no_progress (with_reducible refine Does.leaf ?_ ?_ ?_; pick_goal 2; (focus (simp +zetaDelta only [State.blank, cond_true, cond_false]; first | done | fail)); pick_goal 2; (focus (simp +zetaDelta only [watched]; first | done | fail)))
    | (dsimp +zetaDelta only)
    | split)

theorem does_execReturnDownSettle {F : Parts} {s0 s : State} (k : Fin 8) (h : Does F s0 s)
    (hF : Parts.le { outs := true, glb := true, hst := true, pac := true, swl := true, slo := true, store := true, obs := true } F = true) : DoesO F s0 (execReturnDownSettle k s) := by
  refine DoesO.weaken hF h ?_
  unfold execReturnDownSettle
  repeat' (first
    | exact Eq.refl true
    | with_reducible exact Does.refl _ _
    | with_reducible assumption
    | with_reducible apply does_ok
    | with_reducible apply does_laneTo
    | (with_reducible refine Does.foldl ?_ (fun _ _ _ => ?_))
    | (with_reducible refine Does.foldlSnd ?_ (fun _ _ _ => ?_))
    | with_reducible refine Does.ite ?_ ?_
    | with_reducible refine DoesO.ite ?_ ?_
    | split)

theorem does_execFrameSettleTimeout {F : Parts} {s0 s : State} (l : Fin 128) (h : Does F s0 s)
    (hF : Parts.le { outs := true, glb := true, hst := true, pac := true, slo := true, store := true, obs := true } F = true) : DoesO F s0 (execFrameSettleTimeout l s) := by
  refine DoesO.weaken hF h ?_
  unfold execFrameSettleTimeout
  repeat' (first
    | exact Eq.refl true
    | with_reducible exact Does.refl _ _
    | with_reducible assumption
    | ((fail_if_no_progress (extract_lets z)); refine Does.cut (z := z) ?_ (fun q => ?_); rotate_left; clear_value z)
    | ((fail_if_no_progress (extract_lets z)); refine Does.cutSnd (z := z) ?_ (fun q => ?_); rotate_left; clear_value z)
    | ((fail_if_no_progress (extract_lets z)); refine DoesO.cut (z := z) ?_ (fun q => ?_); rotate_left; clear_value z)
    | ((fail_if_no_progress (extract_lets z)); refine DoesO.cutSnd (z := z) ?_ (fun q => ?_); rotate_left; clear_value z)
    | fail_if_no_progress (extract_lets z)
    | with_reducible apply does_ok
    | with_reducible apply does_settleFrames
    | with_reducible refine Does.snd (by assumption) ?_
    | with_reducible refine Does.ite ?_ ?_
    | with_reducible refine DoesO.ite ?_ ?_
    | fail_if_no_progress (with_reducible refine Does.leaf ?_ ?_ ?_; pick_goal 2; (focus (simp +zetaDelta only [State.blank, cond_true, cond_false]; first | done | fail)); pick_goal 2; (focus (simp +zetaDelta only [watched]; first | done | fail)))
    | (dsimp +zetaDelta only)
    | split)

theorem does_execLaneMessageTimeout {F : Parts} {s0 s : State} (l : Fin 128) (h : Does F s0 s)
    (hF : Parts.le { outs := true, glb := true, hst := true, pac := true, swl := true, slo := true, store := true, obs := true } F = true) : DoesO F s0 (execLaneMessageTimeout l s) := by
  refine DoesO.weaken hF h ?_
  unfold execLaneMessageTimeout
  repeat' (first
    | exact Eq.refl true
    | with_reducible exact Does.refl _ _
    | with_reducible assumption
    | ((fail_if_no_progress (extract_lets z)); refine Does.cut (z := z) ?_ (fun q => ?_); rotate_left; clear_value z)
    | ((fail_if_no_progress (extract_lets z)); refine Does.cutSnd (z := z) ?_ (fun q => ?_); rotate_left; clear_value z)
    | ((fail_if_no_progress (extract_lets z)); refine DoesO.cut (z := z) ?_ (fun q => ?_); rotate_left; clear_value z)
    | ((fail_if_no_progress (extract_lets z)); refine DoesO.cutSnd (z := z) ?_ (fun q => ?_); rotate_left; clear_value z)
    | fail_if_no_progress (extract_lets z)
    | with_reducible apply does_ok
    | with_reducible apply does_laneTo
    | with_reducible refine Does.ite ?_ ?_
    | with_reducible refine DoesO.ite ?_ ?_
    | (dsimp +zetaDelta only)
    | split)

theorem does_execTrainTimeout {F : Parts} {s0 s : State} (l : Fin 128) (h : Does F s0 s)
    (hF : Parts.le { outs := true, glb := true, hst := true, pac := true, swl := true, slo := true, store := true, obs := true } F = true) : DoesO F s0 (execTrainTimeout l s) := by
  refine DoesO.weaken hF h ?_
  unfold execTrainTimeout
  repeat' (first
    | exact Eq.refl true
    | with_reducible exact Does.refl _ _
    | with_reducible assumption
    | ((fail_if_no_progress (extract_lets z)); refine Does.cut (z := z) ?_ (fun q => ?_); rotate_left; clear_value z)
    | ((fail_if_no_progress (extract_lets z)); refine Does.cutSnd (z := z) ?_ (fun q => ?_); rotate_left; clear_value z)
    | ((fail_if_no_progress (extract_lets z)); refine DoesO.cut (z := z) ?_ (fun q => ?_); rotate_left; clear_value z)
    | ((fail_if_no_progress (extract_lets z)); refine DoesO.cutSnd (z := z) ?_ (fun q => ?_); rotate_left; clear_value z)
    | fail_if_no_progress (extract_lets z)
    | with_reducible apply does_ok
    | with_reducible apply does_laneTo
    | with_reducible apply does_laneSet
    | with_reducible apply does_raiseItems
    | with_reducible refine Does.ite ?_ ?_
    | with_reducible refine DoesO.ite ?_ ?_
    | fail_if_no_progress (with_reducible refine Does.leaf ?_ ?_ ?_; pick_goal 2; (focus (simp +zetaDelta only [State.blank, cond_true, cond_false]; first | done | fail)); pick_goal 2; (focus (simp +zetaDelta only [watched]; first | done | fail)))
    | (dsimp +zetaDelta only)
    | split)

theorem does_execNoPartnerTimeout {F : Parts} {s0 s : State} (l : Fin 128) (h : Does F s0 s)
    (hF : Parts.le { outs := true, glb := true, hst := true, swl := true, slo := true, obs := true } F = true) : DoesO F s0 (execNoPartnerTimeout l s) := by
  refine DoesO.weaken hF h ?_
  unfold execNoPartnerTimeout
  repeat' (first
    | exact Eq.refl true
    | with_reducible exact Does.refl _ _
    | with_reducible assumption
    | ((fail_if_no_progress (extract_lets z)); refine Does.cut (z := z) ?_ (fun q => ?_); rotate_left; clear_value z)
    | ((fail_if_no_progress (extract_lets z)); refine Does.cutSnd (z := z) ?_ (fun q => ?_); rotate_left; clear_value z)
    | ((fail_if_no_progress (extract_lets z)); refine DoesO.cut (z := z) ?_ (fun q => ?_); rotate_left; clear_value z)
    | ((fail_if_no_progress (extract_lets z)); refine DoesO.cutSnd (z := z) ?_ (fun q => ?_); rotate_left; clear_value z)
    | fail_if_no_progress (extract_lets z)
    | with_reducible apply does_ok
    | with_reducible apply does_raiseItems
    | with_reducible apply does_laneSet
    | with_reducible refine Does.ite ?_ ?_
    | with_reducible refine DoesO.ite ?_ ?_
    | fail_if_no_progress (with_reducible refine Does.leaf ?_ ?_ ?_; pick_goal 2; (focus (simp +zetaDelta only [State.blank, cond_true, cond_false]; first | done | fail)); pick_goal 2; (focus (simp +zetaDelta only [watched]; first | done | fail)))
    | (dsimp +zetaDelta only)
    | split)

theorem does_execQuadPllUnlock {F : Parts} {s0 s : State} (q : Fin 32) (h : Does F s0 s)
    (hF : Parts.le { outs := true, free := true, glb := true, hst := true, pac := true, swl := true, slo := true, store := true, obs := true } F = true) : DoesO F s0 (execQuadPllUnlock q s) := by
  refine DoesO.weaken hF h ?_
  unfold execQuadPllUnlock
  repeat' (first
    | exact Eq.refl true
    | with_reducible exact Does.refl _ _
    | with_reducible assumption
    | ((fail_if_no_progress (extract_lets z)); refine Does.cut (z := z) ?_ (fun q => ?_); rotate_left; clear_value z)
    | ((fail_if_no_progress (extract_lets z)); refine Does.cutSnd (z := z) ?_ (fun q => ?_); rotate_left; clear_value z)
    | ((fail_if_no_progress (extract_lets z)); refine DoesO.cut (z := z) ?_ (fun q => ?_); rotate_left; clear_value z)
    | ((fail_if_no_progress (extract_lets z)); refine DoesO.cutSnd (z := z) ?_ (fun q => ?_); rotate_left; clear_value z)
    | fail_if_no_progress (extract_lets z)
    | with_reducible apply does_ok
    | with_reducible apply does_raiseItems
    | with_reducible apply does_laneTo
    | with_reducible apply does_takeChecked
    | (with_reducible refine Does.foldl ?_ (fun _ _ _ => ?_))
    | (with_reducible refine Does.foldlSnd ?_ (fun _ _ _ => ?_))
    | with_reducible refine Does.ite ?_ ?_
    | with_reducible refine DoesO.ite ?_ ?_
    | fail_if_no_progress (with_reducible refine Does.leaf ?_ ?_ ?_; pick_goal 2; (focus (simp +zetaDelta only [State.blank, cond_true, cond_false]; first | done | fail)); pick_goal 2; (focus (simp +zetaDelta only [watched]; first | done | fail)))
    | (dsimp +zetaDelta only)
    | split)

theorem does_execQuadPllRelock {F : Parts} {s0 s : State} (q : Fin 32) (h : Does F s0 s)
    (hF : Parts.le { outs := true, glb := true, hst := true, pac := true, swl := true, slo := true, store := true, obs := true } F = true) : DoesO F s0 (execQuadPllRelock q s) := by
  refine DoesO.weaken hF h ?_
  unfold execQuadPllRelock
  repeat' (first
    | exact Eq.refl true
    | with_reducible exact Does.refl _ _
    | with_reducible assumption
    | ((fail_if_no_progress (extract_lets z)); refine Does.cut (z := z) ?_ (fun q => ?_); rotate_left; clear_value z)
    | ((fail_if_no_progress (extract_lets z)); refine Does.cutSnd (z := z) ?_ (fun q => ?_); rotate_left; clear_value z)
    | ((fail_if_no_progress (extract_lets z)); refine DoesO.cut (z := z) ?_ (fun q => ?_); rotate_left; clear_value z)
    | ((fail_if_no_progress (extract_lets z)); refine DoesO.cutSnd (z := z) ?_ (fun q => ?_); rotate_left; clear_value z)
    | fail_if_no_progress (extract_lets z)
    | with_reducible apply does_ok
    | with_reducible apply does_laneTo
    | (with_reducible refine Does.foldl ?_ (fun _ _ _ => ?_))
    | (with_reducible refine Does.foldlSnd ?_ (fun _ _ _ => ?_))
    | with_reducible refine Does.ite ?_ ?_
    | with_reducible refine DoesO.ite ?_ ?_
    | fail_if_no_progress (with_reducible refine Does.leaf ?_ ?_ ?_; pick_goal 2; (focus (simp +zetaDelta only [State.blank, cond_true, cond_false]; first | done | fail)); pick_goal 2; (focus (simp +zetaDelta only [watched]; first | done | fail)))
    | (dsimp +zetaDelta only)
    | split)

theorem does_execAmTimer {F : Parts} {s0 s : State}  (h : Does F s0 s)
    (hF : Parts.le { outs := true, swl := true, obs := true } F = true) : DoesO F s0 (execAmTimer s) := by
  refine DoesO.weaken hF h ?_
  unfold execAmTimer
  repeat' (first
    | exact Eq.refl true
    | with_reducible exact Does.refl _ _
    | with_reducible assumption
    | ((fail_if_no_progress (extract_lets z)); refine Does.cut (z := z) ?_ (fun q => ?_); rotate_left; clear_value z)
    | ((fail_if_no_progress (extract_lets z)); refine Does.cutSnd (z := z) ?_ (fun q => ?_); rotate_left; clear_value z)
    | ((fail_if_no_progress (extract_lets z)); refine DoesO.cut (z := z) ?_ (fun q => ?_); rotate_left; clear_value z)
    | ((fail_if_no_progress (extract_lets z)); refine DoesO.cutSnd (z := z) ?_ (fun q => ?_); rotate_left; clear_value z)
    | fail_if_no_progress (extract_lets z)
    | with_reducible apply does_ok
    | with_reducible apply does_sendAms
    | with_reducible refine Does.ite ?_ ?_
    | with_reducible refine DoesO.ite ?_ ?_
    | (dsimp +zetaDelta only)
    | split)

theorem does_execTrainBlock {F : Parts} {s0 s : State} (lane : Fin 128 ⊕ Fin 8) (h : Does F s0 s)
    (hF : Parts.le { outs := true, free := true } F = true) : DoesO F s0 (execTrainBlock lane s) := by
  refine DoesO.weaken hF h ?_
  unfold execTrainBlock
  repeat' (first
    | exact Eq.refl true
    | with_reducible exact Does.refl _ _
    | with_reducible assumption
    | ((fail_if_no_progress (extract_lets z)); refine Does.cut (z := z) ?_ (fun q => ?_); rotate_left; clear_value z)
    | ((fail_if_no_progress (extract_lets z)); refine Does.cutSnd (z := z) ?_ (fun q => ?_); rotate_left; clear_value z)
    | ((fail_if_no_progress (extract_lets z)); refine DoesO.cut (z := z) ?_ (fun q => ?_); rotate_left; clear_value z)
    | ((fail_if_no_progress (extract_lets z)); refine DoesO.cutSnd (z := z) ?_ (fun q => ?_); rotate_left; clear_value z)
    | fail_if_no_progress (extract_lets z)
    | with_reducible apply does_ok
    | with_reducible apply does_emit
    | with_reducible apply does_drawFree
    | with_reducible refine Does.snd (by assumption) ?_
    | with_reducible refine Does.ite ?_ ?_
    | with_reducible refine DoesO.ite ?_ ?_
    | fail_if_no_progress (with_reducible refine Does.leaf ?_ ?_ ?_; pick_goal 2; (focus (simp +zetaDelta only [State.blank, cond_true, cond_false]; first | done | fail)); pick_goal 2; (focus (simp +zetaDelta only [watched]; first | done | fail)))
    | (dsimp +zetaDelta only)
    | split)

theorem does_execAlignAm {F : Parts} {s0 s : State} (lane : Option (Fin 128)) (h : Does F s0 s)
    (hF : Parts.le { outs := true, obs := true } F = true) : DoesO F s0 (execAlignAm lane s) := by
  refine DoesO.weaken hF h ?_
  unfold execAlignAm
  repeat' (first
    | exact Eq.refl true
    | with_reducible exact Does.refl _ _
    | with_reducible assumption
    | ((fail_if_no_progress (extract_lets z)); refine Does.cut (z := z) ?_ (fun q => ?_); rotate_left; clear_value z)
    | ((fail_if_no_progress (extract_lets z)); refine Does.cutSnd (z := z) ?_ (fun q => ?_); rotate_left; clear_value z)
    | ((fail_if_no_progress (extract_lets z)); refine DoesO.cut (z := z) ?_ (fun q => ?_); rotate_left; clear_value z)
    | ((fail_if_no_progress (extract_lets z)); refine DoesO.cutSnd (z := z) ?_ (fun q => ?_); rotate_left; clear_value z)
    | fail_if_no_progress (extract_lets z)
    | with_reducible apply does_ok
    | with_reducible apply does_cntSwl
    | with_reducible apply does_emit
    | with_reducible refine Does.snd (by assumption) ?_
    | (with_reducible refine Does.foldl ?_ (fun _ _ _ => ?_))
    | (with_reducible refine Does.foldlSnd ?_ (fun _ _ _ => ?_))
    | with_reducible refine Does.ite ?_ ?_
    | with_reducible refine DoesO.ite ?_ ?_
    | fail_if_no_progress (with_reducible refine Does.leaf ?_ ?_ ?_; pick_goal 2; (focus (simp +zetaDelta only [State.blank, cond_true, cond_false]; first | done | fail)); pick_goal 2; (focus (simp +zetaDelta only [watched]; first | done | fail)))
    | (dsimp +zetaDelta only)
    | split)

end Sys2Proof.Machine
end

