-- ==== Sys2Proof/Laws/DoesTables.lean ====
section
/-! SUPPORT. What each operation of Machine/Tables.lean touches at most, and that it keeps the bounds. -/

-- One theorem at a time: elaborating the package as one text in many threads at once takes more memory than the check allows.
set_option Elab.async false

set_option linter.unusedSimpArgs false
set_option linter.unusedTactic false
set_option linter.unreachableTactic false

namespace Sys2Proof.Machine

theorem does_sendTable {F : Parts} {s0 s : State} (m : TableMsg) (h : Does F s0 s)
    (hF : Parts.le { outs := true, twn := true, obs := true } F = true) : Does F s0 (sendTable m s) := by
  refine Does.weaken hF h ?_
  unfold sendTable
  repeat' (first
    | exact Eq.refl true
    | with_reducible exact Does.refl _ _
    | with_reducible assumption
    | ((fail_if_no_progress (extract_lets z)); refine Does.cut (z := z) ?_ (fun q => ?_); rotate_left; clear_value z)
    | ((fail_if_no_progress (extract_lets z)); refine Does.cutSnd (z := z) ?_ (fun q => ?_); rotate_left; clear_value z)
    | fail_if_no_progress (extract_lets z)
    | with_reducible apply does_dxpSend
    | with_reducible refine Does.snd (by assumption) ?_
    | fail_if_no_progress (with_reducible refine Does.leaf ?_ ?_ ?_; pick_goal 2; (focus (simp +zetaDelta only [State.blank, cond_true, cond_false]; first | done | fail)); pick_goal 2; (focus (simp +zetaDelta only [watched]; first | done | fail)))
    | (dsimp +zetaDelta only)
    | split)

theorem does_applyTable {F : Parts} {s0 s : State} (m : TableMsg) (h : Does F s0 s)
    (hF : Parts.le { dos := true, pac := true } F = true) : Does F s0 (applyTable m s) := by
  refine Does.weaken hF h ?_
  unfold applyTable
  repeat' (first
    | exact Eq.refl true
    | with_reducible exact Does.refl _ _
    | with_reducible assumption
    | ((fail_if_no_progress (extract_lets z)); refine Does.cut (z := z) ?_ (fun q => ?_); rotate_left; clear_value z)
    | ((fail_if_no_progress (extract_lets z)); refine Does.cutSnd (z := z) ?_ (fun q => ?_); rotate_left; clear_value z)
    | fail_if_no_progress (extract_lets z)
    | with_reducible refine Does.ite ?_ ?_
    | fail_if_no_progress (with_reducible refine Does.leaf ?_ ?_ ?_; pick_goal 2; (focus (simp +zetaDelta only [State.blank, cond_true, cond_false]; first | done | fail)); pick_goal 2; (focus (simp +zetaDelta only [watched]; first | done | fail)))
    | (dsimp +zetaDelta only)
    | split)

theorem does_journalAfter {F : Parts} {s0 s : State} (m : TableMsg) (failed : Bool) (h : Does F s0 s)
    (hF : Parts.le { dos := true } F = true) : Does F s0 (journalAfter m failed s) := by
  refine Does.weaken hF h ?_
  unfold journalAfter
  repeat' (first
    | exact Eq.refl true
    | with_reducible exact Does.refl _ _
    | with_reducible assumption
    | ((fail_if_no_progress (extract_lets z)); refine Does.cut (z := z) ?_ (fun q => ?_); rotate_left; clear_value z)
    | ((fail_if_no_progress (extract_lets z)); refine Does.cutSnd (z := z) ?_ (fun q => ?_); rotate_left; clear_value z)
    | fail_if_no_progress (extract_lets z)
    | with_reducible apply does_setDirty
    | with_reducible refine Does.ite ?_ ?_
    | fail_if_no_progress (with_reducible refine Does.leaf ?_ ?_ ?_; pick_goal 2; (focus (simp +zetaDelta only [State.blank, cond_true, cond_false]; first | done | fail)); pick_goal 2; (focus (simp +zetaDelta only [watched]; first | done | fail)))
    | (dsimp +zetaDelta only)
    | split)

theorem does_finishTable {F : Parts} {s0 s : State} (x : TableX) (status : Nat) (h : Does F s0 s)
    (hF : Parts.le { outs := true, hst := true, dos := true, twn := true, slo := true, obs := true } F = true) : Does F s0 (finishTable x status s) := by
  refine Does.weaken hF h ?_
  unfold finishTable
  repeat' (first
    | exact Eq.refl true
    | with_reducible exact Does.refl _ _
    | with_reducible assumption
    | ((fail_if_no_progress (extract_lets z)); refine Does.cut (z := z) ?_ (fun q => ?_); rotate_left; clear_value z)
    | ((fail_if_no_progress (extract_lets z)); refine Does.cutSnd (z := z) ?_ (fun q => ?_); rotate_left; clear_value z)
    | fail_if_no_progress (extract_lets z)
    | with_reducible apply does_completeOpt
    | with_reducible apply does_msgRecord
    | fail_if_no_progress (with_reducible refine Does.leaf ?_ ?_ ?_; pick_goal 2; (focus (simp +zetaDelta only [State.blank, cond_true, cond_false]; first | done | fail)); pick_goal 2; (focus (simp +zetaDelta only [watched]; first | done | fail)))
    | (dsimp +zetaDelta only))

theorem does_splitTable {F : Parts} {s0 s : State} (x : TableX) (h : Does F s0 s)
    (hF : Parts.le { outs := true, glb := true, hst := true, dos := true, twn := true, slo := true, obs := true } F = true) : Does F s0 (splitTable x s) := by
  refine Does.weaken hF h ?_
  unfold splitTable
  repeat' (first
    | exact Eq.refl true
    | with_reducible exact Does.refl _ _
    | with_reducible assumption
    | ((fail_if_no_progress (extract_lets z)); refine Does.cut (z := z) ?_ (fun q => ?_); rotate_left; clear_value z)
    | ((fail_if_no_progress (extract_lets z)); refine Does.cutSnd (z := z) ?_ (fun q => ?_); rotate_left; clear_value z)
    | fail_if_no_progress (extract_lets z)
    | with_reducible apply does_finishTable
    | with_reducible apply does_raiseItems
    | fail_if_no_progress (with_reducible refine Does.leaf ?_ ?_ ?_; pick_goal 2; (focus (simp +zetaDelta only [State.blank, cond_true, cond_false]; first | done | fail)); pick_goal 2; (focus (simp +zetaDelta only [watched]; first | done | fail)))
    | (dsimp +zetaDelta only))

theorem does_tableWritten {F : Parts} {s0 s : State} (failed : Bool) (words : Nat) (h : Does F s0 s)
    (hF : Parts.le { outs := true, glb := true, hst := true, dos := true, twn := true, slo := true, obs := true } F = true) : Does F s0 (tableWritten failed words s) := by
  refine Does.weaken hF h ?_
  unfold tableWritten
  repeat' (first
    | exact Eq.refl true
    | with_reducible exact Does.refl _ _
    | with_reducible assumption
    | ((fail_if_no_progress (extract_lets z)); refine Does.cut (z := z) ?_ (fun q => ?_); rotate_left; clear_value z)
    | ((fail_if_no_progress (extract_lets z)); refine Does.cutSnd (z := z) ?_ (fun q => ?_); rotate_left; clear_value z)
    | fail_if_no_progress (extract_lets z)
    | with_reducible apply does_journalAfter
    | with_reducible apply does_finishTable
    | with_reducible apply does_dxpSend
    | with_reducible apply does_splitTable
    | with_reducible refine Does.snd (by assumption) ?_
    | with_reducible refine Does.ite ?_ ?_
    | fail_if_no_progress (with_reducible refine Does.leaf ?_ ?_ ?_; pick_goal 2; (focus (simp +zetaDelta only [State.blank, cond_true, cond_false]; first | done | fail)); pick_goal 2; (focus (simp +zetaDelta only [watched]; first | done | fail)))
    | (dsimp +zetaDelta only)
    | split)

theorem does_writeTable {F : Parts} {s0 s : State} (x : TableX) (h : Does F s0 s)
    (hF : Parts.le { outs := true, glb := true, hst := true, dos := true, pac := true, twn := true, grn := true, slo := true, obs := true } F = true) : Does F s0 (writeTable x s) := by
  refine Does.weaken hF h ?_
  unfold writeTable
  repeat' (first
    | exact Eq.refl true
    | with_reducible exact Does.refl _ _
    | with_reducible assumption
    | ((fail_if_no_progress (extract_lets z)); refine Does.cut (z := z) ?_ (fun q => ?_); rotate_left; clear_value z)
    | ((fail_if_no_progress (extract_lets z)); refine Does.cutSnd (z := z) ?_ (fun q => ?_); rotate_left; clear_value z)
    | fail_if_no_progress (extract_lets z)
    | with_reducible apply does_applyTable
    | with_reducible apply does_tableWritten
    | with_reducible apply does_queueJob
    | with_reducible apply does_msgRecord
    | with_reducible refine Does.ite ?_ ?_
    | fail_if_no_progress (with_reducible refine Does.leaf ?_ ?_ ?_; pick_goal 2; (focus (simp +zetaDelta only [State.blank, cond_true, cond_false]; first | done | fail)); pick_goal 2; (focus (simp +zetaDelta only [watched]; first | done | fail)))
    | (dsimp +zetaDelta only)
    | split)

theorem does_refuseTable {F : Parts} {s0 s : State} (id : Nat) (c : Cmd) (trim : Bool) (status : Nat) (h : Does F s0 s)
    (hF : Parts.le { outs := true, hst := true, slo := true, obs := true } F = true) : Does F s0 (refuseTable id c trim status s) := by
  refine Does.weaken hF h ?_
  unfold refuseTable
  repeat' (first
    | exact Eq.refl true
    | with_reducible exact Does.refl _ _
    | with_reducible assumption
    | with_reducible apply does_complete
    | with_reducible apply does_tableRecord
    | with_reducible refine Does.ite ?_ ?_
    | split)

theorem does_runTable {F : Parts} {s0 s : State} (id : Nat) (c : Cmd) (trim : Bool) (vals : List Nat) (bad : Bool) (h : Does F s0 s)
    (hF : Parts.le { outs := true, glb := true, hst := true, dos := true, pac := true, twn := true, grn := true, slo := true, obs := true } F = true) : Does F s0 (runTable id c trim vals bad s) := by
  refine Does.weaken hF h ?_
  unfold runTable
  repeat' (first
    | exact Eq.refl true
    | with_reducible exact Does.refl _ _
    | with_reducible assumption
    | ((fail_if_no_progress (extract_lets z)); refine Does.cut (z := z) ?_ (fun q => ?_); rotate_left; clear_value z)
    | ((fail_if_no_progress (extract_lets z)); refine Does.cutSnd (z := z) ?_ (fun q => ?_); rotate_left; clear_value z)
    | fail_if_no_progress (extract_lets z)
    | with_reducible apply does_refuseTable
    | with_reducible apply does_sendTable
    | with_reducible apply does_cmdRun
    | with_reducible apply does_writeTable
    | with_reducible refine Does.ite ?_ ?_
    | fail_if_no_progress (with_reducible refine Does.leaf ?_ ?_ ?_; pick_goal 2; (focus (simp +zetaDelta only [State.blank, cond_true, cond_false]; first | done | fail)); pick_goal 2; (focus (simp +zetaDelta only [watched]; first | done | fail)))
    | (dsimp +zetaDelta only)
    | split)

theorem does_tableCmd {F : Parts} {s0 s : State} (id : Nat) (trim : Bool) (data : Option (List Byte)) (h : Does F s0 s)
    (hF : Parts.le { outs := true, glb := true, hst := true, dos := true, pac := true, twn := true, grn := true, slo := true, obs := true } F = true) : DoesO F s0 (tableCmd id trim data s) := by
  refine DoesO.weaken hF h ?_
  unfold tableCmd
  repeat' (first
    | exact Eq.refl true
    | with_reducible exact Does.refl _ _
    | with_reducible assumption
    | with_reducible exact DoesO.fault _
    | ((fail_if_no_progress (extract_lets z)); refine Does.cut (z := z) ?_ (fun q => ?_); rotate_left; clear_value z)
    | ((fail_if_no_progress (extract_lets z)); refine Does.cutSnd (z := z) ?_ (fun q => ?_); rotate_left; clear_value z)
    | ((fail_if_no_progress (extract_lets z)); refine DoesO.cut (z := z) ?_ (fun q => ?_); rotate_left; clear_value z)
    | ((fail_if_no_progress (extract_lets z)); refine DoesO.cutSnd (z := z) ?_ (fun q => ?_); rotate_left; clear_value z)
    | fail_if_no_progress (extract_lets z)
    | with_reducible apply does_ok
    | with_reducible apply does_refuseTable
    | with_reducible apply does_runTable
    | with_reducible apply does_emit
    | with_reducible apply does_withLen
    | with_reducible refine Does.snd (by assumption) ?_
    | with_reducible refine Does.ite ?_ ?_
    | with_reducible refine DoesO.ite ?_ ?_
    | fail_if_no_progress (with_reducible refine Does.leaf ?_ ?_ ?_; pick_goal 2; (focus (simp +zetaDelta only [State.blank, cond_true, cond_false]; first | done | fail)); pick_goal 2; (focus (simp +zetaDelta only [watched]; first | done | fail)))
    | (dsimp +zetaDelta only)
    | split)

theorem does_execBeamMapSet {F : Parts} {s0 s : State} (id : Nat) (data : Option (List Byte)) (h : Does F s0 s)
    (hF : Parts.le { outs := true, glb := true, hst := true, dos := true, pac := true, twn := true, grn := true, slo := true, obs := true } F = true) : DoesO F s0 (execBeamMapSet id data s) := by
  refine DoesO.weaken hF h ?_
  unfold execBeamMapSet
  repeat' (first
    | exact Eq.refl true
    | with_reducible exact Does.refl _ _
    | with_reducible assumption
    | with_reducible apply does_tableCmd)

theorem does_execTrimSet {F : Parts} {s0 s : State} (id : Nat) (data : Option (List Byte)) (h : Does F s0 s)
    (hF : Parts.le { outs := true, glb := true, hst := true, dos := true, pac := true, twn := true, grn := true, slo := true, obs := true } F = true) : DoesO F s0 (execTrimSet id data s) := by
  refine DoesO.weaken hF h ?_
  unfold execTrimSet
  repeat' (first
    | exact Eq.refl true
    | with_reducible exact Does.refl _ _
    | with_reducible assumption
    | with_reducible apply does_tableCmd)

theorem does_execTableChangeEffect {F : Parts} {s0 s : State}  (h : Does F s0 s)
    (hF : Parts.le { dos := true } F = true) : DoesO F s0 (execTableChangeEffect s) := by
  refine DoesO.weaken hF h ?_
  unfold execTableChangeEffect
  repeat' (first
    | exact Eq.refl true
    | with_reducible exact Does.refl _ _
    | with_reducible assumption
    | ((fail_if_no_progress (extract_lets z)); refine Does.cut (z := z) ?_ (fun q => ?_); rotate_left; clear_value z)
    | ((fail_if_no_progress (extract_lets z)); refine DoesO.cut (z := z) ?_ (fun q => ?_); rotate_left; clear_value z)
    | fail_if_no_progress (extract_lets z)
    | with_reducible apply does_ok
    | with_reducible refine Does.snd (by assumption) ?_
    | with_reducible refine Does.ite ?_ ?_
    | with_reducible refine DoesO.ite ?_ ?_
    | fail_if_no_progress (with_reducible refine Does.leaf ?_ ?_ ?_; pick_goal 2; (focus (simp +zetaDelta only [State.blank, cond_true, cond_false]; first | done | fail)); pick_goal 2; (focus (simp +zetaDelta only [watched]; first | done | fail)))
    | (dsimp +zetaDelta only)
    | split)

theorem does_execTableSwitchRelease {F : Parts} {s0 s : State}  (h : Does F s0 s)
    (hF : Parts.le { dos := true } F = true) : DoesO F s0 (execTableSwitchRelease s) := by
  refine DoesO.weaken hF h ?_
  unfold execTableSwitchRelease
  repeat' (first
    | exact Eq.refl true
    | with_reducible exact Does.refl _ _
    | with_reducible assumption
    | ((fail_if_no_progress (extract_lets z)); refine Does.cut (z := z) ?_ (fun q => ?_); rotate_left; clear_value z)
    | ((fail_if_no_progress (extract_lets z)); refine DoesO.cut (z := z) ?_ (fun q => ?_); rotate_left; clear_value z)
    | fail_if_no_progress (extract_lets z)
    | with_reducible apply does_ok
    | with_reducible refine Does.snd (by assumption) ?_
    | with_reducible refine Does.ite ?_ ?_
    | with_reducible refine DoesO.ite ?_ ?_
    | fail_if_no_progress (with_reducible refine Does.leaf ?_ ?_ ?_; pick_goal 2; (focus (simp +zetaDelta only [State.blank, cond_true, cond_false]; first | done | fail)); pick_goal 2; (focus (simp +zetaDelta only [watched]; first | done | fail)))
    | (dsimp +zetaDelta only)
    | split)

theorem does_tableReply {F : Parts} {s0 s : State} (tag : Nat) (reply : Nat) (status : Nat) (h : Does F s0 s)
    (hF : Parts.le { outs := true, glb := true, hst := true, dos := true, pac := true, twn := true, grn := true, slo := true, obs := true } F = true) : Does F s0 (tableReply tag reply status s) := by
  refine Does.weaken hF h ?_
  unfold tableReply
  repeat' (first
    | exact Eq.refl true
    | with_reducible exact Does.refl _ _
    | with_reducible assumption
    | ((fail_if_no_progress (extract_lets z)); refine Does.cut (z := z) ?_ (fun q => ?_); rotate_left; clear_value z)
    | fail_if_no_progress (extract_lets z)
    | with_reducible apply does_writeTable
    | with_reducible apply does_completeOpt
    | with_reducible apply does_msgRecord
    | with_reducible apply does_finishTable
    | with_reducible refine Does.snd (by assumption) ?_
    | with_reducible refine Does.ite ?_ ?_
    | fail_if_no_progress (with_reducible refine Does.leaf ?_ ?_ ?_; pick_goal 2; (focus (simp +zetaDelta only [State.blank, cond_true, cond_false]; first | done | fail)); pick_goal 2; (focus (simp +zetaDelta only [watched]; first | done | fail)))
    | (dsimp +zetaDelta only)
    | split)

theorem does_execDxpTable {F : Parts} {s0 s : State} (m : TableMsg) (h : Does F s0 s)
    (hF : Parts.le { outs := true, twn := true, obs := true } F = true) : DoesO F s0 (execDxpTable m s) := by
  refine DoesO.weaken hF h ?_
  unfold execDxpTable
  repeat' (first
    | exact Eq.refl true
    | with_reducible exact Does.refl _ _
    | with_reducible assumption
    | ((fail_if_no_progress (extract_lets z)); refine Does.cut (z := z) ?_ (fun q => ?_); rotate_left; clear_value z)
    | ((fail_if_no_progress (extract_lets z)); refine Does.cutSnd (z := z) ?_ (fun q => ?_); rotate_left; clear_value z)
    | ((fail_if_no_progress (extract_lets z)); refine DoesO.cut (z := z) ?_ (fun q => ?_); rotate_left; clear_value z)
    | ((fail_if_no_progress (extract_lets z)); refine DoesO.cutSnd (z := z) ?_ (fun q => ?_); rotate_left; clear_value z)
    | fail_if_no_progress (extract_lets z)
    | with_reducible apply does_ok
    | with_reducible apply does_dxpSend
    | with_reducible refine Does.ite ?_ ?_
    | with_reducible refine DoesO.ite ?_ ?_
    | fail_if_no_progress (with_reducible refine Does.leaf ?_ ?_ ?_; pick_goal 2; (focus (simp +zetaDelta only [State.blank, cond_true, cond_false]; first | done | fail)); pick_goal 2; (focus (simp +zetaDelta only [watched]; first | done | fail)))
    | (dsimp +zetaDelta only)
    | split)

theorem does_execDxpTableReply {F : Parts} {s0 s : State} (tag : BitVec 16) (reply : Fin 3) (status : Byte) (h : Does F s0 s)
    (hF : Parts.le { outs := true, glb := true, hst := true, dos := true, pac := true, twn := true, grn := true, slo := true, obs := true } F = true) : DoesO F s0 (execDxpTableReply tag reply status s) := by
  refine DoesO.weaken hF h ?_
  unfold execDxpTableReply
  repeat' (first
    | exact Eq.refl true
    | with_reducible exact Does.refl _ _
    | with_reducible assumption
    | with_reducible apply does_ok
    | with_reducible apply does_tableReply
    | with_reducible refine Does.ite ?_ ?_
    | with_reducible refine DoesO.ite ?_ ?_
    | split)

theorem does_execDxpTableCommit {F : Parts} {s0 s : State} (tag : BitVec 16) (h : Does F s0 s)
    (hF : Parts.le { outs := true, glb := true, hst := true, dos := true, pac := true, twn := true, grn := true, slo := true, obs := true } F = true) : DoesO F s0 (execDxpTableCommit tag s) := by
  refine DoesO.weaken hF h ?_
  unfold execDxpTableCommit
  repeat' (first
    | exact Eq.refl true
    | with_reducible exact Does.refl _ _
    | with_reducible assumption
    | ((fail_if_no_progress (extract_lets z)); refine Does.cut (z := z) ?_ (fun q => ?_); rotate_left; clear_value z)
    | ((fail_if_no_progress (extract_lets z)); refine DoesO.cut (z := z) ?_ (fun q => ?_); rotate_left; clear_value z)
    | fail_if_no_progress (extract_lets z)
    | with_reducible apply does_ok
    | with_reducible apply does_writeTable
    | with_reducible refine Does.snd (by assumption) ?_
    | with_reducible refine Does.ite ?_ ?_
    | with_reducible refine DoesO.ite ?_ ?_
    | fail_if_no_progress (with_reducible refine Does.leaf ?_ ?_ ?_; pick_goal 2; (focus (simp +zetaDelta only [State.blank, cond_true, cond_false]; first | done | fail)); pick_goal 2; (focus (simp +zetaDelta only [watched]; first | done | fail)))
    | (dsimp +zetaDelta only)
    | split)

theorem does_tableLinkLost {F : Parts} {s0 s : State}  (h : Does F s0 s)
    (hF : Parts.le { outs := true, free := true, glb := true, hst := true, dos := true, twn := true, slo := true, obs := true } F = true) : Does F s0 (tableLinkLost s) := by
  refine Does.weaken hF h ?_
  unfold tableLinkLost
  repeat' (first
    | exact Eq.refl true
    | with_reducible exact Does.refl _ _
    | with_reducible assumption
    | ((fail_if_no_progress (extract_lets z)); refine Does.cut (z := z) ?_ (fun q => ?_); rotate_left; clear_value z)
    | ((fail_if_no_progress (extract_lets z)); refine Does.cutSnd (z := z) ?_ (fun q => ?_); rotate_left; clear_value z)
    | fail_if_no_progress (extract_lets z)
    | with_reducible apply does_splitTable
    | with_reducible apply does_drawFree
    | with_reducible apply does_completeOpt
    | with_reducible apply does_msgRecord
    | with_reducible refine Does.snd (by assumption) ?_
    | with_reducible refine Does.ite ?_ ?_
    | fail_if_no_progress (with_reducible refine Does.leaf ?_ ?_ ?_; pick_goal 2; (focus (simp +zetaDelta only [State.blank, cond_true, cond_false]; first | done | fail)); pick_goal 2; (focus (simp +zetaDelta only [watched]; first | done | fail)))
    | (dsimp +zetaDelta only)
    | split)

end Sys2Proof.Machine
end

