-- ==== Sys2Proof/Laws/DoesLoftRows.lean ====
section
/-! SUPPORT. What each operation of Machine/LoftRows.lean touches at most, and that it keeps the bounds. -/

-- One theorem at a time: elaborating the package as one text in many threads at once takes more memory than the check allows.
set_option Elab.async false

set_option linter.unusedSimpArgs false
set_option linter.unusedTactic false
set_option linter.unreachableTactic false

namespace Sys2Proof.Machine

theorem does_execLoftChannelTrained {F : Parts} {s0 s : State} (c : Fin 12) (step : TrainStep) (good : Bool) (conf : Option DimmConf) (h : Does F s0 s)
    (hF : Parts.le { outs := true, glb := true, hst := true, lft := true, slo := true, obs := true } F = true) : DoesO F s0 (execLoftChannelTrained c step good conf s) := by
  refine DoesO.weaken hF h ?_
  unfold execLoftChannelTrained
  repeat' (first
    | exact Eq.refl true
    | with_reducible exact Does.refl _ _
    | with_reducible assumption
    | ((fail_if_no_progress (extract_lets z)); refine Does.cut (z := z) ?_ (fun q => ?_); rotate_left; clear_value z)
    | ((fail_if_no_progress (extract_lets z)); refine Does.cutSnd (z := z) ?_ (fun q => ?_); rotate_left; clear_value z)
    | ((fail_if_no_progress (extract_lets z)); refine DoesO.cut (z := z) ?_ (fun q => ?_); rotate_left; clear_value z)
    | ((fail_if_no_progress (extract_lets z)); refine DoesO.cutSnd (z := z) ?_ (fun q => ?_); rotate_left; clear_value z)
    | fail_if_no_progress (extract_lets z)
    | with_reducible apply does_ok
    | with_reducible apply does_lftSet
    | with_reducible apply does_raiseItems
    | with_reducible refine Does.snd (by assumption) ?_
    | with_reducible refine Does.ite ?_ ?_
    | with_reducible refine DoesO.ite ?_ ?_
    | fail_if_no_progress (with_reducible refine Does.leaf ?_ ?_ ?_; pick_goal 2; (focus (simp +zetaDelta only [State.blank, cond_true, cond_false]; first | done | fail)); pick_goal 2; (focus (simp +zetaDelta only [watched]; first | done | fail)))
    | (dsimp +zetaDelta only)
    | split)

theorem does_execLoftTrained {F : Parts} {s0 s : State}  (h : Does F s0 s)
    (hF : Parts.le { glb := true, lft := true } F = true) : DoesO F s0 (execLoftTrained s) := by
  refine DoesO.weaken hF h ?_
  unfold execLoftTrained
  repeat' (first
    | exact Eq.refl true
    | with_reducible exact Does.refl _ _
    | with_reducible assumption
    | ((fail_if_no_progress (extract_lets z)); refine Does.cut (z := z) ?_ (fun q => ?_); rotate_left; clear_value z)
    | ((fail_if_no_progress (extract_lets z)); refine Does.cutSnd (z := z) ?_ (fun q => ?_); rotate_left; clear_value z)
    | ((fail_if_no_progress (extract_lets z)); refine DoesO.cut (z := z) ?_ (fun q => ?_); rotate_left; clear_value z)
    | ((fail_if_no_progress (extract_lets z)); refine DoesO.cutSnd (z := z) ?_ (fun q => ?_); rotate_left; clear_value z)
    | fail_if_no_progress (extract_lets z)
    | with_reducible apply does_ok
    | with_reducible refine Does.ite ?_ ?_
    | with_reducible refine DoesO.ite ?_ ?_
    | fail_if_no_progress (with_reducible refine Does.leaf ?_ ?_ ?_; pick_goal 2; (focus (simp +zetaDelta only [State.blank, cond_true, cond_false]; first | done | fail)); pick_goal 2; (focus (simp +zetaDelta only [watched]; first | done | fail)))
    | (dsimp +zetaDelta only)
    | split)

theorem does_loftFlow {F : Parts} {s0 s : State}  (h : Does F s0 s)
    (hF : Parts.le { outs := true, glb := true, hst := true, chains := true, pac := true, lft := true, slo := true, obs := true } F = true) : Does F s0 (loftFlow s) := by
  refine Does.weaken hF h ?_
  unfold loftFlow
  repeat' (first
    | exact Eq.refl true
    | with_reducible exact Does.refl _ _
    | with_reducible assumption
    | with_reducible apply does_landBursts
    | with_reducible apply does_loftGoOn)

theorem does_execLoftRequestIssue {F : Parts} {s0 s : State} (c : Fin 12) (h : Does F s0 s)
    (hF : Parts.le { outs := true, free := true, glb := true, hst := true, chains := true, pac := true, lft := true, slo := true, obs := true } F = true) : DoesO F s0 (execLoftRequestIssue c s) := by
  refine DoesO.weaken hF h ?_
  unfold execLoftRequestIssue
  repeat' (first
    | exact Eq.refl true
    | with_reducible exact Does.refl _ _
    | with_reducible assumption
    | with_reducible apply does_ok
    | with_reducible apply does_loftFlow
    | with_reducible apply does_issueNext
    | with_reducible refine Does.ite ?_ ?_
    | with_reducible refine DoesO.ite ?_ ?_
    | split)

theorem does_execLoftWriteBatch {F : Parts} {s0 s : State} (c : Fin 12) (h : Does F s0 s)
    (hF : Parts.le { lft := true } F = true) : DoesO F s0 (execLoftWriteBatch c s) := by
  refine DoesO.weaken hF h ?_
  unfold execLoftWriteBatch
  repeat' (first
    | exact Eq.refl true
    | with_reducible exact Does.refl _ _
    | with_reducible assumption
    | with_reducible apply does_ok
    | with_reducible apply does_startBatch
    | with_reducible refine Does.ite ?_ ?_
    | with_reducible refine DoesO.ite ?_ ?_
    | split)

theorem does_execRefreshDue {F : Parts} {s0 s : State} (c : Fin 12) (h : Does F s0 s)
    (hF : Parts.le { lft := true, obs := true } F = true) : DoesO F s0 (execRefreshDue c s) := by
  refine DoesO.weaken hF h ?_
  unfold execRefreshDue
  repeat' (first
    | exact Eq.refl true
    | with_reducible exact Does.refl _ _
    | with_reducible assumption
    | with_reducible apply does_ok
    | with_reducible apply does_refreshTick
    | with_reducible refine Does.ite ?_ ?_
    | with_reducible refine DoesO.ite ?_ ?_
    | split)

theorem does_execDimmTempRead {F : Parts} {s0 s : State} (c : Fin 12) (t0 : List (Option (BitVec 16))) (t1 : List (Option (BitVec 16))) (h : Does F s0 s)
    (hF : Parts.le { outs := true, glb := true, hst := true, lft := true, slo := true, obs := true } F = true) : DoesO F s0 (execDimmTempRead c t0 t1 s) := by
  refine DoesO.weaken hF h ?_
  unfold execDimmTempRead
  repeat' (first
    | exact Eq.refl true
    | with_reducible exact Does.refl _ _
    | with_reducible assumption
    | with_reducible apply does_ok
    | with_reducible apply does_tempTick
    | with_reducible refine Does.ite ?_ ?_
    | with_reducible refine DoesO.ite ?_ ?_
    | split)

theorem does_execLoftRowTimeout {F : Parts} {s0 s : State} (c : Fin 12) (bank : Fin 256) (h : Does F s0 s)
    (hF : Parts.le { lft := true } F = true) : DoesO F s0 (execLoftRowTimeout c bank s) := by
  refine DoesO.weaken hF h ?_
  unfold execLoftRowTimeout
  repeat' (first
    | exact Eq.refl true
    | with_reducible exact Does.refl _ _
    | with_reducible assumption
    | ((fail_if_no_progress (extract_lets z)); refine Does.cut (z := z) ?_ (fun q => ?_); rotate_left; clear_value z)
    | ((fail_if_no_progress (extract_lets z)); refine Does.cutSnd (z := z) ?_ (fun q => ?_); rotate_left; clear_value z)
    | ((fail_if_no_progress (extract_lets z)); refine DoesO.cut (z := z) ?_ (fun q => ?_); rotate_left; clear_value z)
    | ((fail_if_no_progress (extract_lets z)); refine DoesO.cutSnd (z := z) ?_ (fun q => ?_); rotate_left; clear_value z)
    | fail_if_no_progress (extract_lets z)
    | with_reducible apply does_ok
    | with_reducible apply does_lftSet
    | with_reducible refine Does.ite ?_ ?_
    | with_reducible refine DoesO.ite ?_ ?_
    | fail_if_no_progress (with_reducible refine Does.leaf ?_ ?_ ?_; pick_goal 2; (focus (simp +zetaDelta only [State.blank, cond_true, cond_false]; first | done | fail)); pick_goal 2; (focus (simp +zetaDelta only [watched]; first | done | fail)))
    | (dsimp +zetaDelta only)
    | split)

theorem does_loseMapWord {F : Parts} {s0 s : State} (w : Nat) (h : Does F s0 s)
    (hF : Parts.le { outs := true, glb := true, hst := true, lft := true, slo := true, obs := true } F = true) : Does F s0 (loseMapWord w s) := by
  refine Does.weaken hF h ?_
  unfold loseMapWord
  repeat' (first
    | exact Eq.refl true
    | with_reducible exact Does.refl _ _
    | with_reducible assumption
    | ((fail_if_no_progress (extract_lets z)); refine Does.cut (z := z) ?_ (fun q => ?_); rotate_left; clear_value z)
    | ((fail_if_no_progress (extract_lets z)); refine Does.cutSnd (z := z) ?_ (fun q => ?_); rotate_left; clear_value z)
    | fail_if_no_progress (extract_lets z)
    | with_reducible apply does_raiseItems
    | (with_reducible refine Does.foldl ?_ (fun _ _ _ => ?_))
    | (with_reducible refine Does.foldlSnd ?_ (fun _ _ _ => ?_))
    | fail_if_no_progress (with_reducible refine Does.leaf ?_ ?_ ?_; pick_goal 2; (focus (simp +zetaDelta only [State.blank, cond_true, cond_false]; first | done | fail)); pick_goal 2; (focus (simp +zetaDelta only [watched]; first | done | fail)))
    | (dsimp +zetaDelta only))

theorem does_addLoss {F : Parts} {s0 s : State} (r : MkRec) (h : Does F s0 s)
    (hF : Parts.le { outs := true, glb := true, hst := true, pac := true, slo := true, store := true, obs := true } F = true) : Does F s0 (addLoss r s) := by
  refine Does.weaken hF h ?_
  unfold addLoss
  repeat' (first
    | exact Eq.refl true
    | with_reducible exact Does.refl _ _
    | with_reducible assumption
    | ((fail_if_no_progress (extract_lets z)); refine Does.cut (z := z) ?_ (fun q => ?_); rotate_left; clear_value z)
    | ((fail_if_no_progress (extract_lets z)); refine Does.cutSnd (z := z) ?_ (fun q => ?_); rotate_left; clear_value z)
    | fail_if_no_progress (extract_lets z)
    | with_reducible apply does_setStripe
    | with_reducible apply does_raiseStripeLoss
    | with_reducible refine Does.snd (by assumption) ?_
    | with_reducible refine Does.ite ?_ ?_
    | fail_if_no_progress (with_reducible refine Does.leaf ?_ ?_ ?_; pick_goal 2; (focus (simp +zetaDelta only [State.blank, cond_true, cond_false]; first | done | fail)); pick_goal 2; (focus (simp +zetaDelta only [watched]; first | done | fail)))
    | (dsimp +zetaDelta only)
    | split)

theorem does_loseRead {F : Parts} {s0 s : State} (q : LftReq) (h : Does F s0 s)
    (hF : Parts.le { outs := true, glb := true, hst := true, pac := true, slo := true, store := true, obs := true } F = true) : Does F s0 (loseRead q s) := by
  refine Does.weaken hF h ?_
  unfold loseRead
  repeat' (first
    | exact Eq.refl true
    | with_reducible exact Does.refl _ _
    | with_reducible assumption
    | ((fail_if_no_progress (extract_lets z)); refine Does.cut (z := z) ?_ (fun q => ?_); rotate_left; clear_value z)
    | ((fail_if_no_progress (extract_lets z)); refine Does.cutSnd (z := z) ?_ (fun q => ?_); rotate_left; clear_value z)
    | fail_if_no_progress (extract_lets z)
    | with_reducible apply does_addLoss
    | with_reducible refine Does.snd (by assumption) ?_
    | (with_reducible refine Does.foldl ?_ (fun _ _ _ => ?_))
    | (with_reducible refine Does.foldlSnd ?_ (fun _ _ _ => ?_))
    | with_reducible refine Does.ite ?_ ?_
    | fail_if_no_progress (with_reducible refine Does.leaf ?_ ?_ ?_; pick_goal 2; (focus (simp +zetaDelta only [State.blank, cond_true, cond_false]; first | done | fail)); pick_goal 2; (focus (simp +zetaDelta only [watched]; first | done | fail)))
    | (dsimp +zetaDelta only)
    | split)

theorem does_deliverRead {F : Parts} {s0 s : State} (q : LftReq) (cls : Nat) (bs : List Byte) (h : Does F s0 s)
    (hF : Parts.le { outs := true, glb := true, hst := true, chains := true, chk := true, pac := true, lft := true, slo := true, store := true, obs := true, readbacks := true } F = true) : Does F s0 (deliverRead q cls bs s) := by
  refine Does.weaken hF h ?_
  unfold deliverRead
  repeat' (first
    | exact Eq.refl true
    | with_reducible exact Does.refl _ _
    | with_reducible assumption
    | ((fail_if_no_progress (extract_lets z)); refine Does.cut (z := z) ?_ (fun q => ?_); rotate_left; clear_value z)
    | ((fail_if_no_progress (extract_lets z)); refine Does.cutSnd (z := z) ?_ (fun q => ?_); rotate_left; clear_value z)
    | fail_if_no_progress (extract_lets z)
    | with_reducible apply does_loseRead
    | with_reducible apply does_chainSet
    | with_reducible apply does_scanFeed
    | with_reducible apply does_loadFeed
    | with_reducible apply does_readbackFeed
    | with_reducible apply does_admitFeed
    | with_reducible refine Does.snd (by assumption) ?_
    | with_reducible refine Does.ite ?_ ?_
    | fail_if_no_progress (with_reducible refine Does.leaf ?_ ?_ ?_; pick_goal 2; (focus (simp +zetaDelta only [State.blank, cond_true, cond_false]; first | done | fail)); pick_goal 2; (focus (simp +zetaDelta only [watched]; first | done | fail)))
    | (dsimp +zetaDelta only)
    | split)

theorem does_finishRead {F : Parts} {s0 s : State} (q : LftReq) (e : DramErr) (h : Does F s0 s)
    (hF : Parts.le { outs := true, glb := true, hst := true, chains := true, chk := true, pac := true, lft := true, slo := true, store := true, obs := true, readbacks := true } F = true) : Does F s0 (finishRead q e s) := by
  refine Does.weaken hF h ?_
  unfold finishRead
  repeat' (first
    | exact Eq.refl true
    | with_reducible exact Does.refl _ _
    | with_reducible assumption
    | ((fail_if_no_progress (extract_lets z)); refine Does.cut (z := z) ?_ (fun q => ?_); rotate_left; clear_value z)
    | ((fail_if_no_progress (extract_lets z)); refine Does.cutSnd (z := z) ?_ (fun q => ?_); rotate_left; clear_value z)
    | fail_if_no_progress (extract_lets z)
    | with_reducible apply does_deliverRead
    | with_reducible apply does_decodeBlock
    | with_reducible apply does_strikeBlock
    | with_reducible refine Does.snd (by assumption) ?_
    | with_reducible refine Does.ite ?_ ?_
    | (dsimp +zetaDelta only)
    | split)

theorem does_execLoftReadComplete {F : Parts} {s0 s : State} (c : Fin 12) (err : DramErr) (mapErr : Bool) (h : Does F s0 s)
    (hF : Parts.le { outs := true, glb := true, hst := true, chains := true, chk := true, pac := true, lft := true, slo := true, store := true, obs := true, readbacks := true } F = true) : DoesO F s0 (execLoftReadComplete c err mapErr s) := by
  refine DoesO.weaken hF h ?_
  unfold execLoftReadComplete
  repeat' (first
    | exact Eq.refl true
    | with_reducible exact Does.refl _ _
    | with_reducible assumption
    | ((fail_if_no_progress (extract_lets z)); refine Does.cut (z := z) ?_ (fun q => ?_); rotate_left; clear_value z)
    | ((fail_if_no_progress (extract_lets z)); refine Does.cutSnd (z := z) ?_ (fun q => ?_); rotate_left; clear_value z)
    | ((fail_if_no_progress (extract_lets z)); refine DoesO.cut (z := z) ?_ (fun q => ?_); rotate_left; clear_value z)
    | ((fail_if_no_progress (extract_lets z)); refine DoesO.cutSnd (z := z) ?_ (fun q => ?_); rotate_left; clear_value z)
    | fail_if_no_progress (extract_lets z)
    | with_reducible apply does_ok
    | with_reducible apply does_lftSet
    | with_reducible apply does_loseMapWord
    | with_reducible apply does_loftFlow
    | with_reducible apply does_payOwed
    | with_reducible apply does_finishRead
    | with_reducible refine Does.snd (by assumption) ?_
    | with_reducible refine Does.ite ?_ ?_
    | with_reducible refine DoesO.ite ?_ ?_
    | fail_if_no_progress (with_reducible refine Does.leaf ?_ ?_ ?_; pick_goal 2; (focus (simp +zetaDelta only [State.blank, cond_true, cond_false]; first | done | fail)); pick_goal 2; (focus (simp +zetaDelta only [watched]; first | done | fail)))
    | (dsimp +zetaDelta only)
    | split)

theorem does_execFillEngineStart {F : Parts} {s0 s : State}  (h : Does F s0 s)
    (hF : Parts.le { outs := true, glb := true, hst := true, chains := true, pac := true, lft := true, slo := true, obs := true } F = true) : DoesO F s0 (execFillEngineStart s) := by
  refine DoesO.weaken hF h ?_
  unfold execFillEngineStart
  repeat' (first
    | exact Eq.refl true
    | with_reducible exact Does.refl _ _
    | with_reducible assumption
    | with_reducible apply does_ok
    | with_reducible apply does_loftFlow)

theorem does_execFillEngineDone {F : Parts} {s0 s : State} (e : Fin 8) (h : Does F s0 s)
    (hF : Parts.le { outs := true, glb := true, hst := true, chains := true, pac := true, lft := true, slo := true, obs := true } F = true) : DoesO F s0 (execFillEngineDone e s) := by
  refine DoesO.weaken hF h ?_
  unfold execFillEngineDone
  repeat' (first
    | exact Eq.refl true
    | with_reducible exact Does.refl _ _
    | with_reducible assumption
    | with_reducible apply does_ok
    | with_reducible apply does_loftFlow
    | with_reducible apply does_fillRegion)

theorem does_lapEnd {F : Parts} {s0 s : State} (ms : Nat) (h : Does F s0 s)
    (hF : Parts.le { outs := true, glb := true, hst := true, lft := true, slo := true, obs := true } F = true) : Does F s0 (lapEnd ms s) := by
  refine Does.weaken hF h ?_
  unfold lapEnd
  repeat' (first
    | exact Eq.refl true
    | with_reducible exact Does.refl _ _
    | with_reducible assumption
    | ((fail_if_no_progress (extract_lets z)); refine Does.cut (z := z) ?_ (fun q => ?_); rotate_left; clear_value z)
    | ((fail_if_no_progress (extract_lets z)); refine Does.cutSnd (z := z) ?_ (fun q => ?_); rotate_left; clear_value z)
    | fail_if_no_progress (extract_lets z)
    | with_reducible apply does_raiseItems
    | fail_if_no_progress (with_reducible refine Does.leaf ?_ ?_ ?_; pick_goal 2; (focus (simp +zetaDelta only [State.blank, cond_true, cond_false]; first | done | fail)); pick_goal 2; (focus (simp +zetaDelta only [watched]; first | done | fail)))
    | (dsimp +zetaDelta only))

theorem does_execGleanerRead {F : Parts} {s0 s : State} (err : DramErr) (lapMs : W32) (h : Does F s0 s)
    (hF : Parts.le { outs := true, free := true, glb := true, hst := true, lft := true, slo := true, obs := true } F = true) : DoesO F s0 (execGleanerRead err lapMs s) := by
  refine DoesO.weaken hF h ?_
  unfold execGleanerRead
  repeat' (first
    | exact Eq.refl true
    | with_reducible exact Does.refl _ _
    | with_reducible assumption
    | ((fail_if_no_progress (extract_lets z)); refine Does.cut (z := z) ?_ (fun q => ?_); rotate_left; clear_value z)
    | ((fail_if_no_progress (extract_lets z)); refine Does.cutSnd (z := z) ?_ (fun q => ?_); rotate_left; clear_value z)
    | ((fail_if_no_progress (extract_lets z)); refine DoesO.cut (z := z) ?_ (fun q => ?_); rotate_left; clear_value z)
    | ((fail_if_no_progress (extract_lets z)); refine DoesO.cutSnd (z := z) ?_ (fun q => ?_); rotate_left; clear_value z)
    | fail_if_no_progress (extract_lets z)
    | with_reducible apply does_ok
    | with_reducible apply does_lapEnd
    | with_reducible apply does_cntLft
    | with_reducible apply does_accessRow
    | with_reducible apply does_strikeBlock
    | with_reducible apply does_decodeBlock
    | with_reducible refine Does.snd (by assumption) ?_
    | with_reducible refine Does.ite ?_ ?_
    | with_reducible refine DoesO.ite ?_ ?_
    | fail_if_no_progress (with_reducible refine Does.leaf ?_ ?_ ?_; pick_goal 2; (focus (simp +zetaDelta only [State.blank, cond_true, cond_false]; first | done | fail)); pick_goal 2; (focus (simp +zetaDelta only [watched]; first | done | fail)))
    | (dsimp +zetaDelta only)
    | split)

theorem does_execGleanerLapSlow {F : Parts} {s0 s : State} (secs : W32) (h : Does F s0 s)
    (hF : Parts.le { outs := true, glb := true, hst := true, lft := true, slo := true, obs := true } F = true) : DoesO F s0 (execGleanerLapSlow secs s) := by
  refine DoesO.weaken hF h ?_
  unfold execGleanerLapSlow
  repeat' (first
    | exact Eq.refl true
    | with_reducible exact Does.refl _ _
    | with_reducible assumption
    | ((fail_if_no_progress (extract_lets z)); refine Does.cut (z := z) ?_ (fun q => ?_); rotate_left; clear_value z)
    | ((fail_if_no_progress (extract_lets z)); refine DoesO.cut (z := z) ?_ (fun q => ?_); rotate_left; clear_value z)
    | fail_if_no_progress (extract_lets z)
    | with_reducible apply does_ok
    | with_reducible apply does_raiseItems
    | with_reducible refine Does.ite ?_ ?_
    | with_reducible refine DoesO.ite ?_ ?_
    | fail_if_no_progress (with_reducible refine Does.leaf ?_ ?_ ?_; pick_goal 2; (focus (simp +zetaDelta only [State.blank, cond_true, cond_false]; first | done | fail)); pick_goal 2; (focus (simp +zetaDelta only [watched]; first | done | fail)))
    | (dsimp +zetaDelta only)
    | split)

theorem does_freeBlock {F : Parts} {s0 s : State}  (h : Does F s0 s)
    (hF : Parts.le { free := true } F = true) : Does F s0 (freeBlock s).2 := by
  refine Does.weaken hF h ?_
  unfold freeBlock
  repeat' (first
    | exact Eq.refl true
    | with_reducible exact Does.refl _ _
    | with_reducible assumption
    | ((fail_if_no_progress (extract_lets z)); refine Does.cut (z := z) ?_ (fun q => ?_); rotate_left; clear_value z)
    | fail_if_no_progress (extract_lets z)
    | fail_if_no_progress (with_reducible refine Does.leaf ?_ ?_ ?_; pick_goal 2; (focus (simp +zetaDelta only [State.blank, cond_true, cond_false]; first | done | fail)); pick_goal 2; (focus (simp +zetaDelta only [watched]; first | done | fail)))
    | (dsimp +zetaDelta only))

theorem does_failRequests {F : Parts} {s0 s : State} (c : Nat) (h : Does F s0 s)
    (hF : Parts.le { outs := true, free := true, glb := true, hst := true, chains := true, chk := true, pac := true, lft := true, slo := true, store := true, obs := true, readbacks := true } F = true) : Does F s0 (failRequests c s) := by
  refine Does.weaken hF h ?_
  unfold failRequests
  repeat' (first
    | exact Eq.refl true
    | with_reducible exact Does.refl _ _
    | with_reducible assumption
    | ((fail_if_no_progress (extract_lets z)); refine Does.cut (z := z) ?_ (fun q => ?_); rotate_left; clear_value z)
    | ((fail_if_no_progress (extract_lets z)); refine Does.cutSnd (z := z) ?_ (fun q => ?_); rotate_left; clear_value z)
    | fail_if_no_progress (extract_lets z)
    | with_reducible apply does_freeBlock
    | with_reducible apply does_deliverRead
    | with_reducible apply does_noteUe
    | with_reducible apply does_lftSet
    | with_reducible refine Does.snd (by assumption) ?_
    | (with_reducible refine Does.foldl ?_ (fun _ _ _ => ?_))
    | (with_reducible refine Does.foldlSnd ?_ (fun _ _ _ => ?_))
    | fail_if_no_progress (with_reducible refine Does.leaf ?_ ?_ ?_; pick_goal 2; (focus (simp +zetaDelta only [State.blank, cond_true, cond_false]; first | done | fail)); pick_goal 2; (focus (simp +zetaDelta only [watched]; first | done | fail)))
    | (dsimp +zetaDelta only)
    | split)

theorem does_failTransfers {F : Parts} {s0 s : State}  (h : Does F s0 s)
    (hF : Parts.le { outs := true, glb := true, hst := true, chains := true, chk := true, lft := true, slo := true, obs := true, readbacks := true } F = true) : Does F s0 (failTransfers s) := by
  refine Does.weaken hF h ?_
  unfold failTransfers
  repeat' (first
    | exact Eq.refl true
    | with_reducible exact Does.refl _ _
    | with_reducible assumption
    | ((fail_if_no_progress (extract_lets z)); refine Does.cut (z := z) ?_ (fun q => ?_); rotate_left; clear_value z)
    | ((fail_if_no_progress (extract_lets z)); refine Does.cutSnd (z := z) ?_ (fun q => ?_); rotate_left; clear_value z)
    | fail_if_no_progress (extract_lets z)
    | with_reducible apply does_stopChain
    | with_reducible apply does_complete
    | with_reducible apply does_scanFree
    | with_reducible apply does_dropReads
    | with_reducible refine Does.snd (by assumption) ?_
    | (with_reducible refine Does.foldl ?_ (fun _ _ _ => ?_))
    | (with_reducible refine Does.foldlSnd ?_ (fun _ _ _ => ?_))
    | with_reducible refine Does.ite ?_ ?_
    | fail_if_no_progress (with_reducible refine Does.leaf ?_ ?_ ?_; pick_goal 2; (focus (simp +zetaDelta only [State.blank, cond_true, cond_false]; first | done | fail)); pick_goal 2; (focus (simp +zetaDelta only [watched]; first | done | fail)))
    | (dsimp +zetaDelta only)
    | split)

theorem does_clearLoft {F : Parts} {s0 s : State}  (h : Does F s0 s)
    (hF : Parts.le { lft := true } F = true) : Does F s0 (clearLoft s) := by
  refine Does.weaken hF h ?_
  unfold clearLoft
  repeat' (first
    | exact Eq.refl true
    | with_reducible exact Does.refl _ _
    | with_reducible assumption
    | ((fail_if_no_progress (extract_lets z)); refine Does.cut (z := z) ?_ (fun q => ?_); rotate_left; clear_value z)
    | ((fail_if_no_progress (extract_lets z)); refine Does.cutSnd (z := z) ?_ (fun q => ?_); rotate_left; clear_value z)
    | fail_if_no_progress (extract_lets z)
    | with_reducible apply does_lftSet
    | (with_reducible refine Does.foldl ?_ (fun _ _ _ => ?_))
    | (with_reducible refine Does.foldlSnd ?_ (fun _ _ _ => ?_))
    | fail_if_no_progress (with_reducible refine Does.leaf ?_ ?_ ?_; pick_goal 2; (focus (simp +zetaDelta only [State.blank, cond_true, cond_false]; first | done | fail)); pick_goal 2; (focus (simp +zetaDelta only [watched]; first | done | fail)))
    | (with_reducible refine Does.leafB ?_ ?_ ?_; pick_goal 2; (focus (simp +zetaDelta only [State.blank, cond_true, cond_false]; first | done | fail)); pick_goal 2; (exact fun b => ⟨rfl, b.hold, b.minor, b.trace, b.silo, b.head, b.store⟩))
    | (dsimp +zetaDelta only))


theorem does_moveScans {F : Parts} {s0 s : State} (c : Nat) (h : Does F s0 s)
    (hF : Parts.le { outs := true, hst := true, chk := true, lft := true, obs := true } F = true) : Does F s0 (moveScans c s) := by
  refine Does.weaken hF h ?_
  unfold moveScans
  repeat' (first
    | exact Eq.refl true
    | with_reducible exact Does.refl _ _
    | with_reducible assumption
    | ((fail_if_no_progress (extract_lets z)); refine Does.cut (z := z) ?_ (fun q => ?_); rotate_left; clear_value z)
    | ((fail_if_no_progress (extract_lets z)); refine Does.cutSnd (z := z) ?_ (fun q => ?_); rotate_left; clear_value z)
    | fail_if_no_progress (extract_lets z)
    | with_reducible apply does_lftSet
    | with_reducible apply does_queueRead
    | with_reducible apply does_complete
    | (with_reducible refine Does.foldl ?_ (fun _ _ _ => ?_))
    | (with_reducible refine Does.foldlSnd ?_ (fun _ _ _ => ?_))
    | with_reducible refine Does.ite ?_ ?_
    | fail_if_no_progress (with_reducible refine Does.leaf ?_ ?_ ?_; pick_goal 2; (focus (simp +zetaDelta only [State.blank, cond_true, cond_false]; first | done | fail)); pick_goal 2; (focus (simp +zetaDelta only [watched]; first | done | fail)))
    | (dsimp +zetaDelta only)
    | split)

theorem does_loseAdmission {F : Parts} {s0 s : State}  (h : Does F s0 s)
    (hF : Parts.le { outs := true, hst := true, chk := true, pac := true, lft := true, obs := true } F = true) : Does F s0 (loseAdmission s) := by
  refine Does.weaken hF h ?_
  unfold loseAdmission
  repeat' (first
    | exact Eq.refl true
    | with_reducible exact Does.refl _ _
    | with_reducible assumption
    | ((fail_if_no_progress (extract_lets z)); refine Does.cut (z := z) ?_ (fun q => ?_); rotate_left; clear_value z)
    | fail_if_no_progress (extract_lets z)
    | with_reducible apply does_dropAdmission
    | with_reducible refine Does.snd (by assumption) ?_
    | with_reducible refine Does.ite ?_ ?_
    | fail_if_no_progress (with_reducible refine Does.leaf ?_ ?_ ?_; pick_goal 2; (focus (simp +zetaDelta only [State.blank, cond_true, cond_false]; first | done | fail)); pick_goal 2; (focus (simp +zetaDelta only [watched]; first | done | fail)))
    | (dsimp +zetaDelta only)
    | split)

theorem does_channelOut {F : Parts} {s0 s : State} (c : Nat) (cause : Nat) (h : Does F s0 s)
    (hF : Parts.le { lft := true } F = true) : Does F s0 (channelOut c cause s) := by
  refine Does.weaken hF h ?_
  unfold channelOut
  repeat' (first
    | exact Eq.refl true
    | with_reducible exact Does.refl _ _
    | with_reducible assumption
    | ((fail_if_no_progress (extract_lets z)); refine Does.cut (z := z) ?_ (fun q => ?_); rotate_left; clear_value z)
    | ((fail_if_no_progress (extract_lets z)); refine Does.cutSnd (z := z) ?_ (fun q => ?_); rotate_left; clear_value z)
    | fail_if_no_progress (extract_lets z)
    | with_reducible apply does_lftSet
    | fail_if_no_progress (with_reducible refine Does.leaf ?_ ?_ ?_; pick_goal 2; (focus (simp +zetaDelta only [State.blank, cond_true, cond_false]; first | done | fail)); pick_goal 2; (focus (simp +zetaDelta only [watched]; first | done | fail)))
    | (dsimp +zetaDelta only))

theorem does_retireChannel {F : Parts} {s0 s : State} (c : Nat) (cause : Nat) (h : Does F s0 s)
    (hF : Parts.le { outs := true, free := true, glb := true, hst := true, chains := true, chk := true, units := true, pac := true, enc := true, twn := true, lft := true, tim := true, slo := true, store := true, obs := true, readbacks := true } F = true) : Does F s0 (retireChannel c cause s) := by
  refine Does.weaken hF h ?_
  unfold retireChannel
  repeat' (first
    | exact Eq.refl true
    | with_reducible exact Does.refl _ _
    | with_reducible assumption
    | ((fail_if_no_progress (extract_lets z)); refine Does.cut (z := z) ?_ (fun q => ?_); rotate_left; clear_value z)
    | ((fail_if_no_progress (extract_lets z)); refine Does.cutSnd (z := z) ?_ (fun q => ?_); rotate_left; clear_value z)
    | fail_if_no_progress (extract_lets z)
    | with_reducible apply does_channelOut
    | with_reducible apply does_clearLoft
    | with_reducible apply does_failTransfers
    | with_reducible apply does_loseAdmission
    | with_reducible apply does_abortOrDiscard
    | with_reducible apply does_failRequests
    | with_reducible apply does_raiseItems
    | with_reducible apply does_moveScans
    | with_reducible refine Does.ite ?_ ?_
    | (dsimp +zetaDelta only)
    | split)

theorem does_execLoftChannelFault {F : Parts} {s0 s : State} (c : Fin 12) (rcd : Bool) (h : Does F s0 s)
    (hF : Parts.le { outs := true, free := true, glb := true, hst := true, chains := true, chk := true, units := true, pac := true, enc := true, twn := true, lft := true, tim := true, slo := true, store := true, obs := true, readbacks := true } F = true) : DoesO F s0 (execLoftChannelFault c rcd s) := by
  refine DoesO.weaken hF h ?_
  unfold execLoftChannelFault
  repeat' (first
    | exact Eq.refl true
    | with_reducible exact Does.refl _ _
    | with_reducible assumption
    | with_reducible apply does_ok
    | with_reducible apply does_retireChannel
    | with_reducible refine Does.ite ?_ ?_
    | with_reducible refine DoesO.ite ?_ ?_
    | split)

theorem does_execLoftAlert {F : Parts} {s0 s : State} (alert : LoftAlert) (h : Does F s0 s)
    (hF : Parts.le { lft := true } F = true) : DoesO F s0 (execLoftAlert alert s) := by
  refine DoesO.weaken hF h ?_
  unfold execLoftAlert
  repeat' (first
    | exact Eq.refl true
    | with_reducible exact Does.refl _ _
    | with_reducible assumption
    | ((fail_if_no_progress (extract_lets z)); refine Does.cut (z := z) ?_ (fun q => ?_); rotate_left; clear_value z)
    | ((fail_if_no_progress (extract_lets z)); refine Does.cutSnd (z := z) ?_ (fun q => ?_); rotate_left; clear_value z)
    | ((fail_if_no_progress (extract_lets z)); refine DoesO.cut (z := z) ?_ (fun q => ?_); rotate_left; clear_value z)
    | ((fail_if_no_progress (extract_lets z)); refine DoesO.cutSnd (z := z) ?_ (fun q => ?_); rotate_left; clear_value z)
    | fail_if_no_progress (extract_lets z)
    | with_reducible apply does_ok
    | with_reducible apply does_lftSet
    | with_reducible refine Does.ite ?_ ?_
    | with_reducible refine DoesO.ite ?_ ?_
    | fail_if_no_progress (with_reducible refine Does.leaf ?_ ?_ ?_; pick_goal 2; (focus (simp +zetaDelta only [State.blank, cond_true, cond_false]; first | done | fail)); pick_goal 2; (focus (simp +zetaDelta only [watched]; first | done | fail)))
    | (dsimp +zetaDelta only)
    | split)

theorem does_lftRetireOp {F : Parts} {s0 s : State} (c : Nat) (h : Does F s0 s)
    (hF : Parts.le { outs := true, free := true, glb := true, hst := true, chains := true, chk := true, units := true, pac := true, enc := true, twn := true, lft := true, tim := true, slo := true, store := true, obs := true, readbacks := true } F = true) : Does F s0 (lftRetireOp c s) := by
  refine Does.weaken hF h ?_
  unfold lftRetireOp
  repeat' (first
    | exact Eq.refl true
    | with_reducible exact Does.refl _ _
    | with_reducible assumption
    | with_reducible apply does_retireChannel)

theorem does_lftInvalOp {F : Parts} {s0 s : State}  (h : Does F s0 s)
    (hF : Parts.le { lft := true } F = true) : Does F s0 (lftInvalOp s) := by
  refine Does.weaken hF h ?_
  unfold lftInvalOp
  repeat' (first
    | exact Eq.refl true
    | with_reducible exact Does.refl _ _
    | with_reducible assumption
    | ((fail_if_no_progress (extract_lets z)); refine Does.cut (z := z) ?_ (fun q => ?_); rotate_left; clear_value z)
    | ((fail_if_no_progress (extract_lets z)); refine Does.cutSnd (z := z) ?_ (fun q => ?_); rotate_left; clear_value z)
    | fail_if_no_progress (extract_lets z)
    | with_reducible refine Does.ite ?_ ?_
    | fail_if_no_progress (with_reducible refine Does.leaf ?_ ?_ ?_; pick_goal 2; (focus (simp +zetaDelta only [State.blank, cond_true, cond_false]; first | done | fail)); pick_goal 2; (focus (simp +zetaDelta only [watched]; first | done | fail)))
    | (with_reducible refine Does.leafB ?_ ?_ ?_; pick_goal 2; (focus (simp +zetaDelta only [State.blank, cond_true, cond_false]; first | done | fail)); pick_goal 2; (exact fun b => ⟨mem_filter_wf _ b.mem, b.hold, b.minor, b.trace, b.silo, b.head, b.store⟩))
    | (dsimp +zetaDelta only)
    | split)


theorem does_lftRptClearOp {F : Parts} {s0 s : State}  (h : Does F s0 s)
    (hF : Parts.le { lft := true } F = true) : Does F s0 (lftRptClearOp s) := by
  refine Does.weaken hF h ?_
  unfold lftRptClearOp
  repeat' (first
    | exact Eq.refl true
    | with_reducible exact Does.refl _ _
    | with_reducible assumption
    | ((fail_if_no_progress (extract_lets z)); refine Does.cut (z := z) ?_ (fun q => ?_); rotate_left; clear_value z)
    | fail_if_no_progress (extract_lets z)
    | fail_if_no_progress (with_reducible refine Does.leaf ?_ ?_ ?_; pick_goal 2; (focus (simp +zetaDelta only [State.blank, cond_true, cond_false]; first | done | fail)); pick_goal 2; (focus (simp +zetaDelta only [watched]; first | done | fail)))
    | (dsimp +zetaDelta only))

theorem does_weevilCtrl {F : Parts} {s0 s : State} (v : Nat) (h : Does F s0 s)
    (hF : Parts.le { lft := true } F = true) : Does F s0 (weevilCtrl v s) := by
  refine Does.weaken hF h ?_
  unfold weevilCtrl
  repeat' (first
    | exact Eq.refl true
    | with_reducible exact Does.refl _ _
    | with_reducible assumption
    | ((fail_if_no_progress (extract_lets z)); refine Does.cut (z := z) ?_ (fun q => ?_); rotate_left; clear_value z)
    | ((fail_if_no_progress (extract_lets z)); refine Does.cutSnd (z := z) ?_ (fun q => ?_); rotate_left; clear_value z)
    | fail_if_no_progress (extract_lets z)
    | with_reducible refine Does.ite ?_ ?_
    | fail_if_no_progress (with_reducible refine Does.leaf ?_ ?_ ?_; pick_goal 2; (focus (simp +zetaDelta only [State.blank, cond_true, cond_false]; first | done | fail)); pick_goal 2; (focus (simp +zetaDelta only [watched]; first | done | fail)))
    | (dsimp +zetaDelta only)
    | split)

theorem does_predSelected {F : Parts} {s0 s : State} (was : Nat) (h : Does F s0 s)
    (hF : Parts.le { lft := true } F = true) : Does F s0 (predSelected was s) := by
  refine Does.weaken hF h ?_
  unfold predSelected
  repeat' (first
    | exact Eq.refl true
    | with_reducible exact Does.refl _ _
    | with_reducible assumption
    | ((fail_if_no_progress (extract_lets z)); refine Does.cut (z := z) ?_ (fun q => ?_); rotate_left; clear_value z)
    | fail_if_no_progress (extract_lets z)
    | with_reducible apply does_lftSet
    | (with_reducible refine Does.foldl ?_ (fun _ _ _ => ?_))
    | (with_reducible refine Does.foldlSnd ?_ (fun _ _ _ => ?_))
    | with_reducible refine Does.ite ?_ ?_
    | fail_if_no_progress (with_reducible refine Does.leaf ?_ ?_ ?_; pick_goal 2; (focus (simp +zetaDelta only [State.blank, cond_true, cond_false]; first | done | fail)); pick_goal 2; (focus (simp +zetaDelta only [watched]; first | done | fail)))
    | (dsimp +zetaDelta only)
    | split)

end Sys2Proof.Machine
end

