-- ==== Sys2Proof/Laws/DoesGranaryRows.lean ====
section
/-! SUPPORT. What each operation of Machine/GranaryRows.lean touches at most, and that it keeps the bounds. -/

-- One theorem at a time: elaborating the package as one text in many threads at once takes more memory than the check allows.
set_option Elab.async false

set_option linter.unusedSimpArgs false
set_option linter.unusedTactic false
set_option linter.unreachableTactic false

namespace Sys2Proof.Machine

theorem does_finishJob {F : Parts} {s0 s : State} (j : GrnJob) (h : Does F s0 s)
    (hF : Parts.le { outs := true, glb := true, hst := true, dos := true, twn := true, slo := true, obs := true } F = true) : Does F s0 (finishJob j s) := by
  refine Does.weaken hF h ?_
  unfold finishJob
  repeat' (first
    | exact Eq.refl true
    | with_reducible exact Does.refl _ _
    | with_reducible assumption
    | with_reducible apply does_tableWritten
    | with_reducible apply does_completeOpt
    | with_reducible refine Does.ite ?_ ?_
    | split)

theorem does_settleJobs {F : Parts} {s0 s : State}  (h : Does F s0 s)
    (hF : Parts.le { outs := true, glb := true, hst := true, dos := true, twn := true, grn := true, slo := true, obs := true } F = true) : Does F s0 (settleJobs s) := by
  refine Does.weaken hF h ?_
  unfold settleJobs
  repeat' (first
    | exact Eq.refl true
    | with_reducible exact Does.refl _ _
    | with_reducible assumption
    | ((fail_if_no_progress (extract_lets z)); refine Does.cut (z := z) ?_ (fun q => ?_); rotate_left; clear_value z)
    | fail_if_no_progress (extract_lets z)
    | with_reducible apply does_startJobWord
    | with_reducible apply does_finishJob
    | with_reducible refine Does.snd (by assumption) ?_
    | with_reducible refine Does.ite ?_ ?_
    | fail_if_no_progress (with_reducible refine Does.leaf ?_ ?_ ?_; pick_goal 2; (focus (simp +zetaDelta only [State.blank, cond_true, cond_false]; first | done | fail)); pick_goal 2; (focus (simp +zetaDelta only [watched]; first | done | fail)))
    | (dsimp +zetaDelta only)
    | split)

theorem does_execGranaryWordWriteDone {F : Parts} {s0 s : State} (good : Bool) (h : Does F s0 s)
    (hF : Parts.le { outs := true, free := true, glb := true, hst := true, dos := true, twn := true, grn := true, slo := true, obs := true } F = true) : DoesO F s0 (execGranaryWordWriteDone good s) := by
  refine DoesO.weaken hF h ?_
  unfold execGranaryWordWriteDone
  repeat' (first
    | exact Eq.refl true
    | with_reducible exact Does.refl _ _
    | with_reducible assumption
    | ((fail_if_no_progress (extract_lets z)); refine Does.cut (z := z) ?_ (fun q => ?_); rotate_left; clear_value z)
    | ((fail_if_no_progress (extract_lets z)); refine Does.cutSnd (z := z) ?_ (fun q => ?_); rotate_left; clear_value z)
    | ((fail_if_no_progress (extract_lets z)); refine DoesO.cut (z := z) ?_ (fun q => ?_); rotate_left; clear_value z)
    | ((fail_if_no_progress (extract_lets z)); refine DoesO.cutSnd (z := z) ?_ (fun q => ?_); rotate_left; clear_value z)
    | fail_if_no_progress (extract_lets z)
    | with_reducible apply does_ok
    | with_reducible apply does_wearAdd
    | with_reducible apply does_settleJobs
    | with_reducible apply does_ringStore
    | with_reducible apply does_advanceJob
    | with_reducible apply does_grnStore
    | with_reducible apply does_writeFailed
    | with_reducible apply does_lostPersist
    | with_reducible refine Does.snd (by assumption) ?_
    | with_reducible refine Does.ite ?_ ?_
    | with_reducible refine DoesO.ite ?_ ?_
    | fail_if_no_progress (with_reducible refine Does.leaf ?_ ?_ ?_; pick_goal 2; (focus (simp +zetaDelta only [State.blank, cond_true, cond_false]; first | done | fail)); pick_goal 2; (focus (simp +zetaDelta only [watched]; first | done | fail)))
    | (dsimp +zetaDelta only)
    | split)

theorem does_checkpointOp {F : Parts} {s0 s : State}  (h : Does F s0 s)
    (hF : Parts.le { grn := true } F = true) : Does F s0 (checkpointOp s) := by
  refine Does.weaken hF h ?_
  unfold checkpointOp
  repeat' (first
    | exact Eq.refl true
    | with_reducible exact Does.refl _ _
    | with_reducible assumption
    | with_reducible apply does_queueJob
    | with_reducible refine Does.ite ?_ ?_
    | split)

theorem does_execWearCheckpointTimer {F : Parts} {s0 s : State}  (h : Does F s0 s)
    (hF : Parts.le { grn := true } F = true) : DoesO F s0 (execWearCheckpointTimer s) := by
  refine DoesO.weaken hF h ?_
  unfold execWearCheckpointTimer
  repeat' (first
    | exact Eq.refl true
    | with_reducible exact Does.refl _ _
    | with_reducible assumption
    | with_reducible apply does_ok
    | with_reducible apply does_checkpointOp)

theorem does_wipeOp {F : Parts} {s0 s : State} (req : Nat) (h : Does F s0 s)
    (hF : Parts.le { grn := true, slo := true, obs := true } F = true) : Does F s0 (wipeOp req s) := by
  refine Does.weaken hF h ?_
  unfold wipeOp
  repeat' (first
    | exact Eq.refl true
    | with_reducible exact Does.refl _ _
    | with_reducible assumption
    | ((fail_if_no_progress (extract_lets z)); refine Does.cut (z := z) ?_ (fun q => ?_); rotate_left; clear_value z)
    | ((fail_if_no_progress (extract_lets z)); refine Does.cutSnd (z := z) ?_ (fun q => ?_); rotate_left; clear_value z)
    | fail_if_no_progress (extract_lets z)
    | with_reducible apply does_siloRecord
    | with_reducible refine Does.ite ?_ ?_
    | fail_if_no_progress (with_reducible refine Does.leaf ?_ ?_ ?_; pick_goal 2; (focus (simp +zetaDelta only [State.blank, cond_true, cond_false]; first | done | fail)); pick_goal 2; (focus (simp +zetaDelta only [watched]; first | done | fail)))
    | (dsimp +zetaDelta only)
    | split)

theorem does_sloCtrl {F : Parts} {s0 s : State} (v : Nat) (h : Does F s0 s)
    (hF : Parts.le { slo := true } F = true) : Does F s0 (sloCtrl v s) := by
  refine Does.weaken hF h ?_
  unfold sloCtrl
  repeat' (first
    | exact Eq.refl true
    | with_reducible exact Does.refl _ _
    | with_reducible assumption
    | ((fail_if_no_progress (extract_lets z)); refine Does.cut (z := z) ?_ (fun q => ?_); rotate_left; clear_value z)
    | fail_if_no_progress (extract_lets z)
    | with_reducible apply does_siloFreeze
    | with_reducible refine Does.ite ?_ ?_
    | fail_if_no_progress (with_reducible refine Does.leaf ?_ ?_ ?_; pick_goal 2; (focus (simp +zetaDelta only [State.blank, cond_true, cond_false]; first | done | fail)); pick_goal 2; (focus (simp +zetaDelta only [watched]; first | done | fail)))
    | (dsimp +zetaDelta only)
    | split)

theorem does_execPfwNFall {F : Parts} {s0 s : State}  (h : Does F s0 s)
    (hF : Parts.le { pins := true, grn := true } F = true) : DoesO F s0 (execPfwNFall s) := by
  refine DoesO.weaken hF h ?_
  unfold execPfwNFall
  repeat' (first
    | exact Eq.refl true
    | with_reducible exact Does.refl _ _
    | with_reducible assumption
    | ((fail_if_no_progress (extract_lets z)); refine Does.cut (z := z) ?_ (fun q => ?_); rotate_left; clear_value z)
    | ((fail_if_no_progress (extract_lets z)); refine DoesO.cut (z := z) ?_ (fun q => ?_); rotate_left; clear_value z)
    | fail_if_no_progress (extract_lets z)
    | with_reducible apply does_ok
    | fail_if_no_progress (with_reducible refine Does.leaf ?_ ?_ ?_; pick_goal 2; (focus (simp +zetaDelta only [State.blank, cond_true, cond_false]; first | done | fail)); pick_goal 2; (focus (simp +zetaDelta only [watched]; first | done | fail)))
    | (dsimp +zetaDelta only))

theorem does_execPfwRecognized {F : Parts} {s0 s : State}  (h : Does F s0 s)
    (hF : Parts.le { outs := true, glb := true, hst := true, units := true, pac := true, enc := true, twn := true, tim := true, grn := true, slo := true, store := true, obs := true } F = true) : DoesO F s0 (execPfwRecognized s) := by
  refine DoesO.weaken hF h ?_
  unfold execPfwRecognized
  repeat' (first
    | exact Eq.refl true
    | with_reducible exact Does.refl _ _
    | with_reducible assumption
    | ((fail_if_no_progress (extract_lets z)); refine Does.cut (z := z) ?_ (fun q => ?_); rotate_left; clear_value z)
    | ((fail_if_no_progress (extract_lets z)); refine Does.cutSnd (z := z) ?_ (fun q => ?_); rotate_left; clear_value z)
    | ((fail_if_no_progress (extract_lets z)); refine DoesO.cut (z := z) ?_ (fun q => ?_); rotate_left; clear_value z)
    | ((fail_if_no_progress (extract_lets z)); refine DoesO.cutSnd (z := z) ?_ (fun q => ?_); rotate_left; clear_value z)
    | fail_if_no_progress (extract_lets z)
    | with_reducible apply does_ok
    | with_reducible apply does_raiseItems
    | with_reducible apply does_abortFault
    | with_reducible refine Does.ite ?_ ?_
    | with_reducible refine DoesO.ite ?_ ?_
    | fail_if_no_progress (with_reducible refine Does.leaf ?_ ?_ ?_; pick_goal 2; (focus (simp +zetaDelta only [State.blank, cond_true, cond_false]; first | done | fail)); pick_goal 2; (focus (simp +zetaDelta only [watched]; first | done | fail)))
    | (dsimp +zetaDelta only)
    | split)

theorem does_pfwSave {F : Parts} {s0 s : State}  (h : Does F s0 s)
    (hF : Parts.le { outs := true, free := true, glb := true, hst := true, grn := true, slo := true, obs := true } F = true) : Does F s0 (pfwSave s) := by
  refine Does.weaken hF h ?_
  unfold pfwSave
  repeat' (first
    | exact Eq.refl true
    | with_reducible exact Does.refl _ _
    | with_reducible assumption
    | ((fail_if_no_progress (extract_lets z)); refine Does.cut (z := z) ?_ (fun q => ?_); rotate_left; clear_value z)
    | ((fail_if_no_progress (extract_lets z)); refine Does.cutSnd (z := z) ?_ (fun q => ?_); rotate_left; clear_value z)
    | fail_if_no_progress (extract_lets z)
    | with_reducible apply does_finishWrites
    | with_reducible apply does_putRecord
    | with_reducible apply does_siloFreeze
    | with_reducible refine Does.ite ?_ ?_
    | fail_if_no_progress (with_reducible refine Does.leaf ?_ ?_ ?_; pick_goal 2; (focus (simp +zetaDelta only [State.blank, cond_true, cond_false]; first | done | fail)); pick_goal 2; (focus (simp +zetaDelta only [watched]; first | done | fail)))
    | (dsimp +zetaDelta only)
    | split)

end Sys2Proof.Machine
end

