-- ==== Sys2Proof/Laws/DoesObserve.lean ====
section
/-! SUPPORT. What each operation of Machine/Observe.lean touches at most, and that it keeps the bounds. -/

-- One theorem at a time: elaborating the package as one text in many threads at once takes more memory than the check allows.
set_option Elab.async false

set_option linter.unusedSimpArgs false
set_option linter.unusedTactic false
set_option linter.unreachableTactic false

namespace Sys2Proof.Machine

theorem does_snapCommand {F : Parts} {s0 s : State} (id : Nat) (late : Bool) (dma : Option Nat) (h : Does F s0 s)
    (hF : Parts.le { outs := true, hst := true, obs := true } F = true) : Does F s0 (snapCommand id late dma s) := by
  refine Does.weaken hF h ?_
  unfold snapCommand
  repeat' (first
    | exact Eq.refl true
    | with_reducible exact Does.refl _ _
    | with_reducible assumption
    | ((fail_if_no_progress (extract_lets z)); refine Does.cut (z := z) ?_ (fun q => ?_); rotate_left; clear_value z)
    | ((fail_if_no_progress (extract_lets z)); refine Does.cutSnd (z := z) ?_ (fun q => ?_); rotate_left; clear_value z)
    | fail_if_no_progress (extract_lets z)
    | with_reducible apply does_complete
    | with_reducible apply does_takeSnap
    | with_reducible apply does_emit
    | with_reducible refine Does.snd (by assumption) ?_
    | with_reducible refine Does.ite ?_ ?_
    | fail_if_no_progress (with_reducible refine Does.leaf ?_ ?_ ?_; pick_goal 2; (focus (simp +zetaDelta only [State.blank, cond_true, cond_false]; first | done | fail)); pick_goal 2; (focus (simp +zetaDelta only [watched]; first | done | fail)))
    | (dsimp +zetaDelta only)
    | split)

theorem does_execSnapshot {F : Parts} {s0 s : State} (id : Nat) (h : Does F s0 s)
    (hF : Parts.le { outs := true, hst := true, obs := true } F = true) : DoesO F s0 (execSnapshot id s) := by
  refine DoesO.weaken hF h ?_
  unfold execSnapshot
  repeat' (first
    | exact Eq.refl true
    | with_reducible exact Does.refl _ _
    | with_reducible assumption
    | ((fail_if_no_progress (extract_lets z)); refine Does.cut (z := z) ?_ (fun q => ?_); rotate_left; clear_value z)
    | ((fail_if_no_progress (extract_lets z)); refine Does.cutSnd (z := z) ?_ (fun q => ?_); rotate_left; clear_value z)
    | ((fail_if_no_progress (extract_lets z)); refine DoesO.cut (z := z) ?_ (fun q => ?_); rotate_left; clear_value z)
    | ((fail_if_no_progress (extract_lets z)); refine DoesO.cutSnd (z := z) ?_ (fun q => ?_); rotate_left; clear_value z)
    | fail_if_no_progress (extract_lets z)
    | with_reducible apply does_ok
    | with_reducible apply does_complete
    | with_reducible apply does_snapCommand
    | with_reducible apply does_cmdRun
    | with_reducible refine Does.snd (by assumption) ?_
    | with_reducible refine Does.ite ?_ ?_
    | with_reducible refine DoesO.ite ?_ ?_
    | fail_if_no_progress (with_reducible refine Does.leaf ?_ ?_ ?_; pick_goal 2; (focus (simp +zetaDelta only [State.blank, cond_true, cond_false]; first | done | fail)); pick_goal 2; (focus (simp +zetaDelta only [watched]; first | done | fail)))
    | (dsimp +zetaDelta only)
    | split)

theorem does_execSnapshotDue {F : Parts} {s0 s : State}  (h : Does F s0 s)
    (hF : Parts.le { outs := true, hst := true, obs := true } F = true) : DoesO F s0 (execSnapshotDue s) := by
  refine DoesO.weaken hF h ?_
  unfold execSnapshotDue
  repeat' (first
    | exact Eq.refl true
    | with_reducible exact Does.refl _ _
    | with_reducible assumption
    | ((fail_if_no_progress (extract_lets z)); refine Does.cut (z := z) ?_ (fun q => ?_); rotate_left; clear_value z)
    | ((fail_if_no_progress (extract_lets z)); refine DoesO.cut (z := z) ?_ (fun q => ?_); rotate_left; clear_value z)
    | fail_if_no_progress (extract_lets z)
    | with_reducible apply does_ok
    | with_reducible apply does_snapCommand
    | with_reducible refine Does.snd (by assumption) ?_
    | with_reducible refine Does.ite ?_ ?_
    | with_reducible refine DoesO.ite ?_ ?_
    | fail_if_no_progress (with_reducible refine Does.leaf ?_ ?_ ?_; pick_goal 2; (focus (simp +zetaDelta only [State.blank, cond_true, cond_false]; first | done | fail)); pick_goal 2; (focus (simp +zetaDelta only [watched]; first | done | fail)))
    | (dsimp +zetaDelta only)
    | split)

theorem does_execTraceCounterPeriod {F : Parts} {s0 s : State}  (h : Does F s0 s)
    (hF : Parts.le { obs := true } F = true) : DoesO F s0 (execTraceCounterPeriod s) := by
  refine DoesO.weaken hF h ?_
  unfold execTraceCounterPeriod
  repeat' (first
    | exact Eq.refl true
    | with_reducible exact Does.refl _ _
    | with_reducible assumption
    | with_reducible apply does_ok
    | with_reducible apply does_trcPush
    | (with_reducible refine Does.foldl ?_ (fun _ _ _ => ?_))
    | (with_reducible refine Does.foldlSnd ?_ (fun _ _ _ => ?_))
    | with_reducible refine Does.ite ?_ ?_
    | with_reducible refine DoesO.ite ?_ ?_
    | split)

theorem does_execTraceAlign {F : Parts} {s0 s : State}  (h : Does F s0 s)
    (hF : Parts.le { outs := true } F = true) : DoesO F s0 (execTraceAlign s) := by
  refine DoesO.weaken hF h ?_
  unfold execTraceAlign
  repeat' (first
    | exact Eq.refl true
    | with_reducible exact Does.refl _ _
    | with_reducible assumption
    | with_reducible apply does_ok
    | with_reducible apply does_emitAll
    | with_reducible refine Does.ite ?_ ?_
    | with_reducible refine DoesO.ite ?_ ?_
    | split)

theorem does_execTraceLoss {F : Parts} {s0 s : State}  (h : Does F s0 s)
    (hF : Parts.le { obs := true } F = true) : DoesO F s0 (execTraceLoss s) := by
  refine DoesO.weaken hF h ?_
  unfold execTraceLoss
  repeat' (first
    | exact Eq.refl true
    | with_reducible exact Does.refl _ _
    | with_reducible assumption
    | ((fail_if_no_progress (extract_lets z)); refine Does.cut (z := z) ?_ (fun q => ?_); rotate_left; clear_value z)
    | ((fail_if_no_progress (extract_lets z)); refine DoesO.cut (z := z) ?_ (fun q => ?_); rotate_left; clear_value z)
    | fail_if_no_progress (extract_lets z)
    | with_reducible apply does_ok
    | with_reducible apply does_trcPush
    | with_reducible refine Does.ite ?_ ?_
    | with_reducible refine DoesO.ite ?_ ?_
    | fail_if_no_progress (with_reducible refine Does.leaf ?_ ?_ ?_; pick_goal 2; (focus (simp +zetaDelta only [State.blank, cond_true, cond_false]; first | done | fail)); pick_goal 2; (focus (simp +zetaDelta only [watched]; first | done | fail)))
    | (dsimp +zetaDelta only)
    | split)

theorem does_execTraceRecordSent {F : Parts} {s0 s : State}  (h : Does F s0 s)
    (hF : Parts.le { outs := true, obs := true } F = true) : DoesO F s0 (execTraceRecordSent s) := by
  refine DoesO.weaken hF h ?_
  unfold execTraceRecordSent
  split
  · exact DoesO.next (Does.refl _ _)
  · rename_i kind t body rest he
    split
    · exact DoesO.next (Does.refl _ _)
    · refine DoesO.next (does_emit (F := { outs := true, obs := true }) _ ⟨rfl, fun b => ⟨b.mem, b.hold, b.minor, ?_, b.silo, b.head, b.store⟩⟩ rfl)
      have q := b.trace
      rw [he] at q
      exact Nat.le_trans (Nat.le_succ _) q


end Sys2Proof.Machine
end

