-- ==== Sys2Proof/Laws/DoesBringup.lean ====
section
/-! SUPPORT. What each operation of Machine/Bringup.lean touches at most, and that it keeps the bounds. -/

-- One theorem at a time: elaborating the package as one text in many threads at once takes more memory than the check allows.
set_option Elab.async false

set_option linter.unusedSimpArgs false
set_option linter.unusedTactic false
set_option linter.unreachableTactic false

namespace Sys2Proof.Machine

theorem does_resetAll {F : Parts} {s0 s : State} (cause : Nat) (pcie : Bool) (h : Does F s0 s)
    (hF : Parts.le { pins := true, glb := true, regs := true, latch := true, halves := true, hst := true, chains := true, chk := true, units := true, dos := true, pac := true, enc := true, swl := true, twn := true, lft := true, tim := true, grn := true, slo := true, obs := true, readbacks := true } F = true) : Does F s0 (resetAll cause pcie s) := by
  refine Does.weaken hF h ⟨?_, fun b => ⟨rfl, ?_, ?_, Nat.zero_le _, b.silo, b.head, b.store⟩⟩
  · rfl
  · unfold resetAll
    cases pcie <;> exact Nat.zero_le _
  · unfold resetAll
    cases pcie <;> exact Nat.zero_le _


theorem does_beginStartup {F : Parts} {s0 s : State}  (h : Does F s0 s)
    (hF : Parts.le { pins := true, glb := true, grn := true } F = true) : Does F s0 (beginStartup s) := by
  refine Does.weaken hF h ?_
  unfold beginStartup
  repeat' (first
    | exact Eq.refl true
    | with_reducible exact Does.refl _ _
    | with_reducible assumption
    | ((fail_if_no_progress (extract_lets z)); refine Does.cut (z := z) ?_ (fun q => ?_); rotate_left; clear_value z)
    | fail_if_no_progress (extract_lets z)
    | fail_if_no_progress (with_reducible refine Does.leaf ?_ ?_ ?_; pick_goal 2; (focus (simp +zetaDelta only [State.blank, cond_true, cond_false]; first | done | fail)); pick_goal 2; (focus (simp +zetaDelta only [watched]; first | done | fail)))
    | (dsimp +zetaDelta only))

theorem does_glbResetOp {F : Parts} {s0 s : State} (v : Nat) (h : Does F s0 s)
    (hF : Parts.le { pins := true, glb := true, regs := true, latch := true, halves := true, hst := true, chains := true, chk := true, units := true, dos := true, pac := true, enc := true, swl := true, twn := true, lft := true, tim := true, grn := true, slo := true, obs := true, readbacks := true } F = true) : Does F s0 (glbResetOp v s) := by
  refine Does.weaken hF h ?_
  unfold glbResetOp
  repeat' (first
    | exact Eq.refl true
    | with_reducible exact Does.refl _ _
    | with_reducible assumption
    | with_reducible apply does_beginStartup
    | with_reducible apply does_resetAll
    | with_reducible refine Does.ite ?_ ?_
    | split)

theorem does_execPowerOn {F : Parts} {s0 s : State}  (h : Does F s0 s)
    (hF : Parts.le { pins := true, glb := true, regs := true, latch := true, halves := true, hst := true, chains := true, chk := true, units := true, dos := true, pac := true, enc := true, swl := true, twn := true, lft := true, tim := true, grn := true, slo := true, store := true, obs := true, readbacks := true } F = true) : DoesO F s0 (execPowerOn s) := by
  refine DoesO.weaken hF h ?_
  unfold execPowerOn
  refine DoesO.next ?_
  refine (does_resetAll 1 false (Does.refl _ s) rfl).trans ⟨rfl, fun b => ⟨b.mem, b.hold, b.minor, b.trace, Nat.zero_le _, ?_, Nat.zero_le _⟩⟩
  exact (by decide : 0 < 8192)


theorem does_execSysRstNFall {F : Parts} {s0 s : State}  (h : Does F s0 s)
    (hF : Parts.le { pins := true, glb := true, regs := true, latch := true, halves := true, hst := true, chains := true, chk := true, units := true, dos := true, pac := true, enc := true, swl := true, twn := true, lft := true, tim := true, grn := true, slo := true, obs := true, readbacks := true } F = true) : DoesO F s0 (execSysRstNFall s) := by
  refine DoesO.weaken hF h ?_
  unfold execSysRstNFall
  repeat' (first
    | exact Eq.refl true
    | with_reducible exact Does.refl _ _
    | with_reducible assumption
    | with_reducible apply does_ok
    | with_reducible apply does_resetAll
    | with_reducible refine Does.ite ?_ ?_
    | with_reducible refine DoesO.ite ?_ ?_
    | split)

theorem does_execSysRstNRise {F : Parts} {s0 s : State}  (h : Does F s0 s)
    (hF : Parts.le { pins := true, glb := true, grn := true } F = true) : DoesO F s0 (execSysRstNRise s) := by
  refine DoesO.weaken hF h ?_
  unfold execSysRstNRise
  repeat' (first
    | exact Eq.refl true
    | with_reducible exact Does.refl _ _
    | with_reducible assumption
    | with_reducible apply does_ok
    | with_reducible apply does_beginStartup
    | with_reducible refine Does.ite ?_ ?_
    | with_reducible refine DoesO.ite ?_ ?_
    | split)

theorem does_execClocksLocked {F : Parts} {s0 s : State}  (h : Does F s0 s)
    (hF : Parts.le { glb := true } F = true) : DoesO F s0 (execClocksLocked s) := by
  refine DoesO.weaken hF h ?_
  unfold execClocksLocked
  repeat' (first
    | exact Eq.refl true
    | with_reducible exact Does.refl _ _
    | with_reducible assumption
    | ((fail_if_no_progress (extract_lets z)); refine Does.cut (z := z) ?_ (fun q => ?_); rotate_left; clear_value z)
    | ((fail_if_no_progress (extract_lets z)); refine DoesO.cut (z := z) ?_ (fun q => ?_); rotate_left; clear_value z)
    | fail_if_no_progress (extract_lets z)
    | with_reducible apply does_ok
    | with_reducible refine Does.ite ?_ ?_
    | with_reducible refine DoesO.ite ?_ ?_
    | fail_if_no_progress (with_reducible refine Does.leaf ?_ ?_ ?_; pick_goal 2; (focus (simp +zetaDelta only [State.blank, cond_true, cond_false]; first | done | fail)); pick_goal 2; (focus (simp +zetaDelta only [watched]; first | done | fail)))
    | (dsimp +zetaDelta only)
    | split)

theorem does_selftestFail {F : Parts} {s0 s : State} (f : SelfTestFail) (h : Does F s0 s)
    (hF : Parts.le { outs := true, free := true, glb := true, hst := true, chk := true, units := true, pac := true, slo := true, obs := true } F = true) : Does F s0 (selftestFail f s) := by
  refine Does.weaken hF h ?_
  unfold selftestFail
  repeat' (first
    | exact Eq.refl true
    | with_reducible exact Does.refl _ _
    | with_reducible assumption
    | ((fail_if_no_progress (extract_lets z)); refine Does.cut (z := z) ?_ (fun q => ?_); rotate_left; clear_value z)
    | ((fail_if_no_progress (extract_lets z)); refine Does.cutSnd (z := z) ?_ (fun q => ?_); rotate_left; clear_value z)
    | fail_if_no_progress (extract_lets z)
    | with_reducible apply does_raiseItems
    | with_reducible apply does_retireThresher
    | with_reducible apply does_drawFree
    | with_reducible refine Does.snd (by assumption) ?_
    | with_reducible refine Does.ite ?_ ?_
    | fail_if_no_progress (with_reducible refine Does.leaf ?_ ?_ ?_; pick_goal 2; (focus (simp +zetaDelta only [State.blank, cond_true, cond_false]; first | done | fail)); pick_goal 2; (focus (simp +zetaDelta only [watched]; first | done | fail)))
    | (dsimp +zetaDelta only)
    | split)

theorem does_execSelftestDone {F : Parts} {s0 s : State} (fails : List SelfTestFail) (h : Does F s0 s)
    (hF : Parts.le { outs := true, free := true, pins := true, glb := true, hst := true, chk := true, units := true, dos := true, pac := true, swl := true, twn := true, lft := true, tim := true, grn := true, slo := true, store := true, obs := true, readbacks := true } F = true) : DoesO F s0 (execSelftestDone fails s) := by
  refine DoesO.weaken hF h ?_
  unfold execSelftestDone
  repeat' (first
    | exact Eq.refl true
    | with_reducible exact Does.refl _ _
    | with_reducible assumption
    | ((fail_if_no_progress (extract_lets z)); refine Does.cut (z := z) ?_ (fun q => ?_); rotate_left; clear_value z)
    | ((fail_if_no_progress (extract_lets z)); refine Does.cutSnd (z := z) ?_ (fun q => ?_); rotate_left; clear_value z)
    | ((fail_if_no_progress (extract_lets z)); refine DoesO.cut (z := z) ?_ (fun q => ?_); rotate_left; clear_value z)
    | ((fail_if_no_progress (extract_lets z)); refine DoesO.cutSnd (z := z) ?_ (fun q => ?_); rotate_left; clear_value z)
    | fail_if_no_progress (extract_lets z)
    | with_reducible apply does_ok
    | with_reducible apply does_selftestFail
    | with_reducible apply does_goFatal
    | with_reducible apply does_lftSet
    | with_reducible refine Does.snd (by assumption) ?_
    | (with_reducible refine Does.foldl ?_ (fun _ _ _ => ?_))
    | (with_reducible refine Does.foldlSnd ?_ (fun _ _ _ => ?_))
    | with_reducible refine Does.ite ?_ ?_
    | with_reducible refine DoesO.ite ?_ ?_
    | fail_if_no_progress (with_reducible refine Does.leaf ?_ ?_ ?_; pick_goal 2; (focus (simp +zetaDelta only [State.blank, cond_true, cond_false]; first | done | fail)); pick_goal 2; (focus (simp +zetaDelta only [watched]; first | done | fail)))
    | (dsimp +zetaDelta only)
    | split)

theorem does_noteUnreadable {F : Parts} {s0 s : State} (w : Nat) (h : Does F s0 s)
    (hF : Parts.le { outs := true, free := true, glb := true, hst := true, grn := true, slo := true, obs := true } F = true) : Does F s0 (noteUnreadable w s) := by
  refine Does.weaken hF h ?_
  unfold noteUnreadable
  repeat' (first
    | exact Eq.refl true
    | with_reducible exact Does.refl _ _
    | with_reducible assumption
    | ((fail_if_no_progress (extract_lets z)); refine Does.cut (z := z) ?_ (fun q => ?_); rotate_left; clear_value z)
    | ((fail_if_no_progress (extract_lets z)); refine Does.cutSnd (z := z) ?_ (fun q => ?_); rotate_left; clear_value z)
    | fail_if_no_progress (extract_lets z)
    | with_reducible apply does_drawFree
    | with_reducible apply does_raiseItems
    | with_reducible refine Does.snd (by assumption) ?_
    | with_reducible refine Does.ite ?_ ?_
    | fail_if_no_progress (with_reducible refine Does.leaf ?_ ?_ ?_; pick_goal 2; (focus (simp +zetaDelta only [State.blank, cond_true, cond_false]; first | done | fail)); pick_goal 2; (focus (simp +zetaDelta only [watched]; first | done | fail)))
    | (dsimp +zetaDelta only)
    | split)

theorem does_loadDose {F : Parts} {s0 s : State}  (h : Does F s0 s)
    (hF : Parts.le { outs := true, glb := true, hst := true, dos := true, slo := true, obs := true } F = true) : Does F s0 (loadDose s) := by
  refine Does.weaken hF h ?_
  unfold loadDose
  repeat' (first
    | exact Eq.refl true
    | with_reducible exact Does.refl _ _
    | with_reducible assumption
    | ((fail_if_no_progress (extract_lets z)); refine Does.cut (z := z) ?_ (fun q => ?_); rotate_left; clear_value z)
    | ((fail_if_no_progress (extract_lets z)); refine Does.cutSnd (z := z) ?_ (fun q => ?_); rotate_left; clear_value z)
    | fail_if_no_progress (extract_lets z)
    | with_reducible apply does_setDirty
    | with_reducible apply does_raiseDirty
    | with_reducible refine Does.snd (by assumption) ?_
    | with_reducible refine Does.ite ?_ ?_
    | fail_if_no_progress (with_reducible refine Does.leaf ?_ ?_ ?_; pick_goal 2; (focus (simp +zetaDelta only [State.blank, cond_true, cond_false]; first | done | fail)); pick_goal 2; (focus (simp +zetaDelta only [watched]; first | done | fail)))
    | (dsimp +zetaDelta only)
    | split)

theorem does_loadCoefs {F : Parts} {s0 s : State}  (h : Does F s0 s)
    (hF : Parts.le { glb := true, enc := true } F = true) : Does F s0 (loadCoefs s) := by
  refine Does.weaken hF h ?_
  unfold loadCoefs
  repeat' (first
    | exact Eq.refl true
    | with_reducible exact Does.refl _ _
    | with_reducible assumption
    | ((fail_if_no_progress (extract_lets z)); refine Does.cut (z := z) ?_ (fun q => ?_); rotate_left; clear_value z)
    | ((fail_if_no_progress (extract_lets z)); refine Does.cutSnd (z := z) ?_ (fun q => ?_); rotate_left; clear_value z)
    | fail_if_no_progress (extract_lets z)
    | with_reducible apply does_encSet
    | (with_reducible refine Does.foldl ?_ (fun _ _ _ => ?_))
    | (with_reducible refine Does.foldlSnd ?_ (fun _ _ _ => ?_))
    | fail_if_no_progress (with_reducible refine Does.leaf ?_ ?_ ?_; pick_goal 2; (focus (simp +zetaDelta only [State.blank, cond_true, cond_false]; first | done | fail)); pick_goal 2; (focus (simp +zetaDelta only [watched]; first | done | fail)))
    | (dsimp +zetaDelta only))

theorem does_loadWear {F : Parts} {s0 s : State}  (h : Does F s0 s)
    (hF : Parts.le { grn := true } F = true) : Does F s0 (loadWear s) := by
  refine Does.weaken hF h ?_
  unfold loadWear
  repeat' (first
    | exact Eq.refl true
    | with_reducible exact Does.refl _ _
    | with_reducible assumption
    | ((fail_if_no_progress (extract_lets z)); refine Does.cut (z := z) ?_ (fun q => ?_); rotate_left; clear_value z)
    | fail_if_no_progress (extract_lets z)
    | with_reducible refine Does.snd (by assumption) ?_
    | (with_reducible refine Does.foldl ?_ (fun _ _ _ => ?_))
    | (with_reducible refine Does.foldlSnd ?_ (fun _ _ _ => ?_))
    | fail_if_no_progress (with_reducible refine Does.leaf ?_ ?_ ?_; pick_goal 2; (focus (simp +zetaDelta only [State.blank, cond_true, cond_false]; first | done | fail)); pick_goal 2; (focus (simp +zetaDelta only [watched]; first | done | fail)))
    | (dsimp +zetaDelta only)
    | split)

theorem does_startLinks {F : Parts} {s0 s : State}  (h : Does F s0 s)
    (hF : Parts.le { pins := true, glb := true, twn := true } F = true) : Does F s0 (startLinks s) := by
  refine Does.weaken hF h ?_
  unfold startLinks
  repeat' (first
    | exact Eq.refl true
    | with_reducible exact Does.refl _ _
    | with_reducible assumption
    | ((fail_if_no_progress (extract_lets z)); refine Does.cut (z := z) ?_ (fun q => ?_); rotate_left; clear_value z)
    | ((fail_if_no_progress (extract_lets z)); refine Does.cutSnd (z := z) ?_ (fun q => ?_); rotate_left; clear_value z)
    | fail_if_no_progress (extract_lets z)
    | with_reducible apply does_dxpPreset
    | with_reducible refine Does.ite ?_ ?_
    | fail_if_no_progress (with_reducible refine Does.leaf ?_ ?_ ?_; pick_goal 2; (focus (simp +zetaDelta only [State.blank, cond_true, cond_false]; first | done | fail)); pick_goal 2; (focus (simp +zetaDelta only [watched]; first | done | fail)))
    | (dsimp +zetaDelta only)
    | split)

theorem does_execGranaryLoadDone {F : Parts} {s0 s : State} (unreadable : List Nat) (h : Does F s0 s)
    (hF : Parts.le { outs := true, free := true, pins := true, glb := true, regs := true, hst := true, dos := true, enc := true, twn := true, grn := true, slo := true, obs := true } F = true) : DoesO F s0 (execGranaryLoadDone unreadable s) := by
  refine DoesO.weaken hF h ?_
  unfold execGranaryLoadDone
  repeat' (first
    | exact Eq.refl true
    | with_reducible exact Does.refl _ _
    | with_reducible assumption
    | ((fail_if_no_progress (extract_lets z)); refine Does.cut (z := z) ?_ (fun q => ?_); rotate_left; clear_value z)
    | ((fail_if_no_progress (extract_lets z)); refine Does.cutSnd (z := z) ?_ (fun q => ?_); rotate_left; clear_value z)
    | ((fail_if_no_progress (extract_lets z)); refine DoesO.cut (z := z) ?_ (fun q => ?_); rotate_left; clear_value z)
    | ((fail_if_no_progress (extract_lets z)); refine DoesO.cutSnd (z := z) ?_ (fun q => ?_); rotate_left; clear_value z)
    | fail_if_no_progress (extract_lets z)
    | with_reducible apply does_ok
    | with_reducible apply does_loadWear
    | with_reducible apply does_loadRings
    | with_reducible apply does_loadCoefs
    | with_reducible apply does_loadDose
    | with_reducible apply does_noteUnreadable
    | with_reducible apply does_startLinks
    | (with_reducible refine Does.foldl ?_ (fun _ _ _ => ?_))
    | (with_reducible refine Does.foldlSnd ?_ (fun _ _ _ => ?_))
    | with_reducible refine Does.ite ?_ ?_
    | with_reducible refine DoesO.ite ?_ ?_
    | fail_if_no_progress (with_reducible refine Does.leaf ?_ ?_ ?_; pick_goal 2; (focus (simp +zetaDelta only [State.blank, cond_true, cond_false]; first | done | fail)); pick_goal 2; (focus (simp +zetaDelta only [watched]; first | done | fail)))
    | (dsimp +zetaDelta only)
    | split)

theorem does_execStartupDone {F : Parts} {s0 s : State} (us : W32) (h : Does F s0 s)
    (hF : Parts.le { outs := true, pins := true, glb := true, hst := true, slo := true, obs := true } F = true) : DoesO F s0 (execStartupDone us s) := by
  refine DoesO.weaken hF h ?_
  unfold execStartupDone
  repeat' (first
    | exact Eq.refl true
    | with_reducible exact Does.refl _ _
    | with_reducible assumption
    | ((fail_if_no_progress (extract_lets z)); refine Does.cut (z := z) ?_ (fun q => ?_); rotate_left; clear_value z)
    | ((fail_if_no_progress (extract_lets z)); refine DoesO.cut (z := z) ?_ (fun q => ?_); rotate_left; clear_value z)
    | fail_if_no_progress (extract_lets z)
    | with_reducible apply does_ok
    | with_reducible apply does_raiseItems
    | with_reducible refine Does.ite ?_ ?_
    | with_reducible refine DoesO.ite ?_ ?_
    | fail_if_no_progress (with_reducible refine Does.leaf ?_ ?_ ?_; pick_goal 2; (focus (simp +zetaDelta only [State.blank, cond_true, cond_false]; first | done | fail)); pick_goal 2; (focus (simp +zetaDelta only [watched]; first | done | fail)))
    | (dsimp +zetaDelta only)
    | split)

theorem does_execPllLockLoss {F : Parts} {s0 s : State} (unit : Byte) (hkRuns : Bool) (h : Does F s0 s)
    (hF : Parts.le { outs := true, pins := true, glb := true, hst := true, chk := true, dos := true, pac := true, swl := true, twn := true, tim := true, grn := true, slo := true, store := true, obs := true, readbacks := true } F = true) : DoesO F s0 (execPllLockLoss unit hkRuns s) := by
  refine DoesO.weaken hF h ?_
  unfold execPllLockLoss
  repeat' (first
    | exact Eq.refl true
    | with_reducible exact Does.refl _ _
    | with_reducible assumption
    | with_reducible apply does_ok
    | with_reducible apply does_fatalBy
    | with_reducible refine Does.ite ?_ ?_
    | with_reducible refine DoesO.ite ?_ ?_
    | split)

theorem does_execSupplyFault {F : Parts} {s0 s : State} (unit : Byte) (hkRuns : Bool) (h : Does F s0 s)
    (hF : Parts.le { outs := true, pins := true, glb := true, hst := true, chk := true, dos := true, pac := true, swl := true, twn := true, tim := true, grn := true, slo := true, store := true, obs := true, readbacks := true } F = true) : DoesO F s0 (execSupplyFault unit hkRuns s) := by
  refine DoesO.weaken hF h ?_
  unfold execSupplyFault
  repeat' (first
    | exact Eq.refl true
    | with_reducible exact Does.refl _ _
    | with_reducible assumption
    | ((fail_if_no_progress (extract_lets z)); refine Does.cut (z := z) ?_ (fun q => ?_); rotate_left; clear_value z)
    | ((fail_if_no_progress (extract_lets z)); refine DoesO.cut (z := z) ?_ (fun q => ?_); rotate_left; clear_value z)
    | fail_if_no_progress (extract_lets z)
    | with_reducible apply does_ok
    | with_reducible apply does_fatalBy
    | with_reducible refine Does.ite ?_ ?_
    | with_reducible refine DoesO.ite ?_ ?_
    | fail_if_no_progress (with_reducible refine Does.leaf ?_ ?_ ?_; pick_goal 2; (focus (simp +zetaDelta only [State.blank, cond_true, cond_false]; first | done | fail)); pick_goal 2; (focus (simp +zetaDelta only [watched]; first | done | fail)))
    | (dsimp +zetaDelta only)
    | split)

theorem does_execWatchdogExpiry {F : Parts} {s0 s : State} (unit : Byte) (h : Does F s0 s)
    (hF : Parts.le { outs := true, pins := true, glb := true, hst := true, chk := true, dos := true, pac := true, swl := true, twn := true, tim := true, grn := true, slo := true, store := true, obs := true, readbacks := true } F = true) : DoesO F s0 (execWatchdogExpiry unit s) := by
  refine DoesO.weaken hF h ?_
  unfold execWatchdogExpiry
  repeat' (first
    | exact Eq.refl true
    | with_reducible exact Does.refl _ _
    | with_reducible assumption
    | with_reducible apply does_ok
    | with_reducible apply does_goFatal
    | with_reducible refine Does.ite ?_ ?_
    | with_reducible refine DoesO.ite ?_ ?_
    | split)

theorem does_execDieTempRead {F : Parts} {s0 s : State} (t : BitVec 16) (h : Does F s0 s)
    (hF : Parts.le { outs := true, pins := true, glb := true, hst := true, chk := true, dos := true, pac := true, swl := true, twn := true, tim := true, grn := true, slo := true, store := true, obs := true, readbacks := true } F = true) : DoesO F s0 (execDieTempRead t s) := by
  refine DoesO.weaken hF h ?_
  unfold execDieTempRead
  repeat' (first
    | exact Eq.refl true
    | with_reducible exact Does.refl _ _
    | with_reducible assumption
    | ((fail_if_no_progress (extract_lets z)); refine Does.cut (z := z) ?_ (fun q => ?_); rotate_left; clear_value z)
    | ((fail_if_no_progress (extract_lets z)); refine Does.cutSnd (z := z) ?_ (fun q => ?_); rotate_left; clear_value z)
    | ((fail_if_no_progress (extract_lets z)); refine DoesO.cut (z := z) ?_ (fun q => ?_); rotate_left; clear_value z)
    | ((fail_if_no_progress (extract_lets z)); refine DoesO.cutSnd (z := z) ?_ (fun q => ?_); rotate_left; clear_value z)
    | fail_if_no_progress (extract_lets z)
    | with_reducible apply does_ok
    | with_reducible apply does_raiseItems
    | with_reducible apply does_goFatal
    | with_reducible refine Does.ite ?_ ?_
    | with_reducible refine DoesO.ite ?_ ?_
    | fail_if_no_progress (with_reducible refine Does.leaf ?_ ?_ ?_; pick_goal 2; (focus (simp +zetaDelta only [State.blank, cond_true, cond_false]; first | done | fail)); pick_goal 2; (focus (simp +zetaDelta only [watched]; first | done | fail)))
    | (dsimp +zetaDelta only)
    | split)

theorem does_hostFresh {F : Parts} {s0 s : State}  (h : Does F s0 s)
    (hF : Parts.le { regs := true, latch := true, halves := true, hst := true, chains := true, lft := true } F = true) : Does F s0 (hostFresh s) := by
  refine Does.weaken hF h ?_
  exact ⟨rfl, fun b => ⟨b.mem, Nat.zero_le _, Nat.zero_le _, b.trace, b.silo, b.head, b.store⟩⟩


theorem does_hostReset {F : Parts} {s0 s : State}  (h : Does F s0 s)
    (hF : Parts.le { outs := true, regs := true, latch := true, halves := true, hst := true, chains := true, lft := true, obs := true } F = true) : Does F s0 (hostReset s) := by
  refine Does.weaken hF h ?_
  unfold hostReset
  exact Does.foldl (does_dropReads _ (does_hostFresh (Does.refl _ _) rfl) rfl) (fun a u q => does_complete _ _ _ q rfl)


theorem does_linkReset {F : Parts} {s0 s : State} (cause : Nat) (down : Bool) (h : Does F s0 s)
    (hF : Parts.le { outs := true, glb := true, regs := true, latch := true, halves := true, hst := true, chains := true, lft := true, slo := true, obs := true } F = true) : Does F s0 (linkReset cause down s) := by
  refine Does.weaken hF h ?_
  unfold linkReset
  repeat' (first
    | exact Eq.refl true
    | with_reducible exact Does.refl _ _
    | with_reducible assumption
    | ((fail_if_no_progress (extract_lets z)); refine Does.cut (z := z) ?_ (fun q => ?_); rotate_left; clear_value z)
    | ((fail_if_no_progress (extract_lets z)); refine Does.cutSnd (z := z) ?_ (fun q => ?_); rotate_left; clear_value z)
    | fail_if_no_progress (extract_lets z)
    | with_reducible apply does_hostReset
    | with_reducible apply does_raiseItems
    | with_reducible refine Does.ite ?_ ?_
    | fail_if_no_progress (with_reducible refine Does.leaf ?_ ?_ ?_; pick_goal 2; (focus (simp +zetaDelta only [State.blank, cond_true, cond_false]; first | done | fail)); pick_goal 2; (focus (simp +zetaDelta only [watched]; first | done | fail)))
    | (dsimp +zetaDelta only)
    | split)

theorem does_execPcieLinkReset {F : Parts} {s0 s : State} (cause : Fin 3) (h : Does F s0 s)
    (hF : Parts.le { outs := true, glb := true, regs := true, latch := true, halves := true, hst := true, chains := true, lft := true, slo := true, obs := true } F = true) : DoesO F s0 (execPcieLinkReset cause s) := by
  refine DoesO.weaken hF h ?_
  unfold execPcieLinkReset
  repeat' (first
    | exact Eq.refl true
    | with_reducible exact Does.refl _ _
    | with_reducible assumption
    | with_reducible apply does_ok
    | with_reducible apply does_linkReset
    | with_reducible refine Does.ite ?_ ?_
    | with_reducible refine DoesO.ite ?_ ?_
    | split)

theorem does_execPciePerstN {F : Parts} {s0 s : State} (high : Bool) (h : Does F s0 s)
    (hF : Parts.le { outs := true, pins := true, glb := true, regs := true, latch := true, halves := true, hst := true, chains := true, lft := true, slo := true, obs := true } F = true) : DoesO F s0 (execPciePerstN high s) := by
  refine DoesO.weaken hF h ?_
  unfold execPciePerstN
  repeat' (first
    | exact Eq.refl true
    | with_reducible exact Does.refl _ _
    | with_reducible assumption
    | ((fail_if_no_progress (extract_lets z)); refine Does.cut (z := z) ?_ (fun q => ?_); rotate_left; clear_value z)
    | ((fail_if_no_progress (extract_lets z)); refine DoesO.cut (z := z) ?_ (fun q => ?_); rotate_left; clear_value z)
    | fail_if_no_progress (extract_lets z)
    | with_reducible apply does_ok
    | with_reducible apply does_linkReset
    | with_reducible refine Does.ite ?_ ?_
    | with_reducible refine DoesO.ite ?_ ?_
    | fail_if_no_progress (with_reducible refine Does.leaf ?_ ?_ ?_; pick_goal 2; (focus (simp +zetaDelta only [State.blank, cond_true, cond_false]; first | done | fail)); pick_goal 2; (focus (simp +zetaDelta only [watched]; first | done | fail)))
    | (dsimp +zetaDelta only)
    | split)

theorem does_execPcieLinkUp {F : Parts} {s0 s : State} (rate : Fin 6) (width : Fin 17) (mps : Fin 8) (conf : PcieConf) (h : Does F s0 s)
    (hF : Parts.le { outs := true, hst := true } F = true) : DoesO F s0 (execPcieLinkUp rate width mps conf s) := by
  refine DoesO.weaken hF h ?_
  unfold execPcieLinkUp
  repeat' (first
    | exact Eq.refl true
    | with_reducible exact Does.refl _ _
    | with_reducible assumption
    | ((fail_if_no_progress (extract_lets z)); refine Does.cut (z := z) ?_ (fun q => ?_); rotate_left; clear_value z)
    | ((fail_if_no_progress (extract_lets z)); refine Does.cutSnd (z := z) ?_ (fun q => ?_); rotate_left; clear_value z)
    | ((fail_if_no_progress (extract_lets z)); refine DoesO.cut (z := z) ?_ (fun q => ?_); rotate_left; clear_value z)
    | ((fail_if_no_progress (extract_lets z)); refine DoesO.cutSnd (z := z) ?_ (fun q => ?_); rotate_left; clear_value z)
    | fail_if_no_progress (extract_lets z)
    | with_reducible apply does_ok
    | with_reducible apply does_emit
    | (with_reducible refine Does.foldl ?_ (fun _ _ _ => ?_))
    | (with_reducible refine Does.foldlSnd ?_ (fun _ _ _ => ?_))
    | with_reducible refine Does.ite ?_ ?_
    | with_reducible refine DoesO.ite ?_ ?_
    | fail_if_no_progress (with_reducible refine Does.leaf ?_ ?_ ?_; pick_goal 2; (focus (simp +zetaDelta only [State.blank, cond_true, cond_false]; first | done | fail)); pick_goal 2; (focus (simp +zetaDelta only [watched]; first | done | fail)))
    | (dsimp +zetaDelta only)
    | split)

end Sys2Proof.Machine
end

