-- ==== Sys2Proof/Laws/DoesRegs.lean ====
section
/-! SUPPORT. What each operation of Machine/Regs.lean touches at most, and that it keeps the bounds. -/

-- One theorem at a time: elaborating the package as one text in many threads at once takes more memory than the check allows.
set_option Elab.async false

set_option linter.unusedSimpArgs false
set_option linter.unusedTactic false
set_option linter.unreachableTactic false

namespace Sys2Proof.Machine

theorem does_recordBad {F : Parts} {s0 s : State} (kind : Nat) (off : Nat) (h : Does F s0 s)
    (hF : Parts.le { glb := true } F = true) : Does F s0 (recordBad kind off s) := by
  refine Does.weaken hF h ?_
  unfold recordBad
  repeat' (first
    | exact Eq.refl true
    | with_reducible exact Does.refl _ _
    | with_reducible assumption
    | ((fail_if_no_progress (extract_lets z)); refine Does.cut (z := z) ?_ (fun q => ?_); rotate_left; clear_value z)
    | fail_if_no_progress (extract_lets z)
    | fail_if_no_progress (with_reducible refine Does.leaf ?_ ?_ ?_; pick_goal 2; (focus (simp +zetaDelta only [State.blank, cond_true, cond_false]; first | done | fail)); pick_goal 2; (focus (simp +zetaDelta only [watched]; first | done | fail)))
    | (dsimp +zetaDelta only))

theorem does_rwpRecord {F : Parts} {s0 s : State} (off : Nat) (v : Nat) (req : Nat) (flags : Nat) (h : Does F s0 s)
    (hF : Parts.le { slo := true, obs := true } F = true) : Does F s0 (rwpRecord off v req flags s) := by
  refine Does.weaken hF h ?_
  unfold rwpRecord
  repeat' (first
    | exact Eq.refl true
    | with_reducible exact Does.refl _ _
    | with_reducible assumption
    | with_reducible apply does_siloRecord)

theorem does_takeHalf {F : Parts} {s0 s : State} (lo : Nat) (h : Does F s0 s)
    (hF : Parts.le { regs := true, halves := true } F = true) : Does F s0 (takeHalf lo s) := by
  refine Does.weaken hF h ?_
  unfold takeHalf
  repeat' (first
    | exact Eq.refl true
    | with_reducible exact Does.refl _ _
    | with_reducible assumption
    | ((fail_if_no_progress (extract_lets z)); refine Does.cut (z := z) ?_ (fun q => ?_); rotate_left; clear_value z)
    | fail_if_no_progress (extract_lets z)
    | with_reducible apply does_regSet
    | with_reducible refine Does.snd (by assumption) ?_
    | fail_if_no_progress (with_reducible refine Does.leaf ?_ ?_ ?_; pick_goal 2; (focus (simp +zetaDelta only [State.blank, cond_true, cond_false]; first | done | fail)); pick_goal 2; (focus (simp +zetaDelta only [watched]; first | done | fail)))
    | (dsimp +zetaDelta only)
    | split)

theorem does_vlimMoved {F : Parts} {s0 s : State}  (h : Does F s0 s)
    (hF : Parts.le { outs := true, glb := true, hst := true, pac := true, slo := true, obs := true } F = true) : Does F s0 (vlimMoved s) := by
  refine Does.weaken hF h ?_
  unfold vlimMoved
  repeat' (first
    | exact Eq.refl true
    | with_reducible exact Does.refl _ _
    | with_reducible assumption
    | ((fail_if_no_progress (extract_lets z)); refine Does.cut (z := z) ?_ (fun q => ?_); rotate_left; clear_value z)
    | fail_if_no_progress (extract_lets z)
    | with_reducible apply does_raiseOverrun
    | with_reducible refine Does.snd (by assumption) ?_
    | with_reducible refine Does.ite ?_ ?_
    | fail_if_no_progress (with_reducible refine Does.leaf ?_ ?_ ?_; pick_goal 2; (focus (simp +zetaDelta only [State.blank, cond_true, cond_false]; first | done | fail)); pick_goal 2; (focus (simp +zetaDelta only [watched]; first | done | fail)))
    | (dsimp +zetaDelta only)
    | split)

theorem does_rwpEffect {F : Parts} {s0 s : State} (off : Nat) (was : Nat) (h : Does F s0 s)
    (hF : Parts.le { outs := true, glb := true, hst := true, pac := true, lft := true, slo := true, obs := true } F = true) : Does F s0 (rwpEffect off was s) := by
  refine Does.weaken hF h ?_
  unfold rwpEffect
  repeat' (first
    | exact Eq.refl true
    | with_reducible exact Does.refl _ _
    | with_reducible assumption
    | with_reducible apply does_vlimMoved
    | with_reducible apply does_predSelected
    | with_reducible refine Does.ite ?_ ?_
    | split)

theorem does_rwpWrite {F : Parts} {s0 s : State} (off : Nat) (v : Nat) (req : Nat) (h : Does F s0 s)
    (hF : Parts.le { outs := true, glb := true, regs := true, halves := true, hst := true, pac := true, lft := true, grn := true, slo := true, obs := true } F = true) : Does F s0 (rwpWrite off v req s) := by
  refine Does.weaken hF h ?_
  unfold rwpWrite
  repeat' (first
    | exact Eq.refl true
    | with_reducible exact Does.refl _ _
    | with_reducible assumption
    | ((fail_if_no_progress (extract_lets z)); refine Does.cut (z := z) ?_ (fun q => ?_); rotate_left; clear_value z)
    | ((fail_if_no_progress (extract_lets z)); refine Does.cutSnd (z := z) ?_ (fun q => ?_); rotate_left; clear_value z)
    | fail_if_no_progress (extract_lets z)
    | with_reducible apply does_rwpRecord
    | with_reducible apply does_recordBad
    | with_reducible apply does_regSet
    | with_reducible apply does_takeHalf
    | with_reducible apply does_rwpEffect
    | with_reducible apply does_persist
    | with_reducible refine Does.ite ?_ ?_
    | fail_if_no_progress (with_reducible refine Does.leaf ?_ ?_ ?_; pick_goal 2; (focus (simp +zetaDelta only [State.blank, cond_true, cond_false]; first | done | fail)); pick_goal 2; (focus (simp +zetaDelta only [watched]; first | done | fail)))
    | (dsimp +zetaDelta only)
    | split)

theorem does_hstCtrl {F : Parts} {s0 s : State} (v : Nat) (h : Does F s0 s)
    (hF : Parts.le { regs := true, hst := true } F = true) : Does F s0 (hstCtrl v s) := by
  refine Does.weaken hF h ?_
  unfold hstCtrl
  repeat' (first
    | exact Eq.refl true
    | with_reducible exact Does.refl _ _
    | with_reducible assumption
    | ((fail_if_no_progress (extract_lets z)); refine Does.cut (z := z) ?_ (fun q => ?_); rotate_left; clear_value z)
    | ((fail_if_no_progress (extract_lets z)); refine Does.cutSnd (z := z) ?_ (fun q => ?_); rotate_left; clear_value z)
    | fail_if_no_progress (extract_lets z)
    | with_reducible apply does_regSet
    | with_reducible refine Does.ite ?_ ?_
    | fail_if_no_progress (with_reducible refine Does.leaf ?_ ?_ ?_; pick_goal 2; (focus (simp +zetaDelta only [State.blank, cond_true, cond_false]; first | done | fail)); pick_goal 2; (focus (simp +zetaDelta only [watched]; first | done | fail)))
    | (dsimp +zetaDelta only)
    | split)

theorem does_chainCtrl {F : Parts} {s0 s : State} (c : Nat) (v : Nat) (h : Does F s0 s)
    (hF : Parts.le { outs := true, regs := true, hst := true, chains := true, obs := true } F = true) : Does F s0 (chainCtrl c v s) := by
  refine Does.weaken hF h ?_
  unfold chainCtrl
  repeat' (first
    | exact Eq.refl true
    | with_reducible exact Does.refl _ _
    | with_reducible assumption
    | ((fail_if_no_progress (extract_lets z)); refine Does.cut (z := z) ?_ (fun q => ?_); rotate_left; clear_value z)
    | ((fail_if_no_progress (extract_lets z)); refine Does.cutSnd (z := z) ?_ (fun q => ?_); rotate_left; clear_value z)
    | fail_if_no_progress (extract_lets z)
    | with_reducible apply does_regSet
    | with_reducible apply does_chainSet
    | with_reducible apply does_withdrawChain
    | with_reducible refine Does.ite ?_ ?_
    | fail_if_no_progress (with_reducible refine Does.leaf ?_ ?_ ?_; pick_goal 2; (focus (simp +zetaDelta only [State.blank, cond_true, cond_false]; first | done | fail)); pick_goal 2; (focus (simp +zetaDelta only [watched]; first | done | fail)))
    | (dsimp +zetaDelta only)
    | split)

theorem does_calCtrlOp {F : Parts} {s0 s : State} (n : Nat) (v : Nat) (h : Does F s0 s)
    (hF : Parts.le { regs := true, enc := true } F = true) : Does F s0 (calCtrlOp n v s) := by
  refine Does.weaken hF h ?_
  unfold calCtrlOp
  repeat' (first
    | exact Eq.refl true
    | with_reducible exact Does.refl _ _
    | with_reducible assumption
    | ((fail_if_no_progress (extract_lets z)); refine Does.cut (z := z) ?_ (fun q => ?_); rotate_left; clear_value z)
    | ((fail_if_no_progress (extract_lets z)); refine Does.cutSnd (z := z) ?_ (fun q => ?_); rotate_left; clear_value z)
    | fail_if_no_progress (extract_lets z)
    | with_reducible apply does_regSet
    | with_reducible apply does_reopen
    | with_reducible apply does_encSet
    | with_reducible refine Does.ite ?_ ?_
    | fail_if_no_progress (with_reducible refine Does.leaf ?_ ?_ ?_; pick_goal 2; (focus (simp +zetaDelta only [State.blank, cond_true, cond_false]; first | done | fail)); pick_goal 2; (focus (simp +zetaDelta only [watched]; first | done | fail)))
    | (dsimp +zetaDelta only)
    | split)

theorem does_presetHi {F : Parts} {s0 s : State} (n : Nat) (v : Nat) (h : Does F s0 s)
    (hF : Parts.le { regs := true, enc := true } F = true) : Does F s0 (presetHi n v s) := by
  refine Does.weaken hF h ?_
  unfold presetHi
  repeat' (first
    | exact Eq.refl true
    | with_reducible exact Does.refl _ _
    | with_reducible assumption
    | ((fail_if_no_progress (extract_lets z)); refine Does.cut (z := z) ?_ (fun q => ?_); rotate_left; clear_value z)
    | ((fail_if_no_progress (extract_lets z)); refine Does.cutSnd (z := z) ?_ (fun q => ?_); rotate_left; clear_value z)
    | fail_if_no_progress (extract_lets z)
    | with_reducible apply does_regSet
    | with_reducible apply does_presetLoad
    | with_reducible refine Does.ite ?_ ?_
    | (dsimp +zetaDelta only)
    | split)

theorem does_cmpCtrlOp {F : Parts} {s0 s : State} (k : Nat) (v : Nat) (h : Does F s0 s)
    (hF : Parts.le { regs := true, enc := true } F = true) : Does F s0 (cmpCtrlOp k v s) := by
  refine Does.weaken hF h ?_
  unfold cmpCtrlOp
  repeat' (first
    | exact Eq.refl true
    | with_reducible exact Does.refl _ _
    | with_reducible assumption
    | ((fail_if_no_progress (extract_lets z)); refine Does.cut (z := z) ?_ (fun q => ?_); rotate_left; clear_value z)
    | ((fail_if_no_progress (extract_lets z)); refine Does.cutSnd (z := z) ?_ (fun q => ?_); rotate_left; clear_value z)
    | fail_if_no_progress (extract_lets z)
    | with_reducible apply does_regSet
    | with_reducible apply does_cmpArmOp
    | with_reducible apply does_cmpDisarmOp
    | with_reducible refine Does.ite ?_ ?_
    | (dsimp +zetaDelta only)
    | split)

theorem does_xrefHi {F : Parts} {s0 s : State} (v : Nat) (h : Does F s0 s)
    (hF : Parts.le { regs := true, halves := true, enc := true } F = true) : Does F s0 (xrefHi v s) := by
  refine Does.weaken hF h ?_
  unfold xrefHi
  repeat' (first
    | exact Eq.refl true
    | with_reducible exact Does.refl _ _
    | with_reducible assumption
    | ((fail_if_no_progress (extract_lets z)); refine Does.cut (z := z) ?_ (fun q => ?_); rotate_left; clear_value z)
    | ((fail_if_no_progress (extract_lets z)); refine Does.cutSnd (z := z) ?_ (fun q => ?_); rotate_left; clear_value z)
    | fail_if_no_progress (extract_lets z)
    | with_reducible apply does_regSet
    | with_reducible apply does_takeHalf
    | fail_if_no_progress (with_reducible refine Does.leaf ?_ ?_ ?_; pick_goal 2; (focus (simp +zetaDelta only [State.blank, cond_true, cond_false]; first | done | fail)); pick_goal 2; (focus (simp +zetaDelta only [watched]; first | done | fail)))
    | (dsimp +zetaDelta only))

theorem does_incrHi {F : Parts} {s0 s : State} (b : Bool) (v : Nat) (h : Does F s0 s)
    (hF : Parts.le { halves := true, tim := true } F = true) : Does F s0 (incrHi b v s) := by
  refine Does.weaken hF h ?_
  unfold incrHi
  repeat' (first
    | exact Eq.refl true
    | with_reducible exact Does.refl _ _
    | with_reducible assumption
    | ((fail_if_no_progress (extract_lets z)); refine Does.cut (z := z) ?_ (fun q => ?_); rotate_left; clear_value z)
    | ((fail_if_no_progress (extract_lets z)); refine Does.cutSnd (z := z) ?_ (fun q => ?_); rotate_left; clear_value z)
    | fail_if_no_progress (extract_lets z)
    | with_reducible apply does_domSet
    | with_reducible refine Does.ite ?_ ?_
    | fail_if_no_progress (with_reducible refine Does.leaf ?_ ?_ ?_; pick_goal 2; (focus (simp +zetaDelta only [State.blank, cond_true, cond_false]; first | done | fail)); pick_goal 2; (focus (simp +zetaDelta only [watched]; first | done | fail)))
    | (dsimp +zetaDelta only)
    | split)

theorem does_timCmd {F : Parts} {s0 s : State} (b : Bool) (v : Nat) (h : Does F s0 s)
    (hF : Parts.le { tim := true } F = true) : Does F s0 (timCmd b v s) := by
  refine Does.weaken hF h ?_
  unfold timCmd
  repeat' (first
    | exact Eq.refl true
    | with_reducible exact Does.refl _ _
    | with_reducible assumption
    | ((fail_if_no_progress (extract_lets z)); refine Does.cut (z := z) ?_ (fun q => ?_); rotate_left; clear_value z)
    | ((fail_if_no_progress (extract_lets z)); refine Does.cutSnd (z := z) ?_ (fun q => ?_); rotate_left; clear_value z)
    | fail_if_no_progress (extract_lets z)
    | with_reducible apply does_domSet
    | with_reducible refine Does.ite ?_ ?_
    | fail_if_no_progress (with_reducible refine Does.leaf ?_ ?_ ?_; pick_goal 2; (focus (simp +zetaDelta only [State.blank, cond_true, cond_false]; first | done | fail)); pick_goal 2; (focus (simp +zetaDelta only [watched]; first | done | fail)))
    | (dsimp +zetaDelta only)
    | split)

theorem does_gangCtrlOp {F : Parts} {s0 s : State} (v : Nat) (h : Does F s0 s)
    (hF : Parts.le { outs := true, regs := true, hst := true, tim := true, obs := true } F = true) : Does F s0 (gangCtrlOp v s) := by
  refine Does.weaken hF h ?_
  unfold gangCtrlOp
  repeat' (first
    | exact Eq.refl true
    | with_reducible exact Does.refl _ _
    | with_reducible assumption
    | ((fail_if_no_progress (extract_lets z)); refine Does.cut (z := z) ?_ (fun q => ?_); rotate_left; clear_value z)
    | ((fail_if_no_progress (extract_lets z)); refine Does.cutSnd (z := z) ?_ (fun q => ?_); rotate_left; clear_value z)
    | fail_if_no_progress (extract_lets z)
    | with_reducible apply does_regSet
    | with_reducible apply does_complete
    | (with_reducible refine Does.foldl ?_ (fun _ _ _ => ?_))
    | (with_reducible refine Does.foldlSnd ?_ (fun _ _ _ => ?_))
    | with_reducible refine Does.ite ?_ ?_
    | fail_if_no_progress (with_reducible refine Does.leaf ?_ ?_ ?_; pick_goal 2; (focus (simp +zetaDelta only [State.blank, cond_true, cond_false]; first | done | fail)); pick_goal 2; (focus (simp +zetaDelta only [watched]; first | done | fail)))
    | (dsimp +zetaDelta only)
    | split)

theorem does_rxPop {F : Parts} {s0 s : State} (p : Nat) (v : Nat) (h : Does F s0 s)
    (hF : Parts.le { tim := true } F = true) : Does F s0 (rxPop p v s) := by
  refine Does.weaken hF h ?_
  unfold rxPop
  repeat' (first
    | exact Eq.refl true
    | with_reducible exact Does.refl _ _
    | with_reducible assumption
    | ((fail_if_no_progress (extract_lets z)); refine Does.cut (z := z) ?_ (fun q => ?_); rotate_left; clear_value z)
    | ((fail_if_no_progress (extract_lets z)); refine Does.cutSnd (z := z) ?_ (fun q => ?_); rotate_left; clear_value z)
    | fail_if_no_progress (extract_lets z)
    | with_reducible apply does_portSet
    | with_reducible refine Does.ite ?_ ?_
    | fail_if_no_progress (with_reducible refine Does.leaf ?_ ?_ ?_; pick_goal 2; (focus (simp +zetaDelta only [State.blank, cond_true, cond_false]; first | done | fail)); pick_goal 2; (focus (simp +zetaDelta only [watched]; first | done | fail)))
    | (dsimp +zetaDelta only)
    | split)

theorem does_slotGo {F : Parts} {s0 s : State} (p : Nat) (i : Nat) (h : Does F s0 s)
    (hF : Parts.le { tim := true } F = true) : Does F s0 (slotGo p i s) := by
  refine Does.weaken hF h ?_
  unfold slotGo
  repeat' (first
    | exact Eq.refl true
    | with_reducible exact Does.refl _ _
    | with_reducible assumption
    | ((fail_if_no_progress (extract_lets z)); refine Does.cut (z := z) ?_ (fun q => ?_); rotate_left; clear_value z)
    | ((fail_if_no_progress (extract_lets z)); refine Does.cutSnd (z := z) ?_ (fun q => ?_); rotate_left; clear_value z)
    | fail_if_no_progress (extract_lets z)
    | with_reducible apply does_portSet
    | with_reducible refine Does.ite ?_ ?_
    | fail_if_no_progress (with_reducible refine Does.leaf ?_ ?_ ?_; pick_goal 2; (focus (simp +zetaDelta only [State.blank, cond_true, cond_false]; first | done | fail)); pick_goal 2; (focus (simp +zetaDelta only [watched]; first | done | fail)))
    | (dsimp +zetaDelta only)
    | split)

theorem does_slotsWrite {F : Parts} {s0 s : State} (p : Nat) (o : Nat) (v : Nat) (h : Does F s0 s)
    (hF : Parts.le { tim := true } F = true) : Does F s0 (slotsWrite p o v s) := by
  refine Does.weaken hF h ?_
  unfold slotsWrite
  repeat' (first
    | exact Eq.refl true
    | with_reducible exact Does.refl _ _
    | with_reducible assumption
    | with_reducible apply does_slotGo
    | with_reducible apply does_portSet
    | with_reducible refine Does.ite ?_ ?_
    | split)

theorem does_lftCfg {F : Parts} {s0 s : State} (v : Nat) (h : Does F s0 s)
    (hF : Parts.le { outs := true, glb := true, regs := true, hst := true, lft := true, slo := true, obs := true } F = true) : Does F s0 (lftCfg v s) := by
  refine Does.weaken hF h ?_
  unfold lftCfg
  repeat' (first
    | exact Eq.refl true
    | with_reducible exact Does.refl _ _
    | with_reducible assumption
    | with_reducible apply does_rateTick
    | with_reducible apply does_regSet
    | (with_reducible refine Does.foldl ?_ (fun _ _ _ => ?_))
    | (with_reducible refine Does.foldlSnd ?_ (fun _ _ _ => ?_))
    | with_reducible refine Does.ite ?_ ?_
    | split)

theorem does_invalCtrl {F : Parts} {s0 s : State} (v : Nat) (h : Does F s0 s)
    (hF : Parts.le { regs := true, lft := true } F = true) : Does F s0 (invalCtrl v s) := by
  refine Does.weaken hF h ?_
  unfold invalCtrl
  repeat' (first
    | exact Eq.refl true
    | with_reducible exact Does.refl _ _
    | with_reducible assumption
    | ((fail_if_no_progress (extract_lets z)); refine Does.cut (z := z) ?_ (fun q => ?_); rotate_left; clear_value z)
    | ((fail_if_no_progress (extract_lets z)); refine Does.cutSnd (z := z) ?_ (fun q => ?_); rotate_left; clear_value z)
    | fail_if_no_progress (extract_lets z)
    | with_reducible apply does_regSet
    | with_reducible apply does_lftInvalOp
    | with_reducible refine Does.ite ?_ ?_
    | (dsimp +zetaDelta only)
    | split)

theorem does_grnCtrl {F : Parts} {s0 s : State} (v : Nat) (req : Nat) (h : Does F s0 s)
    (hF : Parts.le { grn := true, slo := true, obs := true } F = true) : Does F s0 (grnCtrl v req s) := by
  refine Does.weaken hF h ?_
  unfold grnCtrl
  repeat' (first
    | exact Eq.refl true
    | with_reducible exact Does.refl _ _
    | with_reducible assumption
    | ((fail_if_no_progress (extract_lets z)); refine Does.cut (z := z) ?_ (fun q => ?_); rotate_left; clear_value z)
    | ((fail_if_no_progress (extract_lets z)); refine Does.cutSnd (z := z) ?_ (fun q => ?_); rotate_left; clear_value z)
    | fail_if_no_progress (extract_lets z)
    | with_reducible apply does_wipeOp
    | with_reducible apply does_checkpointOp
    | with_reducible refine Does.ite ?_ ?_
    | (dsimp +zetaDelta only)
    | split)

theorem does_cntCfg {F : Parts} {s0 s : State} (i : Nat) (v : Nat) (h : Does F s0 s)
    (hF : Parts.le { regs := true, obs := true } F = true) : Does F s0 (cntCfg i v s) := by
  refine Does.weaken hF h ?_
  unfold cntCfg
  repeat' (first
    | exact Eq.refl true
    | with_reducible exact Does.refl _ _
    | with_reducible assumption
    | ((fail_if_no_progress (extract_lets z)); refine Does.cut (z := z) ?_ (fun q => ?_); rotate_left; clear_value z)
    | ((fail_if_no_progress (extract_lets z)); refine Does.cutSnd (z := z) ?_ (fun q => ?_); rotate_left; clear_value z)
    | fail_if_no_progress (extract_lets z)
    | with_reducible apply does_regSet
    | with_reducible refine Does.ite ?_ ?_
    | fail_if_no_progress (with_reducible refine Does.leaf ?_ ?_ ?_; pick_goal 2; (focus (simp +zetaDelta only [State.blank, cond_true, cond_false]; first | done | fail)); pick_goal 2; (focus (simp +zetaDelta only [watched]; first | done | fail)))
    | (dsimp +zetaDelta only)
    | split)

theorem does_trcCtrlOp {F : Parts} {s0 s : State} (v : Nat) (h : Does F s0 s)
    (hF : Parts.le { regs := true, obs := true } F = true) : Does F s0 (trcCtrlOp v s) := by
  refine Does.weaken hF h ?_
  unfold trcCtrlOp
  repeat' (first
    | exact Eq.refl true
    | with_reducible exact Does.refl _ _
    | with_reducible assumption
    | ((fail_if_no_progress (extract_lets z)); refine Does.cut (z := z) ?_ (fun q => ?_); rotate_left; clear_value z)
    | ((fail_if_no_progress (extract_lets z)); refine Does.cutSnd (z := z) ?_ (fun q => ?_); rotate_left; clear_value z)
    | fail_if_no_progress (extract_lets z)
    | with_reducible apply does_regSet
    | with_reducible apply does_trcSync
    | with_reducible refine Does.ite ?_ ?_
    | (dsimp +zetaDelta only)
    | split)

theorem does_w1cWrite {F : Parts} {s0 s : State} (off : Nat) (v : Nat) (h : Does F s0 s)
    (hF : Parts.le { glb := true, hst := true, enc := true, swl := true, twn := true, lft := true, tim := true, grn := true, obs := true } F = true) : Does F s0 (w1cWrite off v s) := by
  refine Does.weaken hF h ?_
  unfold w1cWrite
  repeat' (first
    | exact Eq.refl true
    | with_reducible exact Does.refl _ _
    | with_reducible assumption
    | ((fail_if_no_progress (extract_lets z)); refine Does.cut (z := z) ?_ (fun q => ?_); rotate_left; clear_value z)
    | ((fail_if_no_progress (extract_lets z)); refine Does.cutSnd (z := z) ?_ (fun q => ?_); rotate_left; clear_value z)
    | fail_if_no_progress (extract_lets z)
    | with_reducible apply does_encSet
    | with_reducible apply does_cmpSet
    | with_reducible apply does_laneSet
    | with_reducible apply does_retSet
    | with_reducible apply does_lftSet
    | with_reducible apply does_domSet
    | with_reducible apply does_portSet
    | with_reducible refine Does.ite ?_ ?_
    | fail_if_no_progress (with_reducible refine Does.leaf ?_ ?_ ?_; pick_goal 2; (focus (simp +zetaDelta only [State.blank, cond_true, cond_false]; first | done | fail)); pick_goal 2; (focus (simp +zetaDelta only [watched]; first | done | fail)))
    | (dsimp +zetaDelta only)
    | split)

theorem does_ownWrite {F : Parts} {s0 s : State} (off v req : Nat) (h : Does F s0 s)
    (hF : Parts.le { outs := true, free := true, pins := true, glb := true, regs := true, latch := true, halves := true, hst := true, chains := true, chk := true, units := true, dos := true, pac := true, enc := true, swl := true, twn := true, lft := true, tim := true, grn := true, slo := true, store := true, obs := true, readbacks := true } F = true) : DoesM F s0 (ownWrite off v req s) := by
  refine DoesM.weaken hF h ?_
  unfold ownWrite
  extract_lets b o
  repeat' (first
    | exact Eq.refl true
    | with_reducible exact Does.refl _ _
    | with_reducible assumption
    | with_reducible refine DoesM.ite ?_ ?_
    | with_reducible exact DoesM.none
    | with_reducible apply DoesM.some
    | ((fail_if_no_progress (extract_lets z)); refine Does.cut (z := z) ?_ (fun q => ?_); rotate_left; clear_value z)
    | ((fail_if_no_progress (extract_lets z)); refine Does.cutSnd (z := z) ?_ (fun q => ?_); rotate_left; clear_value z)
    | fail_if_no_progress (extract_lets z)
    | with_reducible apply does_glbResetOp
    | with_reducible apply does_trySnap
    | with_reducible apply does_hstCtrl
    | with_reducible apply does_chainCtrl
    | with_reducible apply does_thrRetireOp
    | with_reducible apply does_paceLinkOp
    | with_reducible apply does_regSet
    | with_reducible apply does_encEnable
    | with_reducible apply does_presetHi
    | with_reducible apply does_calCtrlOp
    | with_reducible apply does_xrefHi
    | with_reducible apply does_cmpCtrlOp
    | with_reducible apply does_cmpCommit
    | with_reducible apply does_takeHalf
    | with_reducible apply does_laneCtrl
    | with_reducible apply does_twnCtrl
    | with_reducible apply does_lftRetireOp
    | with_reducible apply does_lftCfg
    | with_reducible apply does_invalCtrl
    | with_reducible apply does_weevilCtrl
    | with_reducible apply does_lftRptClearOp
    | with_reducible apply does_incrHi
    | with_reducible apply does_timCmd
    | with_reducible apply does_gangCtrlOp
    | with_reducible apply does_portDown
    | with_reducible apply does_rxPop
    | with_reducible apply does_slotsWrite
    | with_reducible apply does_grnCtrl
    | with_reducible apply does_sloCtrl
    | with_reducible apply does_trcCtrlOp
    | with_reducible apply does_cntCfg
    | with_reducible refine Does.ite ?_ ?_
    | fail_if_no_progress (with_reducible refine Does.leaf ?_ ?_ ?_; pick_goal 2; (focus (simp +zetaDelta only [State.blank, cond_true, cond_false]; first | done | fail)); pick_goal 2; (focus (simp +zetaDelta only [watched]; first | done | fail)))
    | (dsimp +zetaDelta only)
    | split)


theorem does_writeReg {F : Parts} {s0 s : State} (off : Nat) (v : Nat) (req : Nat) (h : Does F s0 s)
    (hF : Parts.le { outs := true, free := true, pins := true, glb := true, regs := true, latch := true, halves := true, hst := true, chains := true, chk := true, units := true, dos := true, pac := true, enc := true, swl := true, twn := true, lft := true, tim := true, grn := true, slo := true, store := true, obs := true, readbacks := true } F = true) : Does F s0 (writeReg off v req s) := by
  refine Does.weaken hF h ?_
  unfold writeReg
  repeat' (first
    | exact Eq.refl true
    | with_reducible exact Does.refl _ _
    | with_reducible assumption
    | exact does_ownWrite _ _ _ (Does.refl _ _) rfl _ (by assumption)
    | ((fail_if_no_progress (extract_lets z)); refine Does.cut (z := z) ?_ (fun q => ?_); rotate_left; clear_value z)
    | ((fail_if_no_progress (extract_lets z)); refine Does.cutSnd (z := z) ?_ (fun q => ?_); rotate_left; clear_value z)
    | fail_if_no_progress (extract_lets z)
    | with_reducible apply does_rwpWrite
    | with_reducible apply does_recordBad
    | with_reducible apply does_ownWrite
    | with_reducible apply does_w1cWrite
    | with_reducible apply does_regSet
    | with_reducible refine Does.snd (by assumption) ?_
    | with_reducible refine Does.ite ?_ ?_
    | fail_if_no_progress (with_reducible refine Does.leaf ?_ ?_ ?_; pick_goal 2; (focus (simp +zetaDelta only [State.blank, cond_true, cond_false]; first | done | fail)); pick_goal 2; (focus (simp +zetaDelta only [watched]; first | done | fail)))
    | (dsimp +zetaDelta only)
    | split)


theorem does_arrive {F : Parts} {s0 s : State} (off : Nat) (v : Nat) (req : Nat) (h : Does F s0 s)
    (hF : Parts.le { outs := true, free := true, pins := true, glb := true, regs := true, latch := true, halves := true, hst := true, chains := true, chk := true, units := true, dos := true, pac := true, enc := true, swl := true, twn := true, lft := true, tim := true, grn := true, slo := true, store := true, obs := true, readbacks := true } F = true) : Does F s0 (arrive off v req s) := by
  refine Does.weaken hF h ?_
  unfold arrive
  repeat' (first
    | exact Eq.refl true
    | with_reducible exact Does.refl _ _
    | with_reducible assumption
    | ((fail_if_no_progress (extract_lets z)); refine Does.cut (z := z) ?_ (fun q => ?_); rotate_left; clear_value z)
    | ((fail_if_no_progress (extract_lets z)); refine Does.cutSnd (z := z) ?_ (fun q => ?_); rotate_left; clear_value z)
    | fail_if_no_progress (extract_lets z)
    | with_reducible apply does_rwpRecord
    | with_reducible apply does_recordBad
    | with_reducible apply does_writeReg
    | with_reducible refine Does.ite ?_ ?_
    | (dsimp +zetaDelta only)
    | split)

theorem does_holdWrite {F : Parts} {s0 s : State} (w : HeldWrite) (h : Does F s0 s)
    (hF : Parts.le { grn := true } F = true) : Does F s0 (holdWrite w s) := by
  refine Does.weaken hF h ?_
  unfold holdWrite
  repeat' (first
    | exact Eq.refl true
    | with_reducible exact Does.refl _ _
    | with_reducible assumption
    | ((fail_if_no_progress (extract_lets z)); refine Does.cut (z := z) ?_ (fun q => ?_); rotate_left; clear_value z)
    | fail_if_no_progress (extract_lets z)
    | fail_if_no_progress (with_reducible refine Does.leaf ?_ ?_ ?_; pick_goal 2; (focus (simp +zetaDelta only [State.blank, cond_true, cond_false]; first | done | fail)); pick_goal 2; (focus (simp +zetaDelta only [watched]; first | done | fail)))
    | (dsimp +zetaDelta only))

theorem does_busWrite {F : Parts} {s0 s : State} (off : Nat) (v : Nat) (req : Nat) (h : Does F s0 s)
    (hF : Parts.le { outs := true, free := true, pins := true, glb := true, regs := true, latch := true, halves := true, hst := true, chains := true, chk := true, units := true, dos := true, pac := true, enc := true, swl := true, twn := true, lft := true, tim := true, grn := true, slo := true, store := true, obs := true, readbacks := true } F = true) : Does F s0 (busWrite off v req s) := by
  refine Does.weaken hF h ?_
  unfold busWrite
  repeat' (first
    | exact Eq.refl true
    | with_reducible exact Does.refl _ _
    | with_reducible assumption
    | with_reducible apply does_holdWrite
    | with_reducible apply does_arrive
    | with_reducible refine Does.ite ?_ ?_
    | split)

theorem does_arrivePart {F : Parts} {s0 s : State} (off : Nat) (first : Nat) (v : Nat) (req : Nat) (h : Does F s0 s)
    (hF : Parts.le { glb := true, slo := true, obs := true } F = true) : Does F s0 (arrivePart off first v req s) := by
  refine Does.weaken hF h ?_
  unfold arrivePart
  repeat' (first
    | exact Eq.refl true
    | with_reducible exact Does.refl _ _
    | with_reducible assumption
    | with_reducible apply does_recordBad
    | with_reducible apply does_rwpRecord
    | with_reducible refine Does.ite ?_ ?_
    | split)

theorem does_busPart {F : Parts} {s0 s : State} (off : Nat) (first : Nat) (v : Nat) (req : Nat) (h : Does F s0 s)
    (hF : Parts.le { glb := true, grn := true, slo := true, obs := true } F = true) : Does F s0 (busPart off first v req s) := by
  refine Does.weaken hF h ?_
  unfold busPart
  repeat' (first
    | exact Eq.refl true
    | with_reducible exact Does.refl _ _
    | with_reducible assumption
    | with_reducible apply does_holdWrite
    | with_reducible apply does_arrivePart
    | with_reducible refine Does.ite ?_ ?_
    | split)

theorem does_arriveHeld {F : Parts} {s0 s : State} (w : HeldWrite) (h : Does F s0 s)
    (hF : Parts.le { outs := true, free := true, pins := true, glb := true, regs := true, latch := true, halves := true, hst := true, chains := true, chk := true, units := true, dos := true, pac := true, enc := true, swl := true, twn := true, lft := true, tim := true, grn := true, slo := true, store := true, obs := true, readbacks := true } F = true) : Does F s0 (arriveHeld w s) := by
  refine Does.weaken hF h ?_
  unfold arriveHeld
  repeat' (first
    | exact Eq.refl true
    | with_reducible exact Does.refl _ _
    | with_reducible assumption
    | with_reducible apply does_arrivePart
    | with_reducible apply does_arrive
    | with_reducible refine Does.ite ?_ ?_
    | split)

theorem does_replayHeld {F : Parts} {s0 x2 : State} (x1 : Nat) (h : Does F s0 x2)
    (hF : Parts.le { outs := true, free := true, pins := true, glb := true, regs := true, latch := true, halves := true, hst := true, chains := true, chk := true, units := true, dos := true, pac := true, enc := true, swl := true, twn := true, lft := true, tim := true, grn := true, slo := true, store := true, obs := true, readbacks := true } F = true) : Does F s0 (replayHeld x1 x2) := by
  refine Does.weaken hF h ?_
  clear hF h
  induction x1 generalizing x2 with
  | zero => unfold replayHeld; exact Does.refl _ _
  | succ n ih =>
    unfold replayHeld
    repeat' (first
      | exact Eq.refl true
      | with_reducible exact Does.refl _ _
      | with_reducible assumption
      | with_reducible refine Does.trans ?_ (ih)
      | ((fail_if_no_progress (extract_lets z)); refine Does.cut (z := z) ?_ (fun q => ?_); rotate_left; clear_value z)
      | fail_if_no_progress (extract_lets z)
      | with_reducible apply does_arriveHeld
      | with_reducible refine Does.snd (by assumption) ?_
      | with_reducible refine Does.ite ?_ ?_
      | fail_if_no_progress (with_reducible refine Does.leaf ?_ ?_ ?_; pick_goal 2; (focus (simp +zetaDelta only [State.blank, cond_true, cond_false]; first | done | fail)); pick_goal 2; (focus (simp +zetaDelta only [watched]; first | done | fail)))
      | (dsimp +zetaDelta only)
      | split)


theorem does_releaseHeld {F : Parts} {s0 s : State}  (h : Does F s0 s)
    (hF : Parts.le { outs := true, free := true, pins := true, glb := true, regs := true, latch := true, halves := true, hst := true, chains := true, chk := true, units := true, dos := true, pac := true, enc := true, swl := true, twn := true, lft := true, tim := true, grn := true, slo := true, store := true, obs := true, readbacks := true } F = true) : Does F s0 (releaseHeld s) := by
  refine Does.weaken hF h ?_
  unfold releaseHeld
  repeat' (first
    | exact Eq.refl true
    | with_reducible exact Does.refl _ _
    | with_reducible assumption
    | with_reducible apply does_replayHeld)

theorem does_writeDword {F : Parts} {s0 s : State} (off : Nat) (len : Nat) (be : Nat) (data : Nat) (req : Nat) (d : Nat) (h : Does F s0 s)
    (hF : Parts.le { outs := true, free := true, pins := true, glb := true, regs := true, latch := true, halves := true, hst := true, chains := true, chk := true, units := true, dos := true, pac := true, enc := true, swl := true, twn := true, lft := true, tim := true, grn := true, slo := true, store := true, obs := true, readbacks := true } F = true) : Does F s0 (writeDword off len be data req d s) := by
  refine Does.weaken hF h ?_
  unfold writeDword
  repeat' (first
    | exact Eq.refl true
    | with_reducible exact Does.refl _ _
    | with_reducible assumption
    | ((fail_if_no_progress (extract_lets z)); refine Does.cut (z := z) ?_ (fun q => ?_); rotate_left; clear_value z)
    | ((fail_if_no_progress (extract_lets z)); refine Does.cutSnd (z := z) ?_ (fun q => ?_); rotate_left; clear_value z)
    | fail_if_no_progress (extract_lets z)
    | with_reducible apply does_busWrite
    | with_reducible apply does_busPart
    | with_reducible refine Does.ite ?_ ?_
    | (dsimp +zetaDelta only)
    | split)

theorem does_bar0Write {F : Parts} {s0 s : State} (off : Nat) (len : Nat) (be : Nat) (data : Nat) (req : Nat) (h : Does F s0 s)
    (hF : Parts.le { outs := true, free := true, pins := true, glb := true, regs := true, latch := true, halves := true, hst := true, chains := true, chk := true, units := true, dos := true, pac := true, enc := true, swl := true, twn := true, lft := true, tim := true, grn := true, slo := true, store := true, obs := true, readbacks := true } F = true) : Does F s0 (bar0Write off len be data req s) := by
  refine Does.weaken hF h ?_
  unfold bar0Write
  repeat' (first
    | exact Eq.refl true
    | with_reducible exact Does.refl _ _
    | with_reducible assumption
    | with_reducible apply does_recordBad
    | with_reducible apply does_writeDword
    | (with_reducible refine Does.foldl ?_ (fun _ _ _ => ?_))
    | (with_reducible refine Does.foldlSnd ?_ (fun _ _ _ => ?_))
    | with_reducible refine Does.ite ?_ ?_
    | split)

theorem does_vectorCtrl {F : Parts} {s0 s : State} (vec : Nat) (v : Nat) (h : Does F s0 s)
    (hF : Parts.le { outs := true, hst := true } F = true) : Does F s0 (vectorCtrl vec v s) := by
  refine Does.weaken hF h ?_
  unfold vectorCtrl
  repeat' (first
    | exact Eq.refl true
    | with_reducible exact Does.refl _ _
    | with_reducible assumption
    | ((fail_if_no_progress (extract_lets z)); refine Does.cut (z := z) ?_ (fun q => ?_); rotate_left; clear_value z)
    | ((fail_if_no_progress (extract_lets z)); refine Does.cutSnd (z := z) ?_ (fun q => ?_); rotate_left; clear_value z)
    | fail_if_no_progress (extract_lets z)
    | with_reducible apply does_emit
    | with_reducible refine Does.ite ?_ ?_
    | fail_if_no_progress (with_reducible refine Does.leaf ?_ ?_ ?_; pick_goal 2; (focus (simp +zetaDelta only [State.blank, cond_true, cond_false]; first | done | fail)); pick_goal 2; (focus (simp +zetaDelta only [watched]; first | done | fail)))
    | (dsimp +zetaDelta only)
    | split)

theorem does_bar2Dword {F : Parts} {s0 s : State} (o : Nat) (v : Nat) (h : Does F s0 s)
    (hF : Parts.le { outs := true, hst := true } F = true) : Does F s0 (bar2Dword o v s) := by
  refine Does.weaken hF h ?_
  unfold bar2Dword
  repeat' (first
    | exact Eq.refl true
    | with_reducible exact Does.refl _ _
    | with_reducible assumption
    | ((fail_if_no_progress (extract_lets z)); refine Does.cut (z := z) ?_ (fun q => ?_); rotate_left; clear_value z)
    | fail_if_no_progress (extract_lets z)
    | with_reducible apply does_vectorCtrl
    | with_reducible refine Does.ite ?_ ?_
    | fail_if_no_progress (with_reducible refine Does.leaf ?_ ?_ ?_; pick_goal 2; (focus (simp +zetaDelta only [State.blank, cond_true, cond_false]; first | done | fail)); pick_goal 2; (focus (simp +zetaDelta only [watched]; first | done | fail)))
    | (dsimp +zetaDelta only)
    | split)

theorem does_bar2Write {F : Parts} {s0 s : State} (off : Nat) (len : Nat) (data : Nat) (h : Does F s0 s)
    (hF : Parts.le { outs := true, hst := true } F = true) : Does F s0 (bar2Write off len data s) := by
  refine Does.weaken hF h ?_
  unfold bar2Write
  repeat' (first
    | exact Eq.refl true
    | with_reducible exact Does.refl _ _
    | with_reducible assumption
    | with_reducible apply does_bar2Dword
    | (with_reducible refine Does.foldl ?_ (fun _ _ _ => ?_))
    | (with_reducible refine Does.foldlSnd ?_ (fun _ _ _ => ?_))
    | with_reducible refine Does.ite ?_ ?_
    | split)

theorem does_clearOnRead {F : Parts} {s0 s : State} (off : Nat) (h : Does F s0 s)
    (hF : Parts.le { hst := true, swl := true, twn := true, tim := true, slo := true, obs := true } F = true) : Does F s0 (clearOnRead off s) := by
  refine Does.weaken hF h ?_
  unfold clearOnRead
  repeat' (first
    | exact Eq.refl true
    | with_reducible exact Does.refl _ _
    | with_reducible assumption
    | ((fail_if_no_progress (extract_lets z)); refine Does.cut (z := z) ?_ (fun q => ?_); rotate_left; clear_value z)
    | ((fail_if_no_progress (extract_lets z)); refine Does.cutSnd (z := z) ?_ (fun q => ?_); rotate_left; clear_value z)
    | fail_if_no_progress (extract_lets z)
    | with_reducible apply does_retSet
    | with_reducible apply does_laneSet
    | with_reducible apply does_portSet
    | with_reducible refine Does.ite ?_ ?_
    | fail_if_no_progress (with_reducible refine Does.leaf ?_ ?_ ?_; pick_goal 2; (focus (simp +zetaDelta only [State.blank, cond_true, cond_false]; first | done | fail)); pick_goal 2; (focus (simp +zetaDelta only [watched]; first | done | fail)))
    | (dsimp +zetaDelta only)
    | split)

theorem does_lookLock {F : Parts} {s0 s : State} (p : Nat) (h : Does F s0 s)
    (hF : Parts.le { free := true, tim := true } F = true) : Does F s0 (lookLock p s) := by
  refine Does.weaken hF h ?_
  unfold lookLock
  repeat' (first
    | exact Eq.refl true
    | with_reducible exact Does.refl _ _
    | with_reducible assumption
    | ((fail_if_no_progress (extract_lets z)); refine Does.cut (z := z) ?_ (fun q => ?_); rotate_left; clear_value z)
    | ((fail_if_no_progress (extract_lets z)); refine Does.cutSnd (z := z) ?_ (fun q => ?_); rotate_left; clear_value z)
    | fail_if_no_progress (extract_lets z)
    | with_reducible apply does_drawFree
    | with_reducible apply does_portSet
    | with_reducible refine Does.snd (by assumption) ?_
    | fail_if_no_progress (with_reducible refine Does.leaf ?_ ?_ ?_; pick_goal 2; (focus (simp +zetaDelta only [State.blank, cond_true, cond_false]; first | done | fail)); pick_goal 2; (focus (simp +zetaDelta only [watched]; first | done | fail)))
    | (dsimp +zetaDelta only)
    | split)

theorem does_beforeRead {F : Parts} {s0 s : State} (off : Nat) (h : Does F s0 s)
    (hF : Parts.le { free := true, swl := true, tim := true } F = true) : Does F s0 (beforeRead off s) := by
  refine Does.weaken hF h ?_
  unfold beforeRead
  repeat' (first
    | exact Eq.refl true
    | with_reducible exact Does.refl _ _
    | with_reducible assumption
    | with_reducible apply does_takeChecked
    | with_reducible apply does_lookLock
    | with_reducible refine Does.ite ?_ ?_
    | split)

theorem does_readLive {F : Parts} {s0 s0 : State} (off : Nat) (h : Does F s0 s0)
    (hF : Parts.le { free := true, latch := true, hst := true, swl := true, twn := true, tim := true, slo := true, obs := true } F = true) : Does F s0 (readLive off s0).2 := by
  refine Does.weaken hF h ?_
  unfold readLive
  repeat' (first
    | exact Eq.refl true
    | with_reducible exact Does.refl _ _
    | with_reducible assumption
    | ((fail_if_no_progress (extract_lets z)); refine Does.cut (z := z) ?_ (fun q => ?_); rotate_left; clear_value z)
    | ((fail_if_no_progress (extract_lets z)); refine Does.cutSnd (z := z) ?_ (fun q => ?_); rotate_left; clear_value z)
    | fail_if_no_progress (extract_lets z)
    | with_reducible apply does_beforeRead
    | with_reducible apply does_clearOnRead
    | with_reducible refine Does.snd (by assumption) ?_
    | (with_reducible refine Does.foldl ?_ (fun _ _ _ => ?_))
    | (with_reducible refine Does.foldlSnd ?_ (fun _ _ _ => ?_))
    | fail_if_no_progress (with_reducible refine Does.leaf ?_ ?_ ?_; pick_goal 2; (focus (simp +zetaDelta only [State.blank, cond_true, cond_false]; first | done | fail)); pick_goal 2; (focus (simp +zetaDelta only [watched]; first | done | fail)))
    | (dsimp +zetaDelta only)
    | split)

theorem does_readRaw {F : Parts} {s0 s : State} (unreadable : Bool) (h : Does F s0 s)
    (hF : Parts.le { free := true, latch := true, grn := true } F = true) : Does F s0 (readRaw unreadable s).2 := by
  refine Does.weaken hF h ?_
  unfold readRaw
  repeat' (first
    | exact Eq.refl true
    | with_reducible exact Does.refl _ _
    | with_reducible assumption
    | ((fail_if_no_progress (extract_lets z)); refine Does.cut (z := z) ?_ (fun q => ?_); rotate_left; clear_value z)
    | ((fail_if_no_progress (extract_lets z)); refine Does.cutSnd (z := z) ?_ (fun q => ?_); rotate_left; clear_value z)
    | fail_if_no_progress (extract_lets z)
    | with_reducible apply does_drawFree
    | with_reducible refine Does.snd (by assumption) ?_
    | with_reducible refine Does.ite ?_ ?_
    | fail_if_no_progress (with_reducible refine Does.leaf ?_ ?_ ?_; pick_goal 2; (focus (simp +zetaDelta only [State.blank, cond_true, cond_false]; first | done | fail)); pick_goal 2; (focus (simp +zetaDelta only [watched]; first | done | fail)))
    | (dsimp +zetaDelta only)
    | split)

theorem does_busRead {F : Parts} {s0 s : State} (off : Nat) (h : Does F s0 s)
    (hF : Parts.le { outs := true, free := true, pins := true, glb := true, regs := true, latch := true, halves := true, hst := true, chains := true, chk := true, units := true, dos := true, pac := true, enc := true, swl := true, twn := true, lft := true, tim := true, grn := true, slo := true, store := true, obs := true, readbacks := true } F = true) : Does F s0 (busRead off s).2 := by
  refine Does.weaken hF h ?_
  unfold busRead
  repeat' (first
    | exact Eq.refl true
    | with_reducible exact Does.refl _ _
    | with_reducible assumption
    | with_reducible apply does_recordBad
    | with_reducible apply does_readRaw
    | with_reducible apply does_readLive
    | with_reducible refine Does.ite ?_ ?_
    | split)

theorem does_readDwords {F : Parts} {s0 x2 : State} (x1 : List Nat) (h : Does F s0 x2)
    (hF : Parts.le { outs := true, free := true, pins := true, glb := true, regs := true, latch := true, halves := true, hst := true, chains := true, chk := true, units := true, dos := true, pac := true, enc := true, swl := true, twn := true, lft := true, tim := true, grn := true, slo := true, store := true, obs := true, readbacks := true } F = true) : Does F s0 (readDwords x1 x2).2 := by
  refine Does.weaken hF h ?_
  clear hF h
  induction x1 generalizing x2 with
  | nil => unfold readDwords; exact Does.refl _ _
  | cons n l ih =>
    unfold readDwords
    repeat' (first
      | exact Eq.refl true
      | with_reducible exact Does.refl _ _
      | with_reducible assumption
      | with_reducible refine Does.trans ?_ (ih)
      | ((fail_if_no_progress (extract_lets z)); refine Does.cut (z := z) ?_ (fun q => ?_); rotate_left; clear_value z)
      | ((fail_if_no_progress (extract_lets z)); refine Does.cutSnd (z := z) ?_ (fun q => ?_); rotate_left; clear_value z)
      | fail_if_no_progress (extract_lets z)
      | with_reducible apply does_busRead
      | with_reducible refine Does.snd (by assumption) ?_
      | (dsimp +zetaDelta only)
      | split)


theorem does_bar0Read {F : Parts} {s0 s : State} (off : Nat) (len : Nat) (h : Does F s0 s)
    (hF : Parts.le { outs := true, free := true, pins := true, glb := true, regs := true, latch := true, halves := true, hst := true, chains := true, chk := true, units := true, dos := true, pac := true, enc := true, swl := true, twn := true, lft := true, tim := true, grn := true, slo := true, store := true, obs := true, readbacks := true } F = true) : Does F s0 (bar0Read off len s) := by
  refine Does.weaken hF h ?_
  unfold bar0Read
  repeat' (first
    | exact Eq.refl true
    | with_reducible exact Does.refl _ _
    | with_reducible assumption
    | ((fail_if_no_progress (extract_lets z)); refine Does.cut (z := z) ?_ (fun q => ?_); rotate_left; clear_value z)
    | ((fail_if_no_progress (extract_lets z)); refine Does.cutSnd (z := z) ?_ (fun q => ?_); rotate_left; clear_value z)
    | fail_if_no_progress (extract_lets z)
    | with_reducible apply does_emit
    | with_reducible apply does_recordBad
    | with_reducible apply does_readDwords
    | with_reducible refine Does.snd (by assumption) ?_
    | with_reducible refine Does.ite ?_ ?_
    | (dsimp +zetaDelta only)
    | split)

theorem does_bar2Read {F : Parts} {s0 s : State} (off : Nat) (len : Nat) (h : Does F s0 s)
    (hF : Parts.le { outs := true } F = true) : Does F s0 (bar2Read off len s) := by
  refine Does.weaken hF h ?_
  unfold bar2Read
  repeat' (first
    | exact Eq.refl true
    | with_reducible exact Does.refl _ _
    | with_reducible assumption
    | ((fail_if_no_progress (extract_lets z)); refine Does.cut (z := z) ?_ (fun q => ?_); rotate_left; clear_value z)
    | ((fail_if_no_progress (extract_lets z)); refine Does.cutSnd (z := z) ?_ (fun q => ?_); rotate_left; clear_value z)
    | fail_if_no_progress (extract_lets z)
    | with_reducible apply does_emit
    | (dsimp +zetaDelta only))

end Sys2Proof.Machine
end

