-- ==== Sys2Proof/Laws/DoesRegRows.lean ====
section
/-! SUPPORT. What each operation of Machine/RegRows.lean touches at most, and that it keeps the bounds. -/

-- One theorem at a time: elaborating the package as one text in many threads at once takes more memory than the check allows.
set_option Elab.async false

set_option linter.unusedSimpArgs false
set_option linter.unusedTactic false
set_option linter.unreachableTactic false

namespace Sys2Proof.Machine

theorem does_execRegisterWrite {F : Parts} {s0 s : State} (bar2 : Bool) (off : BitVec 24) (len : Nat) (be : Byte) (data : W64) (req : BitVec 16) (h : Does F s0 s)
    (hF : Parts.le { outs := true, free := true, pins := true, glb := true, regs := true, latch := true, halves := true, hst := true, chains := true, chk := true, units := true, dos := true, pac := true, enc := true, swl := true, twn := true, lft := true, tim := true, grn := true, slo := true, store := true, obs := true, readbacks := true } F = true) : DoesO F s0 (execRegisterWrite bar2 off len be data req s) := by
  refine DoesO.weaken hF h ?_
  unfold execRegisterWrite
  repeat' (first
    | exact Eq.refl true
    | with_reducible exact Does.refl _ _
    | with_reducible assumption
    | with_reducible apply does_ok
    | with_reducible apply does_bar2Write
    | with_reducible apply does_bar0Write
    | with_reducible refine Does.ite ?_ ?_
    | with_reducible refine DoesO.ite ?_ ?_
    | split)

theorem does_execRwpRegisterWrite {F : Parts} {s0 s : State} (off : BitVec 24) (v : W32) (req : BitVec 16) (h : Does F s0 s)
    (hF : Parts.le { outs := true, free := true, pins := true, glb := true, regs := true, latch := true, halves := true, hst := true, chains := true, chk := true, units := true, dos := true, pac := true, enc := true, swl := true, twn := true, lft := true, tim := true, grn := true, slo := true, store := true, obs := true, readbacks := true } F = true) : DoesO F s0 (execRwpRegisterWrite off v req s) := by
  refine DoesO.weaken hF h ?_
  unfold execRwpRegisterWrite
  repeat' (first
    | exact Eq.refl true
    | with_reducible exact Does.refl _ _
    | with_reducible assumption
    | with_reducible apply does_ok
    | with_reducible apply does_busWrite)

theorem does_execLoRegisterRead {F : Parts} {s0 s : State} (bar2 : Bool) (off : BitVec 24) (len : Nat) (h : Does F s0 s)
    (hF : Parts.le { outs := true, free := true, pins := true, glb := true, regs := true, latch := true, halves := true, hst := true, chains := true, chk := true, units := true, dos := true, pac := true, enc := true, swl := true, twn := true, lft := true, tim := true, grn := true, slo := true, store := true, obs := true, readbacks := true } F = true) : DoesO F s0 (execLoRegisterRead bar2 off len s) := by
  refine DoesO.weaken hF h ?_
  unfold execLoRegisterRead
  repeat' (first
    | exact Eq.refl true
    | with_reducible exact Does.refl _ _
    | with_reducible assumption
    | with_reducible apply does_ok
    | with_reducible apply does_bar2Read
    | with_reducible apply does_bar0Read
    | with_reducible refine Does.ite ?_ ?_
    | with_reducible refine DoesO.ite ?_ ?_
    | split)

theorem does_execMsixVectorUnmask {F : Parts} {s0 s : State} (vec : Fin 64) (v : W32) (h : Does F s0 s)
    (hF : Parts.le { outs := true, hst := true } F = true) : DoesO F s0 (execMsixVectorUnmask vec v s) := by
  refine DoesO.weaken hF h ?_
  unfold execMsixVectorUnmask
  repeat' (first
    | exact Eq.refl true
    | with_reducible exact Does.refl _ _
    | with_reducible assumption
    | with_reducible apply does_ok
    | with_reducible apply does_bar2Dword)

theorem does_execPersistQueueDrain {F : Parts} {s0 s : State}  (h : Does F s0 s)
    (hF : Parts.le { outs := true, free := true, pins := true, glb := true, regs := true, latch := true, halves := true, hst := true, chains := true, chk := true, units := true, dos := true, pac := true, enc := true, swl := true, twn := true, lft := true, tim := true, grn := true, slo := true, store := true, obs := true, readbacks := true } F = true) : DoesO F s0 (execPersistQueueDrain s) := by
  refine DoesO.weaken hF h ?_
  unfold execPersistQueueDrain
  repeat' (first
    | exact Eq.refl true
    | with_reducible exact Does.refl _ _
    | with_reducible assumption
    | with_reducible apply does_ok
    | with_reducible apply does_releaseHeld
    | with_reducible apply does_drainOne
    | with_reducible refine Does.ite ?_ ?_
    | with_reducible refine DoesO.ite ?_ ?_
    | split)

theorem does_pfwRecover {F : Parts} {s0 s : State}  (h : Does F s0 s)
    (hF : Parts.le { outs := true, free := true, pins := true, glb := true, regs := true, latch := true, halves := true, hst := true, chains := true, chk := true, units := true, dos := true, pac := true, enc := true, swl := true, twn := true, lft := true, tim := true, grn := true, slo := true, store := true, obs := true, readbacks := true } F = true) : Does F s0 (pfwRecover s) := by
  refine Does.weaken hF h ?_
  unfold pfwRecover
  repeat' (first
    | exact Eq.refl true
    | with_reducible exact Does.refl _ _
    | with_reducible assumption
    | ((fail_if_no_progress (extract_lets z)); refine Does.cut (z := z) ?_ (fun q => ?_); rotate_left; clear_value z)
    | fail_if_no_progress (extract_lets z)
    | with_reducible apply does_settleJobs
    | with_reducible apply does_releaseHeld
    | fail_if_no_progress (with_reducible refine Does.leaf ?_ ?_ ?_; pick_goal 2; (focus (simp +zetaDelta only [State.blank, cond_true, cond_false]; first | done | fail)); pick_goal 2; (focus (simp +zetaDelta only [watched]; first | done | fail)))
    | (dsimp +zetaDelta only))

theorem does_execPfwSequenceDone {F : Parts} {s0 s : State}  (h : Does F s0 s)
    (hF : Parts.le { outs := true, free := true, pins := true, glb := true, regs := true, latch := true, halves := true, hst := true, chains := true, chk := true, units := true, dos := true, pac := true, enc := true, swl := true, twn := true, lft := true, tim := true, grn := true, slo := true, store := true, obs := true, readbacks := true } F = true) : DoesO F s0 (execPfwSequenceDone s) := by
  refine DoesO.weaken hF h ?_
  unfold execPfwSequenceDone
  repeat' (first
    | exact Eq.refl true
    | with_reducible exact Does.refl _ _
    | with_reducible assumption
    | ((fail_if_no_progress (extract_lets z)); refine Does.cut (z := z) ?_ (fun q => ?_); rotate_left; clear_value z)
    | ((fail_if_no_progress (extract_lets z)); refine Does.cutSnd (z := z) ?_ (fun q => ?_); rotate_left; clear_value z)
    | ((fail_if_no_progress (extract_lets z)); refine DoesO.cut (z := z) ?_ (fun q => ?_); rotate_left; clear_value z)
    | ((fail_if_no_progress (extract_lets z)); refine DoesO.cutSnd (z := z) ?_ (fun q => ?_); rotate_left; clear_value z)
    | fail_if_no_progress (extract_lets z)
    | with_reducible apply does_ok
    | with_reducible apply does_pfwSave
    | with_reducible apply does_pfwRecover
    | with_reducible refine Does.ite ?_ ?_
    | with_reducible refine DoesO.ite ?_ ?_
    | (dsimp +zetaDelta only)
    | split)

theorem does_execPfwNRise {F : Parts} {s0 s : State}  (h : Does F s0 s)
    (hF : Parts.le { outs := true, free := true, pins := true, glb := true, regs := true, latch := true, halves := true, hst := true, chains := true, chk := true, units := true, dos := true, pac := true, enc := true, swl := true, twn := true, lft := true, tim := true, grn := true, slo := true, store := true, obs := true, readbacks := true } F = true) : DoesO F s0 (execPfwNRise s) := by
  refine DoesO.weaken hF h ?_
  unfold execPfwNRise
  repeat' (first
    | exact Eq.refl true
    | with_reducible exact Does.refl _ _
    | with_reducible assumption
    | ((fail_if_no_progress (extract_lets z)); refine Does.cut (z := z) ?_ (fun q => ?_); rotate_left; clear_value z)
    | ((fail_if_no_progress (extract_lets z)); refine Does.cutSnd (z := z) ?_ (fun q => ?_); rotate_left; clear_value z)
    | ((fail_if_no_progress (extract_lets z)); refine DoesO.cut (z := z) ?_ (fun q => ?_); rotate_left; clear_value z)
    | ((fail_if_no_progress (extract_lets z)); refine DoesO.cutSnd (z := z) ?_ (fun q => ?_); rotate_left; clear_value z)
    | fail_if_no_progress (extract_lets z)
    | with_reducible apply does_ok
    | with_reducible apply does_pfwRecover
    | with_reducible refine Does.ite ?_ ?_
    | with_reducible refine DoesO.ite ?_ ?_
    | fail_if_no_progress (with_reducible refine Does.leaf ?_ ?_ ?_; pick_goal 2; (focus (simp +zetaDelta only [State.blank, cond_true, cond_false]; first | done | fail)); pick_goal 2; (focus (simp +zetaDelta only [watched]; first | done | fail)))
    | (dsimp +zetaDelta only)
    | split)

theorem does_execPfwNStableHigh {F : Parts} {s0 s : State}  (h : Does F s0 s)
    (hF : Parts.le { outs := true, free := true, pins := true, glb := true, regs := true, latch := true, halves := true, hst := true, chains := true, chk := true, units := true, dos := true, pac := true, enc := true, swl := true, twn := true, lft := true, tim := true, grn := true, slo := true, store := true, obs := true, readbacks := true } F = true) : DoesO F s0 (execPfwNStableHigh s) := by
  refine DoesO.weaken hF h ?_
  unfold execPfwNStableHigh
  repeat' (first
    | exact Eq.refl true
    | with_reducible exact Does.refl _ _
    | with_reducible assumption
    | ((fail_if_no_progress (extract_lets z)); refine Does.cut (z := z) ?_ (fun q => ?_); rotate_left; clear_value z)
    | ((fail_if_no_progress (extract_lets z)); refine DoesO.cut (z := z) ?_ (fun q => ?_); rotate_left; clear_value z)
    | fail_if_no_progress (extract_lets z)
    | with_reducible apply does_ok
    | with_reducible apply does_settleJobs
    | with_reducible apply does_releaseHeld
    | with_reducible refine Does.ite ?_ ?_
    | with_reducible refine DoesO.ite ?_ ?_
    | fail_if_no_progress (with_reducible refine Does.leaf ?_ ?_ ?_; pick_goal 2; (focus (simp +zetaDelta only [State.blank, cond_true, cond_false]; first | done | fail)); pick_goal 2; (focus (simp +zetaDelta only [watched]; first | done | fail)))
    | (dsimp +zetaDelta only)
    | split)

theorem does_execGlbReset {F : Parts} {s0 s : State} (v : W32) (req : BitVec 16) (h : Does F s0 s)
    (hF : Parts.le { outs := true, free := true, pins := true, glb := true, regs := true, latch := true, halves := true, hst := true, chains := true, chk := true, units := true, dos := true, pac := true, enc := true, swl := true, twn := true, lft := true, tim := true, grn := true, slo := true, store := true, obs := true, readbacks := true } F = true) : DoesO F s0 (execGlbReset v req s) := by
  refine DoesO.weaken hF h ?_
  unfold execGlbReset
  repeat' (first
    | exact Eq.refl true
    | with_reducible exact Does.refl _ _
    | with_reducible assumption
    | with_reducible apply does_ok
    | with_reducible apply does_busWrite)

theorem does_execGlbSnap {F : Parts} {s0 s : State}  (h : Does F s0 s)
    (hF : Parts.le { outs := true, free := true, pins := true, glb := true, regs := true, latch := true, halves := true, hst := true, chains := true, chk := true, units := true, dos := true, pac := true, enc := true, swl := true, twn := true, lft := true, tim := true, grn := true, slo := true, store := true, obs := true, readbacks := true } F = true) : DoesO F s0 (execGlbSnap s) := by
  refine DoesO.weaken hF h ?_
  unfold execGlbSnap
  repeat' (first
    | exact Eq.refl true
    | with_reducible exact Does.refl _ _
    | with_reducible assumption
    | with_reducible apply does_ok
    | with_reducible apply does_busWrite)

theorem does_execThrRetire {F : Parts} {s0 s : State} (v : W32) (h : Does F s0 s)
    (hF : Parts.le { outs := true, free := true, pins := true, glb := true, regs := true, latch := true, halves := true, hst := true, chains := true, chk := true, units := true, dos := true, pac := true, enc := true, swl := true, twn := true, lft := true, tim := true, grn := true, slo := true, store := true, obs := true, readbacks := true } F = true) : DoesO F s0 (execThrRetire v s) := by
  refine DoesO.weaken hF h ?_
  unfold execThrRetire
  repeat' (first
    | exact Eq.refl true
    | with_reducible exact Does.refl _ _
    | with_reducible assumption
    | with_reducible apply does_ok
    | with_reducible apply does_busWrite)

theorem does_execPacVlimWrite {F : Parts} {s0 s : State} (hiLimit : Bool) (v : W32) (req : BitVec 16) (h : Does F s0 s)
    (hF : Parts.le { outs := true, free := true, pins := true, glb := true, regs := true, latch := true, halves := true, hst := true, chains := true, chk := true, units := true, dos := true, pac := true, enc := true, swl := true, twn := true, lft := true, tim := true, grn := true, slo := true, store := true, obs := true, readbacks := true } F = true) : DoesO F s0 (execPacVlimWrite hiLimit v req s) := by
  refine DoesO.weaken hF h ?_
  unfold execPacVlimWrite
  repeat' (first
    | exact Eq.refl true
    | with_reducible exact Does.refl _ _
    | with_reducible assumption
    | with_reducible apply does_ok
    | with_reducible apply does_busWrite
    | with_reducible refine Does.ite ?_ ?_
    | with_reducible refine DoesO.ite ?_ ?_
    | split)

theorem does_execPaceLinkEnable {F : Parts} {s0 s : State} (v : W32) (h : Does F s0 s)
    (hF : Parts.le { outs := true, free := true, pins := true, glb := true, regs := true, latch := true, halves := true, hst := true, chains := true, chk := true, units := true, dos := true, pac := true, enc := true, swl := true, twn := true, lft := true, tim := true, grn := true, slo := true, store := true, obs := true, readbacks := true } F = true) : DoesO F s0 (execPaceLinkEnable v s) := by
  refine DoesO.weaken hF h ?_
  unfold execPaceLinkEnable
  repeat' (first
    | exact Eq.refl true
    | with_reducible exact Does.refl _ _
    | with_reducible assumption
    | with_reducible apply does_ok
    | with_reducible apply does_busWrite)

theorem does_execEncCppIntWrite {F : Parts} {s0 s : State} (v : W32) (req : BitVec 16) (h : Does F s0 s)
    (hF : Parts.le { outs := true, free := true, pins := true, glb := true, regs := true, latch := true, halves := true, hst := true, chains := true, chk := true, units := true, dos := true, pac := true, enc := true, swl := true, twn := true, lft := true, tim := true, grn := true, slo := true, store := true, obs := true, readbacks := true } F = true) : DoesO F s0 (execEncCppIntWrite v req s) := by
  refine DoesO.weaken hF h ?_
  unfold execEncCppIntWrite
  repeat' (first
    | exact Eq.refl true
    | with_reducible exact Does.refl _ _
    | with_reducible assumption
    | with_reducible apply does_ok
    | with_reducible apply does_busWrite)

theorem does_execEncPresetLoad {F : Parts} {s0 s : State} (n : Fin 4) (v : W32) (h : Does F s0 s)
    (hF : Parts.le { outs := true, free := true, pins := true, glb := true, regs := true, latch := true, halves := true, hst := true, chains := true, chk := true, units := true, dos := true, pac := true, enc := true, swl := true, twn := true, lft := true, tim := true, grn := true, slo := true, store := true, obs := true, readbacks := true } F = true) : DoesO F s0 (execEncPresetLoad n v s) := by
  refine DoesO.weaken hF h ?_
  unfold execEncPresetLoad
  repeat' (first
    | exact Eq.refl true
    | with_reducible exact Does.refl _ _
    | with_reducible assumption
    | with_reducible apply does_ok
    | with_reducible apply does_busWrite)

theorem does_execEncChannelEnable {F : Parts} {s0 s : State} (n : Fin 4) (v : W32) (h : Does F s0 s)
    (hF : Parts.le { outs := true, free := true, pins := true, glb := true, regs := true, latch := true, halves := true, hst := true, chains := true, chk := true, units := true, dos := true, pac := true, enc := true, swl := true, twn := true, lft := true, tim := true, grn := true, slo := true, store := true, obs := true, readbacks := true } F = true) : DoesO F s0 (execEncChannelEnable n v s) := by
  refine DoesO.weaken hF h ?_
  unfold execEncChannelEnable
  repeat' (first
    | exact Eq.refl true
    | with_reducible exact Does.refl _ _
    | with_reducible assumption
    | with_reducible apply does_ok
    | with_reducible apply does_busWrite)

theorem does_execCmpArm {F : Parts} {s0 s : State} (k : Fin 4) (v : W32) (h : Does F s0 s)
    (hF : Parts.le { outs := true, free := true, pins := true, glb := true, regs := true, latch := true, halves := true, hst := true, chains := true, chk := true, units := true, dos := true, pac := true, enc := true, swl := true, twn := true, lft := true, tim := true, grn := true, slo := true, store := true, obs := true, readbacks := true } F = true) : DoesO F s0 (execCmpArm k v s) := by
  refine DoesO.weaken hF h ?_
  unfold execCmpArm
  repeat' (first
    | exact Eq.refl true
    | with_reducible exact Does.refl _ _
    | with_reducible assumption
    | with_reducible apply does_ok
    | with_reducible apply does_busWrite)

theorem does_execCmpDisarm {F : Parts} {s0 s : State} (k : Fin 4) (v : W32) (h : Does F s0 s)
    (hF : Parts.le { outs := true, free := true, pins := true, glb := true, regs := true, latch := true, halves := true, hst := true, chains := true, chk := true, units := true, dos := true, pac := true, enc := true, swl := true, twn := true, lft := true, tim := true, grn := true, slo := true, store := true, obs := true, readbacks := true } F = true) : DoesO F s0 (execCmpDisarm k v s) := by
  refine DoesO.weaken hF h ?_
  unfold execCmpDisarm
  repeat' (first
    | exact Eq.refl true
    | with_reducible exact Does.refl _ _
    | with_reducible assumption
    | with_reducible apply does_ok
    | with_reducible apply does_busWrite)

theorem does_execCmpTgtHiWrite {F : Parts} {s0 s : State} (k : Fin 4) (v : W32) (h : Does F s0 s)
    (hF : Parts.le { outs := true, free := true, pins := true, glb := true, regs := true, latch := true, halves := true, hst := true, chains := true, chk := true, units := true, dos := true, pac := true, enc := true, swl := true, twn := true, lft := true, tim := true, grn := true, slo := true, store := true, obs := true, readbacks := true } F = true) : DoesO F s0 (execCmpTgtHiWrite k v s) := by
  refine DoesO.weaken hF h ?_
  unfold execCmpTgtHiWrite
  repeat' (first
    | exact Eq.refl true
    | with_reducible exact Does.refl _ _
    | with_reducible assumption
    | with_reducible apply does_ok
    | with_reducible apply does_busWrite)

theorem does_execSwlLaneEnable {F : Parts} {s0 s : State} (l : Fin 128) (v : W32) (h : Does F s0 s)
    (hF : Parts.le { outs := true, free := true, pins := true, glb := true, regs := true, latch := true, halves := true, hst := true, chains := true, chk := true, units := true, dos := true, pac := true, enc := true, swl := true, twn := true, lft := true, tim := true, grn := true, slo := true, store := true, obs := true, readbacks := true } F = true) : DoesO F s0 (execSwlLaneEnable l v s) := by
  refine DoesO.weaken hF h ?_
  unfold execSwlLaneEnable
  repeat' (first
    | exact Eq.refl true
    | with_reducible exact Does.refl _ _
    | with_reducible assumption
    | with_reducible apply does_ok
    | with_reducible apply does_busWrite)

theorem does_execSwlLaneDisable {F : Parts} {s0 s : State} (l : Fin 128) (v : W32) (h : Does F s0 s)
    (hF : Parts.le { outs := true, free := true, pins := true, glb := true, regs := true, latch := true, halves := true, hst := true, chains := true, chk := true, units := true, dos := true, pac := true, enc := true, swl := true, twn := true, lft := true, tim := true, grn := true, slo := true, store := true, obs := true, readbacks := true } F = true) : DoesO F s0 (execSwlLaneDisable l v s) := by
  refine DoesO.weaken hF h ?_
  unfold execSwlLaneDisable
  repeat' (first
    | exact Eq.refl true
    | with_reducible exact Does.refl _ _
    | with_reducible assumption
    | with_reducible apply does_ok
    | with_reducible apply does_busWrite)

theorem does_execRetrain {F : Parts} {s0 s : State} (l : Fin 128) (v : W32) (h : Does F s0 s)
    (hF : Parts.le { outs := true, free := true, pins := true, glb := true, regs := true, latch := true, halves := true, hst := true, chains := true, chk := true, units := true, dos := true, pac := true, enc := true, swl := true, twn := true, lft := true, tim := true, grn := true, slo := true, store := true, obs := true, readbacks := true } F = true) : DoesO F s0 (execRetrain l v s) := by
  refine DoesO.weaken hF h ?_
  unfold execRetrain
  repeat' (first
    | exact Eq.refl true
    | with_reducible exact Does.refl _ _
    | with_reducible assumption
    | with_reducible apply does_ok
    | with_reducible apply does_busWrite)

theorem does_execLoopWrite {F : Parts} {s0 s : State} (l : Fin 128) (v : W32) (h : Does F s0 s)
    (hF : Parts.le { outs := true, free := true, pins := true, glb := true, regs := true, latch := true, halves := true, hst := true, chains := true, chk := true, units := true, dos := true, pac := true, enc := true, swl := true, twn := true, lft := true, tim := true, grn := true, slo := true, store := true, obs := true, readbacks := true } F = true) : DoesO F s0 (execLoopWrite l v s) := by
  refine DoesO.weaken hF h ?_
  unfold execLoopWrite
  repeat' (first
    | exact Eq.refl true
    | with_reducible exact Does.refl _ _
    | with_reducible assumption
    | with_reducible apply does_ok
    | with_reducible apply does_busWrite)

theorem does_execTwnLinkEnable {F : Parts} {s0 s : State} (v : W32) (h : Does F s0 s)
    (hF : Parts.le { outs := true, free := true, pins := true, glb := true, regs := true, latch := true, halves := true, hst := true, chains := true, chk := true, units := true, dos := true, pac := true, enc := true, swl := true, twn := true, lft := true, tim := true, grn := true, slo := true, store := true, obs := true, readbacks := true } F = true) : DoesO F s0 (execTwnLinkEnable v s) := by
  refine DoesO.weaken hF h ?_
  unfold execTwnLinkEnable
  repeat' (first
    | exact Eq.refl true
    | with_reducible exact Does.refl _ _
    | with_reducible assumption
    | with_reducible apply does_ok
    | with_reducible apply does_busWrite)

theorem does_execLftInval {F : Parts} {s0 s : State} (v : W32) (h : Does F s0 s)
    (hF : Parts.le { outs := true, free := true, pins := true, glb := true, regs := true, latch := true, halves := true, hst := true, chains := true, chk := true, units := true, dos := true, pac := true, enc := true, swl := true, twn := true, lft := true, tim := true, grn := true, slo := true, store := true, obs := true, readbacks := true } F = true) : DoesO F s0 (execLftInval v s) := by
  refine DoesO.weaken hF h ?_
  unfold execLftInval
  repeat' (first
    | exact Eq.refl true
    | with_reducible exact Does.refl _ _
    | with_reducible assumption
    | with_reducible apply does_ok
    | with_reducible apply does_busWrite)

theorem does_execLftRetire {F : Parts} {s0 s : State} (c : Fin 12) (h : Does F s0 s)
    (hF : Parts.le { outs := true, free := true, pins := true, glb := true, regs := true, latch := true, halves := true, hst := true, chains := true, chk := true, units := true, dos := true, pac := true, enc := true, swl := true, twn := true, lft := true, tim := true, grn := true, slo := true, store := true, obs := true, readbacks := true } F = true) : DoesO F s0 (execLftRetire c s) := by
  refine DoesO.weaken hF h ?_
  unfold execLftRetire
  repeat' (first
    | exact Eq.refl true
    | with_reducible exact Does.refl _ _
    | with_reducible assumption
    | with_reducible apply does_ok
    | with_reducible apply does_busWrite)

theorem does_execLftRptClear {F : Parts} {s0 s : State}  (h : Does F s0 s)
    (hF : Parts.le { outs := true, free := true, pins := true, glb := true, regs := true, latch := true, halves := true, hst := true, chains := true, chk := true, units := true, dos := true, pac := true, enc := true, swl := true, twn := true, lft := true, tim := true, grn := true, slo := true, store := true, obs := true, readbacks := true } F = true) : DoesO F s0 (execLftRptClear s) := by
  refine DoesO.weaken hF h ?_
  unfold execLftRptClear
  repeat' (first
    | exact Eq.refl true
    | with_reducible exact Does.refl _ _
    | with_reducible assumption
    | with_reducible apply does_ok
    | with_reducible apply does_busWrite)

theorem does_execLftPredWrite {F : Parts} {s0 s : State} (v : W32) (req : BitVec 16) (h : Does F s0 s)
    (hF : Parts.le { outs := true, free := true, pins := true, glb := true, regs := true, latch := true, halves := true, hst := true, chains := true, chk := true, units := true, dos := true, pac := true, enc := true, swl := true, twn := true, lft := true, tim := true, grn := true, slo := true, store := true, obs := true, readbacks := true } F = true) : DoesO F s0 (execLftPredWrite v req s) := by
  refine DoesO.weaken hF h ?_
  unfold execLftPredWrite
  repeat' (first
    | exact Eq.refl true
    | with_reducible exact Does.refl _ _
    | with_reducible assumption
    | with_reducible apply does_ok
    | with_reducible apply does_busWrite)

theorem does_execWeevilArm {F : Parts} {s0 s : State} (v : W32) (h : Does F s0 s)
    (hF : Parts.le { outs := true, free := true, pins := true, glb := true, regs := true, latch := true, halves := true, hst := true, chains := true, chk := true, units := true, dos := true, pac := true, enc := true, swl := true, twn := true, lft := true, tim := true, grn := true, slo := true, store := true, obs := true, readbacks := true } F = true) : DoesO F s0 (execWeevilArm v s) := by
  refine DoesO.weaken hF h ?_
  unfold execWeevilArm
  repeat' (first
    | exact Eq.refl true
    | with_reducible exact Does.refl _ _
    | with_reducible assumption
    | with_reducible apply does_ok
    | with_reducible apply does_busWrite)

theorem does_execWeevilDisarm {F : Parts} {s0 s : State} (v : W32) (h : Does F s0 s)
    (hF : Parts.le { outs := true, free := true, pins := true, glb := true, regs := true, latch := true, halves := true, hst := true, chains := true, chk := true, units := true, dos := true, pac := true, enc := true, swl := true, twn := true, lft := true, tim := true, grn := true, slo := true, store := true, obs := true, readbacks := true } F = true) : DoesO F s0 (execWeevilDisarm v s) := by
  refine DoesO.weaken hF h ?_
  unfold execWeevilDisarm
  repeat' (first
    | exact Eq.refl true
    | with_reducible exact Does.refl _ _
    | with_reducible assumption
    | with_reducible apply does_ok
    | with_reducible apply does_busWrite)

theorem does_execTimIncrHiWrite {F : Parts} {s0 s : State} (d : Fin 2) (v : W32) (h : Does F s0 s)
    (hF : Parts.le { outs := true, free := true, pins := true, glb := true, regs := true, latch := true, halves := true, hst := true, chains := true, chk := true, units := true, dos := true, pac := true, enc := true, swl := true, twn := true, lft := true, tim := true, grn := true, slo := true, store := true, obs := true, readbacks := true } F = true) : DoesO F s0 (execTimIncrHiWrite d v s) := by
  refine DoesO.weaken hF h ?_
  unfold execTimIncrHiWrite
  repeat' (first
    | exact Eq.refl true
    | with_reducible exact Does.refl _ _
    | with_reducible assumption
    | with_reducible apply does_ok
    | with_reducible apply does_busWrite)

theorem does_execTimLoad {F : Parts} {s0 s : State} (d : Fin 2) (v : W32) (h : Does F s0 s)
    (hF : Parts.le { outs := true, free := true, pins := true, glb := true, regs := true, latch := true, halves := true, hst := true, chains := true, chk := true, units := true, dos := true, pac := true, enc := true, swl := true, twn := true, lft := true, tim := true, grn := true, slo := true, store := true, obs := true, readbacks := true } F = true) : DoesO F s0 (execTimLoad d v s) := by
  refine DoesO.weaken hF h ?_
  unfold execTimLoad
  repeat' (first
    | exact Eq.refl true
    | with_reducible exact Does.refl _ _
    | with_reducible assumption
    | with_reducible apply does_ok
    | with_reducible apply does_busWrite)

theorem does_execTimAdjust {F : Parts} {s0 s : State} (d : Fin 2) (v : W32) (h : Does F s0 s)
    (hF : Parts.le { outs := true, free := true, pins := true, glb := true, regs := true, latch := true, halves := true, hst := true, chains := true, chk := true, units := true, dos := true, pac := true, enc := true, swl := true, twn := true, lft := true, tim := true, grn := true, slo := true, store := true, obs := true, readbacks := true } F = true) : DoesO F s0 (execTimAdjust d v s) := by
  refine DoesO.weaken hF h ?_
  unfold execTimAdjust
  repeat' (first
    | exact Eq.refl true
    | with_reducible exact Does.refl _ _
    | with_reducible assumption
    | with_reducible apply does_ok
    | with_reducible apply does_busWrite)

theorem does_execTimSwitch {F : Parts} {s0 s : State}  (h : Does F s0 s)
    (hF : Parts.le { outs := true, free := true, pins := true, glb := true, regs := true, latch := true, halves := true, hst := true, chains := true, chk := true, units := true, dos := true, pac := true, enc := true, swl := true, twn := true, lft := true, tim := true, grn := true, slo := true, store := true, obs := true, readbacks := true } F = true) : DoesO F s0 (execTimSwitch s) := by
  refine DoesO.weaken hF h ?_
  unfold execTimSwitch
  repeat' (first
    | exact Eq.refl true
    | with_reducible exact Does.refl _ _
    | with_reducible assumption
    | with_reducible apply does_ok
    | with_reducible apply does_busWrite)

theorem does_execTimRxPop {F : Parts} {s0 s : State} (p : Fin 2) (h : Does F s0 s)
    (hF : Parts.le { outs := true, free := true, pins := true, glb := true, regs := true, latch := true, halves := true, hst := true, chains := true, chk := true, units := true, dos := true, pac := true, enc := true, swl := true, twn := true, lft := true, tim := true, grn := true, slo := true, store := true, obs := true, readbacks := true } F = true) : DoesO F s0 (execTimRxPop p s) := by
  refine DoesO.weaken hF h ?_
  unfold execTimRxPop
  repeat' (first
    | exact Eq.refl true
    | with_reducible exact Does.refl _ _
    | with_reducible assumption
    | with_reducible apply does_ok
    | with_reducible apply does_busWrite)

theorem does_execGangDisable {F : Parts} {s0 s : State} (v : W32) (h : Does F s0 s)
    (hF : Parts.le { outs := true, free := true, pins := true, glb := true, regs := true, latch := true, halves := true, hst := true, chains := true, chk := true, units := true, dos := true, pac := true, enc := true, swl := true, twn := true, lft := true, tim := true, grn := true, slo := true, store := true, obs := true, readbacks := true } F = true) : DoesO F s0 (execGangDisable v s) := by
  refine DoesO.weaken hF h ?_
  unfold execGangDisable
  repeat' (first
    | exact Eq.refl true
    | with_reducible exact Does.refl _ _
    | with_reducible assumption
    | with_reducible apply does_ok
    | with_reducible apply does_busWrite)

theorem does_execPtpTxGo {F : Parts} {s0 s : State} (p : Fin 2) (slot : Fin 16) (h : Does F s0 s)
    (hF : Parts.le { outs := true, free := true, pins := true, glb := true, regs := true, latch := true, halves := true, hst := true, chains := true, chk := true, units := true, dos := true, pac := true, enc := true, swl := true, twn := true, lft := true, tim := true, grn := true, slo := true, store := true, obs := true, readbacks := true } F = true) : DoesO F s0 (execPtpTxGo p slot s) := by
  refine DoesO.weaken hF h ?_
  unfold execPtpTxGo
  repeat' (first
    | exact Eq.refl true
    | with_reducible exact Does.refl _ _
    | with_reducible assumption
    | ((fail_if_no_progress (extract_lets z)); refine Does.cut (z := z) ?_ (fun q => ?_); rotate_left; clear_value z)
    | ((fail_if_no_progress (extract_lets z)); refine Does.cutSnd (z := z) ?_ (fun q => ?_); rotate_left; clear_value z)
    | ((fail_if_no_progress (extract_lets z)); refine DoesO.cut (z := z) ?_ (fun q => ?_); rotate_left; clear_value z)
    | ((fail_if_no_progress (extract_lets z)); refine DoesO.cutSnd (z := z) ?_ (fun q => ?_); rotate_left; clear_value z)
    | fail_if_no_progress (extract_lets z)
    | with_reducible apply does_ok
    | with_reducible apply does_busWrite
    | (dsimp +zetaDelta only))

theorem does_execWipe {F : Parts} {s0 s : State} (v : W32) (req : BitVec 16) (h : Does F s0 s)
    (hF : Parts.le { outs := true, free := true, pins := true, glb := true, regs := true, latch := true, halves := true, hst := true, chains := true, chk := true, units := true, dos := true, pac := true, enc := true, swl := true, twn := true, lft := true, tim := true, grn := true, slo := true, store := true, obs := true, readbacks := true } F = true) : DoesO F s0 (execWipe v req s) := by
  refine DoesO.weaken hF h ?_
  unfold execWipe
  repeat' (first
    | exact Eq.refl true
    | with_reducible exact Does.refl _ _
    | with_reducible assumption
    | with_reducible apply does_ok
    | with_reducible apply does_busWrite)

theorem does_execCheckpoint {F : Parts} {s0 s : State}  (h : Does F s0 s)
    (hF : Parts.le { outs := true, free := true, pins := true, glb := true, regs := true, latch := true, halves := true, hst := true, chains := true, chk := true, units := true, dos := true, pac := true, enc := true, swl := true, twn := true, lft := true, tim := true, grn := true, slo := true, store := true, obs := true, readbacks := true } F = true) : DoesO F s0 (execCheckpoint s) := by
  refine DoesO.weaken hF h ?_
  unfold execCheckpoint
  repeat' (first
    | exact Eq.refl true
    | with_reducible exact Does.refl _ _
    | with_reducible assumption
    | with_reducible apply does_ok
    | with_reducible apply does_busWrite)

theorem does_execGrnRawRead {F : Parts} {s0 s : State} (unreadable : Bool) (h : Does F s0 s)
    (hF : Parts.le { outs := true, free := true, latch := true, grn := true } F = true) : DoesO F s0 (execGrnRawRead unreadable s) := by
  refine DoesO.weaken hF h ?_
  unfold execGrnRawRead
  repeat' (first
    | exact Eq.refl true
    | with_reducible exact Does.refl _ _
    | with_reducible assumption
    | ((fail_if_no_progress (extract_lets z)); refine Does.cut (z := z) ?_ (fun q => ?_); rotate_left; clear_value z)
    | ((fail_if_no_progress (extract_lets z)); refine Does.cutSnd (z := z) ?_ (fun q => ?_); rotate_left; clear_value z)
    | ((fail_if_no_progress (extract_lets z)); refine DoesO.cut (z := z) ?_ (fun q => ?_); rotate_left; clear_value z)
    | ((fail_if_no_progress (extract_lets z)); refine DoesO.cutSnd (z := z) ?_ (fun q => ?_); rotate_left; clear_value z)
    | fail_if_no_progress (extract_lets z)
    | with_reducible apply does_ok
    | with_reducible apply does_emit
    | with_reducible apply does_readRaw
    | with_reducible refine Does.snd (by assumption) ?_
    | with_reducible refine Does.ite ?_ ?_
    | with_reducible refine DoesO.ite ?_ ?_
    | (dsimp +zetaDelta only)
    | split)

theorem does_execSloFreeze {F : Parts} {s0 s : State} (v : W32) (h : Does F s0 s)
    (hF : Parts.le { outs := true, free := true, pins := true, glb := true, regs := true, latch := true, halves := true, hst := true, chains := true, chk := true, units := true, dos := true, pac := true, enc := true, swl := true, twn := true, lft := true, tim := true, grn := true, slo := true, store := true, obs := true, readbacks := true } F = true) : DoesO F s0 (execSloFreeze v s) := by
  refine DoesO.weaken hF h ?_
  unfold execSloFreeze
  repeat' (first
    | exact Eq.refl true
    | with_reducible exact Does.refl _ _
    | with_reducible assumption
    | with_reducible apply does_ok
    | with_reducible apply does_busWrite)

theorem does_execSloUnfreeze {F : Parts} {s0 s : State} (v : W32) (h : Does F s0 s)
    (hF : Parts.le { outs := true, free := true, pins := true, glb := true, regs := true, latch := true, halves := true, hst := true, chains := true, chk := true, units := true, dos := true, pac := true, enc := true, swl := true, twn := true, lft := true, tim := true, grn := true, slo := true, store := true, obs := true, readbacks := true } F = true) : DoesO F s0 (execSloUnfreeze v s) := by
  refine DoesO.weaken hF h ?_
  unfold execSloUnfreeze
  repeat' (first
    | exact Eq.refl true
    | with_reducible exact Does.refl _ _
    | with_reducible assumption
    | with_reducible apply does_ok
    | with_reducible apply does_busWrite)

theorem does_execObsCntCfgWrite {F : Parts} {s0 s : State} (i : Fin 512) (v : W32) (h : Does F s0 s)
    (hF : Parts.le { outs := true, free := true, pins := true, glb := true, regs := true, latch := true, halves := true, hst := true, chains := true, chk := true, units := true, dos := true, pac := true, enc := true, swl := true, twn := true, lft := true, tim := true, grn := true, slo := true, store := true, obs := true, readbacks := true } F = true) : DoesO F s0 (execObsCntCfgWrite i v s) := by
  refine DoesO.weaken hF h ?_
  unfold execObsCntCfgWrite
  repeat' (first
    | exact Eq.refl true
    | with_reducible exact Does.refl _ _
    | with_reducible assumption
    | with_reducible apply does_ok
    | with_reducible apply does_busWrite)

theorem does_execObsCntClear {F : Parts} {s0 s : State} (i : Fin 512) (v : W32) (h : Does F s0 s)
    (hF : Parts.le { outs := true, free := true, pins := true, glb := true, regs := true, latch := true, halves := true, hst := true, chains := true, chk := true, units := true, dos := true, pac := true, enc := true, swl := true, twn := true, lft := true, tim := true, grn := true, slo := true, store := true, obs := true, readbacks := true } F = true) : DoesO F s0 (execObsCntClear i v s) := by
  refine DoesO.weaken hF h ?_
  unfold execObsCntClear
  repeat' (first
    | exact Eq.refl true
    | with_reducible exact Does.refl _ _
    | with_reducible assumption
    | with_reducible apply does_ok
    | with_reducible apply does_busWrite)

theorem does_execObsCntFetch {F : Parts} {s0 s : State} (i : Fin 512) (h : Does F s0 s)
    (hF : Parts.le { outs := true, free := true, pins := true, glb := true, regs := true, latch := true, halves := true, hst := true, chains := true, chk := true, units := true, dos := true, pac := true, enc := true, swl := true, twn := true, lft := true, tim := true, grn := true, slo := true, store := true, obs := true, readbacks := true } F = true) : DoesO F s0 (execObsCntFetch i s) := by
  refine DoesO.weaken hF h ?_
  unfold execObsCntFetch
  repeat' (first
    | exact Eq.refl true
    | with_reducible exact Does.refl _ _
    | with_reducible assumption
    | with_reducible apply does_ok
    | with_reducible apply does_bar0Read
    | with_reducible refine Does.ite ?_ ?_
    | with_reducible refine DoesO.ite ?_ ?_
    | split)

theorem does_execTraceEnable {F : Parts} {s0 s : State} (v : W32) (h : Does F s0 s)
    (hF : Parts.le { outs := true, free := true, pins := true, glb := true, regs := true, latch := true, halves := true, hst := true, chains := true, chk := true, units := true, dos := true, pac := true, enc := true, swl := true, twn := true, lft := true, tim := true, grn := true, slo := true, store := true, obs := true, readbacks := true } F = true) : DoesO F s0 (execTraceEnable v s) := by
  refine DoesO.weaken hF h ?_
  unfold execTraceEnable
  repeat' (first
    | exact Eq.refl true
    | with_reducible exact Does.refl _ _
    | with_reducible assumption
    | with_reducible apply does_ok
    | with_reducible apply does_busWrite)

theorem does_execHstEnable {F : Parts} {s0 s : State} (v : W32) (h : Does F s0 s)
    (hF : Parts.le { outs := true, free := true, pins := true, glb := true, regs := true, latch := true, halves := true, hst := true, chains := true, chk := true, units := true, dos := true, pac := true, enc := true, swl := true, twn := true, lft := true, tim := true, grn := true, slo := true, store := true, obs := true, readbacks := true } F = true) : DoesO F s0 (execHstEnable v s) := by
  refine DoesO.weaken hF h ?_
  unfold execHstEnable
  repeat' (first
    | exact Eq.refl true
    | with_reducible exact Does.refl _ _
    | with_reducible assumption
    | with_reducible apply does_ok
    | with_reducible apply does_busWrite)

theorem does_execHstDisable {F : Parts} {s0 s : State} (v : W32) (h : Does F s0 s)
    (hF : Parts.le { outs := true, free := true, pins := true, glb := true, regs := true, latch := true, halves := true, hst := true, chains := true, chk := true, units := true, dos := true, pac := true, enc := true, swl := true, twn := true, lft := true, tim := true, grn := true, slo := true, store := true, obs := true, readbacks := true } F = true) : DoesO F s0 (execHstDisable v s) := by
  refine DoesO.weaken hF h ?_
  unfold execHstDisable
  repeat' (first
    | exact Eq.refl true
    | with_reducible exact Does.refl _ _
    | with_reducible assumption
    | with_reducible apply does_ok
    | with_reducible apply does_busWrite)

theorem does_execChainDisable {F : Parts} {s0 s : State} (c : Fin 16) (v : W32) (h : Does F s0 s)
    (hF : Parts.le { outs := true, free := true, pins := true, glb := true, regs := true, latch := true, halves := true, hst := true, chains := true, chk := true, units := true, dos := true, pac := true, enc := true, swl := true, twn := true, lft := true, tim := true, grn := true, slo := true, store := true, obs := true, readbacks := true } F = true) : DoesO F s0 (execChainDisable c v s) := by
  refine DoesO.weaken hF h ?_
  unfold execChainDisable
  repeat' (first
    | exact Eq.refl true
    | with_reducible exact Does.refl _ _
    | with_reducible assumption
    | with_reducible apply does_ok
    | with_reducible apply does_busWrite)

end Sys2Proof.Machine
end

