-- ==== Sys2Proof/Laws/Events.lean ====
section
/-! SUPPORT. The frame part by part, and what raising an event and completing a command leave behind. -/

-- One theorem at a time: elaborating the package as one text in many threads at once takes more memory than the check allows.
set_option Elab.async false

namespace Sys2Proof.Machine

/-! ### A part that is not chosen stands -/

theorem same_pending {F : Parts} {s t : State} (h : changesOnly F s t) : t.pending = s.pending := by
  have e := congrArg State.pending h
  simpa only [State.blank] using e

theorem same_outs {F : Parts} {s t : State} (h : changesOnly F s t) (hF : F.outs = false) : t.outs = s.outs := by
  have e := congrArg State.outs h
  simpa only [State.blank, hF, cond_false] using e

theorem same_free {F : Parts} {s t : State} (h : changesOnly F s t) (hF : F.free = false) : t.free = s.free := by
  have e := congrArg State.free h
  simpa only [State.blank, hF, cond_false] using e

theorem same_pins {F : Parts} {s t : State} (h : changesOnly F s t) (hF : F.pins = false) : t.pins = s.pins := by
  have e := congrArg State.pins h
  simpa only [State.blank, hF, cond_false] using e

theorem same_glb {F : Parts} {s t : State} (h : changesOnly F s t) (hF : F.glb = false) : t.glb = s.glb := by
  have e := congrArg State.glb h
  simpa only [State.blank, hF, cond_false] using e

theorem same_regs {F : Parts} {s t : State} (h : changesOnly F s t) (hF : F.regs = false) : t.regs = s.regs := by
  have e := congrArg State.regs h
  simpa only [State.blank, hF, cond_false] using e

theorem same_latch {F : Parts} {s t : State} (h : changesOnly F s t) (hF : F.latch = false) : t.latch = s.latch := by
  have e := congrArg State.latch h
  simpa only [State.blank, hF, cond_false] using e

theorem same_halves {F : Parts} {s t : State} (h : changesOnly F s t) (hF : F.halves = false) : t.halves = s.halves := by
  have e := congrArg State.halves h
  simpa only [State.blank, hF, cond_false] using e

theorem same_hst {F : Parts} {s t : State} (h : changesOnly F s t) (hF : F.hst = false) : t.hst = s.hst := by
  have e := congrArg State.hst h
  simpa only [State.blank, hF, cond_false] using e

theorem same_chains {F : Parts} {s t : State} (h : changesOnly F s t) (hF : F.chains = false) : t.chains = s.chains := by
  have e := congrArg State.chains h
  simpa only [State.blank, hF, cond_false] using e

theorem same_chk {F : Parts} {s t : State} (h : changesOnly F s t) (hF : F.chk = false) : t.chk = s.chk := by
  have e := congrArg State.chk h
  simpa only [State.blank, hF, cond_false] using e

theorem same_units {F : Parts} {s t : State} (h : changesOnly F s t) (hF : F.units = false) : t.units = s.units := by
  have e := congrArg State.units h
  simpa only [State.blank, hF, cond_false] using e

theorem same_dos {F : Parts} {s t : State} (h : changesOnly F s t) (hF : F.dos = false) : t.dos = s.dos := by
  have e := congrArg State.dos h
  simpa only [State.blank, hF, cond_false] using e

theorem same_pac {F : Parts} {s t : State} (h : changesOnly F s t) (hF : F.pac = false) : t.pac = s.pac := by
  have e := congrArg State.pac h
  simpa only [State.blank, hF, cond_false] using e

theorem same_enc {F : Parts} {s t : State} (h : changesOnly F s t) (hF : F.enc = false) : t.enc = s.enc := by
  have e := congrArg State.enc h
  simpa only [State.blank, hF, cond_false] using e

theorem same_swl {F : Parts} {s t : State} (h : changesOnly F s t) (hF : F.swl = false) : t.swl = s.swl := by
  have e := congrArg State.swl h
  simpa only [State.blank, hF, cond_false] using e

theorem same_twn {F : Parts} {s t : State} (h : changesOnly F s t) (hF : F.twn = false) : t.twn = s.twn := by
  have e := congrArg State.twn h
  simpa only [State.blank, hF, cond_false] using e

theorem same_lft {F : Parts} {s t : State} (h : changesOnly F s t) (hF : F.lft = false) : t.lft = s.lft := by
  have e := congrArg State.lft h
  simpa only [State.blank, hF, cond_false] using e

theorem same_tim {F : Parts} {s t : State} (h : changesOnly F s t) (hF : F.tim = false) : t.tim = s.tim := by
  have e := congrArg State.tim h
  simpa only [State.blank, hF, cond_false] using e

theorem same_grn {F : Parts} {s t : State} (h : changesOnly F s t) (hF : F.grn = false) : t.grn = s.grn := by
  have e := congrArg State.grn h
  simpa only [State.blank, hF, cond_false] using e

theorem same_slo {F : Parts} {s t : State} (h : changesOnly F s t) (hF : F.slo = false) : t.slo = s.slo := by
  have e := congrArg State.slo h
  simpa only [State.blank, hF, cond_false] using e

theorem same_store {F : Parts} {s t : State} (h : changesOnly F s t) (hF : F.store = false) : t.store = s.store := by
  have e := congrArg State.store h
  simpa only [State.blank, hF, cond_false] using e

theorem same_obs {F : Parts} {s t : State} (h : changesOnly F s t) (hF : F.obs = false) : t.obs = s.obs := by
  have e := congrArg State.obs h
  simpa only [State.blank, hF, cond_false] using e

theorem same_readbacks {F : Parts} {s t : State} (h : changesOnly F s t) (hF : F.readbacks = false) : t.readbacks = s.readbacks := by
  have e := congrArg State.readbacks h
  simpa only [State.blank, hF, cond_false] using e

/-! ### Events -/

theorem tfind_tput_same {α : Type} (t : Tbl α) (k : Nat) (v : α) : tfind (tput t k v) k = some v := by
  induction t with
  | nil => simp [tput, tfind]
  | cons p t ih =>
    obtain ⟨i, w⟩ := p
    simp only [tput]
    split
    · simp [tfind]
    · split
      · simp [tfind]
      · simp only [tfind]
        split
        · omega
        · exact ih

/-- Past the silo, raising an event touches outputs, the ring and the counters alone. -/
theorem raise_tail (code cls : Nat) (p : List Byte) (s : State) :
    changesOnly { outs := true, hst := true, obs := true }
      (siloEnter cls 1 code p { s with glb := glbCount code cls s.glb }) (raise code cls p s) := by
  unfold raise
  extract_lets s0 s1 s2 s3 s4 s5
  have h2 : Does { outs := true, hst := true, obs := true } s1 s2 := does_pushEntry _ (Does.refl _ _) rfl
  have h3 : Does { outs := true, hst := true, obs := true } s1 s3 := by
    simp only [s3]
    split
    · exact does_signal _ h2 rfl
    · exact h2
  have h4 : Does { outs := true, hst := true, obs := true } s1 s4 := by
    simp only [s4]
    split
    · exact does_emit _ h3 rfl
    · exact h3
  have h5 : Does { outs := true, hst := true, obs := true } s1 s5 := by
    simp only [s5]
    split
    · exact does_trySnap h4 rfl
    · exact h4
  split
  · exact (does_trcPush _ _ h5 rfl).only
  · exact h5.only

theorem siloEnter_glb (cls flags code : Nat) (p : List Byte) (s : State) : (siloEnter cls flags code p s).glb = s.glb :=
  same_glb (does_siloEnter cls flags code p (Does.refl { slo := true, obs := true } s) rfl).only rfl

theorem cntGrn_slo (ev : Nat) (u : Option Nat) (n : Nat) (s : State) : (cntGrn ev u n s).slo = s.slo :=
  same_slo (does_cntGrn ev u n (Does.refl { obs := true } s) rfl).only rfl

@[simp] theorem raise_glb (code cls : Nat) (p : List Byte) (s : State) : (raise code cls p s).glb = glbCount code cls s.glb := by
  rw [same_glb (raise_tail code cls p s) rfl, siloEnter_glb]

theorem raise_slo (code cls : Nat) (p : List Byte) (s : State) :
    (raise code cls p s).slo = (siloEnter cls 1 code p { s with glb := glbCount code cls s.glb }).slo :=
  same_slo (raise_tail code cls p s) rfl

/-- What raising an event leaves behind. -/
theorem raise_reported (code cls : Nat) (p : List Byte) (s : State) : reported code cls s (raise code cls p s) := by
  refine ⟨?_, ?_, ?_⟩
  · rw [raise_glb]
    unfold glbCount
    split <;> exact tget_tset_same _ _ _ _
  · intro h
    rw [raise_glb]
    unfold glbCount
    rw [if_pos h]
    exact ⟨rfl, rfl⟩
  · intro h
    rw [raise_slo]
    unfold siloEnter
    rw [if_neg (by simpa using h)]
    rw [cntGrn_slo]
    exact ⟨_, tfind_tput_same _ _ _, rfl, rfl, rfl, rfl, rfl⟩

theorem raiseItems_reported (code cls : Nat) (l : List (Nat × Nat)) (s : State) :
    reported code cls s (raiseItems code cls l s) := raise_reported _ _ _ _

theorem raise_only (code cls : Nat) (p : List Byte) (s : State) : changesOnly Parts.events s (raise code cls p s) :=
  (does_raise code cls p (Does.refl Parts.events s) rfl).only

/-! ### A frozen silo stays frozen (R441) -/

theorem siloEnter_frozen (cls flags code : Nat) (p : List Byte) (s : State) :
    (siloEnter cls flags code p s).slo.frozen = s.slo.frozen := by
  unfold siloEnter
  split
  · rfl
  · rw [cntGrn_slo]

@[simp] theorem raise_frozen (code cls : Nat) (p : List Byte) (s : State) :
    (raise code cls p s).slo.frozen = s.slo.frozen := by
  rw [raise_slo, siloEnter_frozen]

@[simp] theorem raiseItems_frozen (code cls : Nat) (l : List (Nat × Nat)) (s : State) :
    (raiseItems code cls l s).slo.frozen = s.slo.frozen := raise_frozen _ _ _ _

@[simp] theorem pushRecord_frozen (r : MkRec) (s : State) : (pushRecord r s).slo.frozen = s.slo.frozen := by
  unfold pushRecord
  extract_lets r' full ms s1 s2 s3
  have e : s3.slo.frozen = s.slo.frozen := by
    simp only [s3]
    split <;> simp [s2, s1]
  clear_value s3
  split <;> exact e

theorem raiseLoss_frozen (a : Account) (r : MkRec) (s : State) : (raiseLoss a r s).slo.frozen = s.slo.frozen := by
  unfold raiseLoss
  extract_lets spans hit use
  clear_value use
  induction use generalizing s with
  | nil => rfl
  | cons q l ih =>
    rw [List.foldl_cons, ih]
    split
    split <;> simp

/-- A fold keeps frozenness where each step does. -/
theorem foldl_frozen {α : Type} (f : State → α → State) (l : List α) (hf : ∀ a u, (f u a).slo.frozen = u.slo.frozen) (s : State) :
    (l.foldl f s).slo.frozen = s.slo.frozen := by
  induction l generalizing s with
  | nil => rfl
  | cons a l ih => rw [List.foldl_cons, ih, hf]

theorem raiseStripeLoss_frozen (r : MkRec) (s : State) : (raiseStripeLoss r s).slo.frozen = s.slo.frozen := by
  unfold raiseStripeLoss
  split
  · exact raiseLoss_frozen _ _ _
  · rfl

theorem closeLate_frozen (s : State) : (closeLate s).slo.frozen = s.slo.frozen := by
  unfold closeLate
  split
  · rfl
  · split
    · rfl
    · extract_lets s1
      have e : s1.slo.frozen = s.slo.frozen := rfl
      clear_value s1
      split
      · rw [raiseStripeLoss_frozen, e]
      · exact e

theorem closeRun_frozen (a : Account) (l : Nat) (x : LaneAcc) (s : State) : (closeRun a l x s).2.slo.frozen = s.slo.frozen := by
  unfold closeRun
  split
  · rfl
  · exact raiseLoss_frozen _ _ _

theorem flushRuns_frozen (s : State) : (flushRuns s).slo.frozen = s.slo.frozen := by
  unfold flushRuns
  refine (foldl_frozen _ _ (fun l u => ?_) _).trans (closeLate_frozen s)
  split
  · rfl
  · exact closeRun_frozen _ _ _ _

theorem fatalRecords_frozen (s : State) : (fatalRecords s).slo.frozen = s.slo.frozen := by
  unfold fatalRecords
  split
  · rfl
  · split
    · rfl
    · have e0 := flushRuns_frozen s
      dsimp only
      generalize flushRuns s = s0 at e0 ⊢
      split
      · exact e0
      · rename_i a _
        refine (foldl_frozen _ _ (fun l u => ?_) _).trans ?_
        rotate_left
        · split
          · rw [raiseLoss_frozen, e0]
          · exact e0
        split
        · exact raiseLoss_frozen _ _ _
        · rfl

/-- A frame goes on over an operation of which it is known what it touches. -/
theorem only_step {A F : Parts} {s u t : State} (h : changesOnly F s u) (g : Does A u t) (hF : A.le F = true := by rfl) :
    changesOnly F s t := Eq.trans (blank_mono hF g.only) h

theorem only_raiseItems {F : Parts} {s u : State} (code cls : Nat) (l : List (Nat × Nat)) (h : changesOnly F s u)
    (hF : Parts.events.le F = true := by rfl) : changesOnly F s (raiseItems code cls l u) :=
  only_step h (does_raiseItems code cls l (Does.refl Parts.events u) rfl) hF

theorem only_complete {F : Parts} {s u : State} (id st : Nat) (d : List Byte) (h : changesOnly F s u)
    (hF : Parts.le { outs := true, hst := true, obs := true } F = true := by rfl) : changesOnly F s (complete id st d u) :=
  only_step h (does_complete id st d (Does.refl { outs := true, hst := true, obs := true } u) rfl) hF

theorem raiseItems_only (code cls : Nat) (l : List (Nat × Nat)) (s : State) :
    changesOnly Parts.events s (raiseItems code cls l s) := raise_only _ _ _ _

end Sys2Proof.Machine
end

