-- ==== Sys2Proof/Laws/Hst.lean ====
section
/-! SUPPORT. What writing and holding ring entries, events and completions keep of the HST block. -/

-- One theorem at a time: elaborating the package as one text in many threads at once takes more memory than the check allows.
set_option Elab.async false

namespace Sys2Proof.Machine

/-- The fields of HST that no entry of the ring touches. -/
def hostKept (h : Hst) : Hst :=
  { h with inflight := [], tail := 0, cyclePhase := true, seq := 0, hold := [], held18 := false, dropRc := 0, lostRc := 0,
           dropSince := 0, lostSince := 0, evLost := false, evDrop := false, modCount := 0, pba := [] }

/-- The fields that no entry touches, and the commands in progress. -/
def hostKeptIn (h : Hst) : Hst := { hostKept h with inflight := h.inflight }

@[simp] theorem cntHst_hst (ev : Nat) (u : Option Nat) (n : Nat) (s : State) : (cntHst ev u n s).hst = s.hst :=
  same_hst (does_cntHst ev u n (Does.refl { obs := true } s) rfl).only rfl

@[simp] theorem cntHst_outs (ev : Nat) (u : Option Nat) (n : Nat) (s : State) : (cntHst ev u n s).outs = s.outs :=
  same_outs (does_cntHst ev u n (Does.refl { obs := true } s) rfl).only rfl

/-- A signal changes the pending bits alone. -/
theorem signal_hst (v : Nat) (s : State) : ∃ p, (signal v s).hst = { s.hst with pba := p } := by
  unfold signal
  split
  · exact ⟨s.hst.pba, rfl⟩
  · split
    · exact ⟨s.hst.pba, rfl⟩
    · exact ⟨_, rfl⟩

/-- A signal sends at most its own message. -/
theorem signal_outs (v : Nat) (s : State) : (signal v s).outs = s.outs ∨ (signal v s).outs = .msix v :: s.outs := by
  unfold signal
  split
  · exact .inr rfl
  · split <;> exact .inl rfl

theorem signal_kept (v : Nat) (s : State) : hostKeptIn (signal v s).hst = hostKeptIn s.hst := by
  obtain ⟨p, h⟩ := signal_hst v s
  rw [h]; rfl

theorem writeEntry_kept (e : Entry) (s : State) : hostKeptIn (writeEntry e s).hst = hostKeptIn s.hst := by
  unfold writeEntry
  dsimp only
  have h : ∀ u : State, ∀ p : Prop, [Decidable p] → hostKeptIn (if p then signal 0 u else u).hst = hostKeptIn u.hst := by
    intro u p _
    split
    · exact signal_kept 0 u
    · rfl
  rw [h, cntHst_hst]
  split <;> rfl

theorem holdEntry_kept (e : Entry) (s : State) : hostKeptIn (holdEntry e s).hst = hostKeptIn s.hst := by
  have h : ∀ u : State, hostKeptIn (if u.hst.held18 = true then u else signal 18 { u with hst := { u.hst with held18 := true } }).hst = hostKeptIn u.hst := by
    intro u
    split
    · rfl
    · rw [signal_kept]; rfl
  unfold holdEntry
  dsimp only
  split
  · exact h { s with hst := { s.hst with dropRc := sat32 (s.hst.dropRc + 1), dropSince := s.hst.dropSince + 1, evDrop := true } }
  · split
    · exact h { s with hst := { s.hst with lostRc := sat32 (s.hst.lostRc + 1), lostSince := s.hst.lostSince + 1, evLost := true } }
    · refine (h (cntHst 3 none 1 { s with hst := { s.hst with hold := s.hst.hold ++ [e] } })).trans ?_
      rw [cntHst_hst]; rfl

theorem pushEntry_kept (e : Entry) (s : State) : hostKeptIn (pushEntry e s).hst = hostKeptIn s.hst := by
  unfold pushEntry
  split
  · exact writeEntry_kept e s
  · exact holdEntry_kept e s

theorem siloEnter_hst (cls flags code : Nat) (p : List Byte) (s : State) : (siloEnter cls flags code p s).hst = s.hst :=
  same_hst (does_siloEnter cls flags code p (Does.refl { slo := true, obs := true } s) rfl).only rfl

/-- Raising an event keeps the commands in progress, the indices of the command ring, the link and the vectors. -/
theorem raise_kept (code cls : Nat) (p : List Byte) (s : State) : hostKeptIn (raise code cls p s).hst = hostKeptIn s.hst := by
  have key : ∀ u : State, ∀ (a b c : Prop) [Decidable a] [Decidable b] [Decidable c],
      hostKeptIn (let s3 := if a then signal 1 u else u
        let s4 := if b then emit .faultPulse s3 else s3
        let s5 := if c then trySnap s4 else s4
        s5).hst = hostKeptIn u.hst := by
    intro u a b c _ _ _
    dsimp only
    have h3 : hostKeptIn (if a then signal 1 u else u).hst = hostKeptIn u.hst := by
      split
      · exact signal_kept 1 u
      · rfl
    have h5 : ∀ v : State, (if c then trySnap v else v).hst = v.hst := by
      intro v
      split
      · exact same_hst (does_trySnap (Does.refl { obs := true } v) rfl).only rfl
      · rfl
    rw [h5, ← h3]
    split <;> rfl
  have tr : ∀ (k : Nat) (d : List Byte) (u : State), (trcPush k d u).hst = u.hst := fun k d u =>
    same_hst (does_trcPush k d (Does.refl { obs := true } u) rfl).only rfl
  unfold raise
  dsimp only
  split
  · rw [tr]
    refine (key _ _ _ _).trans ?_
    rw [pushEntry_kept, siloEnter_hst]
  · refine (key _ _ _ _).trans ?_
    rw [pushEntry_kept, siloEnter_hst]

theorem raiseItems_kept (code cls : Nat) (l : List (Nat × Nat)) (s : State) :
    hostKeptIn (raiseItems code cls l s).hst = hostKeptIn s.hst := raise_kept _ _ _ _

theorem complete_kept (id st : Nat) (d : List Byte) (s : State) : hostKept (complete id st d s).hst = hostKept s.hst := by
  unfold complete
  split
  · rfl
  · exact (congrArg (fun h : Hst => { h with inflight := [] }) (pushEntry_kept _ _)).trans rfl

theorem drainHold_kept (n : Nat) (s : State) : hostKeptIn (drainHold n s).hst = hostKeptIn s.hst := by
  induction n generalizing s with
  | zero => rfl
  | succ n ih =>
    unfold drainHold
    split
    · rfl
    · split
      · rw [ih, writeEntry_kept]; rfl
      · rfl

theorem overflowReport_kept (s : State) : hostKeptIn (overflowReport s).hst = hostKeptIn s.hst := by
  unfold overflowReport
  dsimp only
  split
  · split
    · rw [raiseItems_kept]; rfl
    · rfl
  · rfl

/-! ### Chains -/

theorem chainGet_set (s : State) (c : Nat) (x : Chain) : chainGet (chainSet s c x) c = x := by simp [chainGet, chainSet]
theorem chainGet_set_ne (s : State) {c j : Nat} (x : Chain) (h : j ≠ c) : chainGet (chainSet s c x) j = chainGet s j := by
  simp [chainGet, chainSet, tget_tset_ne _ _ _ h]

theorem chain_emit (o : Output) (s : State) (c : Nat) : chainGet (emit o s) c = chainGet s c := rfl

/-! ### Outputs only grow -/

/-- A fetch read is issued beside the rest of the state. -/
theorem issue_kept (s : State) : (issueFetch s).hst.pollOut = s.hst.pollOut ∧ (issueFetch s).hst.polled = s.hst.polled ∧ (issueFetch s).hst.cmdTail = s.hst.cmdTail ∧
   (issueFetch s).hst.cplHead = s.hst.cplHead ∧ (issueFetch s).hst.kicks = s.hst.kicks ∧ (issueFetch s).chains = s.chains ∧ (∀ o ∈ s.outs, o ∈ (issueFetch s).outs) ∧ (issueFetch s).hst.head = s.hst.head ∧ (issueFetch s).hst.nextId = s.hst.nextId ∧ (issueFetch s).hst.inflight = s.hst.inflight := by
  unfold issueFetch
  dsimp only
  split
  · simp [emit]; intro o h; exact .inr h
  · simp

theorem sig_mono (v : Nat) (s : State) {o : Output} (h : o ∈ s.outs) : o ∈ (signal v s).outs := by
  rcases signal_outs v s with e | e <;> rw [e]
  · exact h
  · exact List.mem_cons_of_mem _ h
theorem write_mono (e : Entry) (s : State) {o : Output} (h : o ∈ s.outs) : o ∈ (writeEntry e s).outs := by
  unfold writeEntry; dsimp only
  have q : o ∈ (if bitAt (regGet s 0x10000) 1
    then emit (.hostWrite (regPair s 0x10014 0x10018 + 64 * s.hst.tail) ((entryBytes s e).take 4)) (emit (.hostWrite (regPair s 0x10014 0x10018 + 64 * s.hst.tail + 4) ((entryBytes s e).drop 4)) s)
    else emit (.hostWrite (regPair s 0x10014 0x10018 + 64 * s.hst.tail) (entryBytes s e)) s).outs := by
    split
    · exact List.mem_cons_of_mem _ (List.mem_cons_of_mem _ h)
    · exact List.mem_cons_of_mem _ h
  split
  · apply sig_mono; rw [cntHst_outs]; exact q
  · rw [cntHst_outs]; exact q
theorem hold_mono (e : Entry) (s : State) {o : Output} (h : o ∈ s.outs) : o ∈ (holdEntry e s).outs := by
  have q : ∀ u : State, o ∈ u.outs → o ∈ (if u.hst.held18 = true then u else signal 18 { u with hst := { u.hst with held18 := true } }).outs := by
    intro u hu; split
    · exact hu
    · exact sig_mono _ _ hu
  unfold holdEntry; dsimp only
  split
  · exact q { s with hst := { s.hst with dropRc := sat32 (s.hst.dropRc + 1), dropSince := s.hst.dropSince + 1, evDrop := true } } h
  · split
    · exact q { s with hst := { s.hst with lostRc := sat32 (s.hst.lostRc + 1), lostSince := s.hst.lostSince + 1, evLost := true } } h
    · exact q (cntHst 3 none 1 { s with hst := { s.hst with hold := s.hst.hold ++ [e] } }) (by rw [cntHst_outs]; exact h)
theorem push_mono (e : Entry) (s : State) {o : Output} (h : o ∈ s.outs) : o ∈ (pushEntry e s).outs := by
  unfold pushEntry; split
  · exact write_mono _ _ h
  · exact hold_mono _ _ h
theorem raise_mono (code cls : Nat) (p : List Byte) (s : State) {o : Output} (h : o ∈ s.outs) : o ∈ (raise code cls p s).outs := by
  have key : ∀ u : State, o ∈ u.outs → ∀ (a b c : Prop) [Decidable a] [Decidable b] [Decidable c],
      o ∈ (let s3 := if a then signal 1 u else u
        let s4 := if b then emit .faultPulse s3 else s3
        let s5 := if c then trySnap s4 else s4
        s5).outs := by
    intro u hu a b c _ _ _
    dsimp only
    have h5 : ∀ v : State, (if c then trySnap v else v).outs = v.outs := by
      intro v; split
      · exact same_outs (does_trySnap (Does.refl { obs := true } v) rfl).only rfl
      · rfl
    rw [h5]
    have h3 : o ∈ (if a then signal 1 u else u).outs := by
      split
      · exact sig_mono _ _ hu
      · exact hu
    split
    · exact List.mem_cons_of_mem _ h3
    · exact h3
  have tr : ∀ (k : Nat) (d : List Byte) (u : State), (trcPush k d u).outs = u.outs := fun k d u =>
    same_outs (does_trcPush k d (Does.refl { obs := true } u) rfl).only rfl
  have h2 : o ∈ (siloEnter cls 1 code p { s with glb := glbCount code cls s.glb }).outs := by
    rw [same_outs (does_siloEnter cls 1 code p (Does.refl { slo := true, obs := true } _) rfl).only rfl]; exact h
  unfold raise; dsimp only
  split
  · rw [tr]
    exact key _ (push_mono _ _ h2) _ _ _
  · exact key _ (push_mono _ _ h2) _ _ _
theorem drain_mono (n : Nat) (s : State) {o : Output} (h : o ∈ s.outs) : o ∈ (drainHold n s).outs := by
  induction n generalizing s with
  | zero => exact h
  | succ n ih =>
    unfold drainHold; split
    · exact h
    · split
      · apply ih; exact write_mono _ _ h
      · exact h
theorem over_mono (s : State) {o : Output} (h : o ∈ s.outs) : o ∈ (overflowReport s).outs := by
  unfold overflowReport; dsimp only
  split
  · split
    · exact raise_mono _ _ _ _ h
    · exact h
  · exact h
theorem post_mono (n : Nat) (s : State) {o : Output} (h : o ∈ s.outs) : o ∈ (issueFetch (overflowReport (drainHold n s))).outs :=
  (issue_kept _).2.2.2.2.2.2.1 o (over_mono _ (drain_mono _ _ h))

end Sys2Proof.Machine
end

