-- ==== Sys2Proof/Laws/Regs.lean ====
section
/-! SUPPORT. What a register write comes to once it reaches its register: one lemma for each row that stands for the write
of one register. -/

-- One theorem at a time: elaborating the package as one text in many threads at once takes more memory than the check allows.
set_option Elab.async false

set_option linter.unusedSimpArgs false

namespace Sys2Proof.Machine

theorem busWrite_reaches {off : Nat} {s : State} (v req : Nat) (h : writeReaches off s) (hs : (regShow s off).isSome = true) :
    busWrite off v req s = writeReg off v req s := by
  obtain ⟨h1, h2, h3, h4⟩ := h
  have h5 : (regShow s off).isNone = false := by
    cases hr : regShow s off <;> simp_all
  simp [busWrite, arrive, h1, h2, h3, h4, h5]

/-- A register of a block's own rules, outside the persistent ones. -/
theorem writeReg_own {off v req : Nat} {s t : State} (h1 : isRwp off = false) (h2 : holdsHalf off = false)
    (h3 : outOfRange off (v &&& maskOf off) = false) (h4 : ownWrite off v req s = some t) : writeReg off v req s = t := by
  simp [writeReg, h1, h2, h3, h4]

theorem writeReg_rwp {off v req : Nat} {s : State} (h1 : isRwp off = true) : writeReg off v req s = rwpWrite off v req s := by
  simp [writeReg, h1]

variable {s : State}

theorem write_glbReset (v : W32) (req : BitVec 16) (h : writeReaches 0x28 s) : execGlbReset v req s = ok (glbResetOp v.toNat s) := by
  unfold execGlbReset
  refine congrArg ok ?_
  refine (busWrite_reaches _ _ h (by simp [regShow, showGlb, stored, rwInfo])).trans ?_
  exact writeReg_own (by decide) (by decide) (by simp [outOfRange]) (by simp [ownWrite, grnCtrl, bitAt, Nat.testBit, hstLocked])

theorem write_glbSnap  (h : writeReaches 0x80 s) : execGlbSnap s = ok (trySnap s) := by
  unfold execGlbSnap
  refine congrArg ok ?_
  refine (busWrite_reaches _ _ h (by simp [regShow, showGlb, stored, rwInfo])).trans ?_
  exact writeReg_own (by decide) (by decide) (by simp [outOfRange]) (by simp [ownWrite, grnCtrl, bitAt, Nat.testBit, hstLocked])

theorem write_thrRetire (v : W32) (h : writeReaches 0x40030 s) : execThrRetire v s = ok (thrRetireOp (setBit v.toNat 31) s) := by
  unfold execThrRetire
  refine congrArg ok ?_
  refine (busWrite_reaches _ _ h (by simp [regShow, showThr, stored, rwInfo])).trans ?_
  exact writeReg_own (by decide) (by decide) (by simp [outOfRange]) (by simp [ownWrite, grnCtrl, bitAt, Nat.testBit, hstLocked])

theorem write_paceLinkEnable (v : W32) (h : writeReaches 0x60000 s) : execPaceLinkEnable v s = ok (paceLinkOp (regSet s 0x60000 (v.toNat % 2))) := by
  unfold execPaceLinkEnable
  refine congrArg ok ?_
  refine (busWrite_reaches _ _ h (by simp [regShow, showPac, stored, rwInfo])).trans ?_
  exact writeReg_own (by decide) (by decide) (by simp [outOfRange]) (by simp [ownWrite, grnCtrl, bitAt, Nat.testBit, hstLocked])

theorem write_twnLinkEnable (v : W32) (h : writeReaches 0x120000 s) : execTwnLinkEnable v s = ok (twnCtrl (v.toNat % 2) s) := by
  unfold execTwnLinkEnable
  refine congrArg ok ?_
  refine (busWrite_reaches _ _ h (by simp [regShow, showTwn, stored, rwInfo])).trans ?_
  exact writeReg_own (by decide) (by decide) (by simp [outOfRange]) (by simp [ownWrite, grnCtrl, bitAt, Nat.testBit, hstLocked])

theorem write_lftRptClear  (h : writeReaches 0x13C304 s) : execLftRptClear s = ok (lftRptClearOp s) := by
  unfold execLftRptClear
  refine congrArg ok ?_
  refine (busWrite_reaches _ _ h (by simp [regShow, showLft, stored, rwInfo])).trans ?_
  exact writeReg_own (by decide) (by decide) (by simp [outOfRange]) (by simp [ownWrite, grnCtrl, bitAt, Nat.testBit, hstLocked])

theorem write_weevilArm (v : W32) (h : writeReaches 0x13C080 s) : execWeevilArm v s = ok (weevilCtrl (setBit (clearBit v.toNat 30) 31) (regSet s 0x13C080 (setBit (clearBit v.toNat 30) 31 &&& 0xF1))) := by
  unfold execWeevilArm
  refine congrArg ok ?_
  refine (busWrite_reaches _ _ h (by simp [regShow, showLft, stored, rwInfo])).trans ?_
  exact writeReg_own (by decide) (by decide) (by simp [outOfRange]) (by simp [ownWrite, grnCtrl, bitAt, Nat.testBit, hstLocked])

theorem write_weevilDisarm (v : W32) (h : writeReaches 0x13C080 s) : execWeevilDisarm v s = ok (weevilCtrl (setBit v.toNat 30) (regSet s 0x13C080 (setBit v.toNat 30 &&& 0xF1))) := by
  unfold execWeevilDisarm
  refine congrArg ok ?_
  refine (busWrite_reaches _ _ h (by simp [regShow, showLft, stored, rwInfo])).trans ?_
  exact writeReg_own (by decide) (by decide) (by simp [outOfRange]) (by simp [ownWrite, grnCtrl, bitAt, Nat.testBit, hstLocked])

theorem write_timSwitch  (h : writeReaches 0x150200 s) : execTimSwitch s = ok ({ s with tim := { s.tim with switchReq := true } }) := by
  unfold execTimSwitch
  refine congrArg ok ?_
  refine (busWrite_reaches _ _ h (by simp [regShow, showTim, stored, rwInfo])).trans ?_
  exact writeReg_own (by decide) (by decide) (by simp [outOfRange]) (by simp [ownWrite, grnCtrl, bitAt, Nat.testBit, hstLocked])

theorem write_gangDisable (v : W32) (h : writeReaches 0x150230 s) : execGangDisable v s = ok (gangCtrlOp (clearBit v.toNat 2) s) := by
  unfold execGangDisable
  refine congrArg ok ?_
  refine (busWrite_reaches _ _ h (by simp [regShow, showTim, stored, rwInfo])).trans ?_
  exact writeReg_own (by decide) (by decide) (by simp [outOfRange]) (by simp [ownWrite, grnCtrl, bitAt, Nat.testBit, hstLocked])

theorem write_wipe (v : W32) (req : BitVec 16) (h : writeReaches 0x160004 s) : execWipe v req s = ok (grnCtrl (setBit v.toNat 0) req.toNat s) := by
  unfold execWipe
  refine congrArg ok ?_
  refine (busWrite_reaches _ _ h (by simp [regShow, showGrn, stored, rwInfo])).trans ?_
  exact writeReg_own (by decide) (by decide) (by simp [outOfRange]) (by simp [ownWrite, grnCtrl, bitAt, Nat.testBit, hstLocked])

theorem write_checkpoint  (h : writeReaches 0x160004 s) : execCheckpoint s = ok (checkpointOp s) := by
  unfold execCheckpoint
  refine congrArg ok ?_
  refine (busWrite_reaches _ _ h (by simp [regShow, showGrn, stored, rwInfo])).trans ?_
  exact writeReg_own (by decide) (by decide) (by simp [outOfRange]) (by simp [ownWrite, grnCtrl, bitAt, Nat.testBit, hstLocked])

theorem write_sloFreeze (v : W32) (h : writeReaches 0x170000 s) : execSloFreeze v s = ok (sloCtrl (setBit v.toNat 0) s) := by
  unfold execSloFreeze
  refine congrArg ok ?_
  refine (busWrite_reaches _ _ h (by simp [regShow, showSlo, stored, rwInfo])).trans ?_
  exact writeReg_own (by decide) (by decide) (by simp [outOfRange]) (by simp [ownWrite, grnCtrl, bitAt, Nat.testBit, hstLocked])

theorem write_sloUnfreeze (v : W32) (h : writeReaches 0x170000 s) : execSloUnfreeze v s = ok (sloCtrl (setBit v.toNat 1) s) := by
  unfold execSloUnfreeze
  refine congrArg ok ?_
  refine (busWrite_reaches _ _ h (by simp [regShow, showSlo, stored, rwInfo])).trans ?_
  exact writeReg_own (by decide) (by decide) (by simp [outOfRange]) (by simp [ownWrite, grnCtrl, bitAt, Nat.testBit, hstLocked])

theorem write_traceEnable (v : W32) (h : writeReaches 0x180100 s) : execTraceEnable v s = ok (trcCtrlOp (setBit v.toNat 31) s) := by
  unfold execTraceEnable
  refine congrArg ok ?_
  refine (busWrite_reaches _ _ h (by simp [regShow, showObs, stored, rwInfo])).trans ?_
  exact writeReg_own (by decide) (by decide) (by simp [outOfRange]) (by simp [ownWrite, grnCtrl, bitAt, Nat.testBit, hstLocked])

theorem write_hstEnable (v : W32) (h : writeReaches 0x10000 s) : execHstEnable v s = ok (hstCtrl (setBit v.toNat 0) s) := by
  unfold execHstEnable
  refine congrArg ok ?_
  refine (busWrite_reaches _ _ h (by simp [regShow, showHst, stored, rwInfo])).trans ?_
  exact writeReg_own (by decide) (by decide) (by simp [outOfRange]) (by simp [ownWrite, grnCtrl, bitAt, Nat.testBit, hstLocked])

theorem write_hstDisable (v : W32) (h : writeReaches 0x10000 s) : execHstDisable v s = ok (hstCtrl (clearBit v.toNat 0) s) := by
  unfold execHstDisable
  refine congrArg ok ?_
  refine (busWrite_reaches _ _ h (by simp [regShow, showHst, stored, rwInfo])).trans ?_
  exact writeReg_own (by decide) (by decide) (by simp [outOfRange]) (by simp [ownWrite, grnCtrl, bitAt, Nat.testBit, hstLocked])

theorem write_encCppInt (v : W32) (req : BitVec 16) (h : writeReaches 0x70404 s) : execEncCppIntWrite v req s = ok (rwpWrite 0x70404 v.toNat req.toNat s) := by
  unfold execEncCppIntWrite
  refine congrArg ok ?_
  refine (busWrite_reaches _ _ h (by simp [regShow, showEnc, stored, rwInfo])).trans ?_
  exact writeReg_rwp (by decide)

theorem write_lftPred (v : W32) (req : BitVec 16) (h : writeReaches 0x13C014 s) : execLftPredWrite v req s = ok (rwpWrite 0x13C014 v.toNat req.toNat s) := by
  unfold execLftPredWrite
  refine congrArg ok ?_
  refine (busWrite_reaches _ _ h (by simp [regShow, showLft, stored, rwInfo])).trans ?_
  exact writeReg_rwp (by decide)

theorem write_pacVlimHi (v : W32) (req : BitVec 16) (h : writeReaches 0x60024 s) : execPacVlimWrite true v req s = ok (rwpWrite 0x60024 v.toNat req.toNat s) := by
  unfold execPacVlimWrite
  refine congrArg ok ?_
  refine (busWrite_reaches _ _ h (by simp [regShow, showPac, stored, rwInfo])).trans ?_
  exact writeReg_rwp (by decide)

theorem write_pacVlimLo (v : W32) (req : BitVec 16) (h : writeReaches 0x6001C s) : execPacVlimWrite false v req s = ok (rwpWrite 0x6001C v.toNat req.toNat s) := by
  unfold execPacVlimWrite
  refine congrArg ok ?_
  refine (busWrite_reaches _ _ h (by simp [regShow, showPac, stored, rwInfo])).trans ?_
  exact writeReg_rwp (by decide)

theorem swl_mask (l : Fin 128) : maskOf (swlOff l.val 0) = 0x31 :=
  (by decide : ∀ l : Fin 128, maskOf (swlOff l.val 0) = 0x31) l

theorem swl_range (l : Fin 128) (v : Nat) : outOfRange (swlOff l.val 0) v = false := by
  have hl := l.isLt
  unfold outOfRange
  extract_lets enc
  have e0 : enc 0 = false := (by decide : ∀ l : Fin 128,
    decide (0x70000 ≤ swlOff l.val 0 ∧ swlOff l.val 0 < 0x70400 ∧ swlOff l.val 0 % 0x100 = 0) = false) l
  have e4 : enc 0x40 = false := (by decide : ∀ l : Fin 128,
    decide (0x70000 ≤ swlOff l.val 0 ∧ swlOff l.val 0 < 0x70400 ∧ swlOff l.val 0 % 0x100 = 0x40) = false) l
  simp only [e0, e4, swlOff]
  clear e0 e4 enc
  repeat rw [if_neg (by omega)]
  rfl

theorem swl_own (l : Fin 128) (v req : Nat) (s : State) :
    ownWrite (swlOff l.val 0) v req s = some (laneCtrl l (regGet s (swlOff l.val 0)) (v &&& 0xB1) s) := by
  have hl := l.isLt
  have hb : swlOff l.val 0 / 65536 = 0x10 ∨ swlOff l.val 0 / 65536 = 0x11 := by simp only [swlOff]; omega
  have hm : swlOff l.val 0 % 0x400 = 0 := by simp only [swlOff]; omega
  have hd : (swlOff l.val 0 - 0x100000) / 0x400 = l.val := by simp only [swlOff]; omega
  have h1 : swlOff l.val 0 ≠ 0x40030 := by simp only [swlOff]; omega
  have h2 : swlOff l.val 0 ≠ 0x60000 := by simp only [swlOff]; omega
  rcases hb with hb | hb <;> simp [ownWrite, hb, hm, hd, h1, h2]

theorem swl_shown (l : Fin 128) (s : State) : (regShow s (swlOff l.val 0)).isSome = true := by
  have hl := l.isLt
  have hb : swlOff l.val 0 / 65536 = 0x10 ∨ swlOff l.val 0 / 65536 = 0x11 := by simp only [swlOff]; omega
  have hr : (rwInfo (swlOff l.val 0)).isSome = true :=
    (by decide : ∀ l : Fin 128, (rwInfo (swlOff l.val 0)).isSome = true) l
  have hs : showSwl s (swlOff l.val 0 - 0x100000) = stored s (swlOff l.val 0) := by
    have e : swlOff l.val 0 - 0x100000 = 0x400 * l.val := by simp only [swlOff]; omega
    have e1 : 0x400 * l.val / 0x400 = l.val := by omega
    have e2 : 0x400 * l.val % 0x400 = 0 := by omega
    rw [e]
    unfold showSwl
    split_ifs <;> first | omega | simp [showLane, e1, e2]
  rcases hb with hb | hb <;> simp [regShow, hb, hs, stored, hr]

theorem cnt_rwp (i : Fin 512) : isRwp (0x181000 + 0x10 * i.val) = false := by
  have hi := i.isLt
  simp [isRwp]
  omega

theorem cnt_half (i : Fin 512) : holdsHalf (0x181000 + 0x10 * i.val) = false := by
  have hi := i.isLt
  simp [holdsHalf]
  omega

theorem cnt_range (i : Fin 512) (v : Nat) : outOfRange (0x181000 + 0x10 * i.val) v = false := by
  have hl := i.isLt
  simp only [outOfRange]
  repeat' split
  all_goals first | rfl | (exfalso; omega) | (exfalso; simp only [decide_eq_true_eq] at *; omega)

theorem cnt_own (i : Fin 512) (v req : Nat) (s : State) : ownWrite (0x181000 + 0x10 * i.val) v req s = some (cntCfg i v s) := by
  have hl := i.isLt
  have hb : (0x181000 + 0x10 * i.val) / 65536 = 0x18 := by omega
  have ho : (0x181000 + 0x10 * i.val) % 65536 = 0x1000 + 0x10 * i.val := by omega
  have h1 : ¬ (0x181000 + 0x10 * i.val) = 0x180100 := by omega
  have hd : (0x1000 + 0x10 * i.val - 0x1000) / 0x10 = i.val := by omega
  have h3 : 0x1000 + 0x10 * i.val < 0x3000 := by omega
  have h4 : (0x1000 + 0x10 * i.val) % 0x10 = 0 := by omega
  have h5 : ¬ (0x181000 + 0x10 * i.val) = 0x170000 := by omega
  have h6 : ¬ (0x181000 + 0x10 * i.val) = 0x160004 := by omega
  have h7 : ¬ (0x181000 + 0x10 * i.val) = 0x160008 := by omega
  have h8 : ¬ (0x181000 + 0x10 * i.val) = 0x120000 := by omega
  have h9 : ¬ (0x181000 + 0x10 * i.val) = 0x40030 := by omega
  have h10 : ¬ (0x181000 + 0x10 * i.val) = 0x60000 := by omega
  unfold ownWrite
  extract_lets b o
  have eb : b = 0x18 := hb
  have eo : o = 0x1000 + 0x10 * i.val := ho
  clear_value b o
  subst eb eo
  simp [h1, hd, h3, h4, h5, h6, h7, h8, h9, h10]

theorem cnt_shown (i : Fin 512) (s : State) : (regShow s (0x181000 + 0x10 * i.val)).isSome = true := by
  have hl := i.isLt
  have hb : (0x181000 + 0x10 * i.val) / 65536 = 0x18 := by omega
  have ho : (0x181000 + 0x10 * i.val) % 65536 = 0x1000 + 0x10 * i.val := by omega
  have hr : (rwInfo (0x181000 + 0x10 * i.val)).isSome = true := by
    have h4 : (0x181000 + 0x10 * i.val) % 4 = 0 := by omega
    have h5 : (0x1000 + 0x10 * i.val) % 0x10 = 0 := by omega
    have h6 : 0x1000 + 0x10 * i.val < 0x3000 := by omega
    simp [rwInfo, hb, ho, h4, h5, h6]
    repeat' split
    all_goals rfl
  have hs : showObs s (0x1000 + 0x10 * i.val) = stored s (0x181000 + 0x10 * i.val) := by
    have e : 0x180000 + (0x1000 + 0x10 * i.val) = 0x181000 + 0x10 * i.val := by omega
    unfold showObs
    extract_lets b hi
    repeat rw [if_neg (by omega)]
    rw [if_pos (by omega)]
    repeat rw [if_neg (by omega)]
    rw [e]
  simp [regShow, hb, ho, hs, stored, hr]

theorem write_encPresetLoad (n : Fin 4) (v : W32) (h : writeReaches (encOff n 0x1C) s) : execEncPresetLoad n v s = ok (presetHi n (setBit v.toNat 31) s) := by
  unfold execEncPresetLoad
  refine congrArg ok ?_
  refine (busWrite_reaches _ _ h ?_).trans (writeReg_own ?_ ?_ ?_ ?_)
  · clear h
    fin_cases n <;> simp [regShow, showEnc, showCh, stored, rwInfo, encOff, domBase, chBase, Option.isSome_map]
  · clear h
    fin_cases n <;> decide
  · clear h
    fin_cases n <;> decide
  · clear h
    fin_cases n <;> simp [outOfRange, encOff, domBase, chBase, maskOf, rwInfo]
  · clear h
    have hb : bitAt 2147483648 31 = true := by decide
    fin_cases n <;> simp [ownWrite, encOff, domBase, chBase, hstLocked, hb]

theorem write_encChannelEnable (n : Fin 4) (v : W32) (hv : bits (v.toNat &&& 0x1F07) 12 8 ≤ 20) (h : writeReaches (encOff n 0) s) : execEncChannelEnable n v s = ok (encEnable n (encEn s n) (regSet s (encOff n 0) (v.toNat &&& 0x1F07))) := by
  unfold execEncChannelEnable
  refine congrArg ok ?_
  refine (busWrite_reaches _ _ h ?_).trans (writeReg_own ?_ ?_ ?_ ?_)
  · clear h
    fin_cases n <;> simp [regShow, showEnc, showCh, stored, rwInfo, encOff, domBase, chBase, Option.isSome_map]
  · clear h
    fin_cases n <;> decide
  · clear h
    fin_cases n <;> decide
  · clear h
    fin_cases n <;> simp [outOfRange, encOff, domBase, chBase, maskOf, rwInfo, hv]
  · clear h
    have hb : bitAt 2147483648 31 = true := by decide
    fin_cases n <;> simp [ownWrite, encOff, domBase, chBase, hstLocked, hb]

theorem write_cmpArm (k : Fin 4) (v : W32) (h : writeReaches (0x70500 + 0x20 * k) s) : execCmpArm k v s = ok (cmpCtrlOp k (setBit (clearBit v.toNat 30) 31) s) := by
  unfold execCmpArm
  refine congrArg ok ?_
  refine (busWrite_reaches _ _ h ?_).trans (writeReg_own ?_ ?_ ?_ ?_)
  · clear h
    fin_cases k <;> simp [regShow, showEnc, showCmp, stored, rwInfo, encOff, domBase, chBase, Option.isSome_map]
  · clear h
    fin_cases k <;> decide
  · clear h
    fin_cases k <;> decide
  · clear h
    fin_cases k <;> simp [outOfRange, encOff, domBase, chBase, maskOf, rwInfo]
  · clear h
    have hb : bitAt 2147483648 31 = true := by decide
    fin_cases k <;> simp [ownWrite, encOff, domBase, chBase, hstLocked, hb]

theorem write_cmpDisarm (k : Fin 4) (v : W32) (h : writeReaches (0x70500 + 0x20 * k) s) : execCmpDisarm k v s = ok (cmpCtrlOp k (setBit v.toNat 30) s) := by
  unfold execCmpDisarm
  refine congrArg ok ?_
  refine (busWrite_reaches _ _ h ?_).trans (writeReg_own ?_ ?_ ?_ ?_)
  · clear h
    fin_cases k <;> simp [regShow, showEnc, showCmp, stored, rwInfo, encOff, domBase, chBase, Option.isSome_map]
  · clear h
    fin_cases k <;> decide
  · clear h
    fin_cases k <;> decide
  · clear h
    fin_cases k <;> simp [outOfRange, encOff, domBase, chBase, maskOf, rwInfo]
  · clear h
    have hb : bitAt 2147483648 31 = true := by decide
    fin_cases k <;> simp [ownWrite, encOff, domBase, chBase, hstLocked, hb]

theorem write_cmpTgtHi (k : Fin 4) (v : W32) (h : writeReaches (0x7050C + 0x20 * k) s) : execCmpTgtHiWrite k v s = ok (cmpCommit k v.toNat (regSet (takeHalf (0x70508 + 0x20 * k) s) (0x7050C + 0x20 * k) (v.toNat % 65536))) := by
  unfold execCmpTgtHiWrite
  refine congrArg ok ?_
  refine (busWrite_reaches _ _ h ?_).trans (writeReg_own ?_ ?_ ?_ ?_)
  · clear h
    fin_cases k <;> simp [regShow, showEnc, showCmp, stored, rwInfo, encOff, domBase, chBase, Option.isSome_map]
  · clear h
    fin_cases k <;> decide
  · clear h
    fin_cases k <;> decide
  · clear h
    fin_cases k <;> simp [outOfRange, encOff, domBase, chBase, maskOf, rwInfo]
  · clear h
    have hb : bitAt 2147483648 31 = true := by decide
    fin_cases k <;> simp [ownWrite, encOff, domBase, chBase, hstLocked, hb]

theorem write_laneEnable (l : Fin 128) (v : W32) (h : writeReaches (swlOff l 0) s) : execSwlLaneEnable l v s = ok (laneCtrl l (regGet s (swlOff l 0)) (setBit v.toNat 0 &&& 0xB1) s) := by
  unfold execSwlLaneEnable
  refine congrArg ok ?_
  have e : swlOff l.val 0 = 0x100000 + 0x400 * l.val := rfl
  refine (busWrite_reaches _ _ h ?_).trans (writeReg_own ?_ ?_ ?_ ?_)
  · exact swl_shown l s
  · exact (by decide : ∀ l : Fin 128, isRwp (swlOff l.val 0) = false) l
  · exact (by decide : ∀ l : Fin 128, holdsHalf (swlOff l.val 0) = false) l
  · rw [swl_mask l]
    exact swl_range l _
  · exact swl_own l _ _ s

theorem write_laneDisable (l : Fin 128) (v : W32) (h : writeReaches (swlOff l 0) s) : execSwlLaneDisable l v s = ok (laneCtrl l (regGet s (swlOff l 0)) (clearBit v.toNat 0 &&& 0xB1) s) := by
  unfold execSwlLaneDisable
  refine congrArg ok ?_
  have e : swlOff l.val 0 = 0x100000 + 0x400 * l.val := rfl
  refine (busWrite_reaches _ _ h ?_).trans (writeReg_own ?_ ?_ ?_ ?_)
  · exact swl_shown l s
  · exact (by decide : ∀ l : Fin 128, isRwp (swlOff l.val 0) = false) l
  · exact (by decide : ∀ l : Fin 128, holdsHalf (swlOff l.val 0) = false) l
  · rw [swl_mask l]
    exact swl_range l _
  · exact swl_own l _ _ s

theorem write_retrain (l : Fin 128) (v : W32) (h : writeReaches (swlOff l 0) s) : execRetrain l v s = ok (laneCtrl l (regGet s (swlOff l 0)) (setBit v.toNat 7 &&& 0xB1) s) := by
  unfold execRetrain
  refine congrArg ok ?_
  have e : swlOff l.val 0 = 0x100000 + 0x400 * l.val := rfl
  refine (busWrite_reaches _ _ h ?_).trans (writeReg_own ?_ ?_ ?_ ?_)
  · exact swl_shown l s
  · exact (by decide : ∀ l : Fin 128, isRwp (swlOff l.val 0) = false) l
  · exact (by decide : ∀ l : Fin 128, holdsHalf (swlOff l.val 0) = false) l
  · rw [swl_mask l]
    exact swl_range l _
  · exact swl_own l _ _ s

theorem write_loopWrite (l : Fin 128) (v : W32) (h : writeReaches (swlOff l 0) s) : execLoopWrite l v s = ok (laneCtrl l (regGet s (swlOff l 0)) (v.toNat &&& 0xB1) s) := by
  unfold execLoopWrite
  refine congrArg ok ?_
  have e : swlOff l.val 0 = 0x100000 + 0x400 * l.val := rfl
  refine (busWrite_reaches _ _ h ?_).trans (writeReg_own ?_ ?_ ?_ ?_)
  · exact swl_shown l s
  · exact (by decide : ∀ l : Fin 128, isRwp (swlOff l.val 0) = false) l
  · exact (by decide : ∀ l : Fin 128, holdsHalf (swlOff l.val 0) = false) l
  · rw [swl_mask l]
    exact swl_range l _
  · exact swl_own l _ _ s

theorem write_lftRetire (c : Fin 12)  (h : writeReaches (0x130024 + 0x1000 * c) s) : execLftRetire c s = ok (lftRetireOp c s) := by
  unfold execLftRetire
  refine congrArg ok ?_
  refine (busWrite_reaches _ _ h ?_).trans (writeReg_own ?_ ?_ ?_ ?_)
  · clear h
    fin_cases c <;> simp [regShow, showLft, showLftCh, stored, rwInfo, encOff, domBase, chBase, Option.isSome_map]
  · clear h
    fin_cases c <;> decide
  · clear h
    fin_cases c <;> decide
  · clear h
    fin_cases c <;> simp [outOfRange, encOff, domBase, chBase, maskOf, rwInfo]
  · clear h
    have hb : bitAt 2147483648 31 = true := by decide
    fin_cases c <;> simp [ownWrite, encOff, domBase, chBase, hstLocked, hb]

theorem write_timIncrHi (d : Fin 2) (v : W32) (h : writeReaches (domBase d + 0x14) s) : execTimIncrHiWrite d v s = ok (incrHi (decide (d.val = 1)) v.toNat s) := by
  unfold execTimIncrHiWrite
  refine congrArg ok ?_
  refine (busWrite_reaches _ _ h ?_).trans (writeReg_own ?_ ?_ ?_ ?_)
  · clear h
    fin_cases d <;> simp [regShow, showTim, showDom, showPort, stored, rwInfo, encOff, domBase, chBase, Option.isSome_map]
  · clear h
    fin_cases d <;> decide
  · clear h
    fin_cases d <;> decide
  · clear h
    fin_cases d <;> simp [outOfRange, encOff, domBase, chBase, maskOf, rwInfo]
  · clear h
    have hb : bitAt 2147483648 31 = true := by decide
    fin_cases d <;> simp [ownWrite, encOff, domBase, chBase, hstLocked, hb]

theorem write_timLoad (d : Fin 2) (v : W32) (h : writeReaches (domBase d + 0x2C) s) : execTimLoad d v s = ok (timCmd (decide (d.val = 1)) (setBit v.toNat 0) s) := by
  unfold execTimLoad
  refine congrArg ok ?_
  refine (busWrite_reaches _ _ h ?_).trans (writeReg_own ?_ ?_ ?_ ?_)
  · clear h
    fin_cases d <;> simp [regShow, showTim, showDom, showPort, stored, rwInfo, encOff, domBase, chBase, Option.isSome_map]
  · clear h
    fin_cases d <;> decide
  · clear h
    fin_cases d <;> decide
  · clear h
    fin_cases d <;> simp [outOfRange, encOff, domBase, chBase, maskOf, rwInfo]
  · clear h
    have hb : bitAt 2147483648 31 = true := by decide
    fin_cases d <;> simp [ownWrite, encOff, domBase, chBase, hstLocked, hb]

theorem write_timAdjust (d : Fin 2) (v : W32) (h : writeReaches (domBase d + 0x2C) s) : execTimAdjust d v s = ok (timCmd (decide (d.val = 1)) (setBit v.toNat 1) s) := by
  unfold execTimAdjust
  refine congrArg ok ?_
  refine (busWrite_reaches _ _ h ?_).trans (writeReg_own ?_ ?_ ?_ ?_)
  · clear h
    fin_cases d <;> simp [regShow, showTim, showDom, showPort, stored, rwInfo, encOff, domBase, chBase, Option.isSome_map]
  · clear h
    fin_cases d <;> decide
  · clear h
    fin_cases d <;> decide
  · clear h
    fin_cases d <;> simp [outOfRange, encOff, domBase, chBase, maskOf, rwInfo]
  · clear h
    have hb : bitAt 2147483648 31 = true := by decide
    fin_cases d <;> simp [ownWrite, encOff, domBase, chBase, hstLocked, hb]

theorem write_timRxPop (p : Fin 2)  (h : writeReaches (0x150428 + 0x100 * p) s) : execTimRxPop p s = ok (rxPop p 1 s) := by
  unfold execTimRxPop
  refine congrArg ok ?_
  refine (busWrite_reaches _ _ h ?_).trans (writeReg_own ?_ ?_ ?_ ?_)
  · clear h
    fin_cases p <;> simp [regShow, showTim, showDom, showPort, stored, rwInfo, encOff, domBase, chBase, Option.isSome_map]
  · clear h
    fin_cases p <;> decide
  · clear h
    fin_cases p <;> decide
  · clear h
    fin_cases p <;> simp [outOfRange, encOff, domBase, chBase, maskOf, rwInfo]
  · clear h
    have hb : bitAt 2147483648 31 = true := by decide
    fin_cases p <;> simp [ownWrite, encOff, domBase, chBase, hstLocked, hb]

theorem write_cntCfg (i : Fin 512) (v : W32) (h : writeReaches (0x181000 + 0x10 * i) s) : execObsCntCfgWrite i v s = ok (cntCfg i v.toNat s) := by
  unfold execObsCntCfgWrite
  refine congrArg ok ?_
  refine (busWrite_reaches _ _ h ?_).trans (writeReg_own ?_ ?_ ?_ ?_)
  · exact cnt_shown i s
  · exact cnt_rwp i
  · exact cnt_half i
  · exact cnt_range i _
  · exact cnt_own i _ _ s

theorem write_cntClear (i : Fin 512) (v : W32) (h : writeReaches (0x181000 + 0x10 * i) s) : execObsCntClear i v s = ok (cntCfg i (setBit v.toNat 31) s) := by
  unfold execObsCntClear
  refine congrArg ok ?_
  refine (busWrite_reaches _ _ h ?_).trans (writeReg_own ?_ ?_ ?_ ?_)
  · exact cnt_shown i s
  · exact cnt_rwp i
  · exact cnt_half i
  · exact cnt_range i _
  · exact cnt_own i _ _ s

theorem write_chainDisable (c : Fin 16) (v : W32) (h : writeReaches (chBase c) s) : execChainDisable c v s = ok (chainCtrl c (clearBit v.toNat 0) s) := by
  unfold execChainDisable
  refine congrArg ok ?_
  refine (busWrite_reaches _ _ h ?_).trans (writeReg_own ?_ ?_ ?_ ?_)
  · clear h
    fin_cases c <;> simp [regShow, showHst, showChain, stored, rwInfo, encOff, domBase, chBase, Option.isSome_map]
  · clear h
    fin_cases c <;> decide
  · clear h
    fin_cases c <;> decide
  · clear h
    fin_cases c <;> simp [outOfRange, encOff, domBase, chBase, maskOf, rwInfo]
  · clear h
    have hb : bitAt 2147483648 31 = true := by decide
    fin_cases c <;> simp [ownWrite, encOff, domBase, chBase, hstLocked, hb]

end Sys2Proof.Machine
end

