-- ==== Sys2Proof/Laws/State.lean ====
section
/-! SUPPORT. The updates of State: each writes one field and leaves the others, and what it wrote reads back. No later proof
need unfold a record update. -/

-- One theorem at a time: elaborating the package as one text in many threads at once takes more memory than the check allows.
set_option Elab.async false

namespace Sys2Proof.Machine

variable (s : State)

/-! ### regSet writes `regs` -/

@[simp] theorem regSet_pending (off v : Nat) : (regSet s off v).pending = s.pending := rfl
@[simp] theorem regSet_outs (off v : Nat) : (regSet s off v).outs = s.outs := rfl
@[simp] theorem regSet_free (off v : Nat) : (regSet s off v).free = s.free := rfl
@[simp] theorem regSet_pins (off v : Nat) : (regSet s off v).pins = s.pins := rfl
@[simp] theorem regSet_glb (off v : Nat) : (regSet s off v).glb = s.glb := rfl
@[simp] theorem regSet_latch (off v : Nat) : (regSet s off v).latch = s.latch := rfl
@[simp] theorem regSet_halves (off v : Nat) : (regSet s off v).halves = s.halves := rfl
@[simp] theorem regSet_hst (off v : Nat) : (regSet s off v).hst = s.hst := rfl
@[simp] theorem regSet_chains (off v : Nat) : (regSet s off v).chains = s.chains := rfl
@[simp] theorem regSet_chk (off v : Nat) : (regSet s off v).chk = s.chk := rfl
@[simp] theorem regSet_units (off v : Nat) : (regSet s off v).units = s.units := rfl
@[simp] theorem regSet_dos (off v : Nat) : (regSet s off v).dos = s.dos := rfl
@[simp] theorem regSet_pac (off v : Nat) : (regSet s off v).pac = s.pac := rfl
@[simp] theorem regSet_enc (off v : Nat) : (regSet s off v).enc = s.enc := rfl
@[simp] theorem regSet_swl (off v : Nat) : (regSet s off v).swl = s.swl := rfl
@[simp] theorem regSet_twn (off v : Nat) : (regSet s off v).twn = s.twn := rfl
@[simp] theorem regSet_lft (off v : Nat) : (regSet s off v).lft = s.lft := rfl
@[simp] theorem regSet_tim (off v : Nat) : (regSet s off v).tim = s.tim := rfl
@[simp] theorem regSet_grn (off v : Nat) : (regSet s off v).grn = s.grn := rfl
@[simp] theorem regSet_slo (off v : Nat) : (regSet s off v).slo = s.slo := rfl
@[simp] theorem regSet_store (off v : Nat) : (regSet s off v).store = s.store := rfl
@[simp] theorem regSet_obs (off v : Nat) : (regSet s off v).obs = s.obs := rfl
@[simp] theorem regSet_readbacks (off v : Nat) : (regSet s off v).readbacks = s.readbacks := rfl

/-! ### emit writes `outs` -/

@[simp] theorem emit_pending (o : Output) : (emit o s).pending = s.pending := rfl
@[simp] theorem emit_free (o : Output) : (emit o s).free = s.free := rfl
@[simp] theorem emit_pins (o : Output) : (emit o s).pins = s.pins := rfl
@[simp] theorem emit_glb (o : Output) : (emit o s).glb = s.glb := rfl
@[simp] theorem emit_regs (o : Output) : (emit o s).regs = s.regs := rfl
@[simp] theorem emit_latch (o : Output) : (emit o s).latch = s.latch := rfl
@[simp] theorem emit_halves (o : Output) : (emit o s).halves = s.halves := rfl
@[simp] theorem emit_hst (o : Output) : (emit o s).hst = s.hst := rfl
@[simp] theorem emit_chains (o : Output) : (emit o s).chains = s.chains := rfl
@[simp] theorem emit_chk (o : Output) : (emit o s).chk = s.chk := rfl
@[simp] theorem emit_units (o : Output) : (emit o s).units = s.units := rfl
@[simp] theorem emit_dos (o : Output) : (emit o s).dos = s.dos := rfl
@[simp] theorem emit_pac (o : Output) : (emit o s).pac = s.pac := rfl
@[simp] theorem emit_enc (o : Output) : (emit o s).enc = s.enc := rfl
@[simp] theorem emit_swl (o : Output) : (emit o s).swl = s.swl := rfl
@[simp] theorem emit_twn (o : Output) : (emit o s).twn = s.twn := rfl
@[simp] theorem emit_lft (o : Output) : (emit o s).lft = s.lft := rfl
@[simp] theorem emit_tim (o : Output) : (emit o s).tim = s.tim := rfl
@[simp] theorem emit_grn (o : Output) : (emit o s).grn = s.grn := rfl
@[simp] theorem emit_slo (o : Output) : (emit o s).slo = s.slo := rfl
@[simp] theorem emit_store (o : Output) : (emit o s).store = s.store := rfl
@[simp] theorem emit_obs (o : Output) : (emit o s).obs = s.obs := rfl
@[simp] theorem emit_readbacks (o : Output) : (emit o s).readbacks = s.readbacks := rfl

/-! ### chainSet writes `chains` -/

@[simp] theorem chainSet_pending (c : Nat) (x : Chain) : (chainSet s c x).pending = s.pending := rfl
@[simp] theorem chainSet_outs (c : Nat) (x : Chain) : (chainSet s c x).outs = s.outs := rfl
@[simp] theorem chainSet_free (c : Nat) (x : Chain) : (chainSet s c x).free = s.free := rfl
@[simp] theorem chainSet_pins (c : Nat) (x : Chain) : (chainSet s c x).pins = s.pins := rfl
@[simp] theorem chainSet_glb (c : Nat) (x : Chain) : (chainSet s c x).glb = s.glb := rfl
@[simp] theorem chainSet_regs (c : Nat) (x : Chain) : (chainSet s c x).regs = s.regs := rfl
@[simp] theorem chainSet_latch (c : Nat) (x : Chain) : (chainSet s c x).latch = s.latch := rfl
@[simp] theorem chainSet_halves (c : Nat) (x : Chain) : (chainSet s c x).halves = s.halves := rfl
@[simp] theorem chainSet_hst (c : Nat) (x : Chain) : (chainSet s c x).hst = s.hst := rfl
@[simp] theorem chainSet_chk (c : Nat) (x : Chain) : (chainSet s c x).chk = s.chk := rfl
@[simp] theorem chainSet_units (c : Nat) (x : Chain) : (chainSet s c x).units = s.units := rfl
@[simp] theorem chainSet_dos (c : Nat) (x : Chain) : (chainSet s c x).dos = s.dos := rfl
@[simp] theorem chainSet_pac (c : Nat) (x : Chain) : (chainSet s c x).pac = s.pac := rfl
@[simp] theorem chainSet_enc (c : Nat) (x : Chain) : (chainSet s c x).enc = s.enc := rfl
@[simp] theorem chainSet_swl (c : Nat) (x : Chain) : (chainSet s c x).swl = s.swl := rfl
@[simp] theorem chainSet_twn (c : Nat) (x : Chain) : (chainSet s c x).twn = s.twn := rfl
@[simp] theorem chainSet_lft (c : Nat) (x : Chain) : (chainSet s c x).lft = s.lft := rfl
@[simp] theorem chainSet_tim (c : Nat) (x : Chain) : (chainSet s c x).tim = s.tim := rfl
@[simp] theorem chainSet_grn (c : Nat) (x : Chain) : (chainSet s c x).grn = s.grn := rfl
@[simp] theorem chainSet_slo (c : Nat) (x : Chain) : (chainSet s c x).slo = s.slo := rfl
@[simp] theorem chainSet_store (c : Nat) (x : Chain) : (chainSet s c x).store = s.store := rfl
@[simp] theorem chainSet_obs (c : Nat) (x : Chain) : (chainSet s c x).obs = s.obs := rfl
@[simp] theorem chainSet_readbacks (c : Nat) (x : Chain) : (chainSet s c x).readbacks = s.readbacks := rfl

/-! ### encSet writes `enc` -/

@[simp] theorem encSet_pending (n : Nat) (x : EncCh) : (encSet s n x).pending = s.pending := rfl
@[simp] theorem encSet_outs (n : Nat) (x : EncCh) : (encSet s n x).outs = s.outs := rfl
@[simp] theorem encSet_free (n : Nat) (x : EncCh) : (encSet s n x).free = s.free := rfl
@[simp] theorem encSet_pins (n : Nat) (x : EncCh) : (encSet s n x).pins = s.pins := rfl
@[simp] theorem encSet_glb (n : Nat) (x : EncCh) : (encSet s n x).glb = s.glb := rfl
@[simp] theorem encSet_regs (n : Nat) (x : EncCh) : (encSet s n x).regs = s.regs := rfl
@[simp] theorem encSet_latch (n : Nat) (x : EncCh) : (encSet s n x).latch = s.latch := rfl
@[simp] theorem encSet_halves (n : Nat) (x : EncCh) : (encSet s n x).halves = s.halves := rfl
@[simp] theorem encSet_hst (n : Nat) (x : EncCh) : (encSet s n x).hst = s.hst := rfl
@[simp] theorem encSet_chains (n : Nat) (x : EncCh) : (encSet s n x).chains = s.chains := rfl
@[simp] theorem encSet_chk (n : Nat) (x : EncCh) : (encSet s n x).chk = s.chk := rfl
@[simp] theorem encSet_units (n : Nat) (x : EncCh) : (encSet s n x).units = s.units := rfl
@[simp] theorem encSet_dos (n : Nat) (x : EncCh) : (encSet s n x).dos = s.dos := rfl
@[simp] theorem encSet_pac (n : Nat) (x : EncCh) : (encSet s n x).pac = s.pac := rfl
@[simp] theorem encSet_swl (n : Nat) (x : EncCh) : (encSet s n x).swl = s.swl := rfl
@[simp] theorem encSet_twn (n : Nat) (x : EncCh) : (encSet s n x).twn = s.twn := rfl
@[simp] theorem encSet_lft (n : Nat) (x : EncCh) : (encSet s n x).lft = s.lft := rfl
@[simp] theorem encSet_tim (n : Nat) (x : EncCh) : (encSet s n x).tim = s.tim := rfl
@[simp] theorem encSet_grn (n : Nat) (x : EncCh) : (encSet s n x).grn = s.grn := rfl
@[simp] theorem encSet_slo (n : Nat) (x : EncCh) : (encSet s n x).slo = s.slo := rfl
@[simp] theorem encSet_store (n : Nat) (x : EncCh) : (encSet s n x).store = s.store := rfl
@[simp] theorem encSet_obs (n : Nat) (x : EncCh) : (encSet s n x).obs = s.obs := rfl
@[simp] theorem encSet_readbacks (n : Nat) (x : EncCh) : (encSet s n x).readbacks = s.readbacks := rfl

/-! ### cmpSet writes `enc` -/

@[simp] theorem cmpSet_pending (k : Nat) (x : Cmp) : (cmpSet s k x).pending = s.pending := rfl
@[simp] theorem cmpSet_outs (k : Nat) (x : Cmp) : (cmpSet s k x).outs = s.outs := rfl
@[simp] theorem cmpSet_free (k : Nat) (x : Cmp) : (cmpSet s k x).free = s.free := rfl
@[simp] theorem cmpSet_pins (k : Nat) (x : Cmp) : (cmpSet s k x).pins = s.pins := rfl
@[simp] theorem cmpSet_glb (k : Nat) (x : Cmp) : (cmpSet s k x).glb = s.glb := rfl
@[simp] theorem cmpSet_regs (k : Nat) (x : Cmp) : (cmpSet s k x).regs = s.regs := rfl
@[simp] theorem cmpSet_latch (k : Nat) (x : Cmp) : (cmpSet s k x).latch = s.latch := rfl
@[simp] theorem cmpSet_halves (k : Nat) (x : Cmp) : (cmpSet s k x).halves = s.halves := rfl
@[simp] theorem cmpSet_hst (k : Nat) (x : Cmp) : (cmpSet s k x).hst = s.hst := rfl
@[simp] theorem cmpSet_chains (k : Nat) (x : Cmp) : (cmpSet s k x).chains = s.chains := rfl
@[simp] theorem cmpSet_chk (k : Nat) (x : Cmp) : (cmpSet s k x).chk = s.chk := rfl
@[simp] theorem cmpSet_units (k : Nat) (x : Cmp) : (cmpSet s k x).units = s.units := rfl
@[simp] theorem cmpSet_dos (k : Nat) (x : Cmp) : (cmpSet s k x).dos = s.dos := rfl
@[simp] theorem cmpSet_pac (k : Nat) (x : Cmp) : (cmpSet s k x).pac = s.pac := rfl
@[simp] theorem cmpSet_swl (k : Nat) (x : Cmp) : (cmpSet s k x).swl = s.swl := rfl
@[simp] theorem cmpSet_twn (k : Nat) (x : Cmp) : (cmpSet s k x).twn = s.twn := rfl
@[simp] theorem cmpSet_lft (k : Nat) (x : Cmp) : (cmpSet s k x).lft = s.lft := rfl
@[simp] theorem cmpSet_tim (k : Nat) (x : Cmp) : (cmpSet s k x).tim = s.tim := rfl
@[simp] theorem cmpSet_grn (k : Nat) (x : Cmp) : (cmpSet s k x).grn = s.grn := rfl
@[simp] theorem cmpSet_slo (k : Nat) (x : Cmp) : (cmpSet s k x).slo = s.slo := rfl
@[simp] theorem cmpSet_store (k : Nat) (x : Cmp) : (cmpSet s k x).store = s.store := rfl
@[simp] theorem cmpSet_obs (k : Nat) (x : Cmp) : (cmpSet s k x).obs = s.obs := rfl
@[simp] theorem cmpSet_readbacks (k : Nat) (x : Cmp) : (cmpSet s k x).readbacks = s.readbacks := rfl

/-! ### laneSet writes `swl` -/

@[simp] theorem laneSet_pending (l : Nat) (x : Lane) : (laneSet s l x).pending = s.pending := rfl
@[simp] theorem laneSet_outs (l : Nat) (x : Lane) : (laneSet s l x).outs = s.outs := rfl
@[simp] theorem laneSet_free (l : Nat) (x : Lane) : (laneSet s l x).free = s.free := rfl
@[simp] theorem laneSet_pins (l : Nat) (x : Lane) : (laneSet s l x).pins = s.pins := rfl
@[simp] theorem laneSet_glb (l : Nat) (x : Lane) : (laneSet s l x).glb = s.glb := rfl
@[simp] theorem laneSet_regs (l : Nat) (x : Lane) : (laneSet s l x).regs = s.regs := rfl
@[simp] theorem laneSet_latch (l : Nat) (x : Lane) : (laneSet s l x).latch = s.latch := rfl
@[simp] theorem laneSet_halves (l : Nat) (x : Lane) : (laneSet s l x).halves = s.halves := rfl
@[simp] theorem laneSet_hst (l : Nat) (x : Lane) : (laneSet s l x).hst = s.hst := rfl
@[simp] theorem laneSet_chains (l : Nat) (x : Lane) : (laneSet s l x).chains = s.chains := rfl
@[simp] theorem laneSet_chk (l : Nat) (x : Lane) : (laneSet s l x).chk = s.chk := rfl
@[simp] theorem laneSet_units (l : Nat) (x : Lane) : (laneSet s l x).units = s.units := rfl
@[simp] theorem laneSet_dos (l : Nat) (x : Lane) : (laneSet s l x).dos = s.dos := rfl
@[simp] theorem laneSet_pac (l : Nat) (x : Lane) : (laneSet s l x).pac = s.pac := rfl
@[simp] theorem laneSet_enc (l : Nat) (x : Lane) : (laneSet s l x).enc = s.enc := rfl
@[simp] theorem laneSet_twn (l : Nat) (x : Lane) : (laneSet s l x).twn = s.twn := rfl
@[simp] theorem laneSet_lft (l : Nat) (x : Lane) : (laneSet s l x).lft = s.lft := rfl
@[simp] theorem laneSet_tim (l : Nat) (x : Lane) : (laneSet s l x).tim = s.tim := rfl
@[simp] theorem laneSet_grn (l : Nat) (x : Lane) : (laneSet s l x).grn = s.grn := rfl
@[simp] theorem laneSet_slo (l : Nat) (x : Lane) : (laneSet s l x).slo = s.slo := rfl
@[simp] theorem laneSet_store (l : Nat) (x : Lane) : (laneSet s l x).store = s.store := rfl
@[simp] theorem laneSet_obs (l : Nat) (x : Lane) : (laneSet s l x).obs = s.obs := rfl
@[simp] theorem laneSet_readbacks (l : Nat) (x : Lane) : (laneSet s l x).readbacks = s.readbacks := rfl

/-! ### retSet writes `swl` -/

@[simp] theorem retSet_pending (k : Nat) (x : RetLane) : (retSet s k x).pending = s.pending := rfl
@[simp] theorem retSet_outs (k : Nat) (x : RetLane) : (retSet s k x).outs = s.outs := rfl
@[simp] theorem retSet_free (k : Nat) (x : RetLane) : (retSet s k x).free = s.free := rfl
@[simp] theorem retSet_pins (k : Nat) (x : RetLane) : (retSet s k x).pins = s.pins := rfl
@[simp] theorem retSet_glb (k : Nat) (x : RetLane) : (retSet s k x).glb = s.glb := rfl
@[simp] theorem retSet_regs (k : Nat) (x : RetLane) : (retSet s k x).regs = s.regs := rfl
@[simp] theorem retSet_latch (k : Nat) (x : RetLane) : (retSet s k x).latch = s.latch := rfl
@[simp] theorem retSet_halves (k : Nat) (x : RetLane) : (retSet s k x).halves = s.halves := rfl
@[simp] theorem retSet_hst (k : Nat) (x : RetLane) : (retSet s k x).hst = s.hst := rfl
@[simp] theorem retSet_chains (k : Nat) (x : RetLane) : (retSet s k x).chains = s.chains := rfl
@[simp] theorem retSet_chk (k : Nat) (x : RetLane) : (retSet s k x).chk = s.chk := rfl
@[simp] theorem retSet_units (k : Nat) (x : RetLane) : (retSet s k x).units = s.units := rfl
@[simp] theorem retSet_dos (k : Nat) (x : RetLane) : (retSet s k x).dos = s.dos := rfl
@[simp] theorem retSet_pac (k : Nat) (x : RetLane) : (retSet s k x).pac = s.pac := rfl
@[simp] theorem retSet_enc (k : Nat) (x : RetLane) : (retSet s k x).enc = s.enc := rfl
@[simp] theorem retSet_twn (k : Nat) (x : RetLane) : (retSet s k x).twn = s.twn := rfl
@[simp] theorem retSet_lft (k : Nat) (x : RetLane) : (retSet s k x).lft = s.lft := rfl
@[simp] theorem retSet_tim (k : Nat) (x : RetLane) : (retSet s k x).tim = s.tim := rfl
@[simp] theorem retSet_grn (k : Nat) (x : RetLane) : (retSet s k x).grn = s.grn := rfl
@[simp] theorem retSet_slo (k : Nat) (x : RetLane) : (retSet s k x).slo = s.slo := rfl
@[simp] theorem retSet_store (k : Nat) (x : RetLane) : (retSet s k x).store = s.store := rfl
@[simp] theorem retSet_obs (k : Nat) (x : RetLane) : (retSet s k x).obs = s.obs := rfl
@[simp] theorem retSet_readbacks (k : Nat) (x : RetLane) : (retSet s k x).readbacks = s.readbacks := rfl

/-! ### dxpSet writes `twn` -/

@[simp] theorem dxpSet_pending (k : Nat) (x : DxpLane) : (dxpSet s k x).pending = s.pending := rfl
@[simp] theorem dxpSet_outs (k : Nat) (x : DxpLane) : (dxpSet s k x).outs = s.outs := rfl
@[simp] theorem dxpSet_free (k : Nat) (x : DxpLane) : (dxpSet s k x).free = s.free := rfl
@[simp] theorem dxpSet_pins (k : Nat) (x : DxpLane) : (dxpSet s k x).pins = s.pins := rfl
@[simp] theorem dxpSet_glb (k : Nat) (x : DxpLane) : (dxpSet s k x).glb = s.glb := rfl
@[simp] theorem dxpSet_regs (k : Nat) (x : DxpLane) : (dxpSet s k x).regs = s.regs := rfl
@[simp] theorem dxpSet_latch (k : Nat) (x : DxpLane) : (dxpSet s k x).latch = s.latch := rfl
@[simp] theorem dxpSet_halves (k : Nat) (x : DxpLane) : (dxpSet s k x).halves = s.halves := rfl
@[simp] theorem dxpSet_hst (k : Nat) (x : DxpLane) : (dxpSet s k x).hst = s.hst := rfl
@[simp] theorem dxpSet_chains (k : Nat) (x : DxpLane) : (dxpSet s k x).chains = s.chains := rfl
@[simp] theorem dxpSet_chk (k : Nat) (x : DxpLane) : (dxpSet s k x).chk = s.chk := rfl
@[simp] theorem dxpSet_units (k : Nat) (x : DxpLane) : (dxpSet s k x).units = s.units := rfl
@[simp] theorem dxpSet_dos (k : Nat) (x : DxpLane) : (dxpSet s k x).dos = s.dos := rfl
@[simp] theorem dxpSet_pac (k : Nat) (x : DxpLane) : (dxpSet s k x).pac = s.pac := rfl
@[simp] theorem dxpSet_enc (k : Nat) (x : DxpLane) : (dxpSet s k x).enc = s.enc := rfl
@[simp] theorem dxpSet_swl (k : Nat) (x : DxpLane) : (dxpSet s k x).swl = s.swl := rfl
@[simp] theorem dxpSet_lft (k : Nat) (x : DxpLane) : (dxpSet s k x).lft = s.lft := rfl
@[simp] theorem dxpSet_tim (k : Nat) (x : DxpLane) : (dxpSet s k x).tim = s.tim := rfl
@[simp] theorem dxpSet_grn (k : Nat) (x : DxpLane) : (dxpSet s k x).grn = s.grn := rfl
@[simp] theorem dxpSet_slo (k : Nat) (x : DxpLane) : (dxpSet s k x).slo = s.slo := rfl
@[simp] theorem dxpSet_store (k : Nat) (x : DxpLane) : (dxpSet s k x).store = s.store := rfl
@[simp] theorem dxpSet_obs (k : Nat) (x : DxpLane) : (dxpSet s k x).obs = s.obs := rfl
@[simp] theorem dxpSet_readbacks (k : Nat) (x : DxpLane) : (dxpSet s k x).readbacks = s.readbacks := rfl

/-! ### lftSet writes `lft` -/

@[simp] theorem lftSet_pending (c : Nat) (x : LftCh) : (lftSet s c x).pending = s.pending := rfl
@[simp] theorem lftSet_outs (c : Nat) (x : LftCh) : (lftSet s c x).outs = s.outs := rfl
@[simp] theorem lftSet_free (c : Nat) (x : LftCh) : (lftSet s c x).free = s.free := rfl
@[simp] theorem lftSet_pins (c : Nat) (x : LftCh) : (lftSet s c x).pins = s.pins := rfl
@[simp] theorem lftSet_glb (c : Nat) (x : LftCh) : (lftSet s c x).glb = s.glb := rfl
@[simp] theorem lftSet_regs (c : Nat) (x : LftCh) : (lftSet s c x).regs = s.regs := rfl
@[simp] theorem lftSet_latch (c : Nat) (x : LftCh) : (lftSet s c x).latch = s.latch := rfl
@[simp] theorem lftSet_halves (c : Nat) (x : LftCh) : (lftSet s c x).halves = s.halves := rfl
@[simp] theorem lftSet_hst (c : Nat) (x : LftCh) : (lftSet s c x).hst = s.hst := rfl
@[simp] theorem lftSet_chains (c : Nat) (x : LftCh) : (lftSet s c x).chains = s.chains := rfl
@[simp] theorem lftSet_chk (c : Nat) (x : LftCh) : (lftSet s c x).chk = s.chk := rfl
@[simp] theorem lftSet_units (c : Nat) (x : LftCh) : (lftSet s c x).units = s.units := rfl
@[simp] theorem lftSet_dos (c : Nat) (x : LftCh) : (lftSet s c x).dos = s.dos := rfl
@[simp] theorem lftSet_pac (c : Nat) (x : LftCh) : (lftSet s c x).pac = s.pac := rfl
@[simp] theorem lftSet_enc (c : Nat) (x : LftCh) : (lftSet s c x).enc = s.enc := rfl
@[simp] theorem lftSet_swl (c : Nat) (x : LftCh) : (lftSet s c x).swl = s.swl := rfl
@[simp] theorem lftSet_twn (c : Nat) (x : LftCh) : (lftSet s c x).twn = s.twn := rfl
@[simp] theorem lftSet_tim (c : Nat) (x : LftCh) : (lftSet s c x).tim = s.tim := rfl
@[simp] theorem lftSet_grn (c : Nat) (x : LftCh) : (lftSet s c x).grn = s.grn := rfl
@[simp] theorem lftSet_slo (c : Nat) (x : LftCh) : (lftSet s c x).slo = s.slo := rfl
@[simp] theorem lftSet_store (c : Nat) (x : LftCh) : (lftSet s c x).store = s.store := rfl
@[simp] theorem lftSet_obs (c : Nat) (x : LftCh) : (lftSet s c x).obs = s.obs := rfl
@[simp] theorem lftSet_readbacks (c : Nat) (x : LftCh) : (lftSet s c x).readbacks = s.readbacks := rfl

/-! ### portSet writes `tim` -/

@[simp] theorem portSet_pending (p : Nat) (x : Port) : (portSet s p x).pending = s.pending := rfl
@[simp] theorem portSet_outs (p : Nat) (x : Port) : (portSet s p x).outs = s.outs := rfl
@[simp] theorem portSet_free (p : Nat) (x : Port) : (portSet s p x).free = s.free := rfl
@[simp] theorem portSet_pins (p : Nat) (x : Port) : (portSet s p x).pins = s.pins := rfl
@[simp] theorem portSet_glb (p : Nat) (x : Port) : (portSet s p x).glb = s.glb := rfl
@[simp] theorem portSet_regs (p : Nat) (x : Port) : (portSet s p x).regs = s.regs := rfl
@[simp] theorem portSet_latch (p : Nat) (x : Port) : (portSet s p x).latch = s.latch := rfl
@[simp] theorem portSet_halves (p : Nat) (x : Port) : (portSet s p x).halves = s.halves := rfl
@[simp] theorem portSet_hst (p : Nat) (x : Port) : (portSet s p x).hst = s.hst := rfl
@[simp] theorem portSet_chains (p : Nat) (x : Port) : (portSet s p x).chains = s.chains := rfl
@[simp] theorem portSet_chk (p : Nat) (x : Port) : (portSet s p x).chk = s.chk := rfl
@[simp] theorem portSet_units (p : Nat) (x : Port) : (portSet s p x).units = s.units := rfl
@[simp] theorem portSet_dos (p : Nat) (x : Port) : (portSet s p x).dos = s.dos := rfl
@[simp] theorem portSet_pac (p : Nat) (x : Port) : (portSet s p x).pac = s.pac := rfl
@[simp] theorem portSet_enc (p : Nat) (x : Port) : (portSet s p x).enc = s.enc := rfl
@[simp] theorem portSet_swl (p : Nat) (x : Port) : (portSet s p x).swl = s.swl := rfl
@[simp] theorem portSet_twn (p : Nat) (x : Port) : (portSet s p x).twn = s.twn := rfl
@[simp] theorem portSet_lft (p : Nat) (x : Port) : (portSet s p x).lft = s.lft := rfl
@[simp] theorem portSet_grn (p : Nat) (x : Port) : (portSet s p x).grn = s.grn := rfl
@[simp] theorem portSet_slo (p : Nat) (x : Port) : (portSet s p x).slo = s.slo := rfl
@[simp] theorem portSet_store (p : Nat) (x : Port) : (portSet s p x).store = s.store := rfl
@[simp] theorem portSet_obs (p : Nat) (x : Port) : (portSet s p x).obs = s.obs := rfl
@[simp] theorem portSet_readbacks (p : Nat) (x : Port) : (portSet s p x).readbacks = s.readbacks := rfl

/-! ### domSet writes `tim` -/

@[simp] theorem domSet_pending (b : Bool) (x : Dom) : (domSet s b x).pending = s.pending := rfl
@[simp] theorem domSet_outs (b : Bool) (x : Dom) : (domSet s b x).outs = s.outs := rfl
@[simp] theorem domSet_free (b : Bool) (x : Dom) : (domSet s b x).free = s.free := rfl
@[simp] theorem domSet_pins (b : Bool) (x : Dom) : (domSet s b x).pins = s.pins := rfl
@[simp] theorem domSet_glb (b : Bool) (x : Dom) : (domSet s b x).glb = s.glb := rfl
@[simp] theorem domSet_regs (b : Bool) (x : Dom) : (domSet s b x).regs = s.regs := rfl
@[simp] theorem domSet_latch (b : Bool) (x : Dom) : (domSet s b x).latch = s.latch := rfl
@[simp] theorem domSet_halves (b : Bool) (x : Dom) : (domSet s b x).halves = s.halves := rfl
@[simp] theorem domSet_hst (b : Bool) (x : Dom) : (domSet s b x).hst = s.hst := rfl
@[simp] theorem domSet_chains (b : Bool) (x : Dom) : (domSet s b x).chains = s.chains := rfl
@[simp] theorem domSet_chk (b : Bool) (x : Dom) : (domSet s b x).chk = s.chk := rfl
@[simp] theorem domSet_units (b : Bool) (x : Dom) : (domSet s b x).units = s.units := rfl
@[simp] theorem domSet_dos (b : Bool) (x : Dom) : (domSet s b x).dos = s.dos := rfl
@[simp] theorem domSet_pac (b : Bool) (x : Dom) : (domSet s b x).pac = s.pac := rfl
@[simp] theorem domSet_enc (b : Bool) (x : Dom) : (domSet s b x).enc = s.enc := rfl
@[simp] theorem domSet_swl (b : Bool) (x : Dom) : (domSet s b x).swl = s.swl := rfl
@[simp] theorem domSet_twn (b : Bool) (x : Dom) : (domSet s b x).twn = s.twn := rfl
@[simp] theorem domSet_lft (b : Bool) (x : Dom) : (domSet s b x).lft = s.lft := rfl
@[simp] theorem domSet_grn (b : Bool) (x : Dom) : (domSet s b x).grn = s.grn := rfl
@[simp] theorem domSet_slo (b : Bool) (x : Dom) : (domSet s b x).slo = s.slo := rfl
@[simp] theorem domSet_store (b : Bool) (x : Dom) : (domSet s b x).store = s.store := rfl
@[simp] theorem domSet_obs (b : Bool) (x : Dom) : (domSet s b x).obs = s.obs := rfl
@[simp] theorem domSet_readbacks (b : Bool) (x : Dom) : (domSet s b x).readbacks = s.readbacks := rfl

/-! ### setStripe writes `pac` -/

@[simp] theorem setStripe_pending (st : Stripe) : (setStripe st s).pending = s.pending := rfl
@[simp] theorem setStripe_outs (st : Stripe) : (setStripe st s).outs = s.outs := rfl
@[simp] theorem setStripe_free (st : Stripe) : (setStripe st s).free = s.free := rfl
@[simp] theorem setStripe_pins (st : Stripe) : (setStripe st s).pins = s.pins := rfl
@[simp] theorem setStripe_glb (st : Stripe) : (setStripe st s).glb = s.glb := rfl
@[simp] theorem setStripe_regs (st : Stripe) : (setStripe st s).regs = s.regs := rfl
@[simp] theorem setStripe_latch (st : Stripe) : (setStripe st s).latch = s.latch := rfl
@[simp] theorem setStripe_halves (st : Stripe) : (setStripe st s).halves = s.halves := rfl
@[simp] theorem setStripe_hst (st : Stripe) : (setStripe st s).hst = s.hst := rfl
@[simp] theorem setStripe_chains (st : Stripe) : (setStripe st s).chains = s.chains := rfl
@[simp] theorem setStripe_chk (st : Stripe) : (setStripe st s).chk = s.chk := rfl
@[simp] theorem setStripe_units (st : Stripe) : (setStripe st s).units = s.units := rfl
@[simp] theorem setStripe_dos (st : Stripe) : (setStripe st s).dos = s.dos := rfl
@[simp] theorem setStripe_enc (st : Stripe) : (setStripe st s).enc = s.enc := rfl
@[simp] theorem setStripe_swl (st : Stripe) : (setStripe st s).swl = s.swl := rfl
@[simp] theorem setStripe_twn (st : Stripe) : (setStripe st s).twn = s.twn := rfl
@[simp] theorem setStripe_lft (st : Stripe) : (setStripe st s).lft = s.lft := rfl
@[simp] theorem setStripe_tim (st : Stripe) : (setStripe st s).tim = s.tim := rfl
@[simp] theorem setStripe_grn (st : Stripe) : (setStripe st s).grn = s.grn := rfl
@[simp] theorem setStripe_slo (st : Stripe) : (setStripe st s).slo = s.slo := rfl
@[simp] theorem setStripe_store (st : Stripe) : (setStripe st s).store = s.store := rfl
@[simp] theorem setStripe_obs (st : Stripe) : (setStripe st s).obs = s.obs := rfl
@[simp] theorem setStripe_readbacks (st : Stripe) : (setStripe st s).readbacks = s.readbacks := rfl

/-! ### Reading back -/

@[simp] theorem emit_outs (o : Output) : (emit o s).outs = o :: s.outs := rfl
@[simp] theorem setStripe_stripe (st : Stripe) : (setStripe st s).pac.stripe = some st := rfl
@[simp] theorem domGet_domSet_same (b : Bool) (x : Dom) : domGet (domSet s b x) b = x := by cases b <;> rfl
@[simp] theorem domGet_domSet_other (b : Bool) (x : Dom) : domGet (domSet s b x) (!b) = domGet s (!b) := by cases b <;> rfl
@[simp] theorem regGet_regSet_same (off v : Nat) : regGet (regSet s off v) off = v % 2 ^ 32 := by simp [regGet, regSet]
theorem regGet_regSet_ne {off p : Nat} (v : Nat) (h : p ≠ off) : regGet (regSet s off v) p = regGet s p := by
  simp only [regGet, regSet, tset]
  split <;> simp [tget_tdel_ne _ _ h, tget_tput_ne _ _ _ h]
@[simp] theorem chainGet_chainSet_same (c : Nat) (x : Chain) : chainGet (chainSet s c x) c = x := by simp [chainGet, chainSet]
theorem chainGet_chainSet_ne {a b : Nat} (x : Chain) (h : b ≠ a) : chainGet (chainSet s a x) b = chainGet s b := by simp [chainGet, chainSet, tget_tset_ne _ _ _ h]
@[simp] theorem encGet_encSet_same (n : Nat) (x : EncCh) : encGet (encSet s n x) n = x := by simp [encGet, encSet]
theorem encGet_encSet_ne {a b : Nat} (x : EncCh) (h : b ≠ a) : encGet (encSet s a x) b = encGet s b := by simp [encGet, encSet, tget_tset_ne _ _ _ h]
@[simp] theorem cmpGet_cmpSet_same (k : Nat) (x : Cmp) : cmpGet (cmpSet s k x) k = x := by simp [cmpGet, cmpSet]
theorem cmpGet_cmpSet_ne {a b : Nat} (x : Cmp) (h : b ≠ a) : cmpGet (cmpSet s a x) b = cmpGet s b := by simp [cmpGet, cmpSet, tget_tset_ne _ _ _ h]
@[simp] theorem laneGet_laneSet_same (l : Nat) (x : Lane) : laneGet (laneSet s l x) l = x := by simp [laneGet, laneSet]
theorem laneGet_laneSet_ne {a b : Nat} (x : Lane) (h : b ≠ a) : laneGet (laneSet s a x) b = laneGet s b := by simp [laneGet, laneSet, tget_tset_ne _ _ _ h]
@[simp] theorem retGet_retSet_same (k : Nat) (x : RetLane) : retGet (retSet s k x) k = x := by simp [retGet, retSet]
theorem retGet_retSet_ne {a b : Nat} (x : RetLane) (h : b ≠ a) : retGet (retSet s a x) b = retGet s b := by simp [retGet, retSet, tget_tset_ne _ _ _ h]
@[simp] theorem dxpGet_dxpSet_same (k : Nat) (x : DxpLane) : dxpGet (dxpSet s k x) k = x := by simp [dxpGet, dxpSet]
theorem dxpGet_dxpSet_ne {a b : Nat} (x : DxpLane) (h : b ≠ a) : dxpGet (dxpSet s a x) b = dxpGet s b := by simp [dxpGet, dxpSet, tget_tset_ne _ _ _ h]
@[simp] theorem lftGet_lftSet_same (c : Nat) (x : LftCh) : lftGet (lftSet s c x) c = x := by simp [lftGet, lftSet]
theorem lftGet_lftSet_ne {a b : Nat} (x : LftCh) (h : b ≠ a) : lftGet (lftSet s a x) b = lftGet s b := by simp [lftGet, lftSet, tget_tset_ne _ _ _ h]
@[simp] theorem portGet_portSet_same (p : Nat) (x : Port) : portGet (portSet s p x) p = x := by simp [portGet, portSet]
theorem portGet_portSet_ne {a b : Nat} (x : Port) (h : b ≠ a) : portGet (portSet s a x) b = portGet s b := by simp [portGet, portSet, tget_tset_ne _ _ _ h]

end Sys2Proof.Machine
end

