-- ==== Sys2Proof/Machine/Line.lean ====
section
/-! DEFINITION. The wire form of what the lanes send (R236 to R240, R246, R284, R287, R458, R459): PAM4 symbols, blocks, the
scrambler, and the blocks of a frame, a Dexpin message and a trace record. The outputs of State carry frames, blocks and
messages; these functions take them to bits and symbols. No reader of the device sees that form (DESIGN CHOICE, log 96). -/

namespace Sys2Proof.Machine

/-- A PAM4 level from two bits, the first sent first (R236). -/
def pam4 : Bool → Bool → Int
  | false, false => -3
  | false, true => -1
  | true, true => 1
  | true, false => 3

/-- Symbols of a bit stream (R236). -/
def symbols : List Bool → List Int
  | a :: b :: t => pam4 a b :: symbols t
  | _ => []

/-- The bits of a payload word in the order sent (R237). -/
def wordBits (w : Nat) : List Bool := (List.range 64).map (fun i => w.testBit i)

/-- A block before scrambling (R237). -/
structure LineBlock where
  control : Bool
  word0 : Nat
  word1 : Nat
  deriving DecidableEq, Repr

/-- The sync header (R237). -/
def LineBlock.sync (b : LineBlock) : List Bool := if b.control then [true, false] else [false, true]
def LineBlock.payload (b : LineBlock) : List Bool := wordBits b.word0 ++ wordBits b.word1

/-- The scrambler 1 + x³⁹ + x⁵⁸ over payload bits (R238): `past` holds the scrambled bits, newest first. -/
def scramble : List Bool → List Bool → List Bool × List Bool
  | past, [] => ([], past)
  | past, b :: t =>
    let o := xor b (xor (past.getD 38 false) (past.getD 57 false))
    let (r, p) := scramble ((o :: past).take 58) t
    (o :: r, p)

/-- The 130 bits of a block and the scrambler after it; in PRESET, TAP and loopback no block is scrambled (R238). -/
def LineBlock.bits (b : LineBlock) (scrambled : Bool) (past : List Bool) : List Bool × List Bool :=
  if scrambled then let (r, p) := scramble past b.payload; (b.sync ++ r, p) else (b.sync ++ b.payload, past)

/-- The PRBS31 stream x³¹ + x²⁸ + 1 of training and loopback (R238): `n` bits after the 31 given, newest first. -/
def prbs31 : Nat → List Bool → List Bool
  | 0, _ => []
  | n + 1, past => let o := xor (past.getD 30 false) (past.getD 27 false); o :: prbs31 n ((o :: past).take 31)

/-- Words two by two; a word without a partner is followed by 0 (R240). -/
def pairWords : List Nat → List LineBlock
  | a :: b :: t => ⟨false, a, b⟩ :: pairWords t
  | [a] => [⟨false, a, 0⟩]
  | [] => []

/-- The blocks of a frame: its header is word 0 of a SOF0 block, or word 1 of a SOF1 block (R239, R240, R246). -/
def frameBlocks (second : Bool) (frame : List Byte) : List LineBlock :=
  match wordsOfBytes frame with
  | [] => []
  | h :: t => if second then ⟨true, 0x78, h⟩ :: pairWords t
              else ⟨true, h, t.headD 0⟩ :: pairWords t.tail

/-- IDLE, and a control block of 16 bytes such as AM and TRAIN (Table 7-2). -/
def idleBlock : LineBlock := ⟨true, 0x1E, 0⟩
def controlBlock (bs : List Byte) : LineBlock := ⟨true, fld bs 0 8, fld bs 8 8⟩

/-! ### What a swath lane drives (Table 7-14, R238, R240, R265, R276) -/

/-- The kinds of line content: electrical idle, PRBS31 data blocks with or without TRAIN blocks, IDLE blocks and AMs around frames. -/
inductive LineContent where
  | electricalIdle | prbs (train : Bool) | idleBlocks
  deriving DecidableEq, Repr

/-- What lane l drives on its balls: in loopback mode 01 nothing, in modes 10 and 11 the pattern. -/
def lineContent (s : State) (l : Nat) : LineContent := match (laneGet s l).state with
  | .disabled | .pllWait => .electricalIdle
  | .preset | .tap => .prbs true
  | .align | .active => .idleBlocks
  | .loopback => if laneLoop s l = 1 then .electricalIdle else .prbs false

/-- The payload bits of lane l are scrambled in ALIGN and ACTIVE, and in no other state (R238). -/
def lineScrambled (s : State) (l : Nat) : Bool := decide ((laneGet s l).state = .align ∨ (laneGet s l).state = .active)

/-- The words that 128 bits in the order sent spell. -/
def bitsWord (bs : List Bool) : Nat := ((bs.zipIdx).map (fun (b, i) => if b then 2 ^ i else 0)).sum

/-- Block k of lane l where no frame and no AM stands: every 64th in PRESET and TAP is a TRAIN block, the others carry the next 128 bits of the
PRBS31 stream `pattern`; in ALIGN and ACTIVE IDLE. -/
def lineBlock (s : State) (l k : Nat) (pattern : List Bool) : Option LineBlock :=
  let x := laneGet s l
  match lineContent s l with
  | .electricalIdle => none
  | .idleBlocks => some idleBlock
  | .prbs train =>
    if train ∧ k % 64 = 63 then
      some (controlBlock (trainBytes l (if x.state = .preset then 1 else 2) x.ackSeq x.ack (lTaps s l) ++ List.replicate 8 0))
    else let p := prbs31 128 pattern; some ⟨false, bitsWord (p.take 64), bitsWord (p.drop 64)⟩

/-- The bits that lane l drives for a block. -/
def lineBits (s : State) (l : Nat) (b : LineBlock) (past : List Bool) : List Bool × List Bool := b.bits (lineScrambled s l) past

/-- The quad checker checks the words of the pattern: taken before the serializer in mode 01, from the monitor receiver in mode 10 (R276). -/
def checkerSees (s : State) (l : Nat) (pattern : List Bool) : Option (Nat × Nat) :=
  if nearEnd s l then let p := prbs31 128 pattern; some (bitsWord (p.take 64), bitsWord (p.drop 64)) else none

/-! ### The pace link (R190) -/

/-- A pace frame on PACE_DAT: byte by byte, least significant bit first. -/
def paceBits (frame : List Byte) : List Bool := frame.flatMap (fun b => (List.range 8).map (fun i => b.getLsbD i))

/-- Bit k of PACE_DAT counted from the first bit of a frame: behind the frame it is held at 1. -/
def paceDat (frame : List Byte) (k : Nat) : Bool := (paceBits frame).getD k true

/-- The link blocks of a Dexpin message: eight blocks each, one a lane, words k and k + 8 of the 16 on lane k; the lane-0
block of the first is a control block (R284, R287). -/
def messageBlocks (words : List Nat) : List (List LineBlock) :=
  (List.range (ceilDiv words.length 16)).map (fun b => (List.range 8).map (fun k =>
    ⟨decide (b = 0 ∧ k = 0), words.getD (16 * b + k) 0, words.getD (16 * b + k + 8) 0⟩))

/-- The two 66-bit data blocks of a trace record before scrambling: sync header 01 and eight bytes (R458, R459). -/
def traceBlocks (rec_ : List Byte) : List (List Bool) :=
  [[false, true] ++ wordBits (fld rec_ 0 8), [false, true] ++ wordBits (fld rec_ 8 8)]

end Sys2Proof.Machine
end

