-- ==== Sys2Proof/Machine/Package.lean ====
section
/-! DEFINITION. The part around the logic (R512 to R536): the ball map, the low-speed pins, the clock domains, the supply
limits and ratings, and what the test access port identifies. These are tables of chapter 16; the state of the block does
not depend on them, and no command acts on them (DESIGN CHOICE, log 97). -/

namespace Sys2Proof.Machine

/-! ### Balls (R512 to R516) -/

/-- The letters of R512 in order, by their ASCII codes: A to H, J to N, P, T to W and Y. -/
def rowLetters : List Nat := [65, 66, 67, 68, 69, 70, 71, 72, 74, 75, 76, 77, 78, 80, 84, 85, 86, 87, 89]

/-- Row index to name (R512, Table 16-1); the index of row A is 1. -/
def rowName (i : Nat) : List Nat :=
  let l := rowLetters.getD ((i - 1) % 19) 0
  if i ≤ 19 then [l] else [rowLetters.getD ((i - 1) / 19 - 1) 0, l]

/-- The supply rails of Table 16-11. -/
inductive Rail
  | core | sram | serialLow | serialHigh | dram | io | encoder | nvm
  deriving DecidableEq, Repr

/-- The low-speed pins of Table 16-7. -/
inductive LowPin
  | sysRstN | pciePerstN | pfwN | refclkSys | devReady | devFaultN | twinLiveO | twinLiveI | tck | tms | tdi | trstN | tdo
  deriving DecidableEq, Repr

/-- What a ball carries (Tables 16-2 to 16-5). `neg` marks the _N side of a differential pair; `c` is a loft channel. -/
inductive Ball
  | vss | nc
  | supply (r : Rail)
  | dq (c n : Nat) | dqs (c n : Nat) (neg : Bool) | dca (c n : Nat) | dpar (c n : Nat) | dck (c n : Nat) (neg : Bool)
  | dcs (c n : Nat) | alertN (c : Nat) | dimmResetN (c : Nat) | scl (c : Nat) | sda (c : Nat)
  | swlTx (l : Nat) (neg : Bool) | swlRtn (k : Nat) (neg : Bool)
  | pcieTx (i : Nat) (neg : Bool) | pcieRx (i : Nat) (neg : Bool)
  | dxpTx (k : Nat) (neg : Bool) | dxpRx (k : Nat) (neg : Bool)
  | ethTx (p : Nat) (neg : Bool) | ethRx (p : Nat) (neg : Bool) | trcTx (t : Nat) (neg : Bool)
  | refclkPcie (neg : Bool) | refclkSwl (neg : Bool) | refclkEth (neg : Bool)
  | calSl | calDdr | tdiode (neg : Bool)
  | encSin (n : Nat) (neg : Bool) | encCos (n : Nat) (neg : Bool)
  | paceClk (neg : Bool) | paceDat (neg : Bool)
  | pin (p : LowPin)
  deriving DecidableEq, Repr

/-- A rail on the even squares of a checkerboard and ground on the odd ones (Table 16-2). -/
def checker (r : Rail) (row col : Nat) : Ball := if (row + col) % 2 = 0 then .supply r else .vss

/-- A loft channel's block by i and j (R514, Table 16-3). -/
def loftBall (c i j : Nat) : Ball :=
  if i ≤ 4 ∨ (6 ≤ i ∧ i ≤ 10) then
    let s := if i ≤ 4 then 0 else 1
    let d := 2 * (i - 6 * s) + j / 6
    if j % 6 < 4 then .dq c (40 * s + 4 * d + j % 6) else .dqs c (10 * s + d) (j % 6 = 5)
  else if i = 5 then .supply .dram
  else if i = 11 then .vss
  else if i = 12 ∨ i = 13 then
    let s := i - 12
    if j < 7 then .dca c (7 * s + j) else if j = 7 then .dpar c s else .dck c (2 * s + (j - 8) / 2) (j % 2 = 1)
  else if i = 14 then
    if j < 8 then .dcs c j else if j = 8 then .alertN c else if j = 9 then .dimmResetN c else if j = 10 then .scl c else .sda c
  else if j < 2 then .supply .dram else .vss

/-- The PCIe region (Tables 16-2 and 16-4). -/
def pcieBall (row col : Nat) : Ball :=
  if row = 16 then
    if col = 26 then .refclkPcie false else if col = 27 then .refclkPcie true else if col = 29 then .pin .pciePerstN else .vss
  else if row % 2 = 0 then .vss
  else if col = 38 then .supply .serialLow
  else if col = 39 then .supply .serialHigh
  else if 26 ≤ col ∧ col ≤ 36 ∧ (col - 26) % 3 < 2 then
    let i := 4 * ((row - 1) / 2 % 4) + (col - 26) / 3
    if row < 9 then .pcieTx i ((col - 26) % 3 = 1) else .pcieRx i ((col - 26) % 3 = 1)
  else .vss

/-- The swath region (Tables 16-2 and 16-4). -/
def swathBall (row col : Nat) : Ball :=
  if row % 2 = 1 then .swlTx (16 * ((63 - row) / 2) + (col - 16) / 2) (col % 2 = 1) else .vss

/-- The return region (Tables 16-2 and 16-4). -/
def returnBall (row col : Nat) : Ball :=
  if 55 ≤ row then checker .serialLow row col
  else if row % 2 = 0 then .supply .serialHigh
  else if row = 53 then
    if col = 2 then .refclkSwl false else if col = 3 then .refclkSwl true else if col = 5 then .calSl else .vss
  else if 2 ≤ col ∧ col ≤ 12 ∧ (col - 2) % 3 < 2 then .swlRtn ((if row = 49 then 0 else 4) + (col - 2) / 3) ((col - 2) % 3 = 1)
  else .vss

/-- The pins of row BT from column 53 on, in order (Table 16-5). -/
def rowBT : List LowPin := [.sysRstN, .pfwN, .devReady, .devFaultN, .twinLiveO, .twinLiveI, .tck, .tms, .tdi, .tdo, .trstN]

/-- The service region (R516, Tables 16-4 and 16-5). -/
def serviceBall (row col : Nat) : Ball :=
  let n := (col - 48) / 2
  let neg := decide (col % 2 = 1)
  match row with
  | 63 => .dxpTx n neg
  | 61 => .dxpRx n neg
  | 59 => if n < 2 then .ethTx n neg else if n < 4 then .ethRx (n - 2) neg else .trcTx (n - 4) neg
  | 57 =>
    if n = 0 then .refclkEth neg
    else if col = 51 then .pin .refclkSys
    else if col = 53 then .calDdr
    else if col = 55 ∨ col = 56 then .tdiode (col = 56)
    else if col < 58 then .vss else .supply .serialLow
  | 56 => if col < 56 then .supply .serialLow else .supply .serialHigh
  | 55 => if n % 2 = 0 then .encSin (n / 2) neg else .encCos (n / 2) neg
  | 54 => if col < 52 then .supply .encoder else .vss
  | 53 => if n = 0 then .paceClk neg else if n = 1 then .paceDat neg else if col = 52 then .vss else .pin (rowBT.getD (col - 53) .trstN)
  | 52 => .supply .io
  | 51 => if n = 0 then .supply .nvm else .vss
  | 50 => if col < 60 then .nc else .vss
  | 49 => .supply .sram
  | _ => .vss

/-- The ball at a row index and a column, each 1 to 63 (R513, Table 16-2). -/
def ballAt (row col : Nat) : Ball :=
  if row ≤ 48 then
    if 25 ≤ col ∧ col ≤ 39 then
      if row ≤ 16 then pcieBall row col else if row ≤ 44 then checker .core row col else checker .sram row col
    else
      let block := (row - 1) / 16
      let i := (row - 1) % 16
      if col ≤ 12 then loftBall block i (col - 1)
      else if col ≤ 24 then loftBall (3 + block) i (col - 13)
      else if col ≤ 51 then loftBall (9 + block) i (col - 40)
      else loftBall (6 + block) i (col - 52)
  else if col ≤ 15 then returnBall row col
  else if col ≤ 47 then swathBall row col
  else serviceBall row col

/-- Every ball of the package (R512). -/
def allBalls : List Ball := (List.range 3969).map (fun n => ballAt (n / 63 + 1) (n % 63 + 1))

/-- Number of balls that carry b. -/
def ballCount (b : Ball) : Nat := allBalls.countP (fun x => x == b)

/-! ### Low-speed pins and the test access port (R517, R518) -/

/-- Pull resistor of an input (Table 16-7). -/
inductive Pull
  | none | up | down
  deriving DecidableEq, Repr

/-- Driver of an output (Table 16-7). -/
inductive Driver
  | pushPull | openDrain | triState
  deriving DecidableEq, Repr

/-- A row of Table 16-7: an input with its pull, or an output with its driver. -/
inductive PinKind
  | input (schmitt : Bool) (pull : Pull)
  | output (driver : Driver)
  deriving DecidableEq, Repr

/-- Table 16-7. -/
def LowPin.kind : LowPin → PinKind
  | .sysRstN => .input true .none
  | .pciePerstN => .input true .up
  | .pfwN => .input true .up
  | .refclkSys => .input false .none
  | .devReady => .output .pushPull
  | .devFaultN => .output .openDrain
  | .twinLiveO => .output .pushPull
  | .twinLiveI => .input false .down
  | .tck => .input false .up
  | .tms => .input false .up
  | .tdi => .input false .up
  | .trstN => .input false .down
  | .tdo => .output .triState

/-- The level that an unconnected input reads, where its pull gives one (R517). -/
def LowPin.unconnected (p : LowPin) : Option Bool :=
  match p.kind with
  | .input _ .up => some true
  | .input _ .down => some false
  | _ => none

/-- The level that an input of a voltage in millivolts reads: none between VIL and VIH, where Table 16-8 states none. -/
def lowPinLevel (mv : Int) : Option Bool := if 1170 ≤ mv then some true else if mv ≤ 630 then some false else none

/-- The instructions of the test access port (R518). -/
inductive TapInstr
  | idcode | bypass | samplePreload | extest | extestPulse | extestTrain
  deriving DecidableEq, Repr

/-- What an instruction acts as: outside reset the three tests act as BYPASS (R518). -/
def TapInstr.acts (t : TapInstr) (sysRstN : Bool) : TapInstr :=
  match t with
  | .extest | .extestPulse | .extestTrain => if sysRstN then .bypass else t
  | .idcode | .bypass | .samplePreload => t

/-- The IDCODE: version, part number, manufacturer and a 1 (R518). -/
def idcode : BitVec 32 := (0x1 : BitVec 4) ++ (0x2604 : BitVec 16) ++ Config.jep106 ++ (1 : BitVec 1)

/-! ### Clocks (R525, R526) -/

/-- The reference inputs of Table 16-9. -/
inductive RefClock
  | sys | swl | pcie | eth
  deriving DecidableEq, Repr

/-- Nominal frequency in kHz (Table 16-9). -/
def RefClock.kHz : RefClock → Nat
  | .sys => 25000 | .swl => 156250 | .pcie => 100000 | .eth => 156250

/-- The clock domains of Table 16-10. -/
inductive ClockDomain
  | core | loft | time | enc | hk | pcie | swl
  deriving DecidableEq, Repr

/-- Source and ratio of a domain, the ratio as numerator and denominator (R526, Table 16-10). -/
def ClockDomain.derived : ClockDomain → RefClock × Nat × Nat
  | .core => (.sys, 50, 1) | .loft => (.sys, 64, 1) | .time => (.sys, 10, 1) | .enc => (.sys, 32, 5) | .hk => (.sys, 4, 1)
  | .pcie => (.pcie, 10, 1) | .swl => (.swl, 45, 8)

/-- Frequency in Hz (Table 16-10). -/
def ClockDomain.hz (d : ClockDomain) : Nat :=
  let (r, n, m) := d.derived
  r.kHz * 1000 * n / m

/-- A reference within its tolerance in parts per million, as a measured frequency in Hz (Table 16-9); REFCLK_SWL meets Table 7-7. -/
def RefClock.inTolerance (r : RefClock) (hz : Nat) : Option Bool :=
  let within (ppm : Nat) := decide ((if hz ≤ r.kHz * 1000 then r.kHz * 1000 - hz else hz - r.kHz * 1000) * 1000000 ≤ ppm * (r.kHz * 1000))
  match r with
  | .sys => some (within 50)
  | .pcie => some (within 300)
  | .eth => some (within 100)
  | .swl => none

/-! ### Supplies and temperature (R527 to R532) -/

/-- Lowest, typical and highest voltage in units of 0.1 mV (R527, Table 16-11). -/
def Rail.limits : Rail → Nat × Nat × Nat
  | .core => (7275, 7500, 7725)
  | .sram => (7760, 8000, 8240)
  | .serialLow => (8730, 9000, 9270)
  | .serialHigh => (11640, 12000, 12360)
  | .dram => (10670, 11000, 11330)
  | .io => (17460, 18000, 18540)
  | .encoder => (17460, 18000, 18540)
  | .nvm => (24250, 25000, 25750)

/-- Largest current in mA, and ripple and noise in mV peak to peak (Table 16-11). -/
def Rail.load : Rail → Nat × Nat
  | .core => (140000, 20) | .sram => (28000, 20) | .serialLow => (32000, 10) | .serialHigh => (8000, 10)
  | .dram => (24000, 25) | .io => (2000, 50) | .encoder => (300, 5) | .nvm => (200, 50)

/-- Absolute maximum in units of 0.1 mV; the minimum of every rail is −0.30 V (R528, Table 16-12). -/
def Rail.absMax : Rail → Nat
  | .core => 9500 | .sram => 9500 | .serialLow => 10500 | .serialHigh => 14000
  | .dram => 14000 | .io => 21000 | .encoder => 21000 | .nvm => 29000

/-- The rails that the supply monitor compares (R530). -/
def Rail.monitored : Rail → Bool
  | .core | .sram | .nvm => true
  | .serialLow | .serialHigh | .dram | .io | .encoder => false

/-- What the monitor says of a rail at a voltage in units of 0.1 mV: within limits, outside, or either, within 6 mV of a
limit (R530). -/
def Rail.monitor (r : Rail) (v : Nat) : Option Bool :=
  let (lo, _, hi) := r.limits
  if ¬ r.monitored then none
  else if lo + 60 ≤ v ∧ v + 60 ≤ hi then some true
  else if v + 60 < lo ∨ hi + 60 < v then some false
  else none

/-- Power by block in units of 0.1 W: typical and largest, in the order of Table 16-13 (R531). -/
def blockPower : List (Nat × Nat) :=
  [(520, 640), (80, 100), (90, 110), (140, 170), (300, 370), (280, 330), (30, 40), (60, 80), (15, 20), (65, 100)]

/-- The junction temperature in units of 0.01 °C, from the case temperature in the same unit and the power in units of
0.1 W (R532): 0.05 °C per W. -/
def junction (tCase : Int) (power : Nat) : Int := tCase + (power : Int) * 5 / 10

/-- The largest case temperature in units of 0.01 °C at a power in units of 0.1 W (R532). -/
def caseLimit (power : Nat) : Int := 10500 - (power : Int) * 5 / 10

end Sys2Proof.Machine
end

