-- ==== Sys2Proof/Tests/Slice0.lean ====
section
/-! SUPPORT. Tests: the well-formedness smoke, single commands on small states, and a witness for the hypotheses of every
statement. -/

-- One theorem at a time: elaborating the package as one text in many threads at once takes more memory than the check allows.
set_option Elab.async false

namespace Sys2Proof.Tests
open Sys2Proof Sys2Proof.Machine

/-- A powered device out of reset whose start-up has ended, without a link, a loft channel or a stripe. -/
def live : State :=
  { State.reset with
    pins := { sysRstN := true, devReady := true, twinLiveO := true, idle := false },
    glb := { phase := .ready, clocksOk := true, selftestOk := true, encOk := true, lanesStarted := true },
    grn := { loaded := true }, dos := { ready := true }, units := { thrReady := true }, lft := { trained := true, ready := true } }

/-- The outcome's state, where a step goes on. -/
def after (o : Host.Outcome State Fault Refusal) : State := match o with
  | .next s => s
  | _ => State.reset

/-- A started command 0 of an opcode with parameter bytes. -/
def cmdOf (op : Nat) (ps : List Byte) : Cmd :=
  { id := 0, opcode := op, flags := 0, tag := 7, rsv := List.replicate 12 0, params := ps ++ List.replicate (48 - ps.length) 0, phase := .started }

def withCmd (c : Cmd) (s : State) : State := { s with hst := { s.hst with inflight := [c], nextId := 1 } }
def withReg (off v : Nat) (s : State) : State := regSet s off v

/-- An admission of one tile row with four passes. -/
def adm0 : Admission :=
  { id := 1, cmd := some 9, phase := .held, sheaf := 0x100000, sheafLen := 256, bin := 0x200000, binLen := 4096, report := 0x1000, y0 := 0x1000000,
    plan := { segs := [⟨100, 100, 0, 0⟩], thr := 128, ing := 32, nch := 0, regs := [6000, 100, 100000, 4000, 4294967296, 10], runup := 10, runout := 10 } }

/-- A stripe of that admission. -/
def stripe0 (st : StripeState) : Stripe :=
  { adm := adm0, id := 1, cmd := some 9, state := st, plan := adm0.plan, segFirst := 0, slotFirst := 0, slotEnd := 64, makeup := none, owed := 0,
    domB := false, startAt := none, wait := 2, k := 0, stop := none, tgt := 0, tgtFrac := 0, nextSlot := 0, trigArmed := false,
    tgtFrom := 0, due := none, lastIssue := none, grpStart := 0, reversed := false, lastSlot := none, lateRun := none, groups := [], peerEarly := [],
    nextGroup := 0, groupLimit := 8, jobs := [], fills := [], lostTiles := [], dY := 0, dX := 0, failY := false, failX := false, overGroups := [],
    abort := none, cut := false, firstFail := none, crib := [], doneRaised := false, started := false, mkCount := 0, overrunRaised := false }

def withStripe (st : Stripe) (s : State) : State :=
  { s with pac := { s.pac with stripe := some st, adm := some st.adm,
                               acct := some { id := st.id, baseId := st.adm.id, hdr := st.adm.hdr, gens := [(0, 0)], makeup := none, bins := [], grid := [], table := {} } } }
def withAdm (a : Admission) (s : State) : State := { s with pac := { s.pac with adm := some a } }
def withTwn (t : Twn) (s : State) : State := { s with twn := t }
def paired : Twn := { link := .up, paired := true, partnerLive := true }
def inServ : LftCh := { state := .inService, density := 1, ranks := 1, dimms := 1, steps := 5 }
def withCh (c : Nat) (x : LftCh) (s : State) : State := lftSet s c x

/-- The host interface enabled, linked and polled, two started commands' room at the ring. -/
def ring (s : State) : State := withReg 0x10000 1 { s with hst := { s.hst with linkUp := true, polled := true, cplHead := 5 } }
def withChain (c : Nat) (x : Chain) (s : State) : State := chainSet s c x
def hst (f : Hst → Hst) (s : State) : State := { s with hst := f s.hst }
def held1 : Entry := { event := false, opClass := 0, tagCode := 0, status := 0, time := 0, slot := 0, data := [] }
/-- A descriptor of one 64-byte line: from host address 0x1000 to loft address 0x100000, or the other way. -/
def descH : Desc := { next := 1, src := 0x1000, dst := 0x100000, lineLen := 64, lineCount := 1, srcStride := 64, dstStride := 64, control := 0, user := 0 }
def descL : Desc := { descH with src := 0x100000, dst := 0x2000, control := 1 }

/-! ### Witnesses: states and operands that meet the hypotheses of each statement, clause by clause -/

theorem witness_StepTakesFront : State.reset.pending = [] := by decide

theorem witness_EveryCommandRuns : (∃ t, exec .powerOn State.reset = .next t) ∧
    hostData (.doorbellPollComplete (some [])) ≠ none ∧
    (let s := { ring live with hst := { (ring live).hst with pollOut := true } };
      exec (.doorbellPollComplete (some [])) s = .fault (.malformed "data length")) :=
  ⟨⟨_, rfl⟩, by decide, rfl⟩

theorem witness_StepKeepsBounds : Bounded { State.reset with pending := [.powerOn] } ∧ ∃ t, step { State.reset with pending := [.powerOn] } = .next t :=
  ⟨⟨by decide, by decide, by decide, by decide, by decide, by decide, by decide⟩, _, rfl⟩

theorem groupsRise_stripe {s : State} {st : Stripe} (h : s.pac.stripe = some st) (h2 : (st.groups.map Prod.fst).Pairwise (· < ·)) : GroupsRise s := by
  intro x hx
  rw [h] at hx
  exact Option.some.inj hx ▸ h2

def twoGroups : State := withStripe { stripe0 .writing with groups := [(3, {}), (4, {})], nextGroup := 5 } live

theorem witness_StepKeepsGroups : GroupsRise { twoGroups with pending := [.ethPortUp 0] } ∧ ∃ t, step { twoGroups with pending := [.ethPortUp 0] } = .next t :=
  ⟨groupsRise_stripe rfl (by decide), _, rfl⟩

theorem witness_ResetsKeep : live.grn.writing = [] ∧ ({ live with pins := { live.pins with powered := true } }).pins.powered = true ∧ live.pins.sysRstN = true ∧
    writeReaches 0x28 live ∧ (0 : W32) ≠ 0x52534554 := by
  unfold writeReaches; decide +kernel

theorem witness_StartupSteps :
    (let s := { State.reset with pins := { powered := true } }; s.pins.powered = true ∧ s.pins.sysRstN = false) ∧
    ({ live with glb := { live.glb with phase := .clocks } }).glb.phase = .clocks ∧
    ({ live with glb := { live.glb with phase := .selftest } }).glb.phase = .selftest ∧
    startupReady { live with glb := { live.glb with phase := .loading } } = true := by decide +kernel

theorem witness_FatalCauses : live.glb.fatal = false ∧ live.glb.phase ≠ .reset ∧ live.pins.pfwN = true ∧ 1920 ≤ (0x780 : BitVec 16).toInt ∧
    live.pac.stripe = none := by decide

theorem witness_DieTemperature : live.glb.phase ≠ .reset ∧ (0x690 : BitVec 16).toInt = 1680 ∧ (0x77F : BitVec 16).toInt < 1920 ∧ (0x640 : BitVec 16).toInt = 1600 ∧
    (0x641 : BitVec 16).toInt = 1601 ∧ live.glb.dieHot = false ∧ live.slo.frozen = false ∧ (0x780 : BitVec 16).toInt = 1920 ∧ live.glb.fatal = false := by decide

theorem witness_EventRaised : ({ live with slo := { live.slo with frozen := true } }).slo.frozen = true := by decide

theorem witness_CompletionEntry :
    (let s := ring (withCmd (cmdOf 0 []) live); (cmdFind s 0).isSome = true ∧ s.hst.hold = [] ∧ ringOpen s = true) ∧
    (let s := withCmd (cmdOf 0 []) live; (cmdFind s 0).isSome = true ∧ ringOpen s = false ∧ s.hst.hold.length < 1024) := by decide +kernel

def minor1 : Entry := { held1 with event := true }
theorem witness_HoldQueueCaps :
    (let s := { live with hst := { live.hst with hold := List.replicate 256 minor1 } }; minor1.minor = true ∧ 256 ≤ (s.hst.hold.filter Entry.minor).length) ∧
    (let s := { live with hst := { live.hst with hold := List.replicate 1024 held1, held18 := true } };
      ¬ (held1.minor = true ∧ 256 ≤ (s.hst.hold.filter Entry.minor).length) ∧ 1024 ≤ s.hst.hold.length ∧ s.hst.held18 = true) ∧
    (let s := { live with hst := { live.hst with hold := List.replicate 255 minor1 } };
      ¬ (minor1.minor = true ∧ 256 ≤ (s.hst.hold.filter Entry.minor).length) ∧ s.hst.hold.length < 1024) := by decide +kernel

theorem witness_RingRows : ringOpen live = false ∧
    (let s := ring { live with hst := { live.hst with hold := [held1] } }; s.hst.hold = [held1] ∧ ringOpen s = true ∧ s.hst.dropSince + s.hst.lostSince = 0) ∧
    (let s := withReg 0x1002C 0x10005 { live with hst := { live.hst with modCount := 1 } }; regGet s 0x1002C % 65536 ≠ 0 ∧ 0 < s.hst.modCount ∧ 0 ∉ s.hst.unmasked) ∧
    (let s := { live with hst := { live.hst with unmasked := [0], pba := [63], linkUp := true, msixEn := true } }; 63 ∉ s.hst.unmasked ∧ vecOpen s 0 = true ∧ vecOpen live 0 = false) := by decide +kernel

theorem witness_HostResets : (let s := { live with pins := { live.pins with perstN := true } }; s.pins.perstN = true ∧ s.pins.sysRstN = true ∧ s.glb.phase ≠ .reset) ∧
    (ring live).hst.linkUp = true := by decide +kernel

theorem witness_DoorbellPolls : (hstEn (ring live) = true ∧ (ring live).hst.linkUp = true ∧ (ring live).hst.pollOut = false) ∧
    (let s := { ring live with hst := { (ring live).hst with pollOut := true } };
      s.hst.pollOut = true ∧ (List.replicate 128 (0 : Byte)).length = 128 ∧ (List.replicate 127 (0 : Byte)).length ≠ 128) := by decide +kernel

def polled1 (x : Chain) : State := withReg 0x11000 1 (withChain 0 x { ring live with hst := { (ring live).hst with pollOut := true } })
theorem witness_KicksStartChains : (List.replicate 128 (1 : Byte)).length = 128 ∧
    (let s := { polled1 {} with hst := { (polled1 {}).hst with polled := false } }; s.hst.pollOut = true ∧ s.hst.polled = false) ∧
    (let s := polled1 {}; s.hst.pollOut = true ∧ s.hst.polled = true ∧ chEn s 0 = true ∧ (chainGet s 0).owner = none ∧ (chainGet s 0).kickSeen ≠ 0x01010101 ∧
      (chainGet s 0).state = .idle) ∧
    (let s := polled1 { state := .wait }; chEn s 0 = true ∧ (chainGet s 0).owner = none ∧ (chainGet s 0).kickSeen ≠ 0x01010101 ∧ (chainGet s 0).state = .wait ∧
      (chainGet s 0).rereading = false) ∧
    chEn (withReg 0x11000 0 (polled1 {})) 0 = false := by decide +kernel

theorem witness_CommandFetch : live.hst.fetchLen = 0 ∧ (let s := { live with hst := { live.hst with fetchLen := 1 } };
    0 < s.hst.fetchLen ∧ (List.replicate 64 (0 : Byte)).length = 64 * s.hst.fetchLen ∧ s.hst.head < cmdSize s ∧ s.hst.fetchLen = 1 ∧
    (∀ d ∈ s.hst.inflight, d.id < s.hst.nextId) ∧ fld (List.replicate 64 (0 : Byte)) 0 1 ≤ 0x0E) := by decide +kernel

def waiting (op : Nat) : Cmd := { cmdOf op [] with phase := .waiting }
theorem witness_CommandStarts :
    (let s := withCmd (waiting 0x0E) live; cmdFind s 0 = some (waiting 0x0E) ∧ (waiting 0x0E).phase = .waiting ∧ mayStart s (waiting 0x0E) = true ∧ (waiting 0x0E).opcode ≤ 0x0E) ∧
    (let s := withCmd (waiting 0x0F) live; cmdFind s 0 = some (waiting 0x0F) ∧ mayStart s (waiting 0x0F) = true ∧ 0x0E < (waiting 0x0F).opcode) := by decide +kernel

theorem witness_EnablesHost : writeReaches 0x10000 live ∧ hstEn live = false ∧ writeReaches 0x10000 (ring live) ∧ hstEn (ring live) = true ∧ writeReaches (chBase 15) live ∧
    (let x := chainGet (withChain 15 { state := .stopped } live) 15; x.state = .stopped ∧ x.burst = none) ∧
    (chainGet live 15).state = .idle ∧
    (let x := chainGet (withChain 15 { state := .run, burst := some (0, 64) } live) 15; x.state = .run ∧ x.burst.isSome = true) ∧
    (let x := chainGet (withChain 15 { state := .run } live) 15; x.state = .run ∧ x.burst = none) := by
  unfold writeReaches; decide +kernel

/-- The bytes of a well-formed descriptor. -/
def descBytes : List Byte := le 8 1 ++ le 8 0x1000 ++ le 8 0x100000 ++ le 4 64 ++ le 4 1 ++ le 4 64 ++ le 4 64 ++ List.replicate 24 0
theorem witness_DescriptorReads :
    (let s := withChain 0 { state := .run, reading := true } (withCh 0 inServ live);
      (chainGet s 0).reading = true ∧ (chainGet s 0).rereading = false ∧ descBytes.length = 64 ∧ descCheck s 0 descBytes = 0 ∧
      (List.replicate 64 (0xFF : Byte)).length = 64 ∧ descCheck s 0 (List.replicate 64 0xFF) ≠ 0 ∧ (chainGet s 0).owner = none) ∧
    (chainGet (withChain 0 { state := .wait, rereading := true } live) 0).rereading = true ∧
    bitAt (fld (le 8 1) 0 8) 0 = true ∧ bitAt (fld (le 8 0x40) 0 8) 0 = false := by decide +kernel

/-- Loft region 1 valid on a live device with one channel. -/
def region1 : State := withCh 0 inServ { live with lft := { live.lft with valid := [1] } }
theorem plain_region1 {a n : Nat} (h1 : 0x100000 ≤ a) (h2 : a + n ≤ 0x200000) {s : State} (hs : s.lft = region1.lft) : plainLoft a n s := by
  refine ⟨by rw [hs]; decide, by rw [hs]; decide, by rw [hs]; decide, fun x h3 h4 => ?_⟩
  rw [hs]
  have : regionOf x = 1 := by unfold regionOf; omega
  rw [this]
  decide

theorem witness_LoftWrites : (regionOf 0x1FFFC0 ∈ region1.lft.valid ∧ region1.lft.waits = [] ∧ region1.lft.fills = [] ∧ writeRoom region1 (0x1FFFC0 / 64) = true) ∧
    (let w : LftReq := { rank := 4, client := 0, addr := 0x1FFFC0, data := List.replicate 64 1 }; w.addr % 64 = 0 ∧ w.data.length = 64 ∧ weevilHits region1 (w.addr / 64) = false) := by
  decide +kernel

/-- Chain 0 runs descriptor d; the link is up. -/
def running (d : Desc) (x : Chain) : State := withChain 0 { x with state := .run, desc := some d } (hst ({ · with linkUp := true }) region1)
theorem witness_BurstStarts :
    (let x := chainGet (running descH {}) 0; x.desc = some descH ∧ x.state = .run ∧ x.burst = none ∧ x.withdrawn = false ∧ descMoved x = false ∧ descH.lineLen > x.off) ∧
    (descH.dir = 0 ∧ descL.dir = 1 ∧ linkLive (running descH {}) = true ∧ burstGrant (running descH {}) 0 1 = true ∧ burstGrant (running descH {}) 0 0 = false) ∧
    { descH with control := 2 }.dir = 2 := by decide +kernel

def burstOf (d : Desc) : State := running d { burst := some (d.src, 64) }
/-- The chain has read the block of its burst. -/
def burstGot : State := running descL { burst := some (0x100000, 64), got := [(0x100000 / 64, (0, List.replicate 64 1))] }
theorem witness_BurstEnds :
    (let x := chainGet (burstOf descH) 0; x.desc = some descH ∧ x.burst = some (0x1000, 64) ∧ x.withdrawn = false ∧ x.landed = false ∧ descH.crcStore = false ∧ descH.dir = 0 ∧
      (List.replicate 64 (0 : Byte)).length = 64) ∧
    chainWriting (after (exec (.dmaBurstEnd 0 (some (List.replicate 64 1))) (burstOf descH))) 0 = false ∧
    chainWriting (after (exec (.dmaBurstEnd 0 (some (List.replicate 64 1))) (withCh 0 { inServ with writes := List.replicate 64 ⟨4, 1, 0, 0, 0, 0, .realTime, 0, [], false, {}, false, false⟩ } (burstOf descH)))) 0 = true ∧
    (let x := chainGet burstGot 0; x.desc = some descL ∧ x.burst = some (0x100000, 64) ∧ x.withdrawn = false ∧ x.landed = false ∧ descL.crcStore = false ∧ descL.dir = 1 ∧
      burstRead x (burstSrc x descL) 64 = true) ∧
    (let x := chainGet (burstOf descL) 0; burstRead x (burstSrc x descL) 64 = false) := by decide +kernel

theorem witness_DescriptorEnds :
    (let s := running descH { line := 1 }; let x := chainGet s 0;
      x.desc = some descH ∧ x.state = .run ∧ descMoved x = true ∧ chainWriting s 0 = false ∧ x.failed = false ∧ x.srcUe = false ∧ x.owner = none ∧ descH.last = true ∧
      { descH with next := 0x40 }.last = false ∧ { descH with control := 0x800 }.irq = true ∧ vecOpen (hst ({ · with msixEn := true, unmasked := [2] }) s) 2 = true) := by decide +kernel

def grn (f : Grn → Grn) (s : State) : State := { s with grn := f s.grn }
def obs (f : Obs → Obs) (s : State) : State := { s with obs := f s.obs }
def glb (f : Glb → Glb) (s : State) : State := { s with glb := f s.glb }

theorem witness_RingCommands :
    (let s := withCmd (cmdOf 0 []) live; cmdFind s 0 = some (cmdOf 0 []) ∧ (cmdOf 0 []).phase = .started ∧ (cmdOf 0 []).opcode = 0) ∧
    (let c := cmdOf 1 (le 8 0x40 ++ le 8 0 ++ [15]); let s := withCmd c live;
      cmdFind s 0 = some c ∧ c.phase = .started ∧ c.opcode = 1 ∧ c.reserved 0x18 = false ∧ c.p 0x11 1 < 2 ∧ c.p 0x12 6 = 0 ∧ c.p 0x10 1 = 15 ∧ s.lft.trained = true ∧
      (chainGet s 15).state = .idle ∧ (chainGet s 15).owner = none) ∧
    (let c := cmdOf 8 (le 8 0x40 ++ le 8 0x40 ++ [3]); let s := withCmd c (withCh 0 inServ live);
      cmdFind s 0 = some c ∧ c.phase = .started ∧ c.opcode = 8 ∧ c.headBad = false ∧ s.lft.trained = true ∧ c.p 0 8 % 64 = 0 ∧ c.p 8 8 % 64 = 0 ∧ c.p 8 8 ≠ 0 ∧
      c.p 0 8 + c.p 8 8 ≤ loftBytes s ∧ c.p 0x10 1 ≤ 3 ∧ c.p 0x11 1 = 0 ∧ c.p 0x12 6 = 0 ∧ c.tailBad 0x20 = false ∧ freeUnit s = some 0 ∧
      freeUnit { s with chk := { s.chk with scans := (List.range 4).map fun k => (k, { owner := 1, tag := 0 }) } } = none) ∧
    (let c := cmdOf 9 (le 4 0 ++ le 4 0 ++ le 4 0 ++ le 2 1 ++ le 2 1 ++ [1, 0, 0, 0] ++ le 4 64); let s := withCmd c (withAdm adm0 live);
      cmdFind s 0 = some c ∧ c.phase = .started ∧ c.opcode = 9 ∧ c.reserved 0x20 = false ∧ c.p 0x12 2 = 0 ∧ s.pac.adm = some adm0 ∧ adm0.phase = .held ∧ c.p 0 4 = 0 ∧
      c.p 4 4 + c.p 0xC 2 ≤ adm0.hdr.W ∧ c.p 8 4 + c.p 0xE 2 ≤ adm0.hdr.L ∧ c.p 0xC 2 * c.p 0xE 2 * (passesOf (c.p 0x10 1)).length ≤ 4194304 ∧ 0 < c.p 0xC 2 ∧
      0 < c.p 0xE 2 ∧ c.p 0xC 2 ≤ 4096 ∧ c.p 0xE 2 ≤ 4096 ∧ c.p 0x11 1 ≤ 1 ∧ c.p 0x10 1 ≠ 0 ∧ c.p 0x10 1 < 2 ^ adm0.hdr.passes ∧
      c.p 0xC 2 * (if c.p 0x11 1 = 0 then 1 else 16) ≤ c.p 0x14 4) ∧
    (let r : ReadbackJob := { cmd := 0, gen := 0, adm := adm0, cur := {}, prev := none }; let s := { withCmd { cmdOf 9 [] with phase := .started } live with readbacks := [r] };
      (cmdFind s 0).isSome = true ∧ s.readbacks = [r] ∧ r.cmd = 0 ∧ r.todo = []) := by decide +kernel

theorem witness_RegisterWrites :
    (let off : BitVec 24 := 0x13C054; let m := 7 &&& maskOf off.toNat;
      off.toNat % 4 = 0 ∧ live.grn.held = [] ∧ mustHold off.toNat live = false ∧ writeReaches off.toNat live ∧ (regShow live off.toNat).isSome = true ∧ isRwp off.toNat = false ∧
      holdsHalf off.toNat = false ∧ ownWrite off.toNat 7 0 live = none ∧ outOfRange off.toNat m = false ∧ (rwInfo off.toNat).isSome = true) ∧
    (let off : BitVec 24 := 0x60008; let v := 0xFFFFFFFF; let m := v &&& maskOf off.toNat;
      off.toNat % 4 = 0 ∧ writeReaches off.toNat live ∧ (regShow live off.toNat).isSome = true ∧ isRwp off.toNat = false ∧ holdsHalf off.toNat = false ∧
      ownWrite off.toNat v 0 live = none ∧ outOfRange off.toNat m = true) ∧
    regShow live 0x3000 = none ∧
    (let s := glb ({ · with phase := .selftest }) live; (regShow s 0x60008).isSome = true ∧ mustHold 0x60008 s = false ∧ earlyPhase s = true) ∧
    (let s := glb ({ · with fatal := true }) live; (regShow s 0x60008).isSome = true ∧ mustHold 0x60008 s = false ∧ earlyPhase s = false ∧ s.glb.fatal = true) := by
  unfold writeReaches; decide +kernel

theorem witness_AccessWidth : regShow live (0x3001 / 4 * 4) = none ∧ mustHold 0x3000 live = false ∧ 0x3001 % 4 + 3 ≤ 4 ∧ 8 < 8 + 1 ∧ 8 < (0x28 + 4) % 8 + 5 ∧ live.grn.held = [] ∧ (regShow live (0x2B / 4 * 4)).isSome = true ∧ 0x2B % 4 + 1 ≤ 4 := by decide +kernel

theorem witness_RegisterReads :
    (let off : BitVec 24 := 0x13C054; off.toNat % 4 = 0 ∧ live.grn.held = [] ∧ regShow live off.toNat = some 3600 ∧ 3600 < 2 ^ 32 ∧ earlyPhase live = false ∧
      regShow (beforeRead off.toNat live) off.toNat = some 3600 ∧ latchSource off.toNat = none) ∧
    (∃ h, latchedBy 0x8 = [h] ∧ (regShow live h).isSome = true ∧ (regShow live 0x8).isSome = true ∧ latchSource 0x8 = none) ∧
    ((latchSource 0xC).isSome = true ∧ (regShow live 0xC).isSome = true) ∧ regShow live 0x3000 = none :=
  ⟨by decide +kernel, ⟨0xC, by decide +kernel⟩, by decide +kernel, by decide +kernel⟩

theorem witness_CounterRows : writeReaches (0x181000 + 0x10 * 511) live ∧ (1 : W32).toNat.testBit 31 = false ∧ live.grn.held = [] ∧ earlyPhase live = false := by
  unfold writeReaches; decide +kernel

theorem witness_PersistentWrites :
    (let off : BitVec 24 := 0x60010; let v := 200000; let m := v &&& maskOf off.toNat;
      off.toNat % 4 = 0 ∧ writeReaches off.toNat live ∧ isRwp off.toNat = true ∧ live.grn.loaded = true ∧ holdsHalf off.toNat = false ∧ outOfRange off.toNat m = false ∧
      ownDiscard off.toNat m = false ∧ itemPair off.toNat = false ∧ regGet live off.toNat ≠ m ∧ regGet live off.toNat &&& maskOf off.toNat = regGet live off.toNat) ∧
    (let off : BitVec 24 := 0x70404; let v := 77; let m := v &&& maskOf off.toNat;
      writeReaches off.toNat live ∧ isRwp off.toNat = true ∧ holdsHalf off.toNat = false ∧ outOfRange off.toNat m = false ∧ ownDiscard off.toNat m = false ∧
      itemPair off.toNat = true ∧ tfind live.halves (off.toNat - 4) = none ∧ regGet live off.toNat % 65536 ≠ m % 65536) := by
  unfold writeReaches; decide +kernel

theorem witness_GranaryWrites :
    (let s := grn ({ · with queue := [(0x60010, 5, 0)] }) live; s.grn.queue = [(0x60010, 5, 0)] ∧ s.grn.startHold = false ∧ s.grn.held = [] ∧ s.grn.supplyOut = false ∧ ringBusy s 0x60010 = false) ∧
    ringBusy (grn ({ · with writing := [{ word := 3, value := 5, tries := 0, item := some (0x60010, 7, 1) }] }) live) 0x60010 = true ∧
    (let x : WordWrite := { word := 8704, value := 5, tries := 0, item := none }; let s := grn ({ · with writing := [x] }) live; s.grn.writing = [x] ∧ x.item = none ∧ x.tries < 2) ∧
    (let x : WordWrite := { word := 3, value := 5, tries := 2, item := some (0x60010, 7, 1) }; let s := grn ({ · with writing := [x] }) live;
      s.grn.writing = [x] ∧ 2 ≤ x.tries ∧ x.item = some (0x60010, 7, 1) ∧ s.grn.jobs = []) := by decide +kernel

theorem witness_PowerWarning :
    (live.pins.pfwN = true ∧ live.grn.pfwLow = false ∧ live.grn.pfwActive = false) ∧
    (let s := grn ({ · with pfwFall := true }) { live with pins := { live.pins with pfwN := false } };
      s.grn.pfwFall = true ∧ s.pins.pfwN = false ∧ s.grn.loaded = true ∧ s.pac.stripe = none) ∧
    (let s := grn ({ · with pfwActive := true, pfwLow := true }) { live with pins := { live.pins with pfwN := false } }; s.grn.pfwActive = true ∧ s.pins.pfwN = false) ∧
    (let s := grn ({ · with pfwLow := true }) live; s.grn.pfwLow = true ∧ s.grn.pfwActive = false ∧ s.grn.held = [] ∧ s.grn.jobs = []) ∧
    (let s := grn ({ · with startHold := true }) live; s.pins.pfwN = true ∧ s.grn.startHold = true ∧ s.grn.held = [] ∧ s.grn.jobs = []) := by decide

theorem witness_Wipes : writeReaches 0x160004 live ∧ (1 : W32).toNat.testBit 1 = false ∧ live.grn.wipeKey ≠ 0x57495045 ∧
    (let s := grn ({ · with wipeKey := 0x57495045 }) live; writeReaches 0x160004 s ∧ s.grn.wipeKey = 0x57495045 ∧ s.pac.stripe = none ∧ s.twn.tableX = none ∧
      s.grn.jobs.all (fun j => decide (j.kind ≠ 1 ∧ j.kind ≠ 2)) = true) := by
  unfold writeReaches; decide +kernel

theorem witness_GranaryAndSiloRows : writeReaches 0x160004 live ∧ live.grn.loaded = true ∧ live.grn.jobs = [] ∧ live.grn.held = [] ∧ earlyPhase live = false ∧
    writeReaches 0x170000 live ∧ (1 : W32).toNat.testBit 1 = false ∧ (2 : W32).toNat.testBit 0 = false ∧ (2 : W32).toNat.testBit 1 = true := by
  unfold writeReaches; decide +kernel

def tracing : State := withReg 0x180100 0x80000001 live
theorem witness_SnapshotsAndTrace :
    (writeReaches 0x180100 live ∧ trcOn live = false ∧ live.obs.trq = []) ∧ (trcOn tracing = true ∧ bitAt (trcCtrl tracing) 0 = true ∧ tracing.obs.trq.length + 512 ≤ 4096) ∧
    live.glb.clocksOk = true ∧
    (let s := obs ({ · with trLostSince := 1, trq := List.replicate 4094 (1, 0, []) }) tracing; trcOn s = true ∧ 0 < s.obs.trLostSince ∧ s.obs.trq.length + 2 ≤ 4096) ∧
    (let s := obs ({ · with trq := [(1, 0, [])] }) tracing; s.obs.trq = [(1, 0, [])] ∧ trcOn s = true) ∧
    (writeReaches 0x80 live ∧ snapLocked live = false ∧ snapLocked (withReg 0x180000 1 live) = true) ∧
    (let c := cmdOf 0x0E []; let s := withCmd c live; cmdOp s 0 0x0E = some c ∧ c.headBad = false ∧ snapValue c = false ∧ bitAt (c.p 0 1) 0 = false) ∧
    (let c := cmdOf 0x0E (le 8 1 ++ le 8 1 ++ le 4 999999999); let s := withCmd c live;
      cmdOp s 0 0x0E = some c ∧ c.headBad = false ∧ snapValue c = false ∧ bitAt (c.p 0 1) 0 = true ∧ s.obs.timed = none) ∧
    (let m : TimedSnap := { cmd := 0, domB := false, at_ := 0, late := false, due := true, dma := none }; (obs ({ · with timed := some m }) live).obs.timed = some m ∧ m.due = true) := by
  unfold writeReaches; decide +kernel

def enc0 (x : EncCh) (s : State) : State := encSet s 0 x
def goodWindow : Window := { periods := 64, counted := 64, n := 64, scc := 536870912, sss := 536870912 }
def noFreeze (s : State) : State := (List.range 4).foldl (fun s n => withReg (encOff n 0x40) 0 s) s
def calOp (op n t : Nat) (coef : List Byte) : Cmd := cmdOf 0x0A ([15, BitVec.ofNat 8 op] ++ le 2 n ++ le 4 t ++ coef)

theorem witness_EncoderRegisters : writeReaches (encOff 3 0x1C) live ∧ writeReaches (encOff 3 0) live ∧ bits ((0x1401 : W32).toNat &&& 0x1F07) 12 8 ≤ 20 ∧
    encEn live 3 = false ∧ encEn (withReg (encOff 3 0) 1 live) 3 = true ∧ writeReaches (0x70500 + 0x20 * 3) live ∧ writeReaches (0x7050C + 0x20 * 3) live ∧
    tfind live.halves (0x70508 + 0x20 * 3) = none ∧
    (let s := withStripe (stripe0 .armed) live; s.pac.stripe.any (fun st => st.state.live) = true ∧ writeReaches (encOff 0 0x1C) s) := by
  unfold writeReaches; decide +kernel

def encOn (x : EncCh) : State := withReg (encOff 0 0) 1 (enc0 x live)
theorem witness_EncoderSamples : live.glb.clocksOk = true ∧ live.glb.fatal = false ∧ encEn live 0 = false ∧
    (let s := encOn { preset := some 5 }; encEn s 0 = true ∧ (encGet s 0).preset = some 5) ∧
    (let s := encOn {}; encEn s 0 = true ∧ (encGet s 0).preset = none ∧ (encGet s 0).q = none) ∧
    (let s := encOn { q := some 0 }; let x := encGet s 0; let sc := corrected x.coef ⟨0, 4096⟩;
      encEn s 0 = true ∧ x.preset = none ∧ x.q.isSome = true ∧ x.faulted = false ∧ radiusOk sc = true ∧ phaseStep (x.q.getD 0) (phaseOf sc.1 sc.2) = 0) ∧
    (let s := encOn { q := some 1536 }; let x := encGet s 0; let sc := corrected x.coef ⟨0, 4096⟩;
      x.preset = none ∧ x.q.isSome = true ∧ x.faulted = false ∧ phaseStep (x.q.getD 0) (phaseOf sc.1 sc.2) = -1536) ∧
    (let x := encGet (encOn { q := some 0, faulted := true }) 0; x.preset = none ∧ x.q.isSome = true ∧ x.faulted = true) ∧
    (let s := encOn { q := some 0, badRadius := 3 }; let x := encGet s 0; radiusOk (corrected x.coef ⟨0, 0⟩) = false ∧ 3 ≤ x.badRadius ∧ x.q.isSome = true) := by decide +kernel

theorem witness_SpeedRows :
    (let s := enc0 { edges := [(1, true)], lastUp := some true } live; let x := encGet s 0; x.edges = [(1, true)] ∧ x.lastUp = some true ∧ 0 < s.tim.core + (1 : Fin 5).val - x.lastStamp) ∧
    (encGet (enc0 { edges := [(1, true)] } live) 0).lastUp ≠ some true ∧
    (let s := { enc0 { still := false, lastStamp := 0 } live with tim := { live.tim with core := 12500000 } };
      (encGet s 0).still = false ∧ 1250 * regGet s 0x70428 ≤ s.tim.core - (encGet s 0).lastStamp) := by decide +kernel

theorem witness_CalibrationWindows :
    (goodWindow.periods ≤ goodWindow.counted ∧ (fitWindow goodWindow).isRight = true ∧ (fitWindow { goodWindow with scc := 0 }).isLeft = true) ∧
    (let s := withStripe (stripe0 .armed) (withReg (encOff 0 0x40) 4 (enc0 { window := some goodWindow } live));
      (encGet s 0).window = some goodWindow ∧ bitAt (calCtrl s 0) 2 = true ∧ stripeHolds s = true) ∧
    (encGet (enc0 { slew := some ({}, {}, 4096) } live) 0).slew = some ({}, {}, 4096) := by decide +kernel

theorem witness_CalibrationCommands :
    (let s := enc0 { measure := some 0 } live; (encGet s 0).measure = some 0 ∧ (encGet s 1).measure ≠ some 0) ∧
    (let c := calOp 1 64 60000 []; let s := withCmd c live; cmdOp s 0 0x0A = some c ∧ s.glb.encOk = true ∧ c.reserved 0x14 = false ∧ 0 < c.p 0 1 ∧ c.p 0 1 < 16 ∧
      (∀ n, n < 4 → (encGet s n).measure = none ∧ (encGet s n).slewCmd = none) ∧ c.p 1 1 = 1 ∧ 64 ≤ c.p 2 2 ∧ 0 < c.p 4 4 ∧ c.p 4 4 ≤ 60000) ∧
    (let c := calOp 2 0 0 []; let s := withCmd c live; cmdOp s 0 0x0A = some c ∧ c.reserved 0x14 = false ∧ c.p 1 1 = 2 ∧ s.grn.loaded = true) ∧
    (let c := calOp 3 0 0 (le 2 0 ++ le 2 0 ++ le 2 1 ++ le 2 1 ++ le 2 0x4000 ++ le 2 4390); let s := withCmd c (noFreeze live); cmdOp s 0 0x0A = some c ∧ c.reserved 0x14 = false ∧
      c.p 1 1 = 3 ∧ (∀ n, n < 4 → bitAt (calCtrl s n) 2 = false) ∧ 0 < (loadCoef c).gc ∧ 0 < (loadCoef c).gs ∧ 0x4000 ≤ (loadCoef c).pa ∧ (loadCoef c).pa ≤ 0x4242 ∧
      -4390 ≤ (loadCoef c).pb ∧ (loadCoef c).pb ≤ 4390) ∧
    (let c := calOp 4 0 0 []; let s := withCmd c (grn ({ · with words := nextStore live 2 [0, 0, 0, 0, 0, 0, 0, 0] }) (noFreeze live)); cmdOp s 0 0x0A = some c ∧ c.reserved 0x14 = false ∧
      c.p 1 1 = 4 ∧ s.grn.loaded = true ∧ (newestCopy s 2).1.isSome = true ∧ (∀ n, n < 4 → bitAt (calCtrl s n) 2 = false)) := by decide +kernel

/-- Lane 0 of the swath link as x. -/
def lane0 (x : Lane) (s : State) : State := laneSet { s with swl := { s.swl with pll := [0] } } 0 x
theorem witness_LaneControls : writeReaches (swlOff 0 0) live ∧
    (let s := lane0 {} live; bits (1 : W32).toNat 5 4 = 0 ∧ (1 : W32).toNat.testBit 7 = false ∧ (laneGet s 0).state = .disabled ∧ swathUp s = true ∧ quadLocked s 0 = true) ∧
    (let x := laneGet (lane0 { state := .active } live) 0; x.state = .active ∧ x.queue = []) ∧ (laneGet (lane0 { state := .active, queue := [1] } live) 0).queue ≠ [] ∧
    (bits (0x31 : W32).toNat 5 4 = 3 ∧ (0x31 : W32).toNat.testBit 0 = true ∧ (0x31 : W32).toNat.testBit 7 = false ∧ live.pac.stripe.any (fun st => st.state.live) = false ∧
      (withStripe (stripe0 .armed) live).pac.stripe.any (fun st => st.state.live) = true) ∧
    (laneGet (lane0 { state := .loopback } live) 0).state = .loopback := by
  unfold writeReaches; decide +kernel

def retSync : State := retSet live 0 { sync := true, good := 4 }
theorem witness_ReturnMessages : ({} : Taps).legal = true ∧ swathUp live = true ∧ (0 : Fin 128).val / 16 = (0 : Fin 8).val ∧ (16 : Fin 128).val / 16 ≠ (0 : Fin 8).val ∧
    (let s := retSet live 0 { good := 3 }; (retGet s 0).sync = false ∧ (retGet s 0).good = 3) ∧ (retGet retSync 0).sync = true ∧ swathUp retSync = true ∧
    (laneGet (lane0 { state := .align } retSync) 0).state = .align ∧ (laneGet (lane0 { state := .active } retSync) 0).state = .active ∧
    (let x := laneGet (lane0 { state := .tap, handled := true, ackSeq := 255 } retSync) 0; x.state = .tap ∧ x.handled = true ∧ x.ackSeq = (255 : Byte).toNat) ∧
    (let s := withReg (swlOff 0 0) 0x31 (lane0 { state := .loopback } retSync); (laneGet s 0).state = .loopback ∧ laneLoop s 0 = 3) ∧
    (laneGet (lane0 { state := .preset } retSync) 0).state = .preset := by decide +kernel

theorem witness_LaneTimers :
    (laneGet (lane0 { state := .tap } live) 0).state = .tap ∧ (let x := laneGet (lane0 { state := .preset } live) 0; x.state = .preset ∧ x.noPartner = false) ∧
    (retGet retSync 0).sync = true ∧ (retGet live 0).sync = false ∧ (laneGet (lane0 { state := .active } live) 0).state = .active ∧ (laneGet live 0).state = .disabled ∧
    0 ∈ (lane0 {} live).swl.pll ∧ 0 ∉ live.swl.pll ∧ swathUp live = true ∧ (laneGet (lane0 { state := .pllWait } live) 0).state = .pllWait ∧
    (let s := withReg (swlOff 0 0) 1 live; (laneGet s 0).state = .disabled ∧ laneEn s 0 = true) := by decide +kernel

theorem witness_LaneTimers_blocks : live.pac.stripe = none ∧ swathUp live = true ∧ live.swl.flight = none ∧ (laneGet live 0).queue = [] ∧ (laneGet (lane0 { state := .active } live) 0).state = .active ∧
    (laneGet (lane0 { state := .tap } live) 0).state = .tap ∧ (laneGet (lane0 { state := .align } live) 0).state = .align ∧
    (let a : Account := { id := 1, baseId := 1, hdr := {}, gens := [], makeup := none, bins := [], grid := [], table := {}, lanes := [(0, { frames := [(9, .unsettled, false)] })] };
      let s := { live with pac := { live.pac with acct := some a } };
      s.pac.prevAcct = none ∧ s.pac.acct = some a ∧ ((laneAcc a 0).frames.find? (fun q => q.2.1 == .unsettled)).map (fun q => q.1) = some 9) ∧
    (withTwn { link := .align } live).twn.link = .align ∧ (withTwn { link := .tap } live).twn.link = .tap := by decide +kernel

theorem witness_StartupLoads :
    (let s := grn ({ · with loaded := false }) (glb ({ · with phase := .loading }) live); s.glb.phase = .loading ∧ s.grn.loaded = false) ∧
    (let s := withCh 11 { state := .training } live; (lftGet s 11).state = .training ∧ (lftGet s 11).steps = stepIndex .sideband) ∧
    (let s := withCh 0 { state := .training, steps := 1, density := 1, ranks := 1, dimms := 1 } live;
      (lftGet s 0).state = .training ∧ (lftGet s 0).steps = stepIndex .config ∧ sidebandDone s = true ∧ refConf s = some (1, 1, 1)) ∧
    (let s := (List.range 12).foldl (fun s c => withCh c { state := .excluded } s) { glb ({ · with phase := .loading }) live with lft := {} };
      s.lft.trained = false ∧ s.glb.phase = .loading ∧ (∀ c, c < 12 → (lftGet s c).state = .inService ∨ (lftGet s c).state = .excluded)) := by decide +kernel

def up : State := withTwn paired live
def twn (f : Twn → Twn) (s : State) : State := { s with twn := f s.twn }
def hello0 : Hello := { serial := 0x55, stepping := 0xB000, sideB := true, paceMaster := false, expected := 0 }

theorem witness_DexpinLink : writeReaches 0x120000 live ∧
    (1 : W32).toNat.testBit 0 = true ∧ (0 : W32).toNat.testBit 0 = false ∧ live.twn.link = .disabled ∧ live.glb.lanesStarted = true ∧ up.twn.link ≠ .disabled ∧
    (let s := withTwn { link := .preset } live; s.twn.link = .preset ∧ s.twn.quiet = false ∧ s.twn.noPartner = false ∧ (∀ k, k < 8 → (dxpGet s k).seen = false) ∧
      (dxpGet s 7).handled = false) ∧
    (let s := dxpSet (withTwn { link := .tap } live) 7 { handled := true, ackSeq := 255 }; s.twn.link = .tap ∧ (dxpGet s 7).handled = true ∧ (dxpGet s 7).ackSeq = (255 : Byte).toNat) ∧
    (let s := withTwn { link := .align } live; s.twn.link = .align ∧ s.twn.pairReq = none ∧ s.twn.rejoin = false) ∧
    (up.twn.link = .up ∧ up.twn.pairReq = none ∧ up.twn.rejoin = false ∧ up.twn.paired = true ∧ up.twn.tableX = none ∧ up.twn.handover = none ∧ up.twn.armSent = false ∧
      up.pac.stripe = none ∧ up.twn.tables = [] ∧ (twn ({ · with tables := [(7, [0])] }) up).twn.tables = [(7, [0])]) ∧
    (let s := withTwn { link := .up } live; s.twn.link = .up ∧ s.twn.paired = false ∧ s.twn.tableX = none ∧ s.twn.handover = none ∧ s.twn.armSent = false) ∧
    (let s := withStripe (stripe0 .writing) up; s.twn.paired = true ∧ s.pac.stripe.isSome = true ∧ s.twn.partnerDeadSeen = false) := by
  unfold writeReaches; decide +kernel

def pairCmd (side fl tm sn : Nat) : Cmd := cmdOf 0x0B ([BitVec.ofNat 8 side, BitVec.ofNat 8 fl, 0, 0] ++ le 4 tm ++ le 8 sn)
theorem witness_TwinPairing :
    (let c := pairCmd 0 4 1 0; cmdOp (withCmd c live) 0 0x0B = some c ∧ 4 ≤ c.p 1 1) ∧
    (let c := pairCmd 0 1 600001 0; cmdOp (withCmd c live) 0 0x0B = some c ∧ ¬ (c.reserved 0x10 = true ∨ 4 ≤ c.p 1 1 ∨ c.p 2 2 ≠ 0) ∧ 600000 < c.p 4 4) ∧
    (let c := pairCmd 0 1 600000 0x55; cmdOp (withCmd c (withStripe (stripe0 .armed) live)) 0 0x0B = some c ∧ ¬ (c.reserved 0x10 = true ∨ 4 ≤ c.p 1 1 ∨ c.p 2 2 ≠ 0) ∧
      ¬ (1 < c.p 0 1 ∨ c.p 4 4 = 0 ∨ 600000 < c.p 4 4) ∧ (withStripe (stripe0 .armed) live).pac.stripe.isSome = true) ∧
    (let c := pairCmd 0 1 600000 0x55; let s := withCmd c (withTwn { link := .up, hello := some hello0 } live); cmdOp s 0 0x0B = some c ∧ s.pac.stripe = none ∧ bitAt (c.p 1 1) 1 = false ∧
      s.twn.pairReq = none ∧ s.twn.hello = some hello0 ∧ s.twn.link = .up ∧ hello0.sideB ≠ decide (c.p 0 1 = 1) ∧ hello0.paceMaster ≠ bitAt (c.p 1 1) 0 ∧
      c.p 8 8 = hello0.serial.toNat ∧ hello0.expected = 0 ∧ hello0.stepping.toNat = steppingB0) ∧
    (withCmd (pairCmd 0 1 1 0) live).twn.hello = none ∧
    (let c := pairCmd 0 2 1 0; cmdOp (withCmd c up) 0 0x0B = some c ∧ bitAt (c.p 1 1) 1 = true ∧ up.twn.link = .up ∧ up.twn.paired = true) ∧
    (let q : PairReq := { cmd := 0, sideB := false, master := false, sn := 0 }; (withTwn { pairReq := some q } live).twn.pairReq = some q) := by decide +kernel

def handed (p : Bool) (g : Nat) (s : State) : State := twn ({ · with handover := some { group := g, cmd := none, proposed := p } }) s
theorem witness_TwinRoles :
    (let c := { cmdOf 0x0C [] with flags := 2 }; cmdOp (withCmd c live) 0 0x0C = some c ∧ c.reserved 0 = true) ∧
    (let c := cmdOf 0x0C []; cmdOp (withCmd c live) 0 0x0C = some c ∧ c.reserved 0 = false ∧ live.twn.paired = false) ∧
    (let s := twn ({ · with split := true }) up; s.twn.paired = true ∧ voting s = false) ∧
    (voting (handed true 1 up) = true ∧ handoverBusy (handed true 1 up) = true) ∧ (voting up = true ∧ handoverBusy up = false) ∧ roleNow up = true ∧
    (let s := twn ({ · with active := false }) up; roleNow s = false ∧ voting s = true) ∧
    (let s := withStripe { stripe0 .writing with started := true, nextSlot := 4 } (handed true 1 up);
      s.twn.handover = some { group := 1, cmd := none, proposed := true } ∧ voting s = true ∧ beforeDeadline s 1 = true ∧ s.pac.stripe.isSome = true ∧ 1 ≠ max32) ∧
    (let s := withStripe { stripe0 .writing with started := true, nextSlot := 5 } (handed false 1 up); voting s = true ∧ beforeDeadline s 1 = false) ∧
    (let s := twn ({ · with split := true, link := .preset, active := false }) up; liveRule s = true ∧ liveRole s = true ∧ (s.twn.roleNext.map Prod.snd).getD s.twn.active = false ∧
      s.pac.stripe = none) ∧
    (let s := withStripe { stripe0 .writing with started := true, nextSlot := 5 } up; takeGroup s ≠ max32) ∧
    (let s := twn ({ · with link := .preset, sideB := true }) up; liveRule s = true ∧ s.twn.sideB = true) ∧ up.twn.partnerLive = true := by decide +kernel

def grp3 (g : Group) (s : State) : State := withStripe { stripe0 .writing with groups := [(3, g)], nextGroup := 4 } s
theorem witness_TwinMessages :
    (voting up = true ∧ up.pac.stripe = none ∧ (List.replicate 128 (0 : W64)).length = 128 ∧ ([] : List W64).length ≠ 128) ∧
    (let st := { stripe0 .writing with groups := [(3, ({} : Group))], nextGroup := 4 }; (grp3 {} up).pac.stripe = some st ∧ grpGet st 3 = some {} ∧ ({} : Group).final = none ∧ ({} : Group).own1 = none) ∧
    (let a := List.replicate 128 0; let b : List W64 := 1 :: List.replicate 127 0; differing a ((List.replicate 128 (0 : W64)).map BitVec.toNat) = [] ∧ differing a (b.map BitVec.toNat) = [0]) ∧
    (stripe0 .writing).state.moving = true ∧ (stripe0 .armed).state = .armed ∧ (stripe0 .stopping).state = .stopping ∧
    (let s := withStripe (stripe0 .arming) up; s.twn.paired = true ∧ s.twn.link = .up ∧ s.pac.stripe = some (stripe0 .arming) ∧ (stripe0 .arming).state = .arming ∧ s.twn.armSent = false ∧
      s.twn.ownResult = none) ∧
    (let s := twn ({ · with armSent := true }) (withStripe (stripe0 .arming) up); s.twn.armSent = true ∧ s.twn.ownResult = none ∧ s.twn.peerResult = none ∧ s.twn.peerArm = none) ∧
    (let s := twn ({ · with ownResult := some 0 }) (withStripe (stripe0 .arming) up); s.twn.ownResult = some 0) ∧
    (let s := withStripe { stripe0 .stopping with abort := some (1, 64), nextGroup := 8, groupLimit := 8, nextSlot := 5 } up; voting s = true ∧
      s.pac.stripe.any (fun st => st.abort == some (1, 64) && decide (st.groupLimit < (9 : W32).toNat ∧ st.nextSlot < 64))) ∧
    (let s := withStripe (stripe0 .arming) up; s.twn.paired = true ∧ s.twn.peerArm = none ∧ (stripe0 .arming).cmd = some 9) := by decide +kernel

theorem rise_grp3 (g : Group) (s : State) : GroupsRise (grp3 g s) := groupsRise_stripe rfl (by simp)
theorem witness_TwinMessages_rise :
    (let g : Group := { own1 := some (List.replicate 128 0) }; GroupsRise (grp3 g up) ∧ g.own1 = some (List.replicate 128 0) ∧ g.mask = []) :=
  ⟨rise_grp3 _ _, rfl, rfl⟩

def tblCmd (op first n addr row v : Nat) : Cmd := cmdOf op (le 4 first ++ le 4 n ++ le 8 addr ++ le 4 row ++ le 2 v)
def msg0 : TableMsg := { tag := 7, trim := false, first := 0, count := 1, row := 0xFFFFFFFF, values := [0] }
/-- The granary holds the table's first word as the table has it. -/
def clean : State := grn ({ · with words := changedWords live false 0 1 (setBeams false {} 0 [0] 0) }) live
def inTable (x : TableX) (s : State) : State := twn ({ · with tableX := some x }) s
theorem witness_TableCommands :
    (let c := tblCmd 6 262143 2 0 max32 0; cmdOp (withCmd c live) 0 6 = some c ∧ tableParams live c ≠ 0) ∧
    (let c := tblCmd 7 262143 1 8 max32 0; cmdOp (withCmd c live) 0 7 = some c ∧ tableParams live c = 0 ∧ c.p 8 8 ≠ 0 ∧ (le 2 4095).length = 2 * c.p 4 4 ∧
      unpackValues true 1 (le 2 4095) = [4095] ∧ (∀ v ∈ [4095], v < 4096)) ∧
    (let c := tblCmd 6 0 1 0 max32 3; cmdOp (withCmd c live) 0 6 = some c ∧ tableParams live c = 0 ∧ c.p 8 8 = 0 ∧ (∃ v ∈ List.replicate 1 (c.p 0x14 2), 3 ≤ v)) ∧
    (let c := tblCmd 6 0 1 0 max32 0; let s := withCmd c live; cmdOp s 0 6 = some c ∧ tableParams s c = 0 ∧ s.twn.tableX = none ∧ rowCheck s (c.p 0x10 4) = 0 ∧ voting s = false ∧
      changedWords s false 0 1 (setBeams false (latestTable s) 0 [0] 0) ≠ []) ∧
    (let c := tblCmd 6 0 1 0 max32 0; let s := withCmd c clean; cmdOp s 0 6 = some c ∧ tableParams s c = 0 ∧ s.twn.tableX = none ∧ rowCheck s (c.p 0x10 4) = 0 ∧ voting s = false ∧
      changedWords s false 0 1 (setBeams false (latestTable s) 0 [0] 0) = [] ∧ s.pac.stripe = none) ∧
    rowCheck live 0 ≠ 0 ∧ (inTable { cmd := none, msg := msg0, stage := 0, pair := true } live).twn.tableX.isSome = true ∧
    (voting up = true ∧ up.twn.tableX = none ∧ 0 < msg0.count.toNat ∧ msg0.first.toNat + msg0.count.toNat ≤ numBeams ∧ msg0.values.length = msg0.count.toNat ∧
      (∀ v ∈ msg0.values, v < (if msg0.trim then 4096 else 3)) ∧ rowCheck up msg0.row.toNat = 0) ∧
    (let x : TableX := { cmd := some 0, msg := msg0, stage := 2, pair := true }; (inTable x up).twn.tableX = some x ∧ x.msg.tag = 7 ∧ voting (inTable x up) = true ∧ x.stage = 2) ∧
    (let x : TableX := { cmd := none, msg := msg0, stage := 0, pair := true }; (inTable x up).twn.tableX = some x ∧ voting (inTable x up) = true) ∧
    (let s := { live with dos := { live.dos with waiting := some {}, prev := some (0, {}) } }; s.dos.waiting = some {} ∧ s.pac.stripe = none ∧ s.dos.prev = some (0, {}) ∧
      switchOver s 0 = true ∧ switchOver (withStripe { stripe0 .armed with groupLimit := 2044 } s) 0 = false ∧ (stripe0 .armed).doneRaised = false ∧ (stripe0 .armed).abort = none) := by decide +kernel

theorem witness_LoftUnits :
    (writeReaches 0x13C030 region1 ∧ (1 : W32).toNat % 2 ^ 21 ≠ 0 ∧ (heldRanges region1).any (fun q => overlaps q.1 q.2 (regGet region1 0x13C02C * 2 ^ 20) (2 ^ 20)) = false) ∧
    (let s := withReg 0x13C02C 1 (withAdm adm0 region1); (heldRanges s).any (fun q => overlaps q.1 q.2 (regGet s 0x13C02C * 2 ^ 20) (2 ^ 20)) = true) ∧
    writeReaches 0x13C304 live ∧ writeReaches 0x13C080 live ∧ (lftGet region1 0).state = .inService ∧ region1.lft.trained = true ∧ writeReaches 0x130024 region1 ∧
    (lftGet region1 0).retryRun < 3 ∧ 3 ≤ (lftGet (withCh 0 { inServ with retryRun := 3 } live) 0).retryRun := by
  unfold writeReaches; decide +kernel

def rd (k a : Nat) : LftReq := { rank := k, client := 0, addr := a, seq := a }
def wr (a seq : Nat) : LftReq := { rank := 4, client := 1, addr := a, seq := seq, data := List.replicate 64 1 }
def ch0 (x : LftCh) : State := withCh 0 x { live with lft := { live.lft with valid := [0, 1] } }
theorem quiet_of {s : State} (h1 : s.lft.waits = []) (h2 : s.lft.fills = []) (h3 : s.chains = []) : loftQuiet s :=
  ⟨h1, h2, fun c => by unfold chainGet; rw [h3]; rfl⟩
theorem witness_LoftScheduling_quiet : loftQuiet (ch0 { inServ with reads := [rd 3 0x40, rd 1 0x80] }) ∧ loftQuiet (ch0 { inServ with batch := 16, writes := [wr 0x40 1] }) ∧
    loftQuiet (ch0 { inServ with reads := [rd 1 0x40], writes := [wr 0xC0 1], inOrder := [(bankKey (coordOf region1 0x40), 1)] }) := ⟨quiet_of rfl rfl rfl, quiet_of rfl rfl rfl, quiet_of rfl rfl rfl⟩
theorem witness_LoftScheduling :
    (let s := ch0 { inServ with reads := [rd 3 0x40, rd 1 0x80] }; let x := lftGet s 0; s.lft.trained = true ∧ x.state = .inService ∧ x.batch = 0 ∧ x.inOrder = [] ∧
      (∃ q ∈ x.reads, 1 ≤ rankNow s q ∧ rankNow s q ≤ 3) ∧ bitAt (regGet s 0x13C014) 31 = false ∧ blockLive s 1 = true ∧ (∃ q ∈ x.reads ++ x.issued, q.rank ≤ 2) ∧ x.owed < 4) ∧
    (let s := ch0 { inServ with reads := [rd 3 0x200000] }; blockLive s (0x200000 / 64) = false ∧ 1 ≤ rankNow s (rd 3 0x200000)) ∧
    (let s := ch0 { inServ with batch := 16, writes := [wr 0x40 1] }; let x := lftGet s 0; 0 < x.batch ∧ (∃ w ∈ x.writes, rankNow s w = 4 ∧ writeMay s x w = true) ∧ s.lft.wArmed = false) ∧
    (let s := ch0 { inServ with reads := [rd 1 0x40], writes := [wr 0xC0 1], inOrder := [(bankKey (coordOf region1 0x40), 1)] }; let x := lftGet s 0;
      x.batch = 0 ∧ x.reads = [rd 1 0x40] ∧ x.writes = [wr 0xC0 1] ∧ 1 ≤ rankNow s (rd 1 0x40) ∧ rankNow s (rd 1 0x40) ≤ 3 ∧ (wr 0xC0 1).seq < (rd 1 0x40).seq ∧
      bankKey (coordOf s (wr 0xC0 1).addr) = bankKey (coordOf s (rd 1 0x40).addr) ∧ x.inOrder = [(bankKey (coordOf s (rd 1 0x40).addr), (wr 0xC0 1).seq)]) ∧
    (let s := ch0 { inServ with writes := [wr 0 1] }; let x := lftGet s 0; x.batch = 0 ∧ 0 < (x.writes.filter (fun w => rankNow s w == 4)).length ∧ (∀ q ∈ x.reads, 3 < rankNow s q) ∧
      (∀ q ∈ x.reads ++ x.issued, 2 < q.rank)) ∧
    (let s := ch0 { inServ with reads := [rd 1 0], writes := (List.range 56).map (wr 64), owed := 4 }; let x := lftGet s 0; 56 ≤ x.writes.length ∧
      0 < (x.writes.filter (fun w => rankNow s w == 4)).length ∧ (∃ q ∈ x.reads ++ x.issued, q.rank ≤ 2) ∧ 4 ≤ x.owed) ∧
    (let x := lftGet (ch0 inServ) 0; x.dimms = 1 ∧ x.sensors.length ≤ 1 ∧ (∀ p ∈ x.sensors, p.1 = 0) ∧ (0x5F0 : BitVec 16).toInt ≤ 95 * 16 ∧ 85 * 16 < (0x551 : BitVec 16).toInt ∧ x.x2 = false) ∧
    (let x := lftGet (ch0 { inServ with x2 := true, sensors := [(0, { miss := 2 })] }) 0; 95 * 16 < (0x5F1 : BitVec 16).toInt ∧ x.x2 = true ∧ x.sensors.length ≤ 1 ∧ (∀ p ∈ x.sensors, p.1 = 0) ∧
      (tget x.sensors 0 {}).hot = false ∧ (tget x.sensors 0 {}).miss = 2) ∧
    ((0x530 : BitVec 16).toInt ≤ 83 * 16 ∧ bitAt (regGet live 0x13C000) 8 = false ∧ 100 ≤ (lftGet (ch0 { inServ with x2 := true, coolMs := 99 }) 0).coolMs + 1 ∧
      (lftGet (ch0 { inServ with x2 := true, coolMs := 98 }) 0).coolMs + 1 < 100) ∧
    (let s := withReg 0x13C014 0x80000005 (ch0 inServ); bitAt (regGet s 0x13C014) 31 = true ∧ regGet s 0x13C014 % 65536 ≠ 0) := by decide +kernel

def lft (f : Lft → Lft) (s : State) : State := { s with lft := f s.lft }
/-- A full line at the first block of region 3, which is not valid. -/
def wait3 : WaitWrite := { client := 1, addr := 0x300000, bytes := List.replicate 64 1 }
/-- A partial write whose block has been asked for. -/
def part1 : WaitWrite := { client := 1, addr := 0x100044, bytes := [1, 2], reading := true }
def busy8 : Tbl FillEng := (List.range 8).map fun e => (e, { region := 9 + e, mask := [], busy := true })
def issued0 (q : LftReq) (s : State) : State := withCh 0 { inServ with issued := [q] } s
def asked (w : ReadFor) : LftReq := { rd 1 0x100040 with who := w, data := List.replicate 64 0 }
def calm : DramErr := { data := 0, check := 0, addr := false }
theorem witness_Fills :
    (let s := lft ({ · with waits := [wait3] }) region1; s.lft.waits = [wait3] ∧ s.chains = [] ∧ wait3.reading = false ∧ wait3.addr % 64 = 0 ∧ wait3.bytes.length = 64 ∧ wait3.part = false ∧
      wait3.poison = false ∧ regionOf wait3.addr ∉ s.lft.valid ∧ s.lft.fills = [] ∧ writeRoom s (wait3.addr / 64) = true) ∧
    (let s := lft ({ · with waits := [wait3], fills := busy8 }) region1; fillOf s (regionOf wait3.addr) = none ∧ (∀ e, e < 8 → ((tfind s.lft.fills e).any (fun f => f.busy)) = true)) ∧
    (let f : FillEng := { region := 4, mask := [81918], next := 16383 }; let s := lft ({ · with fills := [(7, f)] }) region1;
      s.lft.waits = [] ∧ s.chains = [] ∧ s.lft.fills = [(7, f)] ∧ f.busy = false ∧ fillFree f f.next = some 16381 ∧ writeRoom s (f.region * 16384 + 16381) = true ∧ f.next ≠ 0) ∧
    (let f : FillEng := { region := 4, mask := [], next := 0 }; tfind (lft ({ · with fills := [(7, f)] }) region1).lft.fills 7 = some f ∧ f.next = 0 ∧ f.busy = false) := by decide +kernel

theorem witness_LoftReads :
    (let s := issued0 (asked .realTime) region1; (lftGet s 0).issued = [asked .realTime] ∧ (lftGet s 0).owed = 0 ∧ (asked .realTime).dry = false ∧ (asked .realTime).mark = {} ∧
      s.chains = [] ∧ s.lft.waits = [] ∧ s.lft.fills = []) ∧
    (let s := lft ({ · with waits := [part1] }) (issued0 (asked .partial_) region1); s.lft.waits = [part1] ∧ s.lft.fills = [] ∧ s.chains = [] ∧ (asked .partial_).who = .partial_ ∧ part1.reading = true ∧
      part1.addr / 64 = (asked .partial_).addr / 64 ∧ part1.bytes ≠ [] ∧ part1.addr % 64 + part1.bytes.length ≤ 64 ∧ (asked .partial_).data.length = 64 ∧ part1.poison = false ∧
      regionOf part1.addr ∈ s.lft.valid ∧ writeRoom s ((asked .partial_).addr / 64) = true) ∧
    (let s := issued0 { asked .realTime with mark := { poison := true } } region1; (asked .realTime).stale = false ∧ 2 ≤ (struck [] { poison := true } calm).2.cls ∧ s.pac.stripe = none ∧
      (asked .realTime).rank = 1) ∧
    (asked (.chain 0)).who = .chain 0 := by decide +kernel

theorem witness_Gleaner :
    (let s := withReg 0x13C040 0x10000 region1; bitAt (regGet s 0x13C040) 16 = true ∧ gleanNext s s.lft.glnPos = some 0x100000 ∧ chUp s (coordOf s 0x100000).ch = true ∧
      (lftGet s (coordOf s 0x100000).ch).reads = [] ∧ (lftGet s (coordOf s 0x100000).ch).writes = [] ∧ s.lft.marks = [] ∧ s.lft.raw = [] ∧
      gleanNext s (0x100000 + 64) = some (0x100000 + 64) ∧ gleanNext s (0x1FFFC0 + 64) = none) ∧
    (let s := lft ({ · with glnPos := 0x200000 }) (withReg 0x13C040 0x10000 region1); gleanNext s s.lft.glnPos = none ∧ s.lft.glnPos ≠ 0) ∧
    (let s := withReg 0x13C040 0x10000 live; bitAt (regGet s 0x13C040) 16 = true ∧ s.lft.trained = true ∧ s.lft.lapSlow = false ∧ regGet s 0x13C054 < (3601 : W32).toNat) := by decide +kernel

def tim (f : Tim → Tim) (s : State) : State := { s with tim := f s.tim }
theorem witness_Clocks :
    (writeReaches 0x150114 live ∧ writeReaches 0x15012C live ∧ writeReaches 0x150200 live ∧ (0 : W32).toNat.testBit 0 = false ∧ (1 : W32).toNat.testBit 0 = true ∧
      regGet live 0x150120 < 1000000000) ∧
    live.glb.clocksOk = true ∧ live.tim.switchReq = false ∧ live.tim.a.hasStep = false ∧ profileUses live false = false ∧
    (let s := tim ({ · with a := { adjust := some (2 * stepTol live) } }) (withStripe (stripe0 .writing) live); let u := (s.tim.a.t + s.tim.a.incr) % timeMod;
      s.tim.a.hasStep = true ∧ ¬ (profileUses s false = false ∨ ((s.tim.a.stepped u : Int) - (u : Int)).natAbs ≤ stepTol s)) ∧
    (let s := tim (fun t => { t with switchReq := true, a := { t.a with adjust := some 1 } }) live; s.tim.switchReq = true ∧ s.tim.a.hasStep = true ∧
      (((s.tim.b.t + s.tim.b.incr) % timeMod : Nat) : Int) - ((s.tim.a.t + s.tim.a.incr) % timeMod : Nat) = 0 ∧ 0 < stepTol s) ∧
    1000000000 ≤ regGet (withReg 0x150020 1000000000 live) 0x150020 ∧
    live.pac.stripe.any (fun st => st.domB) = live.tim.setDomB ∧
    (let l : Launch := { cmd := 0, tag := 0, kind := 1, ports := 1, domB := false, at_ := 0, sec := 0, ns := 0, body := [], late := false, due := false };
      let s := tim ({ · with launches := [l] }) live; s.tim.launches = [l] ∧ l.at_ ≤ (domGet s l.domB).t) := by
  unfold writeReaches; decide +kernel

def port0 (x : Port) (s : State) : State := portSet s 0 x
/-- A PTP frame of 14 + n bytes to the multicast address. -/
def ptp (n : Nat) : List Byte := [0x01, 0x1B, 0x19, 0, 0, 0, 1, 2, 3, 4, 5, 6, 0x88, 0xF7] ++ List.replicate n 0
/-- Transmit slot 0 with a frame of 60 bytes. -/
def txSlot : Tbl Byte := [(0x4000, 60), (0x4002, 1)] ++ ((List.range 14).zip (ptp 0)).map fun q => (0x4030 + q.1, q.2)
theorem witness_EthernetPorts :
    (let s := withReg 0x150400 1 live; (portGet s 0).up = false ∧ portEn s 0 = true ∧ s.grn.loaded = true) ∧
    (let s := port0 { up := true } live; (portGet s 0).up = true ∧ acceptPtp s 0 [] = false ∧ acceptPtp s 0 (ptp 242) = true ∧ acceptPtp s 0 (ptp 243) = false ∧
      (portGet s 0).rxCount < 32 ∧ (portGet s 0).rxCount = 0) ∧
    32 ≤ (portGet (port0 { up := true, rxCount := 32 } live) 0).rxCount ∧
    (writeReaches (0x158000 + 0x6000 * 1 + 512 * 15) live ∧ writeReaches 0x150428 live) ∧
    (let s := port0 { up := true, goOrder := [0], slots := txSlot } live; let x := portGet s 0;
      x.goOrder = [0] ∧ txResult x (ofLe (slotRead x 0x4000 2)) (slotRead x 0x4030 18) = 0 ∧ portGuarded s 0 = false) ∧
    (let s := port0 { goOrder := [0] } live; txResult (portGet s 0) (ofLe (slotRead (portGet s 0) 0x4000 2)) (slotRead (portGet s 0) 0x4030 18) ≠ 0) := by
  unfold writeReaches; decide +kernel

/-- The gang protocol enabled with identity 5, both ports up. -/
def gang (n : Nat) (s : State) : State := portSet (port0 { up := true } (withReg 0x150220 5 (withReg 0x150224 7 (withReg 0x150230 n s)))) 1 { up := true }
/-- A frame of the gang group from source `src`, its CRC as given. -/
def gangPay (src kind : Nat) : List Byte := le 2 0x100 ++ le 2 7 ++ le 2 src ++ [BitVec.ofNat 8 kind, 0] ++ le 4 5 ++ List.replicate 44 0 ++ le 2 3
def gangOf (src kind crc : Nat) : GangFrame :=
  { port := 0, frame := macBytes (regGet live 0x15022C) (regGet live 0x150228) ++ [0, 1, 2, 3, 4, 5] ++ [0x88, 0xB5] ++ gangPay src kind ++ le 4 crc, stamp := { back := 0, phase := 0 } }
def gangF : GangFrame := gangOf 6 1 (crc32c (gangPay 6 1))
/-- The same frame with a bad CRC. -/
def gangBad : GangFrame := gangOf 6 1 0
def gang5 : GangFrame := gangOf 5 1 (crc32c (gangPay 5 1))
def gangA : GangFrame := gangOf 6 2 (crc32c (gangPay 6 2))
def launch (kind fl ports : Nat) : Cmd := cmdOf 0x0D [BitVec.ofNat 8 kind, BitVec.ofNat 8 fl, BitVec.ofNat 8 ports, 0, 9, 0]
def launch1 : Launch := { cmd := 1, tag := 9, kind := 2, ports := 3, domB := false, at_ := 0, sec := 0, ns := 0, body := [], late := true, due := true }
theorem witness_GangFrames :
    writeReaches 0x150230 live ∧
    (let c := launch 1 4 1; cmdOp (withCmd c (gang 4 live)) 0 0x0D = some c ∧ c.p 0 1 = 1 ∧ launchStatus (gang 4 live) c ≠ 0) ∧
    (let c := { launch 2 0 3 with params := [2, 0, 3] ++ List.replicate 45 0 }; let s := withCmd c (gang 4 live);
      cmdOp s 0 0x0D = some c ∧ c.p 0 1 = 2 ∧ launchStatus s c = 0 ∧ bitAt (c.p 1 1) 0 = false ∧ upPorts (c.p 2 1) s = [0, 1] ∧ upPorts (c.p 2 1) live = []) ∧
    (let c := { launch 3 1 3 with params := [3, 1, 3] ++ List.replicate 45 0 }; let s := withCmd c (gang 4 live);
      cmdOp s 0 0x0D = some c ∧ 3 ≤ c.p 0 1 ∧ launchStatus s c = 0 ∧ bitAt (c.p 1 1) 0 = true ∧ s.tim.launches.length < 8 ∧
      8 ≤ (tim ({ · with launches := List.replicate 8 launch1 }) s).tim.launches.length) ∧
    (let c := launch 0 0 0; let s := withCmd c (gang 4 live); cmdOp s 0 0x0D = some c ∧ c.p 0 1 = 0 ∧ launchStatus s c = 0 ∧ s.tim.launches.find? (fun l => l.tag == c.p 4 2) = none ∧
      (tim ({ · with launches := [launch1] }) s).tim.launches.find? (fun l => l.tag == c.p 4 2) = some launch1) ∧
    (let s := tim ({ · with launches := [launch1] }) (gang 4 live); nextLaunch s = some launch1 ∧ upPorts launch1.ports s ≠ [] ∧ launch1.late = true ∧ upPorts launch1.ports live = []) ∧
    (let x : Sent := { cmd := 0, seq := 1, ports := 1, late := false }; let s := tim ({ · with sent := [x] }) live; s.tim.sent = [x] ∧ s.tim.aborts = []) ∧
    (let s := gang 4 live; (portGet s gangF.port).up = true ∧ gangFits s gangF = true ∧ gangF.src.toNat ≠ regGet s 0x150220 % 4096 ∧ gangNew (tfind s.tim.srcs gangF.src.toNat) gangF = true ∧
      gangFits s gangBad = false ∧ gangFits s gang5 = true ∧ gang5.src.toNat = regGet s 0x150220 % 4096 ∧ s.tim.clash = false ∧
      bitAt (gangCtrl s) 0 = false) ∧
    (let s := tim ({ · with srcs := [(6, { seq := 5 })] }) (gang 5 live); gangNew (tfind s.tim.srcs gangF.src.toNat) gangF = false ∧ bitAt (gangCtrl s) 0 = true ∧ holdsAny s = false) ∧
    (let f := gangA; let s := gang 5 (withStripe (stripe0 .writing) live); gangFits s f = true ∧ gangNew (tfind s.tim.srcs f.src.toNat) f = true ∧ f.kind.toNat = 2 ∧ bitAt (gangCtrl s) 0 = true ∧
      s.pac.stripe = some (stripe0 .writing) ∧ (stripe0 .writing).state.moving = true) := by
  unfold writeReaches; decide +kernel

/-- A sheaf of one tile row whose three streams hold an END record and nothing else. -/
def sheafHead : List Byte :=
  le 4 0x4648534A ++ le 2 0x200 ++ le 2 256 ++ [8, 1, 0, 0] ++ le 4 1 ++ le 8 0 ++ le 8 77 ++ le 8 448 ++ le 8 0 ++ le 8 0 ++ le 8 256 ++ le 8 384 ++ le 8 8 ++ List.replicate 172 0
def sheaf : List Byte :=
  sheafHead ++ le 4 (crc32c sheafHead) ++ le 8 320 ++ le 4 8 ++ List.replicate 52 0 ++ (0x7F :: List.replicate 63 0) ++ (0x7F :: List.replicate 63 0)
def cells (a : Nat) (l : List Byte) : List Host.Cell := (((List.range l.length).zip l).filter (fun p => p.2 != 0)).map fun p => (a + p.1, p.2)
/-- A ready device with one loft channel, the stage parameters of `adm0`, and bytes at loft address 0x100000. -/
def ready (l : List Byte) : State :=
  let s := withCh 0 inServ { live with lft := { live.lft with valid := (List.range 16), mem := cells 0x100000 l } }
  let s := withReg 0x13C010 10 (withReg 0x70404 1 (withReg 0x70400 0 (withReg 0x60014 4000 (withReg 0x60010 100000 s))))
  withReg 0x6001C 0 (withReg 0x60018 0 (withReg 0x60024 0x7FFF (withReg 0x60020 0xFFFFFFFF s)))
def admitCmd (sheaf bin binLen cap : Nat) : Cmd := cmdOf 2 (le 8 sheaf ++ le 8 bin ++ le 8 binLen ++ le 8 0x1000 ++ le 4 cap)
def admOk (c : Cmd) : Bool := !c.reserved 0x30 && c.p 0x24 4 == 0 && c.p 0x2E 2 == 0

/-! A plan for a sheaf without exposures, so that admission accepts one: every group takes one cycle a run. -/

def flatHdr : Header := { passes := 8, pitch := 1, tag := 77 }
def flatPlan : PlanIn := { nThr := 128, nIng := 32, nch := 1, density := 1, nbrK := 10, fmax := 6000, fmin := 100, amax := 100000, jmax := 4000 }
/-- An admission that has read that sheaf. -/
def workingAdm : Admission := { adm0 with phase := .working, sheafLen := 448, binLen := 0x80000, y0 := 0x10000000000, pin := flatPlan, buf := sheaf }
theorem runWeight_empty (h : Header) (b j : Nat) : runWeight h [] b j = 0 := by
  have : ∀ l : List (Nat × Nat × Nat), (l.map (fun _ => 0)).sum = 0 := by intro l; induction l <;> simp_all
  simp [runWeight, tget, this]
theorem load_fold (h : Header) (j : Nat) : ∀ (l : List Nat) (a : Nat × Nat), a.2 ≤ 1 →
    let r := l.foldl (fun (acc : Nat × Nat) b =>
      if runDealt h b j then let l := runCycles (runWeight h [] b j); (acc.1 + l, max acc.2 l) else acc) a
    r.1 ≤ a.1 + l.length ∧ r.2 ≤ 1 := by
  intro l
  induction l with
  | nil => intro a ha; exact ⟨by simp, ha⟩
  | cons b l ih =>
    intro a ha
    simp only [List.foldl_cons, List.length_cons]
    by_cases hd : runDealt h b j
    · have := ih (a.1 + 1, max a.2 1) (by simp; omega)
      simp only [hd, if_true, runWeight_empty, runCycles] at this ⊢
      exact ⟨by have := this.1; simp at this ⊢; omega, this.2⟩
    · have := ih a ha
      simp only [hd] at this ⊢
      exact ⟨by have := this.1; simp at this ⊢; omega, this.2⟩
theorem load_le (h : Header) (j : Nat) : (groupLoad h [] j).1 ≤ numBeams ∧ (groupLoad h [] j).2 ≤ 1 := by
  have h1 := load_fold h j (List.range numBeams) (0, 0) (Nat.zero_le 1)
  rw [List.length_range, Nat.zero_add] at h1
  unfold groupLoad
  exact h1
theorem rate_empty (a b : Nat) (h2 : a ≤ numBeams) (h3 : b ≤ 1) : groupRate flatPlan (buildCost flatPlan a b 0) = 6000 := by
  simp only [groupRate, buildCost, missCost, flatPlan, ceilDiv]
  unfold numBeams at h2
  have : 6000 ≤ 9000000 / (52 + (a + 2 * (128 - 1) - 1) / (2 * (128 - 1)) + b + 0) := by
    rw [Nat.le_div_iff_mul_le (by omega)]; omega
  exact Nat.min_eq_left this
theorem fed_nil (h : Header) (res : List Nat) (pl : List (Nat × Nat)) (j : Nat) : groupFed h [] res pl j = [] := by simp [groupFed]



theorem plan_gen (p : PlanIn) (h : Header) (regs : List Nat) (hp : p = flatPlan) (hh : h = flatHdr) :
    ∃ q, makePlan p h [] [] [] regs = .inr q ∧ q.runup = 180292971 ∧ q.runout = 180292971 := by
  unfold makePlan
  extract_lets nG fedOf costs segs r0
  have h1 : costs = (List.range nG).map (fun _ => ⟨6000, 0⟩) := by
    have hl := load_le h
    have hr : ∀ a b, a ≤ numBeams → b ≤ 1 → groupRate p (buildCost p a b 0) = 6000 := fun a b ha hb => by rw [hp]; exact rate_empty a b ha hb
    have h0 : ∀ j, fedOf j = 0 := fun j => by simp only [fedOf, fed_nil, List.map_nil, List.sum_nil]
    unfold costs
    clear costs segs r0
    revert hl hr
    generalize groupLoad h [] = g
    generalize groupRate p = r
    generalize buildCost p = bc
    clear_value fedOf
    intro hl hr
    refine List.map_congr_left (fun j _ => ?_)
    have hj := hl j
    generalize g j = x at hj ⊢
    obtain ⟨a, b⟩ := x
    show (⟨r (bc a b (fedOf j)), fedOf j⟩ : GroupCost) = _
    rw [h0, hr a b hj.1 hj.2]
  clear_value costs
  subst h1
  have h2 : segs = [(6000, 0, 0)] := by
    simp only [segs, nG]
    subst hp hh
    decide +kernel
  clear_value segs
  subst h2
  have h4 : lowerWindows p (jobLoad h []) (fillLoad h [] [] []) (fun j => (((List.range nG).map (fun _ => (⟨6000, 0⟩ : GroupCost))).getD j ⟨1, 0⟩).fed)
    (nG + h.K * 6001) 16 nG (r0, [(6000, 0, 0)].map (fun s : Nat × Nat × Nat => s.2.2)) = ([6000], [0]) := by
    simp only [nG, r0]
    subst hp hh
    decide +kernel
  rw [h4]
  subst hp hh
  refine ⟨_, rfl, ?_, ?_⟩ <;> (dsimp only; decide +kernel)

theorem admit_inr {s : State} {a : Admission} {o : SheafOut} {q : Plan} (h1 : a.early = none) (h4 : a.binned (loftBytes s) = .inr o)
    (h5 : makePlan a.pin o.hdr o.bins (markResident o.hdr o.bins) (placeCopies o.hdr o.bins (markResident o.hdr o.bins)) a.plan.regs = .inr q)
    (h6 : limitPlan s a.y0 (a.plan.regs.getD 4 0) 0 o.hdr.N q.runup q.runout = 0) : (admitVerdict s a).isRight = true := by
  unfold admitVerdict
  simp only [h1, h4, h5, h6]
  rfl

theorem admit_accepts : (admitVerdict (withAdm workingAdm (ready [])) workingAdm).isRight = true := by
  obtain ⟨q, h5, hu, ho⟩ := plan_gen flatPlan flatHdr workingAdm.plan.regs rfl rfl
  refine admit_inr (o := ⟨flatHdr, [], [], false, 0⟩) (q := q) rfl (by decide +kernel) h5 ?_
  rw [hu, ho]
  decide +kernel

theorem witness_Admissions :
    (let c := { admitCmd 0 0 0 0 with flags := 2 }; cmdOp (withCmd c live) 0 2 = some c ∧ c.reserved 0x30 = true) ∧
    (let c := admitCmd 0x100000 0x200000 0x80000 500; cmdOp (withCmd c live) 0 2 = some c ∧ admOk c = true ∧ blocksUp (withCmd c State.reset) = false) ∧
    (let c := admitCmd 0x100001 0x200000 0x80000 500; let s := withCmd c (ready []); admOk c = true ∧ blocksUp s = true ∧ addressBad s c = true) ∧
    (let c := admitCmd 0x100000 0x200000 0x80000 500; let s := withCmd c { ready [] with lft := { (ready []).lft with marks := [(16384, { poison := true })] } };
      admOk c = true ∧ blocksUp s = true ∧ addressBad s c = false ∧ 2 ≤ (readBlocks 3 4 (c.p 0 8 / 64) s).1) ∧
    (let c := admitCmd 0x100000 0x100000 0x80000 500; let s := withCmd c (ready sheaf); let rd := readBlocks 3 4 (c.p 0 8 / 64) s; admOk c = true ∧ blocksUp s = true ∧ addressBad s c = false ∧ rd.1 < 2 ∧
      areasOverlap s (c.p 0 8) (sheafRange s (c.p 0 8) rd.2.1) (c.p 8 8) (c.p 0x10 8) = true) ∧
    (let c := admitCmd 0x100000 0x200000 0x80000 (64 + 8 * 1 - 1); let s := withCmd c (ready sheaf); let rd := readBlocks 3 4 (c.p 0 8 / 64) s; addressBad s c = false ∧ rd.1 < 2 ∧
      areasOverlap s (c.p 0 8) (sheafRange s (c.p 0 8) rd.2.1) (c.p 8 8) (c.p 0x10 8) = false ∧ c.p 0x20 4 < 64 + 8 * reportSegs rd.2.1) ∧
    (let c := admitCmd 0x100000 0x200000 0x80000 (64 + 8 * 1); let s := withCmd c (ready sheaf); let rd := readBlocks 3 4 (c.p 0 8 / 64) s; addressBad s c = false ∧ rd.1 < 2 ∧
      areasOverlap s (c.p 0 8) (sheafRange s (c.p 0 8) rd.2.1) (c.p 8 8) (c.p 0x10 8) = false ∧ 64 + 8 * reportSegs rd.2.1 ≤ c.p 0x20 4) ∧
    (let a := { adm0 with phase := .guardWait }; (withAdm a live).pac.adm = some a ∧ guardBusy (withAdm a live) a = false) ∧
    (guardBusy (withAdm { adm0 with phase := .guardWait } (withChain 0 { state := .run, desc := some descH } live)) adm0 = true ∧ (earlyRefuse (ready [])).isSome = false ∧
      (earlyRefuse live).isSome = true) ∧
    (let a := { workingAdm with buf := [] }; let s := withAdm a (ready []); s.pac.adm = some a ∧ a.phase = .working ∧ a.left = 0 ∧ s.lft.waits = [] ∧ a.cls < 2 ∧
      (admitVerdict s a).isLeft = true) ∧
    (let s := withAdm workingAdm (ready []); s.pac.adm = some workingAdm ∧ workingAdm.left = 0 ∧ s.lft.waits = [] ∧ workingAdm.cls < 2 ∧ 2 ≤ { workingAdm with cls := 2 }.cls ∧
      0 < { workingAdm with left := 1 }.left) := by
  decide +kernel


def armC (fl id : Nat) : Cmd := cmdOf 3 (le 4 id ++ le 4 fl ++ le 8 0 ++ le 4 50000)
def atY (s : State) : State := withReg 0x60028 100000000 (encSet s 0 { encGet s 0 with count := 0xFFFFF6, posValid := true })
def armBad (c : Cmd) : Bool := c.tailBad 0x18 || decide (4 ≤ c.p 4 4) || c.p 0x14 4 != 0 || startNsBad (c.p 0x10 4)
def prerolled (x : Option Nat) : Stripe := { stripe0 .arming with startAt := x, groups := (List.range 4).map fun j => (j, { final := some true }) }
def makeC (op flags n : Nat) (addr : Nat) : Cmd := cmdOf 5 ([BitVec.ofNat 8 op, BitVec.ofNat 8 flags, 0, 0] ++ le 4 0 ++ le 8 addr ++ le 4 n)
def recB (reason gen slot beam : Nat) : List Byte :=
  le 4 0 ++ le 4 1 ++ le 8 0 ++ [BitVec.ofNat 8 reason, 0, 0, 0] ++ le 4 gen ++ le 4 slot ++ le 4 slot ++ le 4 beam ++ le 4 beam
/-- An admission whose tile 0 is exposed over its whole area. -/
def exposed : Admission := { adm0 with bins := [(0, { entries := [⟨⟨0, 100000, 0, 100000, 0, 100000⟩, 0xFFFF, 0⟩], blocks := 1 })], hdr := { passes := 8 } }

theorem witness_Arming :
    (let c := { armC 0 1 with flags := 2 }; cmdOp (withCmd c live) 0 3 = some c ∧ c.headBad = true) ∧
    (let c := armC 4 1; cmdOp (withCmd c live) 0 3 = some c ∧ c.headBad = false ∧ armBad c = true) ∧
    (let c := armC 0 2; let s := withCmd c (withAdm adm0 live); cmdOp s 0 3 = some c ∧ c.headBad = false ∧ armBad c = false ∧ s.pac.adm = some adm0 ∧ adm0.id ≠ c.p 0 4) ∧
    (let c := armC 1 1; let s := withCmd c (withAdm adm0 (ready [])); cmdOp s 0 3 = some c ∧ c.headBad = false ∧ armBad c = false ∧ s.pac.adm = some adm0 ∧ adm0.phase = .held ∧ adm0.id = c.p 0 4 ∧
      armChecks s adm0 adm0.plan 0 ≠ 0 ∧ armChecks (atY s) adm0 adm0.plan 0 = 0) ∧
    (let s := withStripe (prerolled none) live; s.pac.stripe = some (prerolled none) ∧ (prerolled none).state = .arming ∧ s.twn.armSent = false ∧ prerollDone s (prerolled none) = true ∧
      s.twn.paired = false) ∧
    (let s := tim ({ · with a := { t := 4000 } }) (withStripe (prerolled (some 3999)) live); prerollDone s (prerolled (some 3999)) = true ∧ 3999 < (domGet s (prerolled (some 3999)).domB).t) ∧
    (let s := withTwn { paired with link := .preset, split := true } (withStripe (prerolled none) live); prerollDone s (prerolled none) = true ∧ s.twn.paired = true ∧ s.twn.link ≠ .up) ∧
    (let c := { cmdOf 4 [] with flags := 2 }; cmdOp (withCmd c live) 0 4 = some c ∧ c.reserved 4 = true) ∧
    (let c := cmdOf 4 [1]; cmdOp (withCmd c live) 0 4 = some c ∧ c.reserved 4 = false ∧ live.pac.stripe = none ∧ live.pac.adm = none ∧ (withAdm adm0 live).pac.adm = some adm0 ∧ c.p 0 4 = adm0.id ∧
      c.p 0 4 = (stripe0 .armed).id) ∧
    (let c := makeC 0 0 5 64; cmdOp (withCmd c live) 0 5 = some c ∧ c.p 0 1 ≠ 1 ∧ makeupParams c = 0 ∧ makeupParams (makeC 0 0 0 64) ≠ 0) ∧
    (let c := makeC 1 0 1 0; let s := withCmd c live; cmdOp s 0 5 = some c ∧ c.p 0 1 = 1 ∧ makeupParams c = 0 ∧ makeupParams (makeC 1 8 1 0) ≠ 0 ∧ s.pac.adm = none ∧
      (recB 1 0 5 0).length = 40 * c.p 0x10 4) ∧
    (recordsOf 1 (recB 12 0 5 0)).all (fun r => r.fits adm0 false) = false ∧ (recordsOf 1 (recB 1 7 5 0)).all (fun r => r.fits adm0 false) = true ∧
    (recordsOf 1 (recB 1 7 5 0)).all (fun r => r.gen == live.dos.gen) = false ∧ ({ adm0 with touched := true }).touched = true := by decide +kernel

theorem le_sum {n : Nat} : ∀ {l : List Nat}, n ∈ l → n ≤ l.sum := by
  intro l
  induction l with
  | nil => simp
  | cons a t ih =>
    intro h
    rcases List.mem_cons.mp h with rfl | h
    · simp
    · have := ih h; simp; omega

/-- One pass-pixel owed is enough. -/
theorem owed_pos {a : Admission} {t : BeamTable} {recs : List MkRec} (x y p : Nat) (hx : x < a.hdr.W) (hy : y < a.hdr.L) (hp : p < a.hdr.passes)
    (h : 0 < owedDose a.hdr a.bins a.grid t a.gens recs x y p) : owedCount a t recs ≠ 0 := by
  unfold owedCount
  have h1 : p ∈ (List.range a.hdr.passes).filter (fun p => decide (owedDose a.hdr a.bins a.grid t a.gens recs x y p > 0)) := by simp [hp, h]
  have h2 := le_sum (List.mem_map.mpr ⟨x, List.mem_range.mpr hx, rfl⟩ : ((List.range a.hdr.passes).filter (fun p => decide (owedDose a.hdr a.bins a.grid t a.gens recs x y p > 0))).length ∈
    (List.range a.hdr.W).map (fun x => ((List.range a.hdr.passes).filter (fun p => decide (owedDose a.hdr a.bins a.grid t a.gens recs x y p > 0))).length))
  have h3 := le_sum (List.mem_map.mpr ⟨y, List.mem_range.mpr hy, rfl⟩ : ((List.range a.hdr.W).map (fun x => ((List.range a.hdr.passes).filter (fun p =>
    decide (owedDose a.hdr a.bins a.grid t a.gens recs x y p > 0))).length)).sum ∈ (List.range a.hdr.L).map (fun y => ((List.range a.hdr.W).map (fun x => ((List.range a.hdr.passes).filter (fun p =>
    decide (owedDose a.hdr a.bins a.grid t a.gens recs x y p > 0))).length)).sum))
  exact Nat.ne_of_gt (Nat.lt_of_lt_of_le (List.length_pos_of_mem h1) (Nat.le_trans h2 h3))

theorem witness_Arming_makeup : let s := atY (withCmd (makeC 1 0 1 0) (withAdm exposed (ready [])))
    let recs := recordsOf 1 (recB 1 0 5 0)
    let q := makeupPlan exposed.plan exposed.hdr.tag exposed.hdr.N 0 0
    (recs.all (fun r => r.fits exposed false) = true ∧ recs.all (fun r => r.gen == s.dos.gen) = true ∧ exposed.touched = false ∧ coveredSlots exposed s.dos.cur recs = [5] ∧
      limitPlan s exposed.y0 (q.regs.getD 4 0) 0 (min 1024 exposed.hdr.N) q.runup q.runout = 0 ∧ armChecks s exposed q 0 = 0) ∧ owedCount exposed s.dos.cur recs ≠ 0 :=
  ⟨by decide +kernel, owed_pos 0 5 0 (by decide +kernel) (by decide +kernel) (by decide +kernel) (by decide +kernel)⟩

def allG : Nat := 262144
def withG (gs : Tbl Group) (s : State) : State := withStripe { stripe0 .writing with groups := gs, nextGroup := 5 } s
theorem rises (gs : Tbl Group) (s : State) (h : (gs.map Prod.fst).Pairwise (· < ·)) : GroupsRise (withG gs s) := groupsRise_stripe rfl h
def stG (gs : Tbl Group) : Stripe := { stripe0 .writing with groups := gs, nextGroup := 5 }
def runS (s : State) : State := { s with units := { s.units with lanes := [(0, ⟨3, 0, false⟩)] } }

theorem witness_GroupBuild :
    (live.pac.stripe = none ∧ writeReaches 0x40030 live ∧ (127 : W32).toNat % 128 ∉ live.units.thrOut ∧ 31 ∉ live.units.ingOut ∧ live.units.ingOut.length < 31 ∧
      numIng (after (exec (.ingestUnitFailure 31) { live with units := { live.units with ingOut := List.range 31 } })) = 0 ∧ 0 < numIng (after (exec (.ingestUnitFailure 31) live))) ∧
    (queueOpens (stripe0 .writing) = true ∧ queueOpens { stripe0 .writing with nextGroup := 8 } = false) ∧
    (let s := runS (withG [(3, {})] live); tfind s.units.lanes 0 = some ⟨3, 0, false⟩ ∧ runWaits s (stG [(3, {})]) ⟨3, 0, false⟩ = false ∧ grpGet (stG [(3, {})]) 3 = some {} ∧ 0 ∉ s.units.thrOut) ∧
    (let gs := [(3, { next := allG : Group })]; let s := withG gs live;
      findGroup (stG gs) (fun j g => !g.built && groupIdle s (stG gs).adm.hdr j g) = some (3, { next := allG }) ∧ voting s = false ∧ 3 < (stG gs).g0 + 4) ∧
    (let gs := [(4, { next := allG : Group })]; let s := withG gs up;
      findGroup (stG gs) (fun j g => !g.built && groupIdle s (stG gs).adm.hdr j g) = some (4, { next := allG }) ∧ voting s = true ∧ (stG gs).g0 + 4 ≤ 4) ∧
    (let g : Group := { next := allG, mask := [1, 5], own1 := some [0], peer1 := some [1], peer2 := some [0, 0], peerMask := [1, 5], built := true }; let s := withG [(3, g)] up;
      findGroup (stG [(3, g)]) (fun j g => !g.mask.isEmpty && g.own2.isNone && groupIdle s (stG [(3, g)]).adm.hdr j g) = some (3, g)) ∧
    (let st := { stG [(4, {})] with started := true, nextSlot := 29 }; findGroup st (fun j _ => decide (j ≥ st.g0 + 4 ∧ st.started ∧ st.nextSlot + 4 > 8 * j)) = some (4, {}) ∧
      (∀ q ∈ st.groups, q.2.final ≠ some false)) ∧
    (let lost (j : Nat) : Nat × Group := (j, { final := some false }); let st := { stG [lost 4, lost 5, lost 6, (7, {})] with started := true, nextSlot := 53 }; let s := withStripe st up;
      findGroup st (fun j _ => decide (j ≥ st.g0 + 4 ∧ st.started ∧ st.nextSlot + 4 > 8 * j)) = some (7, {}) ∧ voting s = true ∧ groupRole s 7 = true ∧ st.abort = none ∧
      (∀ d, d < 3 → (grpGet st (7 - 3 + d)).bind (fun q => q.final) = some false)) ∧
    (let q : Job := { tile := 3, pass := 0, group := 2, unit := some 31 }; let st := { stG [] with jobs := [q] }; st.jobs.find? (fun q => q.unit == some 31) = some q) ∧
    (let f : Job := { tile := 3, pass := 0, group := 2, unit := some 0 }; let st := { stG [] with fills := [f] };
      st.fills.find? (fun f => f.unit.isSome && !(readPending live (fun q => q.rank == 2 && q.tile == f.tile && q.pass == f.pass && q.group == f.group))) = some f) := by
  unfold writeReaches; decide +kernel

theorem witness_GroupBuild_rise : GroupsRise (withG [(3, {})] live) ∧ GroupsRise (withG [(4, { next := allG })] up) := ⟨rises _ _ (by simp), rises _ _ (by simp)⟩

def due1 (s : State) : State := tim ({ · with setDue := 1 }) s
def moving1 : Stripe := { stripe0 .writing with started := true, nextSlot := 17, due := some 100, lastIssue := some 70, lastSlot := some 16 }
theorem witness_StageAndSlots :
    (writeReaches 0x60000 live ∧ 0 < (due1 live).tim.setDue ∧ live.glb.fatal = false ∧ live.pac.stripe = none ∧ paceOn live = false ∧ paceOn (withReg 0x60000 1 live) = true) ∧
    runUpDue (due1 (withStripe (stripe0 .arming) live)) (stripe0 .arming) = false ∧
    runUpDue (due1 (withStripe (stripe0 .armed) live)) (stripe0 .armed) = false ∧
    (let s := due1 (withStripe moving1 (withTwn { paired with master := false } live)); moving1.state.moving = true ∧ paceMaster s = false) ∧
    (let s := due1 (withStripe moving1 (ready [])); paceMaster s = true ∧ beyond (moving1.stopPoint moving1.k) (vlimHi s) = false ∧ beyond (moving1.stopPoint (moving1.k + 1)) (vlimHi s) = false) ∧
    (let st := { stripe0 .stopping with stop := some ⟨3, 0, 0, 0⟩, k := 4 }; let s := due1 (withStripe st (ready [])); st.state = .stopping ∧ st.stopEnd.isSome = true ∧ st.stopEnd.all (fun e => !beyond e (vlimHi s)) = true) ∧
    (let s := withReg 0x60020 4096 (withReg 0x60024 0 (due1 (withStripe moving1 (ready [])))); beyond (moving1.stopPoint moving1.k) (vlimHi s) = true) ∧
    (let st := { stripe0 .armed with wait := 1 }; let s := due1 (withStripe st (ready [])); runUpDue s st = true ∧ paceMaster s = true ∧ atStart s st.adm.y0 st.cpp st.slotFirst st.plan.runup = false ∧
      atStart (atY s) st.adm.y0 st.cpp st.slotFirst st.plan.runup = true) ∧
    (let st := { stripe0 .stopping with abort := some (1, 5), stop := some ⟨3, 0, 0, 0⟩, k := 9000 }; atRest (withStripe st live) st = true ∧ atRest (withStripe moving1 live) moving1 = false) ∧
    (moving1.due = some 100 ∧ issueEdge moving1 100 = 100 ∧ voting live = false ∧ moving1.abort = none ∧ moving1.nextSlot + 1 < moving1.slotEnd ∧
      (laneGet (lane0 { state := .active } live) 0).state = .active ∧ (laneGet live 0).state ≠ .active ∧ (stripe0 .runUp).state = .runUp ∧
      ({ moving1 with slotEnd := 18 }).slotEnd ≤ moving1.nextSlot + 1 ∧
      (let ho : Handover := { group := 2, cmd := some 0, proposed := true, committed := true }; (twn ({ · with handover := some ho }) (withStripe moving1 live)).twn.handover = some ho ∧
        8 * ho.group ≤ moving1.nextSlot) ∧ issueEdge { moving1 with lastIssue := some 80 } 100 = 105) := by
  unfold writeReaches; decide +kernel

theorem witness_PassGeometry : (flatHdr.passes = 1 ∨ flatHdr.passes = 2 ∨ flatHdr.passes = 4 ∨ flatHdr.passes = 8) ∧ flatHdr.W - 1 < flatHdr.W ∧
    0 < flatHdr.L ∧ 6 + 1 < flatHdr.passes ∧ 262143 < 262144 := by decide

/-! ### The well-formedness smoke: one refused term for each check -/

theorem test_wf_access_widths : (Instr.registerWrite false 0x28 4 0xFF 1 0).wellFormed = true ∧ (Instr.registerWrite false 0x28 0 0xFF 1 0).wellFormed = false ∧
    (Instr.registerWrite false 0x28 9 0xFF 1 0).wellFormed = false ∧ (Instr.loRegisterRead true 0 0).wellFormed = false ∧
    (Instr.loRegisterRead true 0 9).wellFormed = false ∧ (Instr.rwpRegisterWrite 0x60002 1 0).wellFormed = false := by decide

theorem test_wf_host_reads : (Instr.doorbellPollComplete (some (List.replicate 127 0))).wellFormed = false ∧
    (Instr.commandFetchComplete (some (List.replicate 65 0))).wellFormed = false ∧ (Instr.commandFetchComplete (some [])).wellFormed = false ∧
    (Instr.descriptorReadComplete 0 (some (List.replicate 63 0))).wellFormed = false ∧
    (Instr.descriptorReadComplete 0 (some (List.replicate 8 0))).wellFormed = true ∧
    (Instr.makeupArmArm 0 (some (List.replicate 39 0))).wellFormed = false ∧ (Instr.trimSet 0 (some [0])).wellFormed = false := by decide +kernel

theorem test_wf_long_reads : (Instr.dmaBurstEnd 0 (some (List.replicate 4097 0))).wellFormed = false ∧
    (Instr.commandFetchComplete (some (List.replicate 576 0))).wellFormed = false ∧
    (Instr.doorbellPollComplete (some (List.replicate 128 0))).wellFormed = true := by decide +kernel

theorem test_wf_dexpin : (Instr.dxpDigest 3 true 1 []).wellFormed = false ∧ (Instr.dxpDigest 3 true 1 [0]).wellFormed = true ∧
    (Instr.dxpDigest 3 false 0 [0]).wellFormed = false ∧ (Instr.dxpTable { msg0 with values := [] }).wellFormed = false ∧
    (Instr.dxpTable msg0).wellFormed = true := by decide +kernel

def short : GangFrame := { gangF with frame := List.replicate 59 0 }
theorem test_wf_frames : (Instr.ptpFrameRx 0 (List.replicate 13 0) { back := 0, phase := 0 }).wellFormed = false ∧ (Instr.gangStartRx short).wellFormed = false ∧
    (Instr.gangUserRx short).wellFormed = false ∧ (Instr.gangAbortRx short).wellFormed = false ∧ (Instr.gangIdClash short).wellFormed = false ∧
    (Instr.gangFrameRefused short).wellFormed = false ∧ (Instr.gangStartRx { short with frame := List.replicate 60 0 }).wellFormed = true := by decide

def conf0 : PcieConf := { mrrs := 2, bar0 := 0, bar2 := 0, msixEn := true, msixMask := false, d3hot := false }
theorem test_wf_link : (Instr.pcieLinkUp 0 16 1 conf0).wellFormed = false ∧ (Instr.pcieLinkUp 5 3 1 conf0).wellFormed = false ∧
    (Instr.pcieLinkUp 5 16 3 conf0).wellFormed = false ∧ (Instr.pcieLinkUp 5 16 1 { conf0 with mrrs := 6 }).wellFormed = false ∧
    (Instr.pcieLinkUp 5 16 1 conf0).wellFormed = true := by decide
theorem test_wf_idle : (Instr.returnIdle 0 1).wellFormed = false ∧ (Instr.returnIdle 0 0).wellFormed = true := by decide

/-! ### The spec's worked examples -/

/-- The nine bytes "123456789" of Table 10-13. -/
def digits : List Byte := [0x31, 0x32, 0x33, 0x34, 0x35, 0x36, 0x37, 0x38, 0x39]

/-- The check values of Table 10-13. -/
theorem test_crc_check_values : crcOf 0 digits = 0xE3069283 ∧ crcOf 1 digits = 0xCBF43926 ∧ crcOf 2 digits = 0x6C40DF5F0B497347 ∧
    crcOf 3 digits = 0x29B1 := by decide +kernel

/-- The stripe of the worked examples: P = 4, G = 32, L = 1,048,576. -/
def exampleHdr : Header := { passes := 4, pitch := 32, tileRows := 16384 }

/-- Table 1-8 and the maps of chapter 1. -/
theorem test_example_geometry : exampleHdr.S = 128 ∧ exampleHdr.W = 65536 ∧ exampleHdr.L = 1048576 ∧ exampleHdr.N = 1064928 ∧ exampleHdr.K = 1040 := by
  decide
theorem test_example_beam : passpixBeam exampleHdr 50000 0 = 41350 ∧ passpixSlot exampleHdr 50000 1000000 0 = 1002560 ∧
    beamSlot exampleHdr 41350 1002560 = (50000, 1000000, 0, true) ∧ passpixBeam exampleHdr 50000 1 = 106886 := by decide +kernel

/-- The payload of Table 2-16. -/
def payload : List Byte := [0xC0, 0x94, 0x02, 0x57, 0x0C, 0x27, 0x57, 0x0C, 0x27, 0x57, 0x0C, 0x13, 0x83, 0x01, 0x02, 0x03, 0x04, 0x33, 0x4F, 0xFD, 0xFF]

/-- Table 2-16: 4,096 samples in 12 steps; +12 at i = 734, −3 at i = 888, 4 at i = 835. -/
theorem test_rle_example : (rleExpand payload).map (fun r => (r.1.length, r.2, r.1.getD 734 0, r.1.getD 888 0, r.1.getD 835 0, r.1.getD 904 1)) =
    some (4096, 12, 12, 0xFD, 4, 0) := by decide +kernel

/-- The trapezoid of Table 3-7 covers its pixel with 2,846. -/
theorem test_coverage_example : trapCoverage ⟨680, 760, 3200870, 3200940, 3200927, 3200980⟩ 3200896 704 = 2846 := by decide +kernel

/-- The two tie cases of chapter 3: areas 1/2 and 3/2 give 0 and 2. -/
theorem test_coverage_ties : trapCoverage ⟨704, 705, 64, 65, 64, 64⟩ 64 704 = 0 ∧ trapCoverage ⟨704, 705, 64, 67, 64, 64⟩ 64 704 = 2 := by decide +kernel

/-- The union layer of chapter 3: 3,328, and 3,840 in a sum layer. -/
theorem test_union_layer : unionLayer [⟨704, 768, 3200896, 3200936, 3200896, 3200936⟩, ⟨736, 768, 3200920, 3200960, 3200920, 3200960⟩] 3200896 704 = 3328 ∧
    trapCoverage ⟨704, 768, 3200896, 3200936, 3200896, 3200936⟩ 3200896 704 = 2560 ∧
    trapCoverage ⟨736, 768, 3200920, 3200960, 3200920, 3200960⟩ 3200896 704 = 1280 := by decide +kernel

/-- The corner values of Table 4-12. -/
def exampleGrid : Tbl Nat := [(15625 * 1025 + 782, 17408), (15626 * 1025 + 781, 16896), (15626 * 1025 + 782, 17920)]

/-- Table 4-12 gives k = 16,964. -/
theorem test_correction_example : corrK exampleGrid exampleHdr 50014 1000011 = 16964 := by decide +kernel

/-- The beam table of chapter 4's example: beam 179,590 dark, the trims of Table 4-13. -/
def exampleTable : BeamTable := { health := [(179590, 1)], trim := [(114054, 2458), (245126, 1720)] }

/-- Table 4-13: the codes 11, 11, 0 and 10. -/
theorem test_dose_example : (List.range 4).map (fun p =>
    (passCode 2846 16964 12 exampleTable (passpixBeam exampleHdr 50014 p) 50014 1000011 p 4 false none).code) = [11, 11, 0, 10] := by decide +kernel

/-- The solid pattern of the same example: the shares missed are 6,144, 6,877 and 5,504. -/
theorem test_dose_shortfall : (List.range 4).map (fun p =>
    (passCode 4096 0x6000 12 exampleTable (passpixBeam exampleHdr 50014 p) 50014 1000011 p 4 false none).missed) = [6144, 6877, 0, 5504] := by decide +kernel

/-- The planner's input in chapter 5's example. -/
def examplePlan : PlanIn :=
  { nThr := 128, nIng := 32, nch := 12, density := 4, nbrK := 10, fmax := 6000, fmin := 100, amax := 400000000, jmax := 156250000 }

/-- Table 5-18: BW_g = 387,810 MB/s, M = 975, B = 1,086 and 2,061, f = 6,000 and 4,366 kHz. -/
theorem test_cost_example : examplePlan.bw = 387810 ∧ missCost examplePlan 65536 = 975 ∧ buildCost examplePlan 262144 1 0 = 1086 ∧
    buildCost examplePlan 262144 1 65536 = 2061 ∧ groupRate examplePlan 1086 = 6000 ∧ groupRate examplePlan 2061 = 4366 := by decide +kernel

/-- The transitions of chapter 5's example: 66,260, 75,000 and 45,658 slots. -/
theorem test_transition_example : transSlots 6000000 4366000 400000000 40000000000 = 66260 ∧ transSlots 0 6000000 400000000 40000000000 = 75000 ∧
    transSlots 4366000 0 400000000 40000000000 = 45658 ∧ transTime 6000000 4366000 400000000 40000000000 = 12784 := by decide +kernel

/-- The plan of that example from segment 914 on: the fast plateau before segment 980 holds its transition, the one after it does
not and takes the slow rate. -/
theorem test_plateau_example : planPlateaus 400000000 40000000000 914 1064928 3 (List.replicate 66 6000 ++ 4366 :: List.replicate 59 6000) =
    List.replicate 66 6000 ++ List.replicate 60 4366 := by decide +kernel

/-- Table 6-17: the slot targets at 76.8 counts per slot. -/
theorem test_targets_example : (List.range 6).map (fun n => (targetOf { stripe0 .writing with
    plan := { adm0.plan with regs := [6000, 100, 100000, 4000, 76 * 4294967296 + 0xCCCCCCCD, 10] }, adm := { adm0 with y0 := 2000000000 } } n).1 - 2000000000) =
    [0, 76, 153, 230, 307, 384] := by decide +kernel

/-- The frame header of chapter 7. -/
theorem test_frame_header : SlotInfo.header { n := 1006656, late := false, chaff := false, act := true, rx := 0xFFFD, rxValid := true, stripeSeq := 7, side := false } 52 =
    0xFFFD720F5C40B44B := by decide +kernel

/-- The address map example of chapter 9: channel 7, rank 1, and the covered address 0x1D8976DCD. -/
theorem test_loft_map : loftDecode 0xE324DA3FC0 (List.range 12) 2 1 = { ch := 7, cs := 1, sc := 1, bg := 5, ba := 2, row := 77531, col := 77 } ∧
    covered (loftDecode 0xE324DA3FC0 (List.range 12) 2 1) = 0x1D8976DCD := by decide +kernel

/-! ### One step each, on small states -/

/-- The counter of chapter 13's example wraps at 2^48 and sets OVF. -/
theorem test_counter_wrap : tget (cntAdd { State.reset.obs with cnt := [(144, 2 ^ 48 - 1)] } 144 2).cnt 144 0 = 1 ∧
    (cntAdd { State.reset.obs with cnt := [(144, 2 ^ 48 - 1)] } 144 2).ovf = [144] := by decide +kernel

/-- Chapter 6: with SPD_K 12 an interval of 11,111 cycles reads 460,804,608 counts/s, and one of 11,112 reads 460,763,138. -/
def speedState (cycles : Nat) : State :=
  tim ({ · with core := cycles }) (withReg (encOff 0 0) (12 * 256 + 1) (enc0 { edges := [(1, true)], lastUp := some true, posValid := true } live))
theorem test_speed_reading : (encGet (after (exec (.speedEdge 0 1) (speedState 11110))) 0).spd = 460804608 ∧
    (encGet (after (exec (.speedEdge 0 2) (speedState 11110))) 0).spd = 460763138 := by decide +kernel

/-- R406: with the reset increment of 4 ns a tick moves a domain by 4 ns. -/
theorem test_time_tick : (after (exec .timeTick live)).tim.a.t = live.tim.a.t + 4 * 2 ^ 32 := by decide +kernel

/-- R411: ADJUST by +3 ns moves the domain by 3 ns beside its increment. -/
theorem test_time_adjust : (after (exec .timeTick (tim (fun t => { t with a := { t.a with adjust := some (3 * 2 ^ 32) } }) live))).tim.a.t =
    live.tim.a.t + 7 * 2 ^ 32 := by decide +kernel

/-- The front of the queue runs first. -/
theorem test_queue_order : (after (step { State.reset with pending := [.powerOn, .dieTempRead 0] })).pending = [.dieTempRead 0] := by decide +kernel

/-- On an empty queue the block idles. -/
theorem test_idle : step State.reset = .next State.reset := rfl

/-- A register read back gives what was written (HST_DB_POLL, a period inside its range). -/
theorem test_scratch_write : regGet (after (exec (.registerWrite false 0x10028 4 0xFF 25 0) { live with hst := { live.hst with linkUp := true } })) 0x10028 = 25 := by
  decide +kernel

/-- The four levels of R236. -/
theorem test_pam4 : symbols [false, false, false, true, true, true, true, false] = [-3, -1, 1, 3] := by decide

/-- A frame that starts at word 1 of a block: SOF1 holds the header, the odd last word is padded with 0 (R240, R246). -/
theorem test_sof1 : frameBlocks true (le 8 0x4B ++ le 8 6) = [⟨true, 0x78, 0x4B⟩, ⟨false, 6, 0⟩] := by decide +kernel

/-- The two examples under Table 16-6: lane 52 at BY24 and BY25 (B is 66, Y is 89), and device 3 of subchannel 1 on channel 7. -/
theorem test_ball_examples : rowName 57 = [66, 89] ∧ ballAt 57 24 = .swlTx 52 false ∧ ballAt 57 25 = .swlTx 52 true ∧
    rowName 24 = [65, 69] ∧ ballAt 24 58 = .dq 7 52 ∧ ballAt 24 61 = .dq 7 55 ∧ ballAt 24 62 = .dqs 7 13 false ∧
    ballAt 24 63 = .dqs 7 13 true := by decide +kernel

/-- Ball counts of Table 16-6. -/
theorem test_ball_counts : ballCount .vss = 1061 ∧ ballCount .nc = 12 ∧ ballCount (.supply .core) = 210 ∧
    ballCount (.supply .sram) = 46 ∧ ballCount (.supply .serialLow) = 90 ∧ ballCount (.supply .serialHigh) = 61 ∧
    ballCount (.supply .dram) = 168 ∧ ballCount (.supply .io) = 16 ∧ ballCount (.supply .encoder) = 4 ∧
    ballCount (.supply .nvm) = 2 := by decide +kernel

/-- The frequencies of Table 16-10, and the case limit at 196 W of R532. -/
theorem test_clocks : ClockDomain.core.hz = 1250000000 ∧ ClockDomain.enc.hz = 160000000 ∧ ClockDomain.swl.hz = 878906250 ∧
    caseLimit 1960 = 9520 := by decide +kernel

/-- Table 16-13 adds up to its totals. -/
theorem test_power : (blockPower.map (·.1)).sum = 1580 ∧ (blockPower.map (·.2)).sum = 1960 := by decide +kernel

end Sys2Proof.Tests
end

section
/-! PROOFS. The writing model's maps (R24, R30, R44): the beams and slots that write the passes of a pixel. -/

namespace Sys2Proof.Machine

/-! ### Stripe geometry: columns, beam rows, pass bands -/

/-- The pass bands fill the 512 beam rows (R26). -/
theorem Header.passes_mul_S {h : Header} (hP : h.passes = 1 ∨ h.passes = 2 ∨ h.passes = 4 ∨ h.passes = 8) :
    h.passes * h.S = 512 := by
  rcases hP with hP | hP | hP | hP <;> simp [Header.S, hP]

theorem Header.S_pos_of_passes_mul_S {h : Header} (hmul : h.passes * h.S = 512) : 0 < h.S :=
  Nat.pos_of_mul_pos_left (hmul ▸ (by decide : 0 < 512))

/-- A number is `q * S + k` with a digit `k` below `S` exactly when `q` and `k` are its quotient and remainder. -/
theorem eq_mul_add_iff_div_mod {S k : Nat} (hk : k < S) (a q : Nat) :
    a = q * S + k ↔ a / S = q ∧ a % S = k := by
  rw [Nat.div_mod_unique (Nat.zero_lt_of_lt hk), Nat.add_comm k, Nat.mul_comm S, eq_comm, and_iff_left hk]

/-- The row of a pass-pixel lies in the band of its pass, so it is one of the 512 beam rows. -/
theorem passpixRow_lt {h : Header} (hmul : h.passes * h.S = 512) {p : Nat} (x : Nat) (hp : p < h.passes) :
    p * h.S + x % h.S < 512 :=
  calc p * h.S + x % h.S = h.S * p + x % h.S := by rw [Nat.mul_comm]
    _ < h.passes * h.S := Nat.mul_add_lt_mul_of_lt_of_lt hp (Nat.mod_lt x (Header.S_pos_of_passes_mul_S hmul))
    _ = 512 := hmul

/-- A pixel column of the stripe lies in one of the 512 beam columns (R26). -/
theorem passpixColumn_lt {h : Header} {x : Nat} (hx : x < h.W) : x / h.S < 512 :=
  Nat.div_lt_of_lt_mul (Nat.mul_comm 512 h.S ▸ hx)

/-- R24 and R26 are inverse to each other: beam row `r` and beam column `c` write column `x` in pass `p`
exactly when `c` and `r` are the ones that R26 gives. -/
theorem column_pass_iff_beam {S : Nat} (hS : 0 < S) (r c x p : Nat) :
    (c * S + r % S = x ∧ r / S = p) ↔ (c = x / S ∧ r = p * S + x % S) := by
  rw [eq_comm (a := c * S + r % S), eq_mul_add_iff_div_mod (Nat.mod_lt r hS), eq_mul_add_iff_div_mod (Nat.mod_lt x hS)]
  exact ⟨fun ⟨⟨hc, hk⟩, hp⟩ => ⟨hc.symm, hp, hk.symm⟩, fun ⟨hc, hp, hk⟩ => ⟨⟨hc.symm, hk.symm⟩, hp⟩⟩

/-! ### Beams and slots of pass-pixels -/

/-- Every beam writes a column inside the stripe (R25). -/
theorem beamSlot_column_lt {h : Header} (hS : 0 < h.S) (b n : Nat) : (beamSlot h b n).1 < h.W :=
  calc b % 512 * h.S + b / 512 % h.S = h.S * (b % 512) + b / 512 % h.S := by rw [Nat.mul_comm]
    _ < 512 * h.S := Nat.mul_add_lt_mul_of_lt_of_lt (Nat.mod_lt b (by decide)) (Nat.mod_lt _ hS)

theorem beamSlot_pass_lt {h : Header} (hmul : h.passes * h.S = 512) {b : Nat} (hb : b < 262144) (n : Nat) :
    (beamSlot h b n).2.2.1 < h.passes := by
  have hr : b / 512 < h.passes * h.S := by omega
  exact (Nat.div_lt_iff_lt_mul (Header.S_pos_of_passes_mul_S hmul)).2 hr

theorem passpixBeam_lt {h : Header} (hmul : h.passes * h.S = 512) {x p : Nat} (hx : x < h.W) (hp : p < h.passes) :
    passpixBeam h x p < 262144 :=
  calc passpixBeam h x p = 512 * (p * h.S + x % h.S) + x / h.S := by rw [passpixBeam, Nat.mul_comm]
    _ < 512 * 512 := Nat.mul_add_lt_mul_of_lt_of_lt (passpixRow_lt hmul x hp) (passpixColumn_lt hx)

/-- The last row of the stripe in the last beam row falls in the stripe's last slot (R31). -/
theorem passpixSlot_lt {h : Header} (hmul : h.passes * h.S = 512) {x y p : Nat} (hy : y < h.L) (hp : p < h.passes) :
    passpixSlot h x y p < h.N :=
  Nat.add_lt_add_of_lt_of_le hy (Nat.mul_le_mul_right h.pitch (Nat.le_of_lt_succ (passpixRow_lt hmul x hp)))

/-- A beam index names the beam of a pass-pixel when its column and its row do. -/
theorem eq_passpixBeam_iff {h : Header} {x : Nat} (hx : x < h.W) (b p : Nat) :
    b = passpixBeam h x p ↔ b % 512 = x / h.S ∧ b / 512 = p * h.S + x % h.S := by
  rw [passpixBeam, eq_mul_add_iff_div_mod (passpixColumn_lt hx), and_comm]

/-- On the beam row that writes a pass-pixel, slot and pixel row fix each other (R30, R44). -/
theorem eq_passpixSlot_iff (h : Header) (x y p n : Nat) :
    n = passpixSlot h x y p ↔ (n : Int) - ((p * h.S + x % h.S) * h.pitch : Nat) = y := by
  unfold passpixSlot
  generalize (p * h.S + x % h.S) * h.pitch = d
  omega

/-- The beam and slot that write a pass-pixel of the stripe are the ones of `passpixBeam` and `passpixSlot`, and no others. -/
theorem beamSlot_eq_passpix_iff {h : Header} (hS : 0 < h.S) {x y : Nat} (hx : x < h.W) (hy : y < h.L) (p b n : Nat) :
    beamSlot h b n = (x, (y : Int), p, true) ↔ b = passpixBeam h x p ∧ n = passpixSlot h x y p := by
  have hbeam : (b % 512 * h.S + b / 512 % h.S = x ∧ b / 512 / h.S = p) ↔ b = passpixBeam h x p :=
    (column_pass_iff_beam hS _ _ x p).trans (eq_passpixBeam_iff hx b p).symm
  rw [← hbeam, eq_passpixSlot_iff]
  simp only [beamSlot, Prod.mk.injEq, decide_eq_true_eq]
  constructor
  · rintro ⟨hcol, hrow, hpass, -⟩
    have hr := ((column_pass_iff_beam hS _ _ x p).1 ⟨hcol, hpass⟩).2
    exact ⟨⟨hcol, hpass⟩, hr ▸ hrow⟩
  · rintro ⟨⟨hcol, hpass⟩, hrow⟩
    rw [← ((column_pass_iff_beam hS _ _ x p).1 ⟨hcol, hpass⟩).2] at hrow
    exact ⟨hcol, hrow, hpass, by omega⟩

/-- A pass that lies `k` passes later falls `k` times `S * G` slots later (R44). -/
theorem passpixSlot_add (h : Header) (x y p k : Nat) :
    passpixSlot h x y (p + k) = passpixSlot h x y p + k * h.S * h.pitch := by
  unfold passpixSlot
  ring

/-- Settles O56: R24 and R26 are inverse to each other, and on the beam row so found R30 fixes the slot. -/
theorem passGeometry : Obligations.PassGeometry := by
  intro h hP
  have hmul : h.passes * h.S = 512 := Header.passes_mul_S hP
  have hS : 0 < h.S := Header.S_pos_of_passes_mul_S hmul
  refine ⟨fun b n hb => ?_, fun x y p hx hy hp => ?_⟩
  · exact ⟨_, _, _, _, rfl, rfl, beamSlot_column_lt hS b n, rfl, beamSlot_pass_lt hmul hb n, rfl, decide_eq_true_iff⟩
  · have hzero : passpixSlot h x y 0 = y + x % h.S * h.pitch := by simp [passpixSlot]
    have hnext : passpixSlot h x y (p + 1) = passpixSlot h x y p + h.S * h.pitch := by
      simpa using passpixSlot_add h x y p 1
    have hlast : passpixSlot h x y (h.passes - 1) = passpixSlot h x y 0 + (h.passes - 1) * h.S * h.pitch := by
      simpa using passpixSlot_add h x y 0 (h.passes - 1)
    exact ⟨rfl, passpixBeam_lt hmul hx hp, passpixSlot_lt hmul hy hp,
      fun b n _ => beamSlot_eq_passpix_iff hS hx hy p b n, fun _ => hnext, hzero, hlast⟩

end Sys2Proof.Machine
end

section
/-! PROOFS. The build of groups (R295 to R301): a group that fails as the fourth in a row discards a stripe before its
run-up (R197), and in a state where the vote is in its second round GROUP_BUILT can be the row that does so. -/

namespace Sys2Proof.Machine

/-! ### Operations that leave the PAC block alone -/

@[simp] theorem cntThr_pac (ev : Nat) (u : Option Nat) (n : Nat) (s : State) : (cntThr ev u n s).pac = s.pac :=
  same_pac (does_cntThr ev u n (Does.refl { obs := true } s) rfl).only rfl

@[simp] theorem cntTwn_pac (ev : Nat) (u : Option Nat) (n : Nat) (s : State) : (cntTwn ev u n s).pac = s.pac :=
  same_pac (does_cntTwn ev u n (Does.refl { obs := true } s) rfl).only rfl

@[simp] theorem raiseItems_pac (code cls : Nat) (l : List (Nat × Nat)) (s : State) : (raiseItems code cls l s).pac = s.pac :=
  same_pac (raiseItems_only code cls l s) rfl

@[simp] theorem dxpSend_pac (ty arg : Nat) (p : List Nat) (s : State) : (dxpSend ty arg p s).pac = s.pac :=
  same_pac (does_dxpSend ty arg p (Does.refl { outs := true, twn := true, obs := true } s) rfl).only rfl

@[simp] theorem completeOpt_pac (id : Option Nat) (status : Nat) (data : List Byte) (s : State) :
    (completeOpt id status data s).pac = s.pac :=
  same_pac (does_completeOpt id status data (Does.refl { outs := true, hst := true, obs := true } s) rfl).only rfl

@[simp] theorem releaseCoefs_pac (s : State) : (releaseCoefs s).pac = s.pac :=
  same_pac (does_releaseCoefs (Does.refl { outs := true, hst := true, enc := true, obs := true } s) rfl).only rfl

@[simp] theorem handoverDone_pac (s : State) : (handoverDone s).pac = s.pac :=
  same_pac (does_handoverDone (Does.refl { outs := true, hst := true, twn := true, obs := true } s) rfl).only rfl

@[simp] theorem cntThr_twn (ev : Nat) (u : Option Nat) (n : Nat) (s : State) : (cntThr ev u n s).twn = s.twn :=
  same_twn (does_cntThr ev u n (Does.refl { obs := true } s) rfl).only rfl

theorem grpPut_pac {s : State} {st : Stripe} (hst : s.pac.stripe = some st) (j : Nat) (g : Group) :
    (grpPut j g s).pac = { s.pac with stripe := some { st with groups := tput st.groups j g } } := by
  simp [grpPut, hst, setStripe]

theorem tfind_tput_ne {α : Type} (t : Tbl α) {k j : Nat} (v : α) (h : j ≠ k) : tfind (tput t k v) j = tfind t j := by
  induction t with
  | nil => simp [tput, tfind, h.symm]
  | cons p t ih =>
    obtain ⟨i, w⟩ := p
    rcases Nat.lt_trichotomy k i with hlt | rfl | hgt
    · simp [tput, tfind, hlt, h.symm]
    · simp [tput, tfind, h.symm]
    · simp [tput, tfind, Nat.not_lt_of_gt hgt, Nat.ne_of_gt hgt, ih]

/-! ### A stripe without an account raises no records -/

theorem raiseStripeLoss_of_no_account {s : State} (ha : s.pac.acct = none) (r : MkRec) : raiseStripeLoss r s = s := by
  simp [raiseStripeLoss, ha]

theorem groupRecords_of_no_account {s : State} (ha : s.pac.acct = none) (st : Stripe) (j : Nat) (g : Group) (launched : Bool)
    (left : List Nat) : groupRecords st j g launched left s = s := by
  unfold groupRecords
  extract_lets n1 s1 s2 s3
  have h1 : s1 = s := List.foldl_fixed' (fun b => by split <;> exact raiseStripeLoss_of_no_account ha _) left
  have h2 : s2 = s := by simp only [s2, h1, ha]
  have h3 : s3 = s := by
    simp only [s3, h2]
    exact List.foldl_fixed' (fun r => raiseStripeLoss_of_no_account ha r) _
  rw [h3, raiseStripeLoss_of_no_account ha, ite_self]

theorem endAccount_of_no_account {s : State} (ha : s.pac.acct = none) : endAccount s = s := by
  simp [endAccount, ha]

/-! ### A stripe that is discarded -/

theorem dropStripe_stripe (keep : Bool) (s : State) : (dropStripe keep s).pac.stripe = none := by
  unfold dropStripe
  split
  · assumption
  · simp

theorem dropStripe_acct (keep : Bool) (s : State) : (dropStripe keep s).pac.acct = s.pac.acct := by
  unfold dropStripe
  split <;> simp

theorem discardStripe_stripe {s : State} (ha : s.pac.acct = none) (keep : Bool) (status : Nat) :
    (discardStripe keep status s).pac.stripe = none := by
  have hdrop : (endAccount (dropStripe keep s)).pac.stripe = none := by
    rw [endAccount_of_no_account (by rw [dropStripe_acct, ha]), dropStripe_stripe]
  unfold discardStripe
  split
  · assumption
  · rw [completeOpt_pac]
    split <;> simpa using hdrop

/-- Before its run-up a stripe does not stop: it is discarded (R197). -/
theorem abortOrDiscardFree_stripe {s : State} {st : Stripe} (hst : s.pac.stripe = some st) (ha : s.pac.acct = none)
    (hs : st.state = .arming ∨ st.state = .armed) (cause : Nat) (gang event : Bool) :
    (abortOrDiscardFree cause gang event s).pac.stripe = none := by
  have hmoving : st.state.moving = false := by rcases hs with hs | hs <;> rw [hs] <;> rfl
  have hstopping : st.state ≠ .stopping := by rcases hs with hs | hs <;> simp [hs]
  have hdisc : ∀ n, (discardStripe false n { s with free := s.free + 1 }).pac.stripe = none := fun n =>
    discardStripe_stripe (s := { s with free := s.free + 1 }) ha false n
  simp only [abortOrDiscardFree, drawFree, abortOrDiscard, hst, hmoving, Bool.false_eq_true, if_false, hstopping]
  split <;> simp [hdisc]

theorem dealAll_of_no_stripe {s : State} (hst : s.pac.stripe = none) : dealAll s = s :=
  List.foldl_fixed' (fun l => by simp [dealLane, hst]) _

/-! ### The fourth failed group in a row (R301) -/

theorem fourFailed_of_three {st : Stripe} {j : Nat} (hj : 3 ≤ j) (hfail : (grpGet st j).bind Group.final = some false)
    (hprev : ∀ d, d < 3 → (grpGet st (j - 3 + d)).bind Group.final = some false) : fourFailed st j = true := by
  simp only [fourFailed, List.any_eq_true, List.all_eq_true, List.mem_range, Bool.and_eq_true, decide_eq_true_eq, beq_iff_eq]
  refine ⟨3, by decide, fun d hd => ⟨by omega, ?_⟩⟩
  by_cases hd3 : d < 3
  · rw [Nat.sub_add_comm hj]
    exact hprev d hd3
  · obtain rfl : d = 3 := by omega
    rw [Nat.add_sub_cancel]
    exact hfail

/-- A group that fails after three failed ones discards a stripe before its run-up. -/
theorem finalGroup_fourth_stripe {s : State} {st : Stripe} {j : Nat} {g : Group} (hst : s.pac.stripe = some st)
    (ha : s.pac.acct = none) (hs : st.state = .arming ∨ st.state = .armed) (habort : st.abort = none)
    (hg : grpGet st j = some g) (hopen : g.final = none) (hrole : groupRole s j = true) (hj : 3 ≤ j)
    (hprev : ∀ d, d < 3 → (grpGet st (j - 3 + d)).bind Group.final = some false) (lane failed : Nat) :
    (finalGroup j false lane failed s).pac.stripe = none := by
  unfold finalGroup
  split
  · assumption
  next st' hst' =>
  obtain rfl : st = st' := Option.some.inj (hst.symm.trans hst')
  split
  next h => cases h.symm.trans hg
  next g' hg' =>
  obtain rfl : g = g' := Option.some.inj (hg.symm.trans hg')
  rw [if_neg (by simp [hopen])]
  extract_lets left role g1 st1 _ s1 s2 _ s3 _ s4 _ s5
  have h1 : s1.pac = { s.pac with stripe := some st1 } := rfl
  have h2 : s2.pac = s1.pac := by
    simp only [s2]
    rw [groupRecords_of_no_account (by rw [h1]; exact ha), ite_self]
  have h3 : s3.pac = s2.pac := cntTwn_pac _ _ _ _
  have h4 : s4.pac = s3.pac := by
    simp only [s4]
    split
    · exact raiseItems_pac _ _ _ _
    · rfl
  have hpac : s4.pac = { s.pac with stripe := some st1 } := h4.trans (h3.trans (h2.trans h1))
  have hfour : fourFailed st1 j = true := by
    refine fourFailed_of_three hj (by simp [grpGet, st1, tfind_tput_same, g1]) (fun d hd => ?_)
    have hother : grpGet st1 (j - 3 + d) = grpGet st (j - 3 + d) := tfind_tput_ne _ _ (by omega)
    rw [hother]
    exact hprev d hd
  have h5 : s5.pac.stripe = none := by
    simp only [s5, hpac]
    rw [if_pos ⟨hrole, Bool.false_ne_true, by simp [st1, habort], hfour⟩]
    exact abortOrDiscardFree_stripe (st := st1) (by simp) (by simp [ha]) hs _ _ _
  rw [dealAll_of_no_stripe h5, h5]

/-! ### GROUP_BUILT as the row that settles a vote -/

/-- With the digests of both rounds in hand, the vote ends in the outcome of Table 8-8 (R296). -/
theorem voteGroup_of_round2 {s : State} {st : Stripe} {j : Nat} {g : Group} {a b c d : List Nat} (hst : s.pac.stripe = some st)
    (hg : grpGet st j = some g) (hopen : g.final = none) (hmask : g.mask ≠ []) (ha : g.own1 = some a) (hb : g.peer1 = some b)
    (hc : g.own2 = some c) (hd : g.peer2 = some d) :
    voteGroup j s = finalGroup j (notAgreed g).isEmpty ((notAgreed g).headD 0) (notAgreed g).length s := by
  simp [voteGroup, hst, hg, hopen, hmask, ha, hb, hc, hd]

/-- What GROUP_BUILT does with the group in twin operation (R295). -/
theorem execGroupBuilt_of_voting {s : State} {st : Stripe} {j : Nat} {g : Group} (hst : s.pac.stripe = some st)
    (hv : voting s = true) (hf : findGroup st (fun j g => !g.built && groupIdle s st.adm.hdr j g) = some (j, g)) :
    ∃ (u : State) (ds : List Nat), execGroupBuilt s = ok (voteGroup j u) ∧
      u.pac = { s.pac with stripe := some { st with groups := tput st.groups j { g with built := true, own1 := some ds } } } := by
  have hv' : ∀ n, voting (cntThr 6 none n s) = true := fun n => by simpa [voting] using hv
  unfold execGroupBuilt
  split
  next h => cases h.symm.trans hst
  next st' hst' =>
  obtain rfl : st = st' := Option.some.inj (hst.symm.trans hst')
  rw [hf]
  dsimp only
  rw [if_pos (hv' _)]
  exact ⟨_, _, rfl, by rw [dxpSend_pac, grpPut_pac (by simpa using hst), cntThr_pac]⟩

/-! ### The state that refutes O59 -/

/-- A group of the active twin whose vote is in its second round, though GROUP_BUILT has still to come for it: every run is dealt, and
neither twin's round-2 digests name the masked lane 0. The statement asks of
the groups only that they stand in rising order, so it speaks of this one, too. -/
def unbuiltRound2 : Group := { next := numBeams, mask := [0], peer1 := some [], own2 := some [], peer2 := some [], active := some true }

/-- An armed stripe whose groups 0 to 2 have failed, with that group as its group 3. -/
def threeFailedStripe : Stripe where
  adm := { id := 1, cmd := none, phase := .held, sheaf := 0, sheafLen := 0, bin := 0, binLen := 0, report := 0, y0 := 0 }
  id := 1
  cmd := none
  state := .armed
  plan := {}
  segFirst := 0
  slotFirst := 0
  slotEnd := 64
  makeup := none
  owed := 0
  domB := false
  startAt := none
  wait := 2
  k := 0
  stop := none
  tgt := 0
  tgtFrac := 0
  nextSlot := 0
  trigArmed := false
  tgtFrom := 0
  due := none
  lastIssue := none
  grpStart := 0
  reversed := false
  lastSlot := none
  lateRun := none
  groups := [(0, { final := some false }), (1, { final := some false }), (2, { final := some false }), (3, unbuiltRound2)]
  peerEarly := []
  nextGroup := 4
  groupLimit := 8
  jobs := []
  fills := []
  lostTiles := []
  dY := 0
  dX := 0
  failY := false
  failX := false
  overGroups := []
  abort := none
  cut := false
  firstFail := none
  crib := []
  doneRaised := false
  started := false
  mkCount := 0
  overrunRaised := false

theorem threeFailedStripe_failed : ∀ d, d < 3 → (tfind threeFailedStripe.groups (3 - 3 + d)).bind Group.final = some false := by
  decide

/-- A twin of a formed pair that holds that stripe. -/
def threeFailedTwin : State := { pac := { stripe := some threeFailedStripe }, twn := { link := .up, paired := true, partnerLive := true } }

theorem threeFailedTwin_rises : GroupsRise threeFailedTwin := by
  intro st hst
  obtain rfl : threeFailedStripe = st := Option.some.inj hst
  decide

theorem threeFailedTwin_finds : findGroup threeFailedStripe
    (fun j g => !g.built && groupIdle threeFailedTwin threeFailedStripe.adm.hdr j g) = some (3, unbuiltRound2) := by
  decide

/-- The digests of round 1 do not matter: lane 0 has no round-2 digest, so it does not agree (Table 8-8). -/
theorem unbuiltRound2_notAgreed (ds : List Nat) : notAgreed { unbuiltRound2 with built := true, own1 := some ds } = [0] := rfl

/-- GROUP_BUILT makes group 3 the fourth failed group in a row, so the armed stripe is discarded. -/
theorem threeFailedTwin_groupBuilt : ∃ t, exec .groupBuilt threeFailedTwin = .next t ∧ t.pac.stripe = none := by
  obtain ⟨u, ds, hexec, hu⟩ := execGroupBuilt_of_voting (s := threeFailedTwin) (st := threeFailedStripe) rfl rfl threeFailedTwin_finds
  refine ⟨_, hexec, ?_⟩
  have hst : u.pac.stripe = some { threeFailedStripe with
      groups := tput threeFailedStripe.groups 3 { unbuiltRound2 with built := true, own1 := some ds } } := by rw [hu]
  rw [voteGroup_of_round2 hst (tfind_tput_same _ _ _) rfl (List.cons_ne_nil _ _) rfl rfl rfl rfl, unbuiltRound2_notAgreed]
  refine finalGroup_fourth_stripe hst (by rw [hu]; rfl) (.inr rfl) rfl (tfind_tput_same _ _ _) rfl ?_ (Nat.le_refl 3) ?_ _ _
  · simp [groupRole, hst, tfind_tput_same, unbuiltRound2]
  · intro d hd
    rw [grpGet, tfind_tput_ne _ _ (by omega)]
    exact threeFailedStripe_failed d hd

/-- Refutes O59: its clause on GROUP_BUILT promises that the stripe still stands, and unlike the clauses on ROUND2_BUILT and
GROUP_DEADLINE it does not ask that no group has failed before. The group of `threeFailedTwin` fails as the fourth in a row, and
its armed stripe is gone (R301). -/
theorem not_groupBuild : ¬ Obligations.GroupBuild := by
  intro h
  obtain ⟨-, h⟩ := h
  obtain ⟨-, -, -, -, hbuilt, -⟩ := h threeFailedTwin threeFailedStripe rfl threeFailedTwin_rises
  obtain ⟨t, hexec, st', -, hst', -⟩ := hbuilt 3 unbuiltRound2 threeFailedTwin_finds
  obtain ⟨t', hexec', hnone⟩ := threeFailedTwin_groupBuilt
  obtain rfl : t = t' := Host.Outcome.next.inj (hexec.symm.trans hexec')
  cases hst'.symm.trans hnone

end Sys2Proof.Machine
end

section
/-! PROOFS. The beam table commands (R153, R154, R156 to R162, R310): what the operations of Machine/Tables.lean do, each said
once, and the rows of the commands and of the partner's messages from them. -/

namespace Sys2Proof.Machine

/-! ### Operations that leave the table and its command alone -/

@[simp] theorem msgRecord_dos (m : TableMsg) (st : Nat) (s : State) : (msgRecord m st s).dos = s.dos :=
  same_dos (does_msgRecord m st (Does.refl { slo := true, obs := true } s) rfl).only rfl

@[simp] theorem msgRecord_twn (m : TableMsg) (st : Nat) (s : State) : (msgRecord m st s).twn = s.twn :=
  same_twn (does_msgRecord m st (Does.refl { slo := true, obs := true } s) rfl).only rfl

@[simp] theorem msgRecord_grn (m : TableMsg) (st : Nat) (s : State) : (msgRecord m st s).grn = s.grn :=
  same_grn (does_msgRecord m st (Does.refl { slo := true, obs := true } s) rfl).only rfl

@[simp] theorem completeOpt_dos (id : Option Nat) (st : Nat) (data : List Byte) (s : State) :
    (completeOpt id st data s).dos = s.dos :=
  same_dos (does_completeOpt id st data (Does.refl { outs := true, hst := true, obs := true } s) rfl).only rfl

@[simp] theorem completeOpt_twn (id : Option Nat) (st : Nat) (data : List Byte) (s : State) :
    (completeOpt id st data s).twn = s.twn :=
  same_twn (does_completeOpt id st data (Does.refl { outs := true, hst := true, obs := true } s) rfl).only rfl

@[simp] theorem completeOpt_grn (id : Option Nat) (st : Nat) (data : List Byte) (s : State) :
    (completeOpt id st data s).grn = s.grn :=
  same_grn (does_completeOpt id st data (Does.refl { outs := true, hst := true, obs := true } s) rfl).only rfl

@[simp] theorem raiseItems_dos (code cls : Nat) (l : List (Nat × Nat)) (s : State) : (raiseItems code cls l s).dos = s.dos :=
  same_dos (raiseItems_only code cls l s) rfl

@[simp] theorem journalAfter_twn (m : TableMsg) (failed : Bool) (s : State) : (journalAfter m failed s).twn = s.twn :=
  same_twn (does_journalAfter m failed (Does.refl { dos := true } s) rfl).only rfl

@[simp] theorem journalAfter_grn (m : TableMsg) (failed : Bool) (s : State) : (journalAfter m failed s).grn = s.grn :=
  same_grn (does_journalAfter m failed (Does.refl { dos := true } s) rfl).only rfl

@[simp] theorem journalAfter_outs (m : TableMsg) (failed : Bool) (s : State) : (journalAfter m failed s).outs = s.outs :=
  same_outs (does_journalAfter m failed (Does.refl { dos := true } s) rfl).only rfl

@[simp] theorem applyTable_twn (m : TableMsg) (s : State) : (applyTable m s).twn = s.twn :=
  same_twn (does_applyTable m (Does.refl { dos := true, pac := true } s) rfl).only rfl

@[simp] theorem applyTable_grn (m : TableMsg) (s : State) : (applyTable m s).grn = s.grn :=
  same_grn (does_applyTable m (Does.refl { dos := true, pac := true } s) rfl).only rfl

@[simp] theorem applyTable_outs (m : TableMsg) (s : State) : (applyTable m s).outs = s.outs :=
  same_outs (does_applyTable m (Does.refl { dos := true, pac := true } s) rfl).only rfl

@[simp] theorem queueJob_dos (j : GrnJob) (s : State) : (queueJob j s).dos = s.dos :=
  same_dos (does_queueJob j (Does.refl { grn := true } s) rfl).only rfl

@[simp] theorem queueJob_twn (j : GrnJob) (s : State) : (queueJob j s).twn = s.twn :=
  same_twn (does_queueJob j (Does.refl { grn := true } s) rfl).only rfl

/-! ### The command in progress -/

/-- The command in progress, or none, set. -/
def setTableX (x : Option TableX) (s : State) : State := { s with twn := { s.twn with tableX := x } }

@[simp] theorem setTableX_tableX (x : Option TableX) (s : State) : (setTableX x s).twn.tableX = x := rfl
@[simp] theorem setTableX_link (x : Option TableX) (s : State) : (setTableX x s).twn.link = s.twn.link := rfl
@[simp] theorem setTableX_txAlive (x : Option TableX) (s : State) : (setTableX x s).twn.txAlive = s.twn.txAlive := rfl
@[simp] theorem setTableX_dos (x : Option TableX) (s : State) : (setTableX x s).dos = s.dos := rfl
@[simp] theorem setTableX_pac (x : Option TableX) (s : State) : (setTableX x s).pac = s.pac := rfl
@[simp] theorem setTableX_grn (x : Option TableX) (s : State) : (setTableX x s).grn = s.grn := rfl
@[simp] theorem setTableX_outs (x : Option TableX) (s : State) : (setTableX x s).outs = s.outs := rfl

/-! ### Messages to the partner -/

/-- The next message to the partner (R287). -/
def nextMessage (s : State) (ty arg : Nat) (p : List Nat) : Output :=
  .dxpMessage (dxpWords ((s.twn.txAlive + 1) % 65536) ty arg p)

@[simp] theorem dxpSend_dos (ty arg : Nat) (p : List Nat) (s : State) : (dxpSend ty arg p s).dos = s.dos :=
  same_dos (does_dxpSend ty arg p (Does.refl { outs := true, twn := true, obs := true } s) rfl).only rfl

@[simp] theorem dxpSend_grn (ty arg : Nat) (p : List Nat) (s : State) : (dxpSend ty arg p s).grn = s.grn :=
  same_grn (does_dxpSend ty arg p (Does.refl { outs := true, twn := true, obs := true } s) rfl).only rfl

/-- Over a link that is UP a message goes out, and of TWN only the count of messages goes on. -/
theorem dxpSend_of_up {s : State} (hup : s.twn.link = .up) (ty arg : Nat) (p : List Nat) :
    (dxpSend ty arg p s).outs = nextMessage s ty arg p :: s.outs ∧
      (dxpSend ty arg p s).twn = { s.twn with txAlive := (s.twn.txAlive + 1) % 65536 } := by
  have hcounts : ∀ (path n ty : Nat) (u : State), changesOnly { obs := true } u (chkFrame 1 path n (cntTwn 1 (some ty) 1 u)) :=
    fun path n ty u => (does_chkFrame 1 path n (does_cntTwn 1 (some ty) 1 (Does.refl _ u) rfl) rfl).only
  unfold dxpSend
  rw [if_pos hup]
  exact ⟨same_outs (hcounts _ _ _ _) rfl, same_twn (hcounts _ _ _ _) rfl⟩

theorem dxpSend_outs {s : State} (hup : s.twn.link = .up) (ty arg : Nat) (p : List Nat) :
    (dxpSend ty arg p s).outs = nextMessage s ty arg p :: s.outs := (dxpSend_of_up hup ty arg p).1

@[simp] theorem dxpSend_tableX (ty arg : Nat) (p : List Nat) (s : State) : (dxpSend ty arg p s).twn.tableX = s.twn.tableX := by
  by_cases hup : s.twn.link = .up
  · rw [(dxpSend_of_up hup ty arg p).2]
  · rw [dxpSend, if_neg hup]

theorem link_of_voting {s : State} (hv : voting s = true) : s.twn.link = .up := by
  simp only [voting, Bool.and_eq_true, decide_eq_true_eq] at hv
  exact hv.2

theorem le_succ_ne_nil (n v : Nat) : le (n + 1) v ≠ [] := List.cons_ne_nil _ _

theorem packValues_ne_nil (trim : Bool) (n : Nat) {vs : List Nat} (h : vs ≠ []) : packValues trim (n + 1) vs ≠ [] := by
  have hne : ¬ vs.isEmpty = true := by simpa using h
  rw [packValues, if_neg hne]
  split <;> exact List.append_ne_nil_of_left_ne_nil (le_succ_ne_nil _ _) _

theorem wordsOf_ne_nil (n : Nat) {b : List Byte} (h : b ≠ []) : wordsOf (n + 1) b ≠ [] := by
  rw [wordsOf, if_neg (by simpa using h)]
  exact List.cons_ne_nil _ _

theorem chunks_of_ne_nil (n : Nat) {l : List Nat} (h : l ≠ []) : chunks (n + 1) l = l.take 124 :: chunks n (l.drop 124) := by
  rw [chunks, if_neg (by simpa using h)]

/-- The first TABLE message of a command that carries values goes out; the others wait (R288). -/
theorem sendTable_sends {m : TableMsg} (hvals : m.values ≠ []) {s : State} (hup : s.twn.link = .up) :
    (sendTable m s).twn.tableX = s.twn.tableX ∧ (sendTable m s).dos = s.dos ∧ (sendTable m s).grn = s.grn ∧
      ∃ p, nextMessage s 8 m.tag.toNat p ∈ (sendTable m s).outs ∧
        p.take 4 = [msgKind m, m.first.toNat, m.count.toNat, m.row.toNat] := by
  unfold sendTable
  extract_lets b ws msgs
  have hws : ws ≠ [] := wordsOf_ne_nil _ (packValues_ne_nil _ _ hvals)
  have hmsgs : msgs = _ := congrArg (List.map _) (chunks_of_ne_nil ws.length hws)
  rw [hmsgs, List.map_cons]
  refine ⟨dxpSend_tableX _ _ _ _, dxpSend_dos _ _ _ _, dxpSend_grn _ _ _ _,
    [msgKind m, m.first.toNat, m.count.toNat, m.row.toNat] ++ ws.take 124, ?_, rfl⟩
  dsimp only
  rw [dxpSend_outs (by exact hup)]
  exact List.mem_cons_self

/-! ### The versions of the table -/

/-- The versions of the table: in effect, waiting, and the one before a switch row. -/
def versions (s : State) : BeamTable × Option BeamTable × Option (Nat × BeamTable) := (s.dos.cur, s.dos.waiting, s.dos.prev)

/-- A version with the values of a command and the generation that it makes. -/
def withValues (s : State) (m : TableMsg) (b : BeamTable) : BeamTable :=
  setBeams m.trim b m.first.toNat m.values (nextGen s)

/-- The versions that a command makes of those at `s`: in effect, waiting while a stripe needs the old one, or from its row on
(R156, R157). -/
def ChangesVersions (s : State) (m : TableMsg) (v : BeamTable × Option BeamTable × Option (Nat × BeamTable)) : Prop :=
  (m.row.toNat = max32 → (∀ st, s.pac.stripe = some st → st.doneRaised = true ∨ st.abort.isSome = true) →
    v.1 = withValues s m (latestTable s) ∧ v.2.1 = none ∧ v.2.2 = s.dos.prev) ∧
  (m.row.toNat = max32 → (∀ st, s.pac.stripe = some st → st.doneRaised = false ∧ st.abort = none) → s.pac.stripe.isSome = true →
    v.1 = s.dos.cur ∧ v.2.1 = some (withValues s m (latestTable s)) ∧ v.2.2 = s.dos.prev) ∧
  (m.row.toNat ≠ max32 → v.1 = withValues s m s.dos.cur ∧ v.2.2 = some (m.row.toNat, s.dos.cur) ∧
    v.2.1 = s.dos.waiting.map (withValues s m))

/-- No stripe needs the version in effect: none stands, or it is done or aborts. -/
theorem no_stripe_needs_old_iff (s : State) :
    s.pac.stripe.any (fun st => !st.doneRaised && st.abort.isNone) = false ↔
      ∀ st, s.pac.stripe = some st → st.doneRaised = true ∨ st.abort.isSome = true := by
  cases s.pac.stripe with
  | none => simp
  | some st =>
    simp only [Option.any_some, Option.some.injEq, forall_eq']
    cases st.doneRaised <;> cases st.abort <;> simp

theorem applyTable_changesVersions (m : TableMsg) (s : State) : ChangesVersions s m (versions (applyTable m s)) := by
  unfold applyTable
  refine ⟨fun hrow hfree => ?_, fun hrow hneeds hst => ?_, fun hrow => ?_⟩
  · rw [if_pos hrow, if_neg (by rw [(no_stripe_needs_old_iff s).2 hfree]; exact Bool.false_ne_true)]
    exact ⟨rfl, rfl, rfl⟩
  · obtain ⟨st, hst⟩ := Option.isSome_iff_exists.1 hst
    obtain ⟨hdone, habort⟩ := hneeds st hst
    rw [if_pos hrow, if_pos (by simp [hst, hdone, habort])]
    exact ⟨rfl, rfl, rfl⟩
  · rw [if_neg hrow]
    exact ⟨rfl, rfl, rfl⟩

@[simp] theorem applyTable_gen (m : TableMsg) (s : State) : (applyTable m s).dos.gen = s.dos.gen := by
  unfold applyTable
  split
  · split <;> rfl
  · rfl

theorem journalAfter_dos (m : TableMsg) (failed : Bool) (s : State) :
    versions (journalAfter m failed s) = versions s ∧ (journalAfter m failed s).dos.gen = s.dos.gen := by
  unfold journalAfter setDirty versions
  dsimp only
  split
  · exact ⟨rfl, rfl⟩
  · split <;> exact ⟨rfl, rfl⟩

@[simp] theorem journalAfter_gen (m : TableMsg) (failed : Bool) (s : State) : (journalAfter m failed s).dos.gen = s.dos.gen :=
  (journalAfter_dos m failed s).2

theorem versions_of_dos {s t : State} (h : t.dos = s.dos) : versions t = versions s := by rw [versions, h, versions]

/-! ### A command that ends -/

theorem pushEntry_inflight (e : Entry) (s : State) : (pushEntry e s).hst.inflight = s.hst.inflight := by
  have h := congrArg Hst.inflight (pushEntry_kept e s)
  exact h

/-- A command that has completed is not in flight. -/
theorem cmdFind_complete (id st : Nat) (data : List Byte) (s : State) : cmdFind (complete id st data s) id = none := by
  unfold complete
  split
  · assumption
  · rw [cmdFind, pushEntry_inflight, List.find?_filter]
    simp

theorem refuseTable_completedWith (id : Nat) (c : Cmd) (trim : Bool) (st : Nat) (s : State) (o : List Output) :
    completedWith Parts.events id st s (refuseTable id c trim st { s with outs := o }) :=
  ⟨_, _, Eq.trans (does_tableRecord _ st _ _ _ (Does.refl Parts.events { s with outs := o }) rfl).only rfl, rfl⟩

@[simp] theorem finishTable_dos (x : TableX) (st : Nat) (s : State) :
    (finishTable x st s).dos = { s.dos with gen := nextGen s } := by simp [finishTable]

@[simp] theorem finishTable_twn (x : TableX) (st : Nat) (s : State) :
    (finishTable x st s).twn = (setTableX none s).twn := by simp [finishTable, setTableX]

@[simp] theorem finishTable_grn (x : TableX) (st : Nat) (s : State) : (finishTable x st s).grn = s.grn := by simp [finishTable]

theorem finishTable_completedWith {x : TableX} {id : Nat} (hcmd : x.cmd = some id) (st : Nat) (s : State) :
    completedWith { Parts.events with dos := true, twn := true } id st s (finishTable x st s) := by
  unfold finishTable
  rw [hcmd]
  refine ⟨_, _, ?_, rfl⟩
  exact Eq.trans (does_msgRecord x.msg st (Does.refl _ _) rfl).only rfl

theorem cmdFind_finishTable {x : TableX} {id : Nat} (hcmd : x.cmd = some id) (st : Nat) (s : State) :
    cmdFind (finishTable x st s) id = none := by
  unfold finishTable
  rw [hcmd]
  exact cmdFind_complete _ _ _ _

/-! ### The words of a change are in the granary -/

/-- A command of this device alone completes. -/
theorem tableWritten_of_solo {s : State} {x : TableX} (hx : s.twn.tableX = some x) (hsolo : x.pair = false) (failed : Bool)
    (n : Nat) : tableWritten failed n s = finishTable { x with words := n } 0 (journalAfter x.msg failed s) := by
  simp [tableWritten, hx, hsolo]

/-- The partner's side is done and says so. -/
theorem tableWritten_of_partner {s : State} {x : TableX} (hx : s.twn.tableX = some x) (hpair : x.pair = true)
    (hcmd : x.cmd = none) (failed : Bool) (n : Nat) :
    tableWritten failed n s =
      dxpSend 9 x.msg.tag.toNat [1] (finishTable { x with words := n } 0 (journalAfter x.msg failed s)) := by
  simp [tableWritten, hx, hpair, hcmd]

/-- The twin that has the command sends TABLE_COMMIT, and waits for its partner (R310). -/
theorem tableWritten_of_owner {s : State} {x : TableX} {id : Nat} (hx : s.twn.tableX = some x) (hpair : x.pair = true)
    (hcmd : x.cmd = some id) (hup : s.twn.link = .up) (failed : Bool) (n : Nat) :
    tableWritten failed n s =
      dxpSend 0x0A x.msg.tag.toNat [] (setTableX (some { x with words := n, stage := 2 }) (journalAfter x.msg failed s)) := by
  simp [tableWritten, hx, hpair, hcmd, hup, setTableX]

theorem tableWritten_versions (failed : Bool) (n : Nat) (s : State) : versions (tableWritten failed n s) = versions s := by
  have hfinish : ∀ (y : TableX) (st : Nat) (m : TableMsg),
      versions (finishTable y st (journalAfter m failed s)) = versions s := fun y st m => by
    rw [versions, finishTable_dos]
    exact (journalAfter_dos m failed s).1
  unfold tableWritten
  split
  · rfl
  next x hx =>
    extract_lets y u
    split
    · exact hfinish _ _ _
    · split
      · exact (versions_of_dos (dxpSend_dos _ _ _ _)).trans (hfinish _ _ _)
      · split
        · exact (versions_of_dos (raiseItems_dos _ _ _ _)).trans (hfinish _ _ _)
        · exact (versions_of_dos (dxpSend_dos _ _ _ _)).trans (journalAfter_dos _ failed s).1

/-! ### A command that executes -/

/-- The granary words that a command's values change (R153). -/
def newWords (s : State) (m : TableMsg) : List (Nat × Nat) :=
  changedWords s m.trim m.first.toNat m.count.toNat (setBeams m.trim (latestTable s) m.first.toNat m.values 0)

/-- The command in its writing stage, with the versions before its change. -/
def startedTable (x : TableX) (s : State) : TableX := { x with stage := 1, before := some (versions s) }

/-- The state once the command's versions have been made. -/
def madeTable (x : TableX) (s : State) : State :=
  applyTable x.msg (setTableX (some (startedTable x s)) s)

@[simp] theorem madeTable_twn (x : TableX) (s : State) :
    (madeTable x s).twn = (setTableX (some (startedTable x s)) s).twn := applyTable_twn _ _

@[simp] theorem madeTable_grn (x : TableX) (s : State) : (madeTable x s).grn = s.grn := applyTable_grn _ _

@[simp] theorem madeTable_outs (x : TableX) (s : State) : (madeTable x s).outs = s.outs := applyTable_outs _ _

@[simp] theorem madeTable_gen (x : TableX) (s : State) : (madeTable x s).dos.gen = s.dos.gen := applyTable_gen _ _

theorem writeTable_of_newWords {x : TableX} {s : State} (h : newWords s x.msg ≠ []) :
    ∃ j : GrnJob, j.cmd = x.cmd ∧ writeTable x s = queueJob j (msgRecord x.msg 0xFF (madeTable x s)) :=
  ⟨_, rfl, if_neg (mt List.isEmpty_iff.1 h)⟩

theorem writeTable_of_no_newWords {x : TableX} {s : State} (h : newWords s x.msg = []) :
    writeTable x s = tableWritten false 0 (madeTable x s) := if_pos (List.isEmpty_iff.2 h)

/-- The new version is made at once (R156). -/
theorem writeTable_changesVersions (x : TableX) (s : State) : ChangesVersions s x.msg (versions (writeTable x s)) := by
  have hmade : versions (writeTable x s) = versions (madeTable x s) := by
    by_cases h : newWords s x.msg = []
    · rw [writeTable_of_no_newWords h, tableWritten_versions]
    · obtain ⟨j, -, hw⟩ := writeTable_of_newWords h
      exact versions_of_dos (by rw [hw, queueJob_dos, msgRecord_dos])
  rw [hmade]
  exact applyTable_changesVersions x.msg (setTableX (some (startedTable x s)) s)

theorem layOut_cmd (s : State) (j : GrnJob) : (layOut s j).cmd = j.cmd := by
  unfold layOut
  split <;> rfl

theorem startJobWord_cmds (s : State) : (startJobWord s).grn.jobs.map GrnJob.cmd = s.grn.jobs.map GrnJob.cmd := by
  unfold startJobWord
  split
  · rfl
  next j rest hj =>
    extract_lets j' g u
    have hu : u.grn.jobs.map GrnJob.cmd = s.grn.jobs.map GrnJob.cmd := by simp [u, j', hj, layOut_cmd]
    split
    · exact hu
    · split <;> exact hu

/-- A store waits behind those before it. -/
theorem queueJob_cmds (j : GrnJob) (s : State) :
    (queueJob j s).grn.jobs.map GrnJob.cmd = s.grn.jobs.map GrnJob.cmd ++ [j.cmd] := by
  rw [queueJob, startJobWord_cmds, List.map_append]
  rfl

/-- Where words change, the command writes, its words behind the other stores of the granary (R153, R154). -/
theorem writeTable_writes {x : TableX} {s : State} (h : newWords s x.msg ≠ []) :
    (writeTable x s).twn.tableX = some (startedTable x s) ∧ (writeTable x s).dos.gen = s.dos.gen ∧
      (writeTable x s).grn.jobs.map GrnJob.cmd = s.grn.jobs.map GrnJob.cmd ++ [x.cmd] := by
  obtain ⟨j, hj, hw⟩ := writeTable_of_newWords h
  rw [hw]
  exact ⟨by simp, by simp, by simp [queueJob_cmds, hj]⟩

/-- Where no word changes, a command of this device alone is complete (log 111). -/
theorem writeTable_solo_completes {x : TableX} {s : State} {id : Nat} (h : newWords s x.msg = []) (hcmd : x.cmd = some id)
    (hsolo : x.pair = false) :
    (writeTable x s).twn.tableX = none ∧ (writeTable x s).dos.gen = nextGen s ∧ cmdFind (writeTable x s) id = none ∧
      (writeTable x s).grn.jobs = s.grn.jobs := by
  rw [writeTable_of_no_newWords h, tableWritten_of_solo (x := startedTable x s) (by simp) hsolo]
  exact ⟨by simp, by simp [nextGen], cmdFind_finishTable (by exact hcmd) _ _, by simp⟩

/-- Where no word changes, the twin that has the command sends TABLE_COMMIT at once (R310). -/
theorem writeTable_owner_commits {x : TableX} {s : State} {id : Nat} (h : newWords s x.msg = []) (hcmd : x.cmd = some id)
    (hpair : x.pair = true) (hup : s.twn.link = .up) :
    (writeTable x s).twn.tableX = some { startedTable x s with words := 0, stage := 2 } ∧
      (writeTable x s).outs = nextMessage s 0x0A x.msg.tag.toNat [] :: s.outs := by
  rw [writeTable_of_no_newWords h, tableWritten_of_owner (x := startedTable x s) (by simp) hpair hcmd (by simpa using hup)]
  refine ⟨by simp, ?_⟩
  rw [dxpSend_outs (by simpa using hup)]
  simp [nextMessage, startedTable]

/-- Where no word changes, the partner is done at once (R310). -/
theorem writeTable_partner_done {x : TableX} {s : State} (h : newWords s x.msg = []) (hcmd : x.cmd = none)
    (hpair : x.pair = true) (hup : s.twn.link = .up) :
    (writeTable x s).twn.tableX = none ∧ (writeTable x s).dos.gen = nextGen s ∧
      nextMessage s 9 x.msg.tag.toNat [1] ∈ (writeTable x s).outs := by
  rw [writeTable_of_no_newWords h, tableWritten_of_partner (x := startedTable x s) (by simp) hpair hcmd]
  refine ⟨by simp, by simp [nextGen], ?_⟩
  rw [dxpSend_outs (by simpa using hup)]
  simp [nextMessage, startedTable]

/-- What the execution of a command may touch. -/
def Parts.table : Parts := { Parts.events with dos := true, pac := true, twn := true, grn := true }

theorem writeTable_only (x : TableX) (s : State) : changesOnly Parts.table s (writeTable x s) :=
  (does_writeTable x (Does.refl Parts.table s) rfl).only

/-! ### The values of a command -/

/-- The first value that R161 refuses. -/
def valueLimit (trim : Bool) : Nat := if trim then 4096 else 3

theorem badValue_inline_iff (trim : Bool) (v : Nat) :
    (badValue trim v || (!trim && decide (v ≥ 4))) = true ↔ valueLimit trim ≤ v := by
  cases trim <;> simp [badValue, valueLimit]
  omega

theorem unpackValues_length (trim : Bool) (n : Nat) (b : List Byte) : (unpackValues trim n b).length = n := by
  cases trim <;> simp [unpackValues]

/-- A health value of an array has two bits (R160). -/
theorem unpackValues_health_lt {n v : Nat} {b : List Byte} (h : v ∈ unpackValues false n b) : v < 4 := by
  simp only [unpackValues, Bool.false_eq_true, if_false, List.mem_map] at h
  obtain ⟨i, -, rfl⟩ := h
  unfold bits
  rw [show 2 * (i % 4) + 1 + 1 - 2 * (i % 4) = 2 by omega]
  exact Nat.mod_lt _ (by decide)

theorem badValue_array_iff {trim : Bool} {n v : Nat} {b : List Byte} (h : v ∈ unpackValues trim n b) :
    badValue trim v = true ↔ valueLimit trim ≤ v := by
  cases trim with
  | true => simp [badValue, valueLimit]
  | false =>
    have := unpackValues_health_lt h
    simp only [badValue, valueLimit, Bool.false_eq_true, if_false, beq_iff_eq]
    omega

/-- The values that a command brings: the inline value for every beam, or the array that was read (R160). -/
def CommandValues (c : Cmd) (trim : Bool) (d : Option (List Byte)) (vals : List Nat) : Prop :=
  c.p 8 8 = 0 ∧ vals = List.replicate (c.p 4 4) (c.p 0x14 2) ∨
    c.p 8 8 ≠ 0 ∧ ∃ b, d = some b ∧ b.length = (if trim then 2 * c.p 4 4 else (c.p 4 4 + 3) / 4) ∧
      vals = unpackValues trim (c.p 4 4) b

theorem count_ne_zero_of_tableParams {s : State} {c : Cmd} (h : tableParams s c = 0) : c.p 4 4 ≠ 0 := by
  intro hn
  unfold tableParams at h
  split at h
  · cases h
  · split at h
    · cases h
    · rw [if_pos (.inr (.inl hn))] at h
      cases h

theorem values_ne_nil {c : Cmd} {trim : Bool} {d : Option (List Byte)} {vals : List Nat} (hn : c.p 4 4 ≠ 0)
    (hv : CommandValues c trim d vals) : vals ≠ [] := by
  refine List.ne_nil_of_length_pos ?_
  have hlen : vals.length = c.p 4 4 := by
    obtain ⟨-, rfl⟩ | ⟨-, b, -, -, rfl⟩ := hv
    · exact List.length_replicate
    · exact unpackValues_length _ _ _
  omega

/-! ### The rows of the commands -/

theorem exec_tableRow (id : Nat) (trim : Bool) (d : Option (List Byte)) (s : State) :
    exec (if trim then .trimSet id d else .beamMapSet id d) s = tableCmd id trim d s := by
  cases trim <;> rfl

section Commands

variable {s : State} {id : Nat} {c : Cmd} {trim : Bool} {d : Option (List Byte)} {vals : List Nat}

theorem tableCmd_of_params (hc : cmdOp s id (if trim then 7 else 6) = some c) (hp : tableParams s c ≠ 0) :
    tableCmd id trim d s = .next (refuseTable id c trim (tableParams s c) s) := by
  simp only [tableCmd, hc]
  rw [if_pos hp]
  rfl

/-- An array that the host does not return gives TABLE_SOURCE (Table 4-8). -/
theorem tableCmd_of_no_data (hc : cmdOp s id (if trim then 7 else 6) = some c) (hp : tableParams s c = 0) (ha : c.p 8 8 ≠ 0) :
    tableCmd id trim none s = .next (refuseTable id c trim 0x44
      (emit (.hostRead (c.p 8 8) (if trim then 2 * c.p 4 4 else (c.p 4 4 + 3) / 4)) s)) := by
  simp only [tableCmd, hc]
  rw [if_neg (not_not.2 hp), if_neg ha]
  rfl

/-- With its values in hand a command runs, after the read of the array where it has one. -/
theorem tableCmd_eq_runTable (hc : cmdOp s id (if trim then 7 else 6) = some c) (hp : tableParams s c = 0)
    (hv : CommandValues c trim d vals) :
    ∃ (bad : Bool) (o : List Output), tableCmd id trim d s = .next (runTable id c trim vals bad { s with outs := o }) ∧
      (bad = true ↔ ∃ v ∈ vals, valueLimit trim ≤ v) := by
  simp only [tableCmd, hc]
  rw [if_neg (not_not.2 hp)]
  obtain ⟨ha, rfl⟩ | ⟨ha, b, rfl, hb, rfl⟩ := hv
  · rw [if_pos ha]
    refine ⟨_, s.outs, rfl, ?_⟩
    rw [badValue_inline_iff]
    simp [List.mem_replicate, count_ne_zero_of_tableParams hp]
  · rw [if_neg ha]
    refine ⟨_, (emit (.hostRead _ _) s).outs, if_pos hb, ?_⟩
    rw [List.any_eq_true]
    exact exists_congr fun v => and_congr_right badValue_array_iff

theorem runTable_of_bad (s : State) : runTable id c trim vals true s = refuseTable id c trim 0x41 s := rfl

theorem runTable_of_busy (h : s.twn.tableX.isSome = true) : runTable id c trim vals false s = refuseTable id c trim 0x43 s := by
  simp [runTable, h]

theorem runTable_of_row (hx : s.twn.tableX = none) (h : rowCheck s (c.p 0x10 4) ≠ 0) :
    runTable id c trim vals false s = refuseTable id c trim (rowCheck s (c.p 0x10 4)) s := by
  simp [runTable, hx, h]

theorem runTable_of_pair (hx : s.twn.tableX = none) (h : rowCheck s (c.p 0x10 4) = 0) (hv : voting s = true) :
    runTable id c trim vals false s = sendTable (tableMsgOf c trim vals) (cmdRun id
        (setTableX (some { cmd := some id, msg := tableMsgOf c trim vals, stage := 0, pair := true }) s)) := by
  simp [runTable, hx, h, hv, setTableX]

theorem runTable_of_solo (hx : s.twn.tableX = none) (h : rowCheck s (c.p 0x10 4) = 0) (hv : voting s = false) :
    runTable id c trim vals false s =
      writeTable { cmd := some id, msg := tableMsgOf c trim vals, stage := 1, pair := false } (cmdRun id s) := by
  simp [runTable, hx, h, hv]

theorem runTable_only (bad : Bool) (o : List Output) :
    changesOnly Parts.table s (runTable id c trim vals bad { s with outs := o }) :=
  only_step (u := { s with outs := o }) rfl (does_runTable id c trim vals bad (Does.refl Parts.table _) rfl)

/-- The command is sent to the partner of a working pair (R310). -/
theorem runTable_pair_sends (hx : s.twn.tableX = none) (h : rowCheck s (c.p 0x10 4) = 0) (hv : voting s = true)
    (hne : vals ≠ []) :
    let m := tableMsgOf c trim vals
    let t := runTable id c trim vals false s
    t.twn.tableX = some { cmd := some id, msg := m, stage := 0, pair := true } ∧ t.dos = s.dos ∧ t.grn = s.grn ∧
      ∃ p, nextMessage s 8 m.tag.toNat p ∈ t.outs ∧ p.take 4 = [msgKind m, m.first.toNat, m.count.toNat, m.row.toNat] := by
  intro m t
  simp only [t, runTable_of_pair hx h hv]
  exact sendTable_sends (m := m) hne (s := cmdRun id (setTableX _ s)) (link_of_voting hv)

/-- A command of this device alone executes (R153, R154, R156). -/
theorem runTable_solo_executes (hx : s.twn.tableX = none) (h : rowCheck s (c.p 0x10 4) = 0) (hv : voting s = false) :
    let m := tableMsgOf c trim vals
    let t := runTable id c trim vals false s
    ChangesVersions s m (versions t) ∧
      (newWords s m ≠ [] →
        t.twn.tableX = some { cmd := some id, msg := m, stage := 1, pair := false, before := some (versions s) } ∧
          t.dos.gen = s.dos.gen ∧ t.grn.jobs.map GrnJob.cmd = s.grn.jobs.map GrnJob.cmd ++ [some id]) ∧
      (newWords s m = [] →
        t.twn.tableX = none ∧ t.dos.gen = nextGen s ∧ cmdFind t id = none ∧ t.grn.jobs = s.grn.jobs) := by
  intro m t
  let x : TableX := { cmd := some id, msg := m, stage := 1, pair := false }
  have ht : t = writeTable x (cmdRun id s) := runTable_of_solo hx h hv
  rw [ht]
  exact ⟨writeTable_changesVersions x (cmdRun id s), writeTable_writes (x := x) (s := cmdRun id s),
    fun hnone => writeTable_solo_completes (x := x) (s := cmdRun id s) hnone rfl rfl⟩

end Commands

/-! ### The partner's messages -/

section Partner

variable {s : State} {m : TableMsg} {x : TableX} {tag : BitVec 16}

theorem execDxpTable_runs (m : TableMsg) (s : State) : ∃ t, execDxpTable m s = .next t := by
  unfold execDxpTable
  split
  · exact ⟨_, rfl⟩
  · extract_lets n r
    split <;> exact ⟨_, rfl⟩

theorem execDxpTable_of_busy (hv : voting s = true) (hx : s.twn.tableX.isSome = true) :
    execDxpTable m s = .next (dxpSend 9 m.tag.toNat [2 + 0x43 * 256] s) := by
  simp [execDxpTable, hv, hx, ok]

/-- What the partner checks of a change whose values R161 allows is its row (R158). -/
theorem execDxpTable_of_values (hv : voting s = true) (hx : s.twn.tableX = none) (hn : 0 < m.count.toNat)
    (hlast : m.first.toNat + m.count.toNat ≤ numBeams) (hlen : m.values.length = m.count.toNat)
    (hvals : ∀ v ∈ m.values, v < valueLimit m.trim) :
    execDxpTable m s = .next (if rowCheck s m.row.toNat ≠ 0 then dxpSend 9 m.tag.toNat [2 + rowCheck s m.row.toNat * 256] s
      else dxpSend 9 m.tag.toNat [0] (setTableX (some { cmd := none, msg := m, stage := 0, pair := true }) s)) := by
  have hbad : ¬ m.values.any (fun v => badValue m.trim v || (!m.trim && decide (v ≥ 4))) = true := by
    rw [List.any_eq_true]
    rintro ⟨v, hmem, hb⟩
    exact Nat.not_le_of_lt (hvals v hmem) ((badValue_inline_iff _ _).1 hb)
  unfold execDxpTable
  rw [if_neg (not_not.2 hv)]
  extract_lets n r
  have hr : r = rowCheck s m.row.toNat := by
    simp only [r]
    rw [if_neg (by simp [hx]), if_neg (not_or.2 ⟨hn.ne', Nat.not_lt_of_le hlast⟩), if_neg (not_or.2 ⟨not_not.2 hlen, hbad⟩)]
  rw [hr]
  split <;> rfl

theorem execDxpTable_only {t : State} (h : execDxpTable m s = .next t) :
    changesOnly { outs := true, twn := true, obs := true } s t :=
  (does_execDxpTable m (Does.refl _ s) rfl t h).only

theorem execDxpTableReply_of_voting (hv : voting s = true) (reply : Fin 3) (st : Byte) :
    exec (.dxpTableReply tag reply st) s = .next (tableReply tag.toNat reply st.toNat s) := if_pos hv

theorem tableReply_ready {id : Nat} (hx : s.twn.tableX = some x) (htag : x.msg.tag = tag) (hcmd : x.cmd = some id)
    (hstage : x.stage = 0) (st : Nat) : tableReply tag.toNat 0 st s = writeTable x s := by
  simp [tableReply, hx, htag, hcmd, hstage]

theorem tableReply_done {id : Nat} (hx : s.twn.tableX = some x) (htag : x.msg.tag = tag) (hcmd : x.cmd = some id)
    (hstage : x.stage = 2) (st : Nat) : tableReply tag.toNat 1 st s = finishTable x 0 s := by
  simp [tableReply, hx, htag, hcmd, hstage]

/-- The partner's refusal ends the command with its status (R310). -/
theorem tableReply_refused {id : Nat} (hx : s.twn.tableX = some x) (htag : x.msg.tag = tag) (hcmd : x.cmd = some id)
    (hstage : x.stage = 0) (st : Nat) :
    (tableReply tag.toNat 2 st s).twn.tableX = none ∧
      completedWith { Parts.events with twn := true } id st s (tableReply tag.toNat 2 st s) := by
  have h : tableReply tag.toNat 2 st s =
      completeOpt (some id) st (le 4 0 ++ le 4 s.dos.gen) (msgRecord x.msg st (setTableX none s)) := by
    simp [tableReply, hx, htag, hcmd, hstage, setTableX]
  rw [h]
  refine ⟨by simp, _, _, ?_, rfl⟩
  exact Eq.trans (does_msgRecord x.msg st (Does.refl _ _) rfl).only rfl

theorem execDxpTableCommit_eq_writeTable (hv : voting s = true) (hx : s.twn.tableX = some x) (htag : x.msg.tag = tag)
    (hcmd : x.cmd = none) (hstage : x.stage = 0) : exec (.dxpTableCommit tag) s = .next (writeTable x s) := by
  simp [exec, execDxpTableCommit, hv, hx, htag, hcmd, hstage, ok]

end Partner

/-! ### The versions in effect -/

theorem execTableChangeEffect_of_waiting {s : State} {b : BeamTable} (hw : s.dos.waiting = some b)
    (hfree : ∀ st, s.pac.stripe = some st → st.doneRaised = true ∨ st.abort.isSome = true) :
    execTableChangeEffect s = .next { s with dos := { s.dos with cur := b, waiting := none } } := by
  simp only [execTableChangeEffect, hw, (no_stripe_needs_old_iff s).2 hfree]
  rfl

theorem execTableChangeEffect_of_needed {s : State} {b : BeamTable} {st : Stripe} (hw : s.dos.waiting = some b)
    (hst : s.pac.stripe = some st) (hdone : st.doneRaised = false) (habort : st.abort = none) :
    execTableChangeEffect s = .next s := by
  simp [execTableChangeEffect, hw, hst, hdone, habort, ok]

theorem execTableSwitchRelease_eq {s : State} {ye : Nat} {b : BeamTable} (hprev : s.dos.prev = some (ye, b)) :
    execTableSwitchRelease s = .next (if switchOver s ye then { s with dos := { s.dos with prev := none } } else s) := by
  simp only [execTableSwitchRelease, hprev]
  split <;> rfl

/-- Settles O49: each row comes down to a refusal, a message, or `writeTable`, which makes the versions that `ChangesVersions`
gives. -/
theorem tableCommands : Obligations.TableCommands := by
  intro s nb sends before changed F
  refine ⟨?commands, ?partner, ?answers, ?effect, ?release⟩
  case commands =>
    intro id c trim d hc row n
    have hrow : exec row s = tableCmd id trim d s := exec_tableRow id trim d s
    refine ⟨fun hp => ?_, fun hp ha hd => ?_, ?_⟩
    · exact ⟨_, hrow.trans (tableCmd_of_params hc hp), refuseTable_completedWith _ _ _ _ s s.outs⟩
    · subst hd
      exact ⟨_, hrow.trans (tableCmd_of_no_data hc hp ha), refuseTable_completedWith _ _ _ _ _ _⟩
    · intro vals hp hvals m
      obtain ⟨bad, o, hrun, hiff⟩ := tableCmd_eq_runTable hc hp hvals
      have hexec := hrow.trans hrun
      refine ⟨fun hbad => ⟨_, hexec, ?_⟩, fun hgood => ?_⟩
      · rw [hiff.2 hbad, runTable_of_bad]
        exact refuseTable_completedWith _ _ _ _ _ _
      · obtain rfl : bad = false := Bool.eq_false_iff.2 fun hb => by
          obtain ⟨v, hmem, hlim⟩ := hiff.1 hb
          exact Nat.not_le_of_lt (hgood v hmem) hlim
        refine ⟨fun hx => ⟨_, hexec, ?_⟩, fun hx hr => ⟨_, hexec, ?_⟩,
          fun hx hr => ⟨_, hexec, runTable_only _ _, fun hv => ?_, fun hv => ?_⟩⟩
        · rw [runTable_of_busy (by exact hx)]
          exact refuseTable_completedWith _ _ _ _ _ _
        · rw [runTable_of_row (by exact hx) (by exact hr)]
          exact refuseTable_completedWith _ _ _ _ _ _
        · exact runTable_pair_sends (s := { s with outs := o }) hx hr hv
            (values_ne_nil (count_ne_zero_of_tableParams hp) hvals)
        · exact runTable_solo_executes (s := { s with outs := o }) hx hr hv
  case partner =>
    intro m hv
    have hup := link_of_voting hv
    obtain ⟨t, hexec⟩ := execDxpTable_runs m s
    refine ⟨t, hexec, execDxpTable_only hexec, fun hx => ?_, fun hx hn hlast hlen hvals => ⟨fun hr => ?_, fun hr => ?_⟩⟩
    · obtain rfl := Host.Outcome.next.inj (hexec.symm.trans (execDxpTable_of_busy hv hx))
      exact ⟨dxpSend_tableX _ _ _ _, dxpSend_outs hup _ _ _⟩
    · obtain rfl := Host.Outcome.next.inj (hexec.symm.trans ((execDxpTable_of_values hv hx hn hlast hlen hvals).trans
        (by rw [if_neg (not_not.2 hr)])))
      exact ⟨dxpSend_tableX _ _ _ _, dxpSend_outs (by exact hup) _ _ _⟩
    · obtain rfl := Host.Outcome.next.inj (hexec.symm.trans ((execDxpTable_of_values hv hx hn hlast hlen hvals).trans (by rw [if_pos hr])))
      exact ⟨(dxpSend_tableX _ _ _ _).trans hx, dxpSend_outs hup _ _ _⟩
  case answers =>
    rintro x tag st hx rfl hv
    have hup := link_of_voting hv
    refine ⟨fun id hcmd => ⟨fun hstage => ?_, fun hstage => ?_, fun hstage hpair => ?_⟩, fun hcmd hstage hpair => ?_⟩
    · exact ⟨_, execDxpTableReply_of_voting hv 2 st, tableReply_refused hx rfl hcmd hstage _⟩
    · refine ⟨_, execDxpTableReply_of_voting hv 1 st, ?_⟩
      rw [Fin.val_one, tableReply_done hx rfl hcmd hstage]
      exact ⟨by simp, by simp [nextGen], finishTable_completedWith hcmd 0 s⟩
    · refine ⟨_, execDxpTableReply_of_voting hv 0 st, ?_⟩
      rw [Fin.val_zero, tableReply_ready hx rfl hcmd hstage]
      exact ⟨writeTable_only x s, writeTable_changesVersions x s, fun hne => (writeTable_writes hne).1,
        fun hnone => writeTable_owner_commits hnone hcmd hpair hup⟩
    · exact ⟨_, execDxpTableCommit_eq_writeTable hv hx rfl hcmd hstage, writeTable_only x s, writeTable_changesVersions x s,
        fun hne => (writeTable_writes hne).1, fun hnone => writeTable_partner_done hnone hcmd hpair hup⟩
  case effect =>
    exact fun b hw => ⟨fun hfree => ⟨_, execTableChangeEffect_of_waiting hw hfree, rfl⟩,
      fun st hst hdone habort => execTableChangeEffect_of_needed hw hst hdone habort⟩
  case release =>
    intro ye b hprev
    exact ⟨fun h => ⟨_, (execTableSwitchRelease_eq hprev).trans (by rw [if_pos h]), rfl⟩,
      fun h => (execTableSwitchRelease_eq hprev).trans (by simp [h])⟩

end Sys2Proof.Machine
end

section
/-! PROOFS. The end of an admission (R192, R195, Table 10-1): its report is a data write, which goes out with the
relaxed-ordering attribute where HST_CTRL asks for it. -/

namespace Sys2Proof.Machine

/-! ### The report of an admission under RO_DATA -/

/-- With RO_DATA set, data go to host memory with the relaxed-ordering attribute (Table 10-1). -/
theorem writeHost_outs_of_relaxed {s : State} (hro : bitAt (regGet s 0x10000) 2 = true) (a : Nat) (bs : List Byte) :
    (writeHost a bs s).outs = .hostWriteRo a bs :: s.outs := by
  simp [writeHost, hro]

/-- An admission that step 1 of R192 refuses has that refusal as its verdict, whatever was read. -/
theorem admitVerdict_of_early (s : State) {a : Admission} {r l x : Nat} (h : a.early = some (r, l, x)) :
    ∃ p, admitVerdict s a = .inl (⟨r, l, x⟩, p) := by
  simp [admitVerdict, h]

/-- ADMISSION_COMPLETE writes the report of a refusal, and the admission is gone (R192). -/
theorem execAdmissionComplete_of_refusal {s : State} {a : Admission} {r : Refuse} {p : Plan} (hadm : s.pac.adm = some a)
    (hphase : a.phase = .working) (hleft : a.left = 0) (hwaits : s.lft.waits = []) (hcls : a.cls < 2)
    (hverdict : admitVerdict s a = .inl (r, p)) :
    ∃ tag slots, execAdmissionComplete s = ok (admitDone a r p tag slots { s with pac := { s.pac with adm := none } }) := by
  simp only [execAdmissionComplete, hadm]
  rw [if_neg (by simp [hphase, hleft, hwaits]), if_neg (by omega), hverdict]
  exact ⟨_, _, rfl⟩

/-- An admission that too few threshers in service refused (R127); the host interface that sent its command has been reset since. -/
def refusedAdmission : Admission where
  id := 1
  cmd := none
  phase := .working
  sheaf := 0
  sheafLen := 256
  bin := 256
  binLen := 0
  report := 0x1000
  y0 := 0
  early := some (0x11, 0, 0)

/-- That admission in a device whose HST_CTRL has RO_DATA set. -/
def relaxedHost : State := { regs := [(0x10000, 4)], pac := { adm := some refusedAdmission } }

theorem relaxedHost_relaxed : bitAt (regGet relaxedHost 0x10000) 2 = true := by decide

/-- The report is the one output, and it is not a plain host write. -/
theorem relaxedHost_outs (r : Refuse) (p : Plan) (tag slots : Nat) :
    ∃ bs, (admitDone refusedAdmission r p tag slots { relaxedHost with pac := { relaxedHost.pac with adm := none } }).outs =
      [.hostWriteRo 0x1000 bs] :=
  ⟨_, writeHost_outs_of_relaxed (s := { relaxedHost with pac := _ }) relaxedHost_relaxed _ _⟩

/-- Refutes O57: it promises the report in a plain host write, but with RO_DATA set the report of `relaxedHost` goes out with the
relaxed-ordering attribute (Table 10-1). -/
theorem not_admissions : ¬ Obligations.Admissions := by
  intro h
  obtain ⟨-, -, hcomplete⟩ := h relaxedHost
  obtain ⟨-, hdone⟩ := hcomplete refusedAdmission rfl rfl
  obtain ⟨t, hexec, -, -, -, -, hrefused, -⟩ := hdone rfl (fun w hw => absurd hw List.not_mem_nil)
  obtain ⟨p, hverdict⟩ := admitVerdict_of_early relaxedHost (a := refusedAdmission) rfl
  obtain ⟨-, b, hb, -⟩ := hrefused _ p (by decide) hverdict
  obtain ⟨tag, slots, hexec'⟩ := execAdmissionComplete_of_refusal (s := relaxedHost) rfl rfl rfl rfl (by decide) hverdict
  obtain rfl := Host.Outcome.next.inj (hexec.symm.trans hexec')
  obtain ⟨bs, houts⟩ := relaxedHost_outs ⟨0x11, 0, 0⟩ p tag slots
  rw [houts] at hb
  simp at hb

end Sys2Proof.Machine
end

section
/-! PROOFS. The slot trigger (R255, R298, R301): the deadline of a slot's group comes before its frames, and in a working pair it
can be what ends an armed stripe. -/

namespace Sys2Proof.Machine

/-! ### A slot whose group's deadline ends the stripe -/

theorem keepRole_of_no_stripe {s : State} (h : s.pac.stripe = none) (n : Nat) : keepRole n s = s := by
  simp [keepRole, h]

theorem handoverStep_of_no_stripe {s : State} (h : s.pac.stripe = none) : handoverStep s = s := by
  unfold handoverStep
  split
  next hst => cases h.symm.trans hst
  · rfl

/-- Where the deadline of a slot's group ends the stripe, the slot does not fire. -/
theorem fireSlot_of_settled_away {s : State} {st : Stripe} (hst : s.pac.stripe = some st)
    (hgone : (settleGroup st.nextSlot s).pac.stripe = none) (issue due corrected : Nat) (bad : List (Nat × Nat)) :
    fireSlot issue due corrected bad s = settleGroup st.nextSlot s := by
  simp only [fireSlot, hst]
  rw [keepRole_of_no_stripe hgone, hgone]

/-- An open group of a working pair without a mask fails at its deadline (R298). -/
theorem settleGroup_of_voting {s : State} {st : Stripe} {n j : Nat} {g : Group} (hst : s.pac.stripe = some st) (hj : n / 8 = j)
    (hn : st.g0 + 4 ≤ j) (hopened : j ≠ st.nextGroup) (hg : grpGet st j = some g) (hmask : g.mask = [])
    (hv : voting s = true) : settleGroup n s = finalGroup j false 0 128 s := by
  simp [settleGroup, hst, hj, hn, hopened, deadline, hg, hmask, hv]

theorem finalGroup_swl (j : Nat) (launched : Bool) (lane failed : Nat) (s : State) :
    (finalGroup j launched lane failed s).swl = s.swl :=
  same_swl (does_finalGroup j launched lane failed (Does.refl { outs := true, free := true, glb := true, hst := true, units := true, pac := true, enc := true, twn := true, tim := true, slo := true, store := true, obs := true } s) rfl).only rfl

/-- An armed stripe whose groups 1 to 3 have failed and whose group 4 is open; its slot 32 is due. Triggers start with the run-up
(R213), so no run of the device comes to such a stripe, but the statement asks only for `due`. -/
def dueWhileArmed : Stripe :=
  { threeFailedStripe with
    nextSlot := 32, due := some 0, nextGroup := 5
    groups := [(1, { final := some false }), (2, { final := some false }), (3, { final := some false }), (4, { active := some true })] }

/-- A twin of a formed pair that holds that stripe. -/
def dueWhileArmedTwin : State := { pac := { stripe := some dueWhileArmed }, twn := { link := .up, paired := true, partnerLive := true } }

theorem dueWhileArmed_failed : ∀ d, d < 3 → (grpGet dueWhileArmed (4 - 3 + d)).bind Group.final = some false := by decide

/-- At its deadline group 4 is the fourth failed group in a row, which ends the stripe (R301). -/
theorem dueWhileArmedTwin_settles :
    settleGroup dueWhileArmed.nextSlot dueWhileArmedTwin = finalGroup 4 false 0 128 dueWhileArmedTwin ∧
      (settleGroup dueWhileArmed.nextSlot dueWhileArmedTwin).pac.stripe = none := by
  have hsettle : settleGroup dueWhileArmed.nextSlot dueWhileArmedTwin = finalGroup 4 false 0 128 dueWhileArmedTwin :=
    settleGroup_of_voting (st := dueWhileArmed) (g := { active := some true }) rfl rfl (by decide) (by decide) rfl rfl rfl
  refine ⟨hsettle, ?_⟩
  rw [hsettle]
  exact finalGroup_fourth_stripe (st := dueWhileArmed) rfl rfl (.inr rfl) rfl rfl rfl rfl (by decide) dueWhileArmed_failed 0 128

/-- SLOT_TRIGGER comes to that deadline and sends nothing. -/
theorem dueWhileArmedTwin_slotTrigger :
    exec (.slotTrigger 0 []) dueWhileArmedTwin = .next (finalGroup 4 false 0 128 dueWhileArmedTwin) := by
  obtain ⟨hsettle, hgone⟩ := dueWhileArmedTwin_settles
  have hfire : fireSlot 0 0 0 [] dueWhileArmedTwin = settleGroup dueWhileArmed.nextSlot dueWhileArmedTwin :=
    fireSlot_of_settled_away (st := dueWhileArmed) rfl hgone 0 0 0 []
  have hexec : exec (.slotTrigger 0 []) dueWhileArmedTwin = .next (handoverStep (fireSlot 0 0 0 [] dueWhileArmedTwin)) := rfl
  rw [hexec, hfire, handoverStep_of_no_stripe hgone, hsettle]

/-- Refutes O60: its clause on SLOT_TRIGGER promises the frames of the slot whatever becomes of the stripe, and keeps the exception of
an armed stripe whose groups fail (R197, R301) to what it says of the stripe itself. -/
theorem not_stageAndSlots : ¬ Obligations.StageAndSlots := by
  intro h
  obtain ⟨-, -, hstripe⟩ := h dueWhileArmedTwin
  obtain ⟨-, -, -, -, -, hslot⟩ := hstripe dueWhileArmed rfl
  obtain ⟨-, hfires⟩ := hslot 0 0 [] rfl
  obtain ⟨t, hexec, -, -, hflight, -⟩ := hfires (by decide)
  have ht : t = finalGroup 4 false 0 128 dueWhileArmedTwin :=
    Host.Outcome.next.inj (hexec.symm.trans dueWhileArmedTwin_slotTrigger)
  rw [ht, finalGroup_swl] at hflight
  cases hflight

end Sys2Proof.Machine
end

section
/-! PROOFS. Arming, the pre-roll and the abort (R175, R187, R196, R197, R485 to R491): an ARM begins a pre-roll, whose end arms
the stripe or discards it; an abort stops a stripe that moves and discards one that stands. -/

namespace Sys2Proof.Machine

/-! ### What raising make-up records does to PAC -/

/-- The stripe after `n` more make-up records (R482). -/
def Stripe.addRecords (n : Nat) (st : Stripe) : Stripe := { st with mkCount := st.mkCount + n }

theorem Stripe.addRecords_add (m n : Nat) (st : Stripe) : (st.addRecords n).addRecords m = st.addRecords (n + m) := by
  simp [Stripe.addRecords, Nat.add_assoc]

/-- From `s` to `t` the admission stands, and of the stripe only the count of make-up records has gone on. -/
structure RecordsRaised (s t : State) : Prop where
  adm : t.pac.adm = s.pac.adm
  stripe : ∃ n, t.pac.stripe = s.pac.stripe.map (Stripe.addRecords n)

namespace RecordsRaised

variable {s t u : State}

theorem of_eq (hadm : t.pac.adm = s.pac.adm) (hst : t.pac.stripe = s.pac.stripe) : RecordsRaised s t :=
  ⟨hadm, 0, by rw [hst]; cases s.pac.stripe <;> rfl⟩

theorem of_pac (h : t.pac = s.pac) : RecordsRaised s t := of_eq (by rw [h]) (by rw [h])

theorem refl (s : State) : RecordsRaised s s := of_pac rfl

theorem trans (h : RecordsRaised s t) (g : RecordsRaised t u) : RecordsRaised s u := by
  obtain ⟨hadm, n, hst⟩ := h
  obtain ⟨hadm', m, hst'⟩ := g
  refine ⟨hadm'.trans hadm, n + m, ?_⟩
  rw [hst', hst]
  cases s.pac.stripe <;> simp [Stripe.addRecords_add]

theorem ite {c : Prop} [Decidable c] (h : RecordsRaised s t) (g : RecordsRaised s u) :
    RecordsRaised s (if c then t else u) := by split <;> assumption

theorem foldl {α : Type} {f : State → α → State} (hf : ∀ a u, RecordsRaised u (f u a)) (l : List α) (s : State) :
    RecordsRaised s (l.foldl f s) := by
  induction l generalizing s with
  | nil => exact refl s
  | cons a l ih => exact (hf a s).trans (ih _)

theorem no_stripe (h : RecordsRaised s t) (hst : s.pac.stripe = none) : t.pac.stripe = none := by
  obtain ⟨n, hn⟩ := h.stripe
  rw [hn, hst, Option.map_none]

theorem some_stripe {st : Stripe} (h : RecordsRaised s t) (hst : s.pac.stripe = some st) :
    ∃ n, t.pac.stripe = some (st.addRecords n) := by
  obtain ⟨n, hn⟩ := h.stripe
  exact ⟨n, by rw [hn, hst, Option.map_some]⟩

end RecordsRaised

@[simp] theorem raise_pac (code cls : Nat) (p : List Byte) (s : State) : (raise code cls p s).pac = s.pac :=
  same_pac (raise_only code cls p s) rfl

theorem pushRecord_raises (r : MkRec) (s : State) : RecordsRaised s (pushRecord r s) := by
  unfold pushRecord
  extract_lets r' full st1 s1 s2 s3
  have hpac : s3.pac = s.pac := by
    simp only [s3]
    split <;> simp [s2, s1]
  refine (RecordsRaised.of_pac hpac).trans ?_
  split
  next st hst => exact ⟨rfl, 1, by rw [hst]; rfl⟩
  next => exact .refl s3

theorem raiseLoss_raises (a : Account) (r : MkRec) (s : State) : RecordsRaised s (raiseLoss a r s) :=
  RecordsRaised.foldl (fun _ u => RecordsRaised.ite (pushRecord_raises _ u) (.refl u)) _ _

theorem raiseStripeLoss_raises (r : MkRec) (s : State) : RecordsRaised s (raiseStripeLoss r s) := by
  unfold raiseStripeLoss
  split
  · exact raiseLoss_raises _ _ _
  · exact .refl s

theorem closeRun_raises (a : Account) (l : Nat) (x : LaneAcc) (s : State) : RecordsRaised s (closeRun a l x s).2 := by
  unfold closeRun
  split
  · exact .refl s
  · exact raiseLoss_raises _ _ _

theorem drainLane_raises (a : Account) (l fuel : Nat) (x : LaneAcc) (s : State) : RecordsRaised s (drainLane a l fuel x s).2 := by
  induction fuel generalizing x s with
  | zero => exact .refl s
  | succ fuel ih =>
    have hclose := closeRun_raises a l
    unfold drainLane
    split
    · split
      · exact hclose _ _
      · exact .refl s
    · exact .refl s
    · dsimp only
      split
      · exact (hclose _ _).trans (ih _ _)
      · split
        · split
          · exact ih _ _
          · exact (hclose _ _).trans (ih _ _)
        · exact ih _ _

theorem settleLane_raises (cur : Bool) (l : Nat) (f : Nat × FrameFate × Bool → Nat × FrameFate × Bool) (s : State) :
    RecordsRaised s (settleLane cur l f s) := by
  unfold settleLane
  split
  · exact .refl s
  next a _ =>
    have hdrain := drainLane_raises a l ((laneAcc a l).frames.length + 1) { laneAcc a l with frames := (laneAcc a l).frames.map f } s
    refine hdrain.trans (RecordsRaised.of_eq ?_ ?_) <;> cases cur <;> rfl

theorem settleAll_raises (s : State) : RecordsRaised s (settleAll s) :=
  RecordsRaised.foldl (fun l u => (settleLane_raises true l id u).trans (settleLane_raises false l id _)) (List.range 128) s

theorem endAccount_raises (s : State) : RecordsRaised s (endAccount s) := by
  unfold endAccount
  split
  · exact .refl s
  · refine RecordsRaised.trans ?_ (settleAll_raises _)
    exact .of_eq rfl rfl

/-! ### A stripe that goes (R98, R197) -/

theorem dropStripe_adm {s : State} {st : Stripe} {a : Admission} (keep : Bool) (hst : s.pac.stripe = some st)
    (hadm : s.pac.adm = some a) (hid : a.id = st.adm.id) :
    ∃ a', (dropStripe keep s).pac.adm = some a' ∧ a'.id = a.id ∧ a'.hold = (keep && st.adm.hold) := by
  simp only [dropStripe, hst, hadm, if_pos hid, handoverDone_pac]
  exact ⟨_, rfl, rfl, rfl⟩

/-- A discard is the end of the stripe, and then the completion of the ARM that may still be in progress (R197). -/
theorem discardStripe_spec {s : State} {st : Stripe} (keep : Bool) (status : Nat) (hst : s.pac.stripe = some st) :
    ∃ u, discardStripe keep status s = completeOpt st.cmd status [] u ∧ changesOnly Parts.ending s u ∧
      u.pac.stripe = none ∧ u.pac.adm = (dropStripe keep s).pac.adm := by
  have hraised := endAccount_raises (dropStripe keep s)
  have hnone := hraised.no_stripe (dropStripe_stripe keep s)
  have honly : changesOnly Parts.ending s (releaseCoefs (endAccount (dropStripe keep s))) :=
    (does_releaseCoefs (does_endAccount (does_dropStripe keep (Does.refl Parts.ending s) rfl) rfl) rfl).only
  unfold discardStripe
  split
  next h => cases h.symm.trans hst
  next st' hst' =>
    obtain rfl : st = st' := Option.some.inj (hst.symm.trans hst')
    refine ⟨_, rfl, ?_⟩
    split
    · exact ⟨honly, by simpa using hnone, by simpa using hraised.adm⟩
    · exact ⟨honly, by simpa using hnone, by simpa using hraised.adm⟩

theorem discardStripe_no_stripe (keep : Bool) (status : Nat) {s : State} : (discardStripe keep status s).pac.stripe = none := by
  cases hst : s.pac.stripe with
  | none => simp [discardStripe, hst]
  | some st =>
    obtain ⟨u, heq, -, hnone, -⟩ := discardStripe_spec keep status hst
    rw [heq, completeOpt_pac, hnone]

/-- Before its run-up a stripe is discarded, not stopped (R197). -/
theorem abortOrDiscard_of_standing {s : State} {st : Stripe} (hst : s.pac.stripe = some st)
    (hstate : st.state = .arming ∨ st.state = .armed) (cause : Nat) (gang event : Bool) (armStatus : Nat) :
    (abortOrDiscard cause gang event armStatus s).pac.stripe = none := by
  have hmoving : st.state.moving = false := by rcases hstate with h | h <;> rw [h] <;> rfl
  have hstopping : st.state ≠ .stopping := by rcases hstate with h | h <;> simp [h]
  simp only [abortOrDiscard, hst, hmoving, Bool.false_eq_true, if_false, hstopping]
  split <;> simp [discardStripe_no_stripe]

/-! ### A stripe that stops (R187, R188) -/

@[simp] theorem gangAbort_pac (cause : Nat) (s : State) : (gangAbort cause s).pac = s.pac :=
  same_pac (does_gangAbort cause (Does.refl { outs := true, tim := true, obs := true } s) rfl).only rfl

/-- While the stage moves, the record of an abort shows the slots that it cuts; what the abort is stands. -/
theorem closeCut_stripe {s : State} {st : Stripe} (hst : s.pac.stripe = some st) :
    ∃ st', (closeCut false s).pac.stripe = some st' ∧ st'.state = st.state ∧ st'.abort = st.abort := by
  unfold closeCut
  split
  next h => cases h.symm.trans hst
  next st0 hst0 =>
    obtain rfl : st = st0 := Option.some.inj (hst.symm.trans hst0)
    split
    · exact ⟨st, hst, rfl, rfl⟩
    next c nu habort =>
      simp only [Bool.false_eq_true, if_false]
      split
      · exact ⟨st, hst, rfl, rfl⟩
      · split
        · obtain ⟨n, hn⟩ := (raiseStripeLoss_raises _ _).some_stripe (setStripe_stripe _ _)
          exact ⟨_, hn, rfl, habort.symm⟩
        · exact ⟨_, setStripe_stripe _ _, rfl, habort.symm⟩

/-- An abort of a moving stripe begins its stop, and n_u is fixed by the group limit (R188, R309). -/
theorem abortRunning_stops {s : State} {st : Stripe} (hst : s.pac.stripe = some st) (hmoving : st.state.moving = true)
    (cause : Nat) (run gang : Bool) :
    ∃ st', (abortRunning cause none run gang s).pac.stripe = some st' ∧ st'.state = .stopping ∧
      st'.abort = some (cause, st.cutSlot st.nextGroup) := by
  unfold abortRunning
  split
  next h => cases h.symm.trans hst
  next st0 hst0 =>
    obtain rfl : st = st0 := Option.some.inj (hst.symm.trans hst0)
    rw [if_neg (not_not.2 hmoving)]
    extract_lets limit nu shown
    split
    next x v a m =>
      extract_lets stop st' s1 s2 s3
      have h1 : (raiseItems 0x0603 3 [(4, st.id), (1, cause), (4, shown)] s1).pac.stripe = some st' := by simp [s1]
      obtain ⟨st2, h2, hstate, habort⟩ := closeCut_stripe h1
      have h3 : s3.pac.stripe = some st2 := by
        simp only [s3]
        split <;> simpa [s2] using h2
      refine ⟨st2, ?_, hstate, habort⟩
      rw [releaseCoefs_pac]
      split <;> simpa using h3

/-! ### Commands in progress -/

theorem cmdFind_of_cmdOp {s : State} {id op : Nat} {c : Cmd} (h : cmdOp s id op = some c) : cmdFind s id = some c := by
  unfold cmdOp at h
  split at h
  next d hd =>
    split at h
    · rwa [Option.some.inj h] at hd
    · cases h
  next => cases h

theorem cmdFind_cmdRun {s : State} {id : Nat} {c : Cmd} (h : cmdFind s id = some c) :
    cmdFind (cmdRun id s) id = some { c with phase := .running } := by
  have hid : c.id = id := by simpa using List.find?_some h
  have hkeeps : ((fun d : Cmd => d.id == id) ∘ fun d => if d.id = id then { d with phase := .running } else d) =
      fun d => d.id == id := by
    funext d
    dsimp only [Function.comp]
    split <;> rfl
  rw [cmdFind] at h
  simp only [cmdFind, cmdRun]
  rw [List.find?_map, hkeeps, h, Option.map_some, if_pos hid]

theorem cmdFind_congr {s t : State} (h : t.hst.inflight = s.hst.inflight) (id : Nat) : cmdFind t id = cmdFind s id := by
  rw [cmdFind, h, cmdFind]

@[simp] theorem raiseItems_inflight (code cls : Nat) (l : List (Nat × Nat)) (s : State) :
    (raiseItems code cls l s).hst.inflight = s.hst.inflight := by
  have h := congrArg Hst.inflight (raiseItems_kept code cls l s)
  exact h

theorem foldl_inflight {α : Type} {f : State → α → State} (hf : ∀ a u, (f u a).hst.inflight = u.hst.inflight) (l : List α)
    (s : State) : (l.foldl f s).hst.inflight = s.hst.inflight := by
  induction l generalizing s with
  | nil => rfl
  | cons a l ih => exact (ih _).trans (hf a s)

theorem complete_mono {id st : Nat} {data : List Byte} {s : State} {o : Output} (h : o ∈ s.outs) :
    o ∈ (complete id st data s).outs := by
  unfold complete
  split
  · exact h
  · exact push_mono _ _ h

/-- A command that is refused completes, and nothing else happens. -/
theorem answers_complete {i : Instr} {s : State} {id st : Nat} (h : exec i s = .next (complete id st [] s)) :
    answers i s fun t => completedWith {} id st s t := ⟨_, h, s, [], rfl, rfl⟩

theorem completedWith_completeOpt {F : Parts} {s u : State} {cmd : Option Nat} {i : Nat} (hcmd : cmd = some i)
    (h : changesOnly F s u) (st : Nat) (data : List Byte) : completedWith F i st s (completeOpt cmd st data u) := by
  subst hcmd
  exact ⟨u, data, h, rfl⟩

theorem completedWith_of_only {F : Parts} {s s' t : State} {i st : Nat} (h : changesOnly F s s')
    (g : completedWith F i st s' t) : completedWith F i st s t := by
  obtain ⟨u, data, hu, ht⟩ := g
  exact ⟨u, data, Eq.trans hu h, ht⟩

/-! ### The pre-roll begins (R175, R196) -/

theorem reportBeamMap_only (P : Nat) (s : State) : changesOnly Parts.events s (reportBeamMap P s) :=
  (does_reportBeamMap P (Does.refl Parts.events s) rfl).only

theorem reportBeamMap_inflight (P : Nat) (s : State) : (reportBeamMap P s).hst.inflight = s.hst.inflight := by
  unfold reportBeamMap
  simp only [raiseItems_inflight]
  rw [foldl_inflight (fun _ _ => raiseItems_inflight _ _ _ _), foldl_inflight (fun _ _ => raiseItems_inflight _ _ _ _)]

theorem startWorkUnits_only (s : State) : changesOnly { pac := true, lft := true } s (startWorkUnits s) :=
  (does_startWorkUnits (Does.refl _ s) rfl).only

/-- Of PAC, the start of jobs and fills changes those of the stripe. -/
theorem startWorkUnits_pac {s : State} {st : Stripe} (hst : s.pac.stripe = some st) :
    ∃ jobs fills, (startWorkUnits s).pac = { s.pac with stripe := some { st with jobs := jobs, fills := fills } } := by
  unfold startWorkUnits
  split
  next h => cases h.symm.trans hst
  next st0 hst0 =>
    obtain rfl : st = st0 := Option.some.inj (hst.symm.trans hst0)
    extract_lets due st'
    have hqueues : (due.foldl (fun s f => queueBin 2 f.tile f.pass f.group (tget st.adm.bins f.tile {}) s) (setStripe st' s)).pac =
        (setStripe st' s).pac :=
      same_pac (F := { lft := true }) (Does.foldl (Does.refl _ _) fun f u h => does_queueBin _ _ _ _ _ h rfl).only rfl
    exact ⟨st'.jobs, st'.fills, hqueues⟩

/-- The stripe of an accepted ARM in its pre-roll (R193, R196, R488). -/
structure InPreroll (q : ArmReq) (st : Stripe) : Prop where
  state : st.state = .arming
  id : st.id = q.id
  cmd : st.cmd = some q.cmd
  slotFirst : st.slotFirst = q.slotFirst
  slotEnd : st.slotEnd = q.slotEnd
  plan : st.plan = q.plan
  makeup : st.makeup = q.makeup
  owed : st.owed = q.owed
  startAt : st.startAt = q.startAt
  groups : st.groups = []

/-- What an accepted ARM may touch. -/
def Parts.arm : Parts := { Parts.events with units := true, dos := true, pac := true, enc := true, twn := true, lft := true }

/-- An accepted ARM holds the areas of its admission, runs, and has its stripe in the pre-roll. -/
structure BeginsArm (s : State) (a : Admission) (q : ArmReq) (c : Cmd) (t : State) : Prop where
  adm : t.pac.adm = some { a with hold := true }
  shortPp : t.dos.shortPp = 0
  lanes : t.units.lanes = []
  cmd : cmdFind t q.cmd = some { c with phase := .running }
  only : changesOnly Parts.arm s t
  stripe : ∃ st, t.pac.stripe = some st ∧ InPreroll q st

/-- What acceptance sets before the beam map is reported and the pre-roll's work begins. -/
theorem beginArm_eq (a : Admission) (q : ArmReq) (s : State) :
    ∃ s1, beginArm a q s = startWorkUnits (reportBeamMap a.hdr.passes (cmdRun q.cmd s1)) ∧ s1.hst = s.hst ∧
      s1.pac.adm = some { a with hold := true } ∧ s1.dos.shortPp = 0 ∧ s1.units.lanes = [] ∧
      ∃ st, s1.pac.stripe = some st ∧ InPreroll q st :=
  ⟨_, rfl, rfl, rfl, rfl, rfl, _, rfl, rfl, rfl, rfl, rfl, rfl, rfl, rfl, rfl, rfl, rfl⟩

theorem beginArm_begins {s : State} {c : Cmd} (a : Admission) (q : ArmReq) (hc : cmdFind s q.cmd = some c) :
    BeginsArm s a q c (beginArm a q s) := by
  have honly : changesOnly Parts.arm s (beginArm a q s) := (does_beginArm a q (Does.refl Parts.arm s) rfl).only
  obtain ⟨s1, heq, hhst, hadm, hshort, hlanes, st, hst, hpre⟩ := beginArm_eq a q s
  rw [heq] at honly ⊢
  have hmap := reportBeamMap_only a.hdr.passes (cmdRun q.cmd s1)
  have hinflight := reportBeamMap_inflight a.hdr.passes (cmdRun q.cmd s1)
  generalize reportBeamMap a.hdr.passes (cmdRun q.cmd s1) = u at hmap hinflight honly ⊢
  have hupac : u.pac = s1.pac := same_pac hmap rfl
  have hwork := startWorkUnits_only u
  obtain ⟨jobs, fills, hpac⟩ := startWorkUnits_pac (s := u) (st := st) (by rw [hupac, hst])
  have hc1 : cmdFind s1 q.cmd = some c := (cmdFind_congr (by rw [hhst]) _).trans hc
  exact {
    adm := (congrArg Pac.adm hpac).trans ((congrArg Pac.adm hupac).trans hadm)
    shortPp := by rw [same_dos hwork rfl, same_dos hmap rfl]; exact hshort
    lanes := by rw [same_units hwork rfl, same_units hmap rfl]; exact hlanes
    cmd := (cmdFind_congr ((congrArg Hst.inflight (same_hst hwork rfl)).trans hinflight) _).trans (cmdFind_cmdRun hc1)
    only := honly
    stripe := ⟨_, congrArg Pac.stripe hpac, { hpre with }⟩ }

/-! ### STRIPE_ARM (R196, Table 5-14) -/

/-- The whole stripe of an admission, as a STRIPE_ARM asks for it. -/
def stripeRequest (id : Nat) (c : Cmd) (a : Admission) : ArmReq where
  cmd := id
  id := a.id
  plan := a.plan
  segFirst := 0
  slotFirst := 0
  slotEnd := a.hdr.N
  makeup := none
  owed := 0
  domB := bitAt (c.p 4 4) 1
  startAt := if bitAt (c.p 4 4) 0 then some (timeOf (c.p 8 8) (c.p 0x10 4)) else none

/-- A parameter of STRIPE_ARM that is VALUE (Table 5-14). -/
def ArmValueBad (c : Cmd) : Prop := c.tailBad 0x18 = true ∨ 4 ≤ c.p 4 4 ∨ c.p 0x14 4 ≠ 0 ∨ startNsBad (c.p 0x10 4) = true

section StripeArm

variable {s : State} {id : Nat} {c : Cmd} {a : Admission}

theorem execStripeArm_of_headBad (hc : cmdOp s id 3 = some c) (hhead : c.headBad = true) :
    exec (.stripeArm id) s = .next (complete id 2 [] s) := by
  simp [exec, execStripeArm, hc, hhead, ok]

theorem execStripeArm_of_value (hc : cmdOp s id 3 = some c) (hhead : c.headBad = false) (hbad : ArmValueBad c) :
    exec (.stripeArm id) s = .next (complete id 0x47 [] s) := by
  simp only [exec, execStripeArm, hc, hhead]
  exact if_pos hbad

theorem execStripeArm_of_not_held (hc : cmdOp s id 3 = some c) (hhead : c.headBad = false) (hgood : ¬ ArmValueBad c)
    (hnone : ∀ a, s.pac.adm = some a → a.phase ≠ .held ∨ a.id ≠ c.p 0 4) :
    exec (.stripeArm id) s = .next (complete id 0x40 [] s) := by
  simp only [exec, execStripeArm, hc, hhead]
  refine (if_neg hgood).trans ?_
  split
  · rfl
  next a hadm => exact if_pos (hnone a hadm)

/-- With the stripe held that it names, STRIPE_ARM makes its checks and then begins (R196). -/
theorem execStripeArm_of_held (hc : cmdOp s id 3 = some c) (hhead : c.headBad = false) (hgood : ¬ ArmValueBad c)
    (hadm : s.pac.adm = some a) (hheld : a.phase = .held) (hid : a.id = c.p 0 4) :
    exec (.stripeArm id) s = .next (if armChecks s a a.plan 0 ≠ 0 then complete id (armChecks s a a.plan 0) [] s
      else beginArm a (stripeRequest id c a) s) := by
  simp only [exec, execStripeArm, hc, hhead, hadm]
  refine (if_neg hgood).trans ((if_neg (by simp [hheld, hid])).trans ?_)
  split <;> rfl

end StripeArm

/-! ### PREROLL_COMPLETE (R175, R196, R293) -/

section Preroll

variable {s : State} {st : Stripe}

theorem execPrerollComplete_of_done (hst : s.pac.stripe = some st) (harming : st.state = .arming)
    (hsent : s.twn.armSent = false) (hdone : prerollDone s st = true) :
    exec .prerollComplete s = .next (prerollEnd st s) := by
  simp [exec, execPrerollComplete, hst, harming, hsent, hdone, ok]

theorem not_start_past {x : Option Nat} {t : Nat} (h : ∀ y, x = some y → t ≤ y) : ¬ x.any (fun y => decide (t > y)) = true := by
  cases x with
  | none => simp
  | some y => simpa using h y rfl

theorem prerollEnd_of_start_past {x : Nat} (hstart : st.startAt = some x) (hpast : x < (domGet s st.domB).t) :
    prerollEnd st s = armRefuse 0x46 s := by
  simp [prerollEnd, hstart, hpast]

theorem prerollEnd_of_unpaired (hstart : ∀ x, st.startAt = some x → (domGet s st.domB).t ≤ x) (hpaired : s.twn.paired = false) :
    prerollEnd st s = armEnd 0 s := by
  rw [prerollEnd, if_neg (not_start_past hstart), if_pos (by simp [hpaired])]

theorem prerollEnd_of_link_down (hstart : ∀ x, st.startAt = some x → (domGet s st.domB).t ≤ x) (hpaired : s.twn.paired = true)
    (hlink : s.twn.link ≠ .up) : prerollEnd st s = armEnd 0x4C s := by
  rw [prerollEnd, if_neg (not_start_past hstart), if_neg (by simp [hpaired]), if_pos hlink]

/-- An ARM that ends with status 0 leaves its stripe armed; a make-up run takes the next number (R488). -/
theorem armEnd_arms (hst : s.pac.stripe = some st) (harming : st.state = .arming) :
    (∃ st', (armEnd 0 s).pac.stripe = some st' ∧ st'.state = .armed ∧ st'.cmd = none ∧
      st'.id = (if st.makeup.isSome then wrap32 (s.pac.admitCount + 1) else st.id) ∧
      (armEnd 0 s).pac.admitCount = if st.makeup.isSome then st'.id else s.pac.admitCount) ∧
    ∀ i, st.cmd = some i → completedWith { pac := true } i 0 s (armEnd 0 s) := by
  unfold armEnd
  split
  next h => cases h.symm.trans hst
  next st0 hst0 =>
    obtain rfl : st = st0 := Option.some.inj (hst.symm.trans hst0)
    rw [if_neg (not_not.2 harming), if_neg (not_not.2 rfl)]
    extract_lets groups n st1 pac s1
    refine ⟨⟨st1, by rw [completeOpt_pac]; rfl, rfl, rfl, rfl, by rw [completeOpt_pac]; rfl⟩, fun i hcmd => ?_⟩
    exact completedWith_completeOpt (u := s1) hcmd rfl _ _

/-- How an arm ends that is refused after its acceptance: no stripe stands, the hold is what it was before (R98), and the
ARM completes. -/
structure ArmRefused (s : State) (st : Stripe) (status : Nat) (t : State) : Prop where
  stripe : t.pac.stripe = none
  hold : ∀ a, s.pac.adm = some a → a.id = st.adm.id → ∃ a', t.pac.adm = some a' ∧ a'.hold = st.adm.hold
  cmd : ∀ i, st.cmd = some i → completedWith Parts.ending i status s t

theorem armEnd_refuses (hst : s.pac.stripe = some st) (harming : st.state = .arming) {status : Nat} (hstatus : status ≠ 0) :
    ArmRefused s st status (armEnd status s) := by
  have heq : armEnd status s = discardStripe true status s := by simp [armEnd, hst, harming, hstatus]
  obtain ⟨u, hu, honly, hnone, hadm⟩ := discardStripe_spec true status hst
  rw [heq, hu]
  refine ⟨by rw [completeOpt_pac, hnone], fun a ha hid => ?_, fun i hcmd => completedWith_completeOpt hcmd honly _ _⟩
  obtain ⟨a', ha', -, hhold⟩ := dropStripe_adm true hst ha hid
  exact ⟨a', by rw [completeOpt_pac, hadm, ha'], by simpa using hhold⟩

theorem armRefuse_refuses (hst : s.pac.stripe = some st) (harming : st.state = .arming) {status : Nat} (hstatus : status ≠ 0) :
    ArmRefused s st status (armRefuse status s) := by
  unfold armRefuse
  split
  · have honly : changesOnly Parts.ending s (dxpSend 5 status [] s) := (does_dxpSend 5 status [] (Does.refl Parts.ending s) rfl).only
    obtain ⟨hnone, hhold, hcmd⟩ := armEnd_refuses (s := dxpSend 5 status [] s) (by simpa using hst) harming hstatus
    exact ⟨hnone, by simpa using hhold, fun i hi => completedWith_of_only honly (hcmd i hi)⟩
  · exact armEnd_refuses hst harming hstatus

end Preroll

/-! ### STRIPE_ABORT (R187, R197) -/

section StripeAbort

variable {s : State} {id : Nat} {c : Cmd} {st : Stripe} {a : Admission}

/-- The stripe or admission number that a STRIPE_ABORT names; 0 names whichever there is (Table 5-15). -/
def Names (c : Cmd) (n : Nat) : Prop := c.p 0 4 = 0 ∨ c.p 0 4 = n

theorem execStripeAbort_of_reserved (hc : cmdOp s id 4 = some c) (hres : c.reserved 4 = true) :
    exec (.stripeAbort id) s = .next (complete id 2 [] s) := by
  simp [exec, execStripeAbort, hc, hres, ok]

theorem execStripeAbort_of_stripe (hc : cmdOp s id 4 = some c) (hres : c.reserved 4 = false) (hst : s.pac.stripe = some st)
    (hnames : Names c st.id) : exec (.stripeAbort id) s = .next (abortStripe id st s) := by
  have hfilter : (some st).filter (fun st => c.p 0 4 == 0 || c.p 0 4 == st.id) = some st := by
    simpa [Option.filter, Names, or_iff_not_imp_left] using hnames
  simp [exec, execStripeAbort, hc, hres, hst, hfilter, ok]

/-- Where no stripe is named, the admission may be. -/
theorem execStripeAbort_of_no_stripe (hc : cmdOp s id 4 = some c) (hres : c.reserved 4 = false)
    (hother : ∀ st, s.pac.stripe = some st → ¬ Names c st.id) :
    exec (.stripeAbort id) s = .next (if s.pac.adm.any (fun a => c.p 0 4 == 0 || c.p 0 4 == a.id)
      then complete id 0 (le 4 max32) (dropAdmission 0x42 s) else complete id 0x40 [] s) := by
  have hfilter : s.pac.stripe.filter (fun st => c.p 0 4 == 0 || c.p 0 4 == st.id) = none := by
    rw [Option.filter_eq_none_iff]
    intro st hst
    simpa [Names] using hother st hst
  simp only [exec, execStripeAbort, hc, hres, hfilter, Bool.false_eq_true, if_false]
  split <;> rfl

theorem endAdmWork_pac (u : State) : (endAdmWork u).pac = u.pac :=
  same_pac (does_endAdmWork (Does.refl { chk := true, lft := true } u) rfl).only rfl

theorem dropAdmission_pac (hadm : s.pac.adm = some a) (status : Nat) : (dropAdmission status s).pac = { s.pac with adm := none } := by
  simp only [dropAdmission, hadm]
  split
  · rw [endAdmWork_pac]
  · rw [completeOpt_pac, dropWaits, endAdmWork_pac]

theorem cmdFind_abortStripe (id : Nat) (st : Stripe) (s : State) : cmdFind (abortStripe id st s) id = none := cmdFind_complete _ _ _ _

theorem complete_pac (id status : Nat) (data : List Byte) (s : State) : (complete id status data s).pac = s.pac :=
  completeOpt_pac (some id) status data s

/-- A moving stripe begins its stop (R188). -/
theorem abortStripe_of_moving (id : Nat) (hst : s.pac.stripe = some st) (hmoving : st.state.moving = true) :
    ∃ st', (abortStripe id st s).pac.stripe = some st' ∧ st'.state = .stopping ∧ st'.abort = some (1, st.cutSlot st.nextGroup) := by
  have harming : st.state ≠ .arming := fun h => by rw [h] at hmoving; cases hmoving
  have hstopping : st.state ≠ .stopping := fun h => by rw [h] at hmoving; cases hmoving
  have heq : abortOrDiscard 1 true true 0 s = abortRunning 1 none true true s := by simp [abortOrDiscard, hst, hmoving]
  simp only [abortStripe, if_neg harming, if_neg hstopping, complete_pac, heq]
  exact abortRunning_stops hst hmoving 1 true true

/-- A stripe that stops already goes on stopping. -/
theorem abortStripe_of_stopping (id : Nat) (hstopping : st.state = .stopping) :
    abortStripe id st s = complete id 0 (le 4 s.pac.abortSlot) s := by
  simp [abortStripe, hstopping]

/-- A stripe before its run-up goes (R197). -/
theorem abortStripe_of_standing (id : Nat) (hst : s.pac.stripe = some st) (hstate : st.state = .arming ∨ st.state = .armed) :
    (abortStripe id st s).pac.stripe = none := by
  have hstopping : st.state ≠ .stopping := by rcases hstate with h | h <;> simp [h]
  simp only [abortStripe, complete_pac]
  split
  · exact abortOrDiscard_of_standing (s := { s with free := s.free + 1 }) hst hstate _ _ _ _
  · exact abortOrDiscard_of_standing hst hstate _ _ _ _

end StripeAbort

/-! ### MAKEUP_ARM (R485 to R491) -/

section Makeup

variable {s : State} {id : Nat} {c : Cmd} {a : Admission}

theorem execMakeupArmList_of_params (hc : cmdOp s id 5 = some c) (hop : c.p 0 1 ≠ 1) (hp : makeupParams c ≠ 0) :
    exec (.makeupArmList id) s = .next (complete id (makeupParams c) [] s) := by
  simp [exec, execMakeupArmList, hc, hop, hp, ok]

/-- The records of the store that a LIST asks for (R485). -/
def listedRecords (s : State) (c : Cmd) : List MkRec := (s.store.recs.drop (c.p 4 4)).take (c.p 0x10 4)

theorem execMakeupArmList_lists (hc : cmdOp s id 5 = some c) (hop : c.p 0 1 ≠ 1) (hp : makeupParams c = 0) :
    ∃ data u, exec (.makeupArmList id) s = .next (complete id 0 data u) ∧ changesOnly { outs := true } s u ∧
      (listedRecords s c ≠ [] → .hostWrite (c.p 8 8) ((listedRecords s c).flatMap MkRec.bytes) ∈ u.outs) := by
  simp only [exec, execMakeupArmList, hc]
  rw [if_neg hop, if_neg (not_not.2 hp)]
  refine ⟨_, _, rfl, ?_, fun hne => ?_⟩
  · split <;> rfl
  · rw [if_neg (by rwa [List.isEmpty_iff])]
    exact List.mem_cons_self

theorem execMakeupArmArm_of_params (hc : cmdOp s id 5 = some c) (hop : c.p 0 1 = 1) (hp : makeupParams c ≠ 0) (d : Option (List Byte)) :
    exec (.makeupArmArm id d) s = .next (complete id (makeupParams c) [] s) := by
  simp [exec, execMakeupArmArm, hc, hop, hp, ok]

theorem execMakeupArmArm_of_not_held (hc : cmdOp s id 5 = some c) (hop : c.p 0 1 = 1) (hp : makeupParams c = 0)
    (hnone : ∀ a, s.pac.adm = some a → a.phase ≠ .held) (d : Option (List Byte)) :
    exec (.makeupArmArm id d) s = .next (complete id 0x40 [] s) := by
  simp only [exec, execMakeupArmArm, hc]
  rw [if_neg (not_not.2 hop), if_neg (not_not.2 hp)]
  split
  · rfl
  next a hadm => exact if_pos (hnone a hadm)

theorem execMakeupArmArm_of_no_data (hc : cmdOp s id 5 = some c) (hop : c.p 0 1 = 1) (hp : makeupParams c = 0)
    (hadm : s.pac.adm = some a) (hheld : a.phase = .held) :
    exec (.makeupArmArm id none) s = .next (complete id 4 [] s) := by
  simp [exec, execMakeupArmArm, hc, hop, hp, hadm, hheld, ok]

/-- With its list in hand, MAKEUP_ARM makes the checks of R491. -/
theorem execMakeupArmArm_of_data (hc : cmdOp s id 5 = some c) (hop : c.p 0 1 = 1) (hp : makeupParams c = 0)
    (hadm : s.pac.adm = some a) (hheld : a.phase = .held) {b : List Byte} (hb : b.length = 40 * c.p 0x10 4) :
    exec (.makeupArmArm id (some b)) s = .next (armMakeup id c a (recordsOf (c.p 0x10 4) b) s) := by
  simp [exec, execMakeupArmArm, hc, hop, hp, hadm, hheld, withLen, hb]

/-- The segments that a list covers, from the first to the last (R488). -/
def makeupRequest (id : Nat) (c : Cmd) (a : Admission) (recs : List MkRec) (s : State) : ArmReq :=
  let slots := coveredSlots a s.dos.cur recs
  let ka := slots.foldl min (slots.headD 0) / 1024
  let kb := slots.foldl max (slots.headD 0) / 1024
  { cmd := id, id := s.pac.admitCount + 1, plan := makeupPlan a.plan a.hdr.tag a.hdr.N ka kb, segFirst := ka, slotFirst := 1024 * ka,
    slotEnd := min (1024 * (kb + 1)) a.hdr.N, makeup := some recs, owed := owedCount a s.dos.cur recs, domB := bitAt (c.p 1 1) 1,
    startAt := if bitAt (c.p 1 1) 0 then some (timeOf (c.p 0x18 8) (c.p 0x20 4)) else none }

variable {recs : List MkRec}

/-- The records may have been raised under any table where they are rebased, else under the table in effect (R486). -/
def GensMatch (s : State) (c : Cmd) (recs : List MkRec) : Prop :=
  bitAt (c.p 1 1) 2 = true ∨ recs.all (fun r => r.gen == s.dos.gen) = true

theorem gensMatch_iff : GensMatch s c recs ↔ ¬ (¬ bitAt (c.p 1 1) 2 = true ∧ recs.any (fun r => r.gen != s.dos.gen) = true) := by
  rw [not_and_or, not_not, GensMatch]
  simp [bne_iff_ne]

theorem armMakeup_of_misfit (hfits : ¬ recs.all (fun r => r.fits a (bitAt (c.p 1 1) 2)) = true) :
    armMakeup id c a recs s = complete id 0x50 [] s := if_pos hfits

theorem armMakeup_of_gens (hfits : recs.all (fun r => r.fits a (bitAt (c.p 1 1) 2)) = true) (hgens : ¬ GensMatch s c recs) :
    armMakeup id c a recs s = complete id 0x51 [] s :=
  (if_neg (not_not.2 hfits)).trans (if_pos (not_not.1 (mt gensMatch_iff.2 hgens)))

theorem armMakeup_of_touched (hfits : recs.all (fun r => r.fits a (bitAt (c.p 1 1) 2)) = true) (hgens : GensMatch s c recs)
    (htouched : a.touched = true) : armMakeup id c a recs s = complete id 0x52 [] s :=
  (if_neg (not_not.2 hfits)).trans ((if_neg (gensMatch_iff.1 hgens)).trans (if_pos htouched))

theorem armMakeup_of_uncovered (hfits : recs.all (fun r => r.fits a (bitAt (c.p 1 1) 2)) = true) (hgens : GensMatch s c recs)
    (htouched : a.touched = false) (hslots : coveredSlots a s.dos.cur recs = []) :
    armMakeup id c a recs s = complete id 0x54 [] s := by
  refine (if_neg (not_not.2 hfits)).trans ((if_neg (gensMatch_iff.1 hgens)).trans ((if_neg (by simp [htouched])).trans ?_))
  simp only [hslots]

/-- A list that covers slots is checked as the run that it asks for, which begins where nothing stands against it (R491). -/
theorem armMakeup_of_covered (hfits : recs.all (fun r => r.fits a (bitAt (c.p 1 1) 2)) = true) (hgens : GensMatch s c recs)
    (htouched : a.touched = false) (hslots : coveredSlots a s.dos.cur recs ≠ []) :
    armMakeup id c a recs s =
      let q := makeupRequest id c a recs s
      if limitPlan s a.y0 (q.plan.regs.getD 4 0) q.slotFirst q.slotEnd q.plan.runup q.plan.runout ≠ 0 then complete id 0x53 [] s
      else if q.owed = 0 then complete id 0x54 [] s
      else if armChecks s a q.plan q.slotFirst ≠ 0 then complete id (armChecks s a q.plan q.slotFirst) [] s
      else beginArm a q s := by
  refine (if_neg (not_not.2 hfits)).trans ((if_neg (gensMatch_iff.1 hgens)).trans ((if_neg (by simp [htouched])).trans ?_))
  unfold makeupRequest
  cases hcov : coveredSlots a s.dos.cur recs with
  | nil => exact absurd hcov hslots
  | cons n l => rfl

end Makeup

/-! ### What each command answers -/

section ArmingParts

variable {s : State} {id : Nat} {c : Cmd} {a : Admission} {st : Stripe}

/-- An ARM that begins is answered by the pre-roll of what it asks for. -/
theorem answers_beginArm {i : Instr} {q : ArmReq} (h : exec i s = .next (beginArm a q s)) (hc : cmdFind s q.cmd = some c) :
    answers i s fun t => BeginsArm s a q c t := ⟨_, h, beginArm_begins a q hc⟩

theorem answers_mono {i : Instr} {P Q : State → Prop} (h : answers i s P) (hPQ : ∀ t, P t → Q t) : answers i s Q := by
  obtain ⟨t, hexec, hP⟩ := h
  exact ⟨t, hexec, hPQ t hP⟩

theorem not_names_iff {n : Nat} : ¬ Names c n ↔ c.p 0 4 ≠ 0 ∧ c.p 0 4 ≠ n := not_or

theorem dropAdmission_only (status : Nat) (s : State) :
    changesOnly { outs := true, hst := true, chk := true, pac := true, lft := true, obs := true } s (dropAdmission status s) :=
  (does_dropAdmission status (Does.refl _ s) rfl).only

/-- With no stripe named, a STRIPE_ABORT that names no admission either is refused (Table 5-15). -/
theorem answers_stripeAbort_of_none (hc : cmdOp s id 4 = some c) (hres : c.reserved 4 = false)
    (hother : ∀ st, s.pac.stripe = some st → ¬ Names c st.id) (hnone : ∀ a, s.pac.adm = some a → ¬ Names c a.id) :
    answers (.stripeAbort id) s fun t => completedWith {} id 0x40 s t := by
  refine answers_complete ((execStripeAbort_of_no_stripe hc hres hother).trans (congrArg _ (if_neg ?_)))
  cases hadm : s.pac.adm with
  | none => simp
  | some a => simpa [Names] using hnone a hadm

/-- With no stripe named, a STRIPE_ABORT ends the admission that it names (R193, R197). -/
theorem answers_stripeAbort_of_admission (hc : cmdOp s id 4 = some c) (hres : c.reserved 4 = false)
    (hother : ∀ st, s.pac.stripe = some st → ¬ Names c st.id) (hadm : s.pac.adm = some a) (hnames : Names c a.id) :
    answers (.stripeAbort id) s fun t =>
      t.pac = { s.pac with adm := none } ∧ cmdFind t id = none ∧
      changesOnly { outs := true, hst := true, chk := true, pac := true, lft := true, obs := true } s t := by
  have hany : s.pac.adm.any (fun a => c.p 0 4 == 0 || c.p 0 4 == a.id) = true := by
    simpa [hadm, Names] using hnames
  refine ⟨_, (execStripeAbort_of_no_stripe hc hres hother).trans (congrArg _ (if_pos hany)), ?_, cmdFind_complete _ _ _ _, ?_⟩
  · rw [complete_pac, dropAdmission_pac hadm]
  · exact only_complete _ _ _ (dropAdmission_only 0x42 s)

/-- A STRIPE_ABORT of the stripe stops what moves and discards what stands (R187, R197). -/
theorem answers_stripeAbort_of_stripe (hc : cmdOp s id 4 = some c) (hres : c.reserved 4 = false)
    (hst : s.pac.stripe = some st) (hnames : Names c st.id) :
    answers (.stripeAbort id) s fun t =>
      cmdFind t id = none ∧ changesOnly { Parts.ending with chk := true } s t ∧
      (st.state.moving = true →
        ∃ st', t.pac.stripe = some st' ∧ st'.state = .stopping ∧ st'.abort = some (1, st.cutSlot st.nextGroup)) ∧
      (st.state = .stopping → t.pac = s.pac ∧ completedWith {} id 0 s t) ∧
      (st.state = .arming ∨ st.state = .armed → t.pac.stripe = none) := by
  refine ⟨_, execStripeAbort_of_stripe hc hres hst hnames, cmdFind_abortStripe _ _ _,
    (does_abortStripe id st (Does.refl { Parts.ending with chk := true } s) rfl).only, abortStripe_of_moving id hst, ?_,
    abortStripe_of_standing id hst⟩
  intro hstopping
  rw [abortStripe_of_stopping id hstopping]
  exact ⟨complete_pac _ _ _ _, s, _, rfl, rfl⟩

end ArmingParts

/-- Settles O58: each command's acceptance is one equation for each of its outcomes; an accepted ARM begins the pre-roll, an
ARM that ends refused leaves no stripe, and an abort stops a moving stripe and discards a standing one. -/
theorem arming : Obligations.Arming := by
  intro s
  refine ⟨?arm, ?preroll, ?abort, ?list, ?makeup⟩
  case arm =>
    intro id c hc
    refine ⟨fun hhead => answers_complete (execStripeArm_of_headBad hc hhead),
      fun hhead hbad => answers_complete (execStripeArm_of_value hc hhead hbad),
      fun hhead hgood hnone => answers_complete (execStripeArm_of_not_held hc hhead hgood hnone), ?_⟩
    intro a hhead hgood hadm hheld hid
    have hexec := execStripeArm_of_held hc hhead hgood hadm hheld hid
    refine ⟨fun hchecks => answers_complete (hexec.trans (congrArg _ (if_pos hchecks))), fun hchecks => ?_⟩
    refine answers_mono (answers_beginArm (hexec.trans (congrArg _ (if_neg (not_not.2 hchecks)))) (cmdFind_of_cmdOp hc)) ?_
    rintro t ⟨hadm', hshort, hlanes, hcmd, honly, st, hst, hpre⟩
    exact ⟨hadm', hshort, hlanes, hcmd, honly, st, hst, hpre.state, hpre.id, hpre.cmd, hpre.slotFirst, hpre.slotEnd, hpre.plan,
      hpre.makeup, hpre.groups, hpre.startAt⟩
  case preroll =>
    intro st hst harming hsent hdone
    have hexec := execPrerollComplete_of_done hst harming hsent hdone
    refine ⟨fun hpaired hstart => ⟨_, hexec, ?_⟩, fun x hstart hpast => ⟨_, hexec, ?_⟩,
      fun hpaired hlink hstart => ⟨_, hexec, ?_⟩⟩
    · rw [prerollEnd_of_unpaired hstart hpaired]
      exact armEnd_arms hst harming
    · rw [prerollEnd_of_start_past hstart hpast]
      obtain ⟨hnone, hhold, hcmd⟩ := armRefuse_refuses hst harming (status := 0x46) (by decide)
      exact ⟨hnone, hhold, hcmd⟩
    · rw [prerollEnd_of_link_down hstart hpaired hlink]
      obtain ⟨hnone, -, hcmd⟩ := armEnd_refuses hst harming (status := 0x4C) (by decide)
      exact ⟨hnone, hcmd⟩
  case abort =>
    intro id c hc
    refine ⟨fun hres => answers_complete (execStripeAbort_of_reserved hc hres), fun hres hother => ?_,
      fun st hres hst hnames => answers_stripeAbort_of_stripe hc hres hst hnames⟩
    have hother' := fun st hst => not_names_iff.2 (hother st hst)
    exact ⟨fun hnone => answers_stripeAbort_of_none hc hres hother' fun a hadm => not_names_iff.2 (hnone a hadm),
      fun a hadm hnames => answers_stripeAbort_of_admission hc hres hother' hadm hnames⟩
  case list =>
    intro id c hc hop
    refine ⟨fun hp => answers_complete (execMakeupArmList_of_params hc hop hp), fun hp => ?_⟩
    obtain ⟨data, u, hexec, honly, hlist⟩ := execMakeupArmList_lists hc hop hp
    exact ⟨_, hexec, ⟨u, data, honly, rfl⟩, fun hne => complete_mono (hlist hne)⟩
  case makeup =>
    intro id c hc hop
    refine ⟨fun hp d => answers_complete (execMakeupArmArm_of_params hc hop hp d),
      fun hp hnone d => answers_complete (execMakeupArmArm_of_not_held hc hop hp hnone d), fun a hp hadm hheld =>
      ⟨answers_complete (execMakeupArmArm_of_no_data hc hop hp hadm hheld), fun b hb => ?_⟩⟩
    have hexec := execMakeupArmArm_of_data hc hop hp hadm hheld hb
    refine ⟨fun hfits => answers_complete (hexec.trans (congrArg _ (armMakeup_of_misfit hfits))),
      fun hfits hgens => answers_complete (hexec.trans (congrArg _ (armMakeup_of_gens hfits hgens))),
      fun hfits hgens htouched => answers_complete (hexec.trans (congrArg _ (armMakeup_of_touched hfits hgens htouched))),
      fun hfits hgens htouched hslots => answers_complete (hexec.trans (congrArg _ (armMakeup_of_uncovered hfits hgens htouched hslots))),
      fun hfits hgens htouched hslots => ?_⟩
    rw [armMakeup_of_covered hfits hgens htouched hslots] at hexec
    refine ⟨fun hlim => ?_, fun hlim howed => ?_, fun hlim howed hchecks => ?_, fun hlim howed hchecks => ?_⟩
    · exact answers_complete (hexec.trans (congrArg _ (if_pos hlim)))
    · exact answers_complete (hexec.trans (congrArg _ ((if_neg (not_not.2 hlim)).trans (if_pos howed))))
    · exact answers_complete (hexec.trans (congrArg _ ((if_neg (not_not.2 hlim)).trans ((if_neg howed).trans (if_pos hchecks)))))
    · have hbegins := hexec.trans (congrArg _ ((if_neg (not_not.2 hlim)).trans ((if_neg howed).trans (if_neg (not_not.2 hchecks)))))
      refine answers_mono (answers_beginArm hbegins (cmdFind_of_cmdOp hc)) ?_
      rintro t ⟨hadm', -, -, hcmd, honly, st, hst, hpre⟩
      exact ⟨hadm', hcmd, honly, st, hst, hpre.state, hpre.id, hpre.makeup, hpre.owed, hpre.slotFirst, hpre.slotEnd, hpre.plan⟩

end Sys2Proof.Machine
end

section
/-! PROOFS. Encoder channels (06): what the operations that several rows share leave of the channels and their settings, and the rows of the
speed measurement. -/

namespace Sys2Proof.Machine

/-! ### Settings and channels are seen through few parts of the state -/

theorem regGet_congr {s t : State} (h : t.regs = s.regs) (off : Nat) : regGet t off = regGet s off := by rw [regGet, h, regGet]

theorem encGet_congr {s t : State} (h : t.enc.ch = s.enc.ch) (n : Nat) : encGet t n = encGet s n := by rw [encGet, h, encGet]

@[simp] theorem encGet_regSet (s : State) (off v n : Nat) : encGet (regSet s off v) n = encGet s n := encGet_congr rfl n

@[simp] theorem cmpGet_regSet (s : State) (off v k : Nat) : cmpGet (regSet s off v) k = cmpGet s k := rfl

@[simp] theorem cntEnc_enc (ev : Nat) (u : Option Nat) (n : Nat) (s : State) : (cntEnc ev u n s).enc = s.enc :=
  same_enc (does_cntEnc ev u n (Does.refl { obs := true } s) rfl).only rfl

@[simp] theorem complete_enc (id st : Nat) (data : List Byte) (s : State) : (complete id st data s).enc = s.enc :=
  same_enc (does_complete id st data (Does.refl { outs := true, hst := true, obs := true } s) rfl).only rfl

@[simp] theorem raiseItems_enc (code cls : Nat) (l : List (Nat × Nat)) (s : State) : (raiseItems code cls l s).enc = s.enc :=
  same_enc (raiseItems_only code cls l s) rfl

@[simp] theorem encGet_cntEnc (ev : Nat) (u : Option Nat) (k : Nat) (s : State) (n : Nat) :
    encGet (cntEnc ev u k s) n = encGet s n := encGet_congr (by simp) n

@[simp] theorem encGet_raiseItems (code cls : Nat) (l : List (Nat × Nat)) (s : State) (n : Nat) :
    encGet (raiseItems code cls l s) n = encGet s n := encGet_congr (by simp) n

/-- The outcome of a channel of a CAL_ENC command touches neither the channels nor the sample count. -/
theorem calDone_enc (cmd : Option Nat) (n outcome : Nat) (s : State) :
    (calDone cmd n outcome s).enc.ch = s.enc.ch ∧ (calDone cmd n outcome s).enc.edge = s.enc.edge := by
  cases cmd with
  | none => exact ⟨rfl, rfl⟩
  | some id =>
    unfold calDone
    dsimp only
    split
    · exact ⟨rfl, rfl⟩
    · split
      · simp
      · exact ⟨rfl, rfl⟩

@[simp] theorem encGet_calDone (cmd : Option Nat) (n outcome : Nat) (s : State) (m : Nat) :
    encGet (calDone cmd n outcome s) m = encGet s m := encGet_congr (calDone_enc cmd n outcome s).1 m

/-- A window that opens anew is all that the mode of a channel sets off (R227, R229). -/
theorem encGet_reopen (n : Nat) (s : State) : ∃ w, encGet (reopen n s) n = { encGet s n with window := w } := by
  unfold reopen
  dsimp only
  split
  · exact ⟨_, encGet_encSet_same _ _ _⟩
  · exact ⟨(encGet s n).window, rfl⟩

theorem encGet_reopen_ne {n m : Nat} (h : m ≠ n) (s : State) : encGet (reopen n s) m = encGet s m := by
  unfold reopen
  dsimp only
  split
  · exact encGet_encSet_ne _ _ h
  · rfl

/-! ### One bit of a register value set or cleared -/

theorem bitAt_clearBit_same (v i : Nat) : bitAt (clearBit v i) i = false := by
  unfold clearBit
  split
  next h =>
    have hle : 2 ^ i ≤ v := Nat.ge_two_pow_of_testBit h
    have hflip := Nat.testBit_two_pow_add_eq (v - 2 ^ i) i
    rw [Nat.add_sub_cancel' hle] at hflip
    rw [bitAt] at h ⊢
    simpa [h] using hflip
  next h => simpa using h

theorem bitAt_setBit_same (v i : Nat) : bitAt (setBit v i) i = true := by
  have hclear := bitAt_clearBit_same v i
  rw [bitAt] at hclear
  rw [bitAt, setBit, Nat.add_comm, Nat.testBit_two_pow_add_eq, hclear, Bool.not_false]

theorem bitAt_setBit_of_lt {i j : Nat} (h : j < i) (v : Nat) : bitAt (setBit v i) j = bitAt v j := by
  rw [bitAt, setBit, Nat.add_comm, Nat.testBit_two_pow_add_gt h, clearBit]
  split
  next hbit =>
    have hle : 2 ^ i ≤ v := Nat.ge_two_pow_of_testBit hbit
    have hkeep := Nat.testBit_two_pow_add_gt h (v - 2 ^ i)
    rw [Nat.add_sub_cancel' hle] at hkeep
    exact hkeep.symm
  next => rfl

theorem setBit_mod_two_pow {i k : Nat} (h : k ≤ i) (v : Nat) : setBit v i % 2 ^ k = v % 2 ^ k := by
  refine Nat.eq_of_testBit_eq fun j => ?_
  rw [Nat.testBit_mod_two_pow, Nat.testBit_mod_two_pow]
  by_cases hj : j < k
  · have hbit := bitAt_setBit_of_lt (Nat.lt_of_lt_of_le hj h) v
    rw [bitAt, bitAt] at hbit
    rw [hbit]
  · simp [hj]

/-! ### The speed measurement (R207 to R211) -/

/-- The channel after an edge has been stamped at `stamp` (R208 to R210). -/
def EncCh.stamped (x : EncCh) (scale stamp m : Nat) (up : Bool) (rest : List (Nat × Bool)) : EncCh :=
  let y := { x with edges := rest, still := false, lastUp := some up, lastStamp := stamp, spdDown := !up }
  if x.lastUp = some up ∧ 0 < stamp - x.lastStamp then
    { y with spdValid := true, spdDelta := stamp - x.lastStamp, spd := m * scale * 1250000000 / (stamp - x.lastStamp) }
  else { y with spdValid := false, spd := 0 }

theorem EncCh.stamped_edge (x : EncCh) (scale stamp m : Nat) (up : Bool) (rest : List (Nat × Bool)) :
    let y := x.stamped scale stamp m up rest
    y.edges = rest ∧ y.still = false ∧ y.lastStamp = stamp ∧ y.spdDown = !up := by
  unfold EncCh.stamped
  split <;> exact ⟨rfl, rfl, rfl, rfl⟩

theorem encGet_speedEdge_of_edge {s : State} {n m : Nat} {up : Bool} {rest : List (Nat × Bool)} (cycle : Nat)
    (h : (encGet s n).edges = (m, up) :: rest) :
    encGet (speedEdge n cycle s) n =
      (encGet s n).stamped (2 ^ bits (encCfg s n) 12 8) (s.tim.core + cycle) m up rest := by
  unfold speedEdge EncCh.stamped
  simp only [h, encGet_cntEnc, encGet_encSet_same]
  cases (encGet s n).lastUp with
  | none => simp
  | some d => by_cases hd : d = up <;> simp [hd]

theorem execStillTimeout_of_no_edge {s : State} {n : Fin 4} (hmoving : (encGet s n).still = false)
    (hlong : 1250 * regGet s 0x70428 ≤ s.tim.core - (encGet s n).lastStamp) :
    execStillTimeout n s = ok (encSet s n { encGet s n with still := true, spdValid := false, spd := 0, lastUp := none }) :=
  if_pos ⟨by simp [hmoving], hlong⟩

/-- Settles O38: a second edge in one direction gives the speed over the difference of the stamps, any other leaves it invalid. -/
theorem speedRows : Obligations.SpeedRows := by
  intro s n x
  constructor
  · intro cy m up r hedges
    refine ⟨_, rfl, ?_⟩
    have honly : changesOnly { enc := true, obs := true } s (speedEdge n cy s) :=
      (does_speedEdge n cy (Does.refl _ s) rfl).only
    have hy := encGet_speedEdge_of_edge cy hedges
    obtain ⟨hrest, hstill, hstamp, hdown⟩ := EncCh.stamped_edge (encGet s n) (2 ^ bits (encCfg s n) 12 8) (s.tim.core + cy) m up r
    rw [← hy] at hrest hstill hstamp hdown
    refine ⟨hrest, hstill, hstamp, hdown, honly, fun hsame hpos => ?_, fun hother => ?_⟩
    · rw [hy, EncCh.stamped, if_pos ⟨hsame, hpos⟩]
      exact ⟨rfl, rfl, rfl⟩
    · rw [hy, EncCh.stamped, if_neg fun h => hother h.1]
      exact ⟨rfl, rfl⟩
  · intro hmoving hlong
    refine ⟨_, execStillTimeout_of_no_edge hmoving hlong, encGet_encSet_same _ _ _, rfl⟩

end Sys2Proof.Machine
end

section
/-! PROOFS. The registers of the encoder channels and compare units (R202, R205, R221, R222). -/

namespace Sys2Proof.Machine

/-! ### A preset that is loaded (R205) -/

/-- A write with LOAD stores the high half and loads the preset. -/
theorem presetHi_of_load (n v : Nat) (s : State) :
    presetHi n (setBit v 31) s = presetLoad n (regSet s (encOff n 0x1C) (v % 65536)) := by
  have hlow : setBit v 31 % 65536 = v % 65536 := setBit_mod_two_pow (k := 16) (by decide) v
  rw [presetHi, if_pos (bitAt_setBit_same v 31), hlow]

theorem encGet_presetHi_of_live {s : State} {n : Nat} (hn : n = 0 ∨ n = 2)
    (hlive : s.pac.stripe.any (fun st => st.state.live) = true) (v : Nat) :
    encGet (presetHi n (setBit v 31) s) n = { encGet s n with loadRefused := true } := by
  rw [presetHi_of_load, presetLoad]
  dsimp only
  rw [regSet_pac, if_pos ⟨hn, hlive⟩, encGet_encSet_same, encGet_regSet]

theorem encGet_presetHi_of_not_live {s : State} {n : Nat}
    (hfree : ¬ ((n = 0 ∨ n = 2) ∧ s.pac.stripe.any (fun st => st.state.live) = true)) (v : Nat) :
    encGet (presetHi n (setBit v 31) s) n =
      { encGet s n with preset := some (v % 65536 * 2 ^ 32 + regGet s (encOff n 0x18)) } := by
  have hhigh : v % 65536 % 2 ^ 32 % 65536 = v % 65536 := by omega
  have hoff : encOff n 0x18 ≠ encOff n 0x1C := by simp [encOff]
  rw [presetHi_of_load, presetLoad]
  dsimp only
  rw [regSet_pac, if_neg hfree, encGet_encSet_same, encGet_regSet, regGet_regSet_same, regGet_regSet_ne _ _ hoff, hhigh]

theorem presetHi_only (n v : Nat) (s : State) : changesOnly { regs := true, enc := true } s (presetHi n (setBit v 31) s) := by
  rw [presetHi_of_load]
  exact (does_presetLoad n (does_regSet _ _ (Does.refl _ s) rfl) rfl).only

/-! ### A channel that is switched on or off (R202) -/

theorem encEnable_of_stays_on {s : State} {n : Nat} (hen : encEn s n = true) : encEnable n true s = s := by
  simp [encEnable, hen]

theorem encEnable_of_on {s : State} {n : Nat} (hen : encEn s n = true) :
    encEnable n false s = encSet s n { encGet s n with q := none, faulted := false, badRadius := 0 } := by
  simp [encEnable, hen]

theorem encEnable_of_off {s : State} {n : Nat} (hen : encEn s n = false) (was : Bool) :
    encEnable n was s = encSet s n { encGet s n with
      posValid := false, q := none, window := (encGet s n).window.map (fun w => { w with bins := [], up := none }) } := by
  simp [encEnable, hen]

theorem encEnable_only (n : Nat) (was : Bool) (s : State) : changesOnly { enc := true } s (encEnable n was s) :=
  (does_encEnable n was (Does.refl _ s) rfl).only

/-- The switch of a channel is bit 0 of its settings. -/
theorem encEn_regSet (s : State) (n v : Nat) : encEn (regSet s (encOff n 0) (v &&& 0x1F07)) n = v.testBit 0 := by
  have hmask : (0x1F07 : Nat).testBit 0 = true := by decide
  rw [encEn, encCfg, regGet_regSet_same, bitAt, Nat.testBit_mod_two_pow, Nat.testBit_and, hmask]
  simp

/-! ### Compare units (R221, R222; log 34) -/

theorem cmpCtrlOp_of_disarm {v : Nat} (h : bitAt v 30 = true) (k : Nat) (s : State) :
    (cmpGet (cmpCtrlOp k v s) k).armed = false ∧ (cmpGet (cmpCtrlOp k v s) k).fired = (cmpGet s k).fired := by
  rw [cmpCtrlOp, if_pos h, cmpDisarmOp, cmpGet_cmpSet_same]
  split
  · rw [cmpArmOp, cmpGet_cmpSet_same]
    exact ⟨rfl, rfl⟩
  · exact ⟨rfl, rfl⟩

theorem cmpCtrlOp_of_arm {v : Nat} (harm : bitAt v 31 = true) (hdisarm : bitAt v 30 = false) (k : Nat) (s : State) :
    (cmpGet (cmpCtrlOp k v s) k).armed = true ∧ (cmpGet (cmpCtrlOp k v s) k).tgt = (cmpGet s k).tgt := by
  rw [cmpCtrlOp, if_neg (by simp [hdisarm])]
  split
  · rw [cmpArmOp, cmpGet_cmpSet_same]
    exact ⟨rfl, rfl⟩
  next h =>
    have harmed : (cmpGet s k).armed = true := by simpa [harm] using h
    exact ⟨harmed, rfl⟩

/-- A committed target is the unit's target, armed or not, and no other unit's. -/
theorem cmpCommit_target (k hi : Nat) (s : State) :
    (cmpGet (cmpCommit k hi s) k).tgt = hi % 65536 * 2 ^ 32 + regGet s (0x70508 + 0x20 * k) ∧
      (cmpGet (cmpCommit k hi s) k).armed = (cmpGet s k).armed ∧ ∀ j, j ≠ k → cmpGet (cmpCommit k hi s) j = cmpGet s j := by
  unfold cmpCommit
  dsimp only
  split
  · exact ⟨by simp, by simp, fun j hj => by rw [cmpGet_cmpSet_ne _ _ hj, cmpGet_cmpSet_ne _ _ hj]⟩
  · exact ⟨by simp, by simp, fun j hj => cmpGet_cmpSet_ne _ _ hj⟩

/-- Settles O36: the write of each register comes to one operation on its channel or unit. -/
theorem encoderRegisters : Obligations.EncoderRegisters := by
  intro s n v
  refine ⟨fun hreach => ?_, fun hreach hscale => ?_, fun hreach => ⟨?_, ?_⟩, fun hreach hhalf => ?_⟩
  · exact ⟨_, write_encPresetLoad n v hreach, fun ⟨hn, hlive⟩ => encGet_presetHi_of_live hn hlive _,
      fun hfree => encGet_presetHi_of_not_live hfree _, presetHi_only _ _ _⟩
  · have hen := encEn_regSet s n v.toNat
    refine ⟨_, write_encChannelEnable n v hscale hreach, ?_, ?_, ?_, ?_, ?_⟩
    · rw [← hen]
      exact congrArg (bitAt · 0) (regGet_congr (same_regs (encEnable_only _ _ _) rfl) _)
    · exact (does_encEnable _ _ (does_regSet _ _ (Does.refl { regs := true, enc := true } s) rfl) rfl).only
    · intro hon hwas
      rw [hwas, encEnable_of_stays_on (hen.trans hon), regSet_enc]
    · intro hon hwas
      rw [hwas, encEnable_of_on (hen.trans hon), encGet_encSet_same, encGet_regSet]
    · intro hoff
      rw [encEnable_of_off (hen.trans hoff), encGet_encSet_same, encGet_regSet]
  · exact ⟨_, write_cmpDisarm n v hreach, cmpCtrlOp_of_disarm (bitAt_setBit_same _ _) _ _⟩
  · have hdisarm : bitAt (setBit (clearBit v.toNat 30) 31) 30 = false := by
      rw [bitAt_setBit_of_lt (by decide), bitAt_clearBit_same]
    exact ⟨_, write_cmpArm n v hreach, cmpCtrlOp_of_arm (bitAt_setBit_same _ _) hdisarm _ _⟩
  · obtain ⟨htgt, harmed, hothers⟩ := cmpCommit_target n v.toNat (regSet s (0x7050C + 0x20 * n) (v.toNat % 65536))
    have hlow : regGet (regSet s (0x7050C + 0x20 * n) (v.toNat % 65536)) (0x70508 + 0x20 * n) = regGet s (0x70508 + 0x20 * n) :=
      regGet_regSet_ne _ _ (by omega)
    have htake : takeHalf (0x70508 + 0x20 * n) s = s := by rw [takeHalf, hhalf]
    refine ⟨_, write_cmpTgtHi n v hreach, ?_⟩
    rw [htake]
    exact ⟨by rw [htgt, hlow], harmed, hothers⟩

end Sys2Proof.Machine
end

section
/-! PROOFS. Calibration (R224 to R231): windows that close, slews that end, and the operations of CAL_ENC. -/

namespace Sys2Proof.Machine

/-! ### Accepted coefficients (R227, R229) -/

theorem encGet_applyCoef_of_frozen {s : State} {n : Nat} (hfreeze : bitAt (calCtrl s n) 2 = true)
    (hstripe : stripeHolds s = true) (k : Coef) (cmd : Option Nat) :
    encGet (applyCoef n k cmd s) n = { encGet s n with heldCoef := some k } := by
  rw [applyCoef]
  dsimp only
  rw [if_pos ⟨hfreeze, hstripe⟩, encGet_calDone, encGet_encSet_same, encGet_calDone]

theorem applyCoef_of_free {s : State} {n : Nat} (hfree : ¬ (bitAt (calCtrl s n) 2 = true ∧ stripeHolds s = true)) (k : Coef)
    (cmd : Option Nat) : applyCoef n k cmd s =
      encSet (calDone (encGet s n).slewCmd n 0 s) n { encGet s n with slew := some ((encGet s n).coef, k, 0), slewCmd := cmd } := by
  rw [applyCoef]
  dsimp only
  rw [if_neg hfree, encGet_calDone]

theorem encGet_applyCoef_of_free {s : State} {n : Nat} (hfree : ¬ (bitAt (calCtrl s n) 2 = true ∧ stripeHolds s = true))
    (k : Coef) (cmd : Option Nat) :
    encGet (applyCoef n k cmd s) n = { encGet s n with slew := some ((encGet s n).coef, k, 0), slewCmd := cmd } := by
  rw [applyCoef_of_free hfree, encGet_encSet_same]

/-! ### A window that has counted its periods (R225 to R229) -/

/-- Channel `n` without the window that it has closed, the outcome noted. -/
def windowClosed (n outcome : Nat) (s : State) : State :=
  let s1 := encSet s n { encGet s n with window := none, measure := none }
  encSet s1 n { encGet s1 n with calLast := outcome }

@[simp] theorem encGet_windowClosed (n outcome : Nat) (s : State) :
    encGet (windowClosed n outcome s) n = { encGet s n with window := none, measure := none, calLast := outcome } := by
  simp [windowClosed]

section
variable {s : State} {n : Fin 4} {w : Window}

theorem execCalWindowClose_of_rejected {o : Nat} (hw : (encGet s n).window = some w) (hfull : w.periods ≤ w.counted)
    (hfit : fitWindow w = .inl o) : execCalWindowClose n s =
      ok (reopen n (cntEnc 5 (some n.val) 1 (calDone (encGet s n).measure n o (windowClosed n o s)))) := by
  unfold execCalWindowClose
  simp only [hw, if_neg (Nat.not_lt.2 hfull), hfit, windowClosed]

theorem execCalWindowClose_of_accepted {k : Coef} (hw : (encGet s n).window = some w) (hfull : w.periods ≤ w.counted)
    (hfit : fitWindow w = .inr k) : execCalWindowClose n s =
      ok (reopen n (cntEnc 4 (some n.val) 1 (applyCoef n k (encGet s n).measure
        (windowClosed n (if bitAt (calCtrl s n) 2 && stripeHolds s then 5 else 0) s)))) := by
  unfold execCalWindowClose
  simp only [hw, if_neg (Nat.not_lt.2 hfull), hfit, windowClosed]

/-- A rejection is the window's outcome. -/
theorem calWindowClose_rejects {o : Nat} (hw : (encGet s n).window = some w) (hfull : w.periods ≤ w.counted)
    (hfit : fitWindow w = .inl o) : ∃ t w', exec (.calWindowClose n) s = .next t ∧
      encGet t n = { encGet s n with window := w', measure := none, calLast := o } := by
  obtain ⟨w', hy⟩ := encGet_reopen n (cntEnc 5 (some n.val) 1 (calDone (encGet s n).measure n o (windowClosed n o s)))
  rw [encGet_cntEnc, encGet_calDone, encGet_windowClosed] at hy
  exact ⟨_, w', execCalWindowClose_of_rejected hw hfull hfit, hy⟩

/-- Under FREEZE accepted coefficients wait for the end of the stripe. -/
theorem calWindowClose_holds {k : Coef} (hw : (encGet s n).window = some w) (hfull : w.periods ≤ w.counted)
    (hfit : fitWindow w = .inr k) (hfreeze : bitAt (calCtrl s n) 2 = true) (hstripe : stripeHolds s = true) :
    ∃ t w', exec (.calWindowClose n) s = .next t ∧
      encGet t n = { encGet s n with window := w', measure := none, calLast := 5, heldCoef := some k } := by
  have hexec := execCalWindowClose_of_accepted hw hfull hfit
  rw [hfreeze, hstripe, Bool.and_self, if_pos rfl] at hexec
  obtain ⟨w', hy⟩ := encGet_reopen n (cntEnc 4 (some n.val) 1 (applyCoef n k (encGet s n).measure (windowClosed n 5 s)))
  rw [encGet_cntEnc, encGet_applyCoef_of_frozen (s := windowClosed n 5 s) hfreeze hstripe, encGet_windowClosed] at hy
  exact ⟨_, w', hexec, hy⟩

/-- Otherwise their slew begins. -/
theorem calWindowClose_slews {k : Coef} (hw : (encGet s n).window = some w) (hfull : w.periods ≤ w.counted)
    (hfit : fitWindow w = .inr k) (hfree : ¬ (bitAt (calCtrl s n) 2 = true ∧ stripeHolds s = true)) :
    ∃ t w', exec (.calWindowClose n) s = .next t ∧
      encGet t n = { encGet s n with window := w', measure := none, calLast := 0, slew := some ((encGet s n).coef, k, 0),
                                     slewCmd := (encGet s n).measure } := by
  have hexec := execCalWindowClose_of_accepted hw hfull hfit
  have houtcome : (bitAt (calCtrl s n) 2 && stripeHolds s) = false := by simpa using hfree
  rw [houtcome, if_neg Bool.false_ne_true] at hexec
  obtain ⟨w', hy⟩ := encGet_reopen n (cntEnc 4 (some n.val) 1 (applyCoef n k (encGet s n).measure (windowClosed n 0 s)))
  rw [encGet_cntEnc, encGet_applyCoef_of_free (s := windowClosed n 0 s) hfree, encGet_windowClosed] at hy
  exact ⟨_, w', hexec, hy⟩

end

/-! ### The end of a slew (R227, R228) -/

theorem reported_of_same {code cls : Nat} {s t u : State} (h : reported code cls s t) (hglb : u.glb = t.glb)
    (hslo : u.slo = t.slo) : reported code cls s u := by
  unfold reported at h ⊢
  rwa [hglb, hslo]

/-- Channel `n` with the coefficients of the slew that has ended in effect, counted and stamped. -/
def slewEnded (n : Nat) (k : Coef) (s : State) : State :=
  encSet s n { encGet s n with coef := k, slew := none, slewCmd := none, calCount := sat32 ((encGet s n).calCount + 1),
                               calSec := secOf (nowA s), calNs := nsOf (nowA s) }

@[simp] theorem encGet_slewEnded (n : Nat) (k : Coef) (s : State) :
    encGet (slewEnded n k s) n =
      { encGet s n with coef := k, slew := none, slewCmd := none, calCount := sat32 ((encGet s n).calCount + 1),
                        calSec := secOf (nowA s), calNs := nsOf (nowA s) } := encGet_encSet_same _ _ _

theorem execCalSlewEnd_of_done {s : State} {n : Fin 4} {a k : Coef} {i : Nat} (hslew : (encGet s n).slew = some (a, k, i))
    (hdone : 4096 ≤ i) : execCalSlewEnd n s =
      ok (reopen n (calDone (encGet s n).slewCmd n 0
        (raiseItems 0x0706 0 [(1, n), (4, sat32 ((encGet s n).calCount + 1))] (slewEnded n k s)))) := by
  unfold execCalSlewEnd
  simp only [hslew, if_neg (Nat.not_lt.2 hdone), slewEnded]

/-- At its end a slew's coefficients are in effect, and EV_ENC_CAL_APPLIED is raised. -/
theorem calSlewEnd_applies {s : State} {n : Fin 4} {a k : Coef} {i : Nat} (hslew : (encGet s n).slew = some (a, k, i))
    (hdone : 4096 ≤ i) : ∃ t w', exec (.calSlewEnd n) s = .next t ∧ reported 0x0706 0 s t ∧
      encGet t n = { encGet s n with coef := k, slew := none, slewCmd := none, calCount := sat32 ((encGet s n).calCount + 1),
                                     calSec := secOf (nowA s), calNs := nsOf (nowA s), window := w' } := by
  have hexec := execCalSlewEnd_of_done hslew hdone
  have hraised := raiseItems_reported 0x0706 0 [(1, n.val), (4, sat32 ((encGet s n).calCount + 1))] (slewEnded n k s)
  have hraise := encGet_raiseItems 0x0706 0 [(1, n.val), (4, sat32 ((encGet s n).calCount + 1))] (slewEnded n k s) n
  generalize raiseItems 0x0706 0 [(1, n.val), (4, sat32 ((encGet s n).calCount + 1))] (slewEnded n k s) = u at hexec hraised hraise
  obtain ⟨w', hy⟩ := encGet_reopen n (calDone (encGet s n).slewCmd n 0 u)
  rw [encGet_calDone, hraise, encGet_slewEnded] at hy
  have hafter := (does_reopen n (does_calDone (encGet s n).slewCmd n 0 (Does.refl
    { outs := true, hst := true, enc := true, obs := true } u) rfl) rfl).only
  exact ⟨_, w', hexec, reported_of_same hraised (same_glb hafter rfl) (same_slo hafter rfl), hy⟩

/-- Settles O39: the outcome of the fit, and whether FREEZE holds it, decide what becomes of the channel. -/
theorem calibrationWindows : Obligations.CalibrationWindows := by
  intro s n x
  refine ⟨fun w hw hfull => ?_, fun a k i hslew hdone => ?_⟩
  · cases hfit : fitWindow w with
    | inl o =>
      obtain ⟨t, w', hexec, hy⟩ := calWindowClose_rejects hw hfull hfit
      refine ⟨t, hexec, ?_⟩
      dsimp only
      rw [hy]
      refine ⟨rfl, rfl, ?_, nofun, nofun⟩
      rintro _ ⟨⟩
      exact ⟨rfl, rfl⟩
    | inr k =>
      by_cases hheld : bitAt (calCtrl s n) 2 = true ∧ stripeHolds s = true
      · obtain ⟨hfreeze, hstripe⟩ := hheld
        obtain ⟨t, w', hexec, hy⟩ := calWindowClose_holds hw hfull hfit hfreeze hstripe
        refine ⟨t, hexec, ?_⟩
        dsimp only
        rw [hy]
        refine ⟨rfl, rfl, nofun, fun _ _ hfree => absurd ⟨hfreeze, hstripe⟩ hfree, ?_⟩
        rintro _ ⟨⟩ - -
        exact ⟨rfl, rfl, rfl⟩
      · obtain ⟨t, w', hexec, hy⟩ := calWindowClose_slews hw hfull hfit hheld
        refine ⟨t, hexec, ?_⟩
        dsimp only
        rw [hy]
        refine ⟨rfl, rfl, nofun, ?_, fun _ _ hfreeze hstripe => absurd ⟨hfreeze, hstripe⟩ hheld⟩
        rintro _ ⟨⟩ -
        exact ⟨rfl, rfl⟩
  · obtain ⟨t, w', hexec, hreported, hy⟩ := calSlewEnd_applies hslew hdone
    refine ⟨t, hexec, ?_⟩
    dsimp only
    rw [hy]
    exact ⟨rfl, rfl, rfl, rfl, rfl, hreported⟩

end Sys2Proof.Machine
end

section
/-! PROOFS. The operations of CAL_ENC (R230, R231; log 63). -/

namespace Sys2Proof.Machine

/-! ### Work on one channel after another -/

/-- Channels set one after another, each to what the state before the first gives. -/
theorem foldl_encSet {f : State → Nat → State} {x : Nat → EncCh} {l : List Nat} (hl : l.Nodup) {s : State}
    (hf : ∀ u n, n ∈ l → changesOnly { enc := true } s u → encGet u n = encGet s n → f u n = encSet u n (x n)) :
    changesOnly { enc := true } s (l.foldl f s) ∧ (∀ m ∈ l, encGet (l.foldl f s) m = x m) ∧
      ∀ m, m ∉ l → encGet (l.foldl f s) m = encGet s m := by
  induction l generalizing s with
  | nil => exact ⟨rfl, nofun, fun m _ => rfl⟩
  | cons a l ih =>
    obtain ⟨ha, hl⟩ := List.nodup_cons.1 hl
    have hfirst : f s a = encSet s a (x a) := hf s a List.mem_cons_self rfl rfl
    have honly : changesOnly { enc := true } s (encSet s a (x a)) := rfl
    rw [List.foldl_cons, hfirst]
    obtain ⟨hframe, hin, hout⟩ := ih hl (s := encSet s a (x a)) fun u n hn hu hsame =>
      hf u n (List.mem_cons_of_mem a hn) (Eq.trans hu honly)
        (hsame.trans (encGet_encSet_ne s _ fun h => ha (h ▸ hn)))
    refine ⟨Eq.trans hframe honly, List.forall_mem_cons.2 ⟨?_, hin⟩, fun m hm => ?_⟩
    · rw [hout a ha, encGet_encSet_same]
    · obtain ⟨hne, hm⟩ := not_or.1 (mt List.mem_cons.2 hm)
      rw [hout m hm, encGet_encSet_ne s _ hne]

/-- Work on one channel after another reaches each channel once, where its own work finds it as it was. -/
theorem foldl_channel {α : Type} {f : State → α → State} {ch : α → Nat} {I : State → Prop} {R : α → EncCh → EncCh → Prop}
    (hI : ∀ a u, I u → I (f u a)) (hother : ∀ a u m, m ≠ ch a → encGet (f u a) m = encGet u m)
    (hown : ∀ a u, I u → R a (encGet u (ch a)) (encGet (f u a) (ch a))) {l : List α} (hl : (l.map ch).Nodup) {s : State}
    (hs : I s) : I (l.foldl f s) ∧ (∀ m, m ∉ l.map ch → encGet (l.foldl f s) m = encGet s m) ∧
      ∀ a ∈ l, R a (encGet s (ch a)) (encGet (l.foldl f s) (ch a)) := by
  induction l generalizing s with
  | nil => exact ⟨hs, fun m _ => rfl, nofun⟩
  | cons a l ih =>
    obtain ⟨ha, hl⟩ := List.nodup_cons.1 hl
    obtain ⟨hend, hout, hin⟩ := ih hl (hI a s hs)
    rw [List.foldl_cons]
    refine ⟨hend, fun m hm => ?_, List.forall_mem_cons.2 ⟨?_, fun b hb => ?_⟩⟩
    · obtain ⟨hne, hm⟩ := not_or.1 (mt List.mem_cons.2 hm)
      rw [hout m hm, hother a s m hne]
    · rw [hout _ ha]
      exact hown a s hs
    · have hne : ch b ≠ ch a := fun h => ha (h ▸ List.mem_map_of_mem hb)
      rw [← hother a s _ hne]
      exact hin b hb

/-! ### The timeout of a MEASURE -/

/-- What the timeout of command `id` makes of a channel that its MEASURE still runs on, and of one that it does not. -/
def TimesOut (id : Nat) (x y : EncCh) : Prop :=
  (x.measure = some id → y.measure = none ∧ y.calLast = 1 ∧ y.coef = x.coef) ∧ (x.measure ≠ some id → y = x)

/-- The windows of a MEASURE that still run end with outcome 1. -/
theorem calEncTimeout_ends (s : State) (id : Nat) : ∃ t, exec (.calEncTimeout id) s = .next t ∧
    ∀ n, n < 4 → TimesOut id (encGet s n) (encGet t n) := by
  refine ⟨_, rfl, fun n hn => ?_⟩
  refine (foldl_channel (ch := fun n : Nat => n) (I := fun _ => True) (R := fun _ => TimesOut id) (fun _ _ _ => trivial)
    (fun a u m hm => ?_) (fun a u _ => ?_) (by decide) trivial).2.2 n (List.mem_range.2 hn)
  · dsimp only
    split
    · rw [encGet_calDone, encGet_reopen_ne hm, encGet_encSet_ne _ _ hm]
    · rfl
  · dsimp only
    split
    next hruns =>
      obtain ⟨w, hy⟩ := encGet_reopen a (encSet u a { encGet u a with window := none, measure := none, calLast := 1 })
      rw [encGet_calDone, hy, encGet_encSet_same]
      exact ⟨fun _ => ⟨rfl, rfl, rfl⟩, fun hother => absurd hruns hother⟩
    next hother => exact ⟨fun hruns => absurd hruns hother, fun _ => rfl⟩

/-! ### The start of an operation -/

theorem mem_calNames (c : Cmd) (n : Nat) : n ∈ calNames c ↔ n < 4 ∧ bitAt (c.p 0 1) n = true := by
  rw [calNames, List.mem_filter, List.mem_range]

theorem calNames_nodup (c : Cmd) : (calNames c).Nodup := List.nodup_range.filter _

theorem encGet_calOpen (id : Nat) (c : Cmd) (s : State) (n : Nat) : encGet (calOpen id c s) n = encGet s n := encGet_congr rfl n

theorem calOpen_only (id : Nat) (c : Cmd) (s : State) : changesOnly { hst := true, enc := true } s (calOpen id c s) :=
  (does_calOpen id c (Does.refl _ s) rfl).only

/-- The started CAL_ENC `id` names channels that exist, and none of them is busy with another. -/
structure CalStarts (s : State) (id : Nat) (c : Cmd) : Prop where
  cmd : cmdOp s id 0x0A = some c
  ready : s.glb.encOk = true
  reserved : c.reserved 0x14 = false
  names : 0 < c.p 0 1
  four : c.p 0 1 < 16
  idle : ∀ n, n < 4 → (encGet s n).measure = none ∧ (encGet s n).slewCmd = none

/-- From `s` to `t` the channels that the command names have become what `x` gives, and the others stand. -/
def NamedBecome (c : Cmd) (x : Nat → EncCh) (s t : State) : Prop :=
  changesOnly { hst := true, enc := true } s t ∧ ∀ n, n < 4 →
    (bitAt (c.p 0 1) n = true → encGet t n = x n) ∧ (bitAt (c.p 0 1) n = false → encGet t n = encGet s n)

section
variable {s : State} {id : Nat} {c : Cmd}

theorem calCheck_of_starts (h : CalStarts s id c) : calCheck s c false = 0 := by
  have hbusy : (calNames c).any (fun n => (encGet s n).measure.isSome) = false := by
    rw [List.any_eq_false]
    intro n hn
    rw [(h.idle n ((mem_calNames c n).1 hn).1).1]
    exact Bool.false_ne_true
  simp [calCheck, h.ready, h.reserved, hbusy, Nat.not_le.2 h.four, Nat.ne_of_gt h.names]

/-- Channels set one after another as a command opens. -/
theorem namedBecome_of_foldl {f : State → Nat → State} {x : Nat → EncCh} (id : Nat)
    (hf : ∀ u n, n < 4 → changesOnly { hst := true, enc := true } s u → encGet u n = encGet s n → f u n = encSet u n (x n)) :
    NamedBecome c x s ((calNames c).foldl f (calOpen id c s)) := by
  obtain ⟨honly, hin, hout⟩ := foldl_encSet (f := f) (x := x) (calNames_nodup c) (s := calOpen id c s) fun u n hn hu hsame =>
    hf u n ((mem_calNames c n).1 hn).1 (Eq.trans (blank_mono (F := { hst := true, enc := true }) rfl hu) (calOpen_only id c s))
      (hsame.trans (encGet_calOpen id c s n))
  refine ⟨Eq.trans (blank_mono (F := { hst := true, enc := true }) rfl honly) (calOpen_only id c s), fun n hn => ⟨fun hnamed => ?_, fun hother => ?_⟩⟩
  · exact hin n ((mem_calNames c n).2 ⟨hn, hnamed⟩)
  · rw [hout n fun hmem => Bool.false_ne_true (hother.symm.trans ((mem_calNames c n).1 hmem).2), encGet_calOpen]

/-! ### MEASURE -/

theorem calPeriods_congr {s t : State} (h : t.regs = s.regs) (n : Nat) : calPeriods t n = calPeriods s n := by
  rw [calPeriods, calCtrl, regGet_congr h]
  rfl

theorem calEncMeasure_opens (h : CalStarts s id c) (hop : c.p 1 1 = 1) (hper : c.p 2 2 = 0 ∨ 64 ≤ c.p 2 2) (hpos : 0 < c.p 4 4)
    (hlong : c.p 4 4 ≤ 60000) : ∃ t, exec (.calEncMeasure id) s = .next t ∧ NamedBecome c (fun n =>
      { encGet s n with window := some { periods := if c.p 2 2 = 0 then calPeriods s n else c.p 2 2 }, measure := some id }) s t := by
  have hbad : (decide (c.p 1 1 ≠ 1) || (decide (c.p 2 2 ≠ 0) && decide (c.p 2 2 < 64)) || c.p 4 4 == 0 || decide (c.p 4 4 > 60000)) = false := by
    simp only [Bool.or_eq_false_iff, Bool.and_eq_false_iff, decide_eq_false_iff_not, beq_eq_false_iff_ne]
    omega
  have hexec : execCalEncMeasure id s = ok ((calNames c).foldl (fun s n =>
      encSet s n { encGet s n with window := some { periods := if c.p 2 2 = 0 then calPeriods s n else c.p 2 2 }, measure := some id })
      (calOpen id c s)) := by
    unfold execCalEncMeasure
    rw [h.cmd]
    dsimp only
    rw [if_neg (by omega), hbad, calCheck_of_starts h, if_neg (not_not.2 rfl)]
  refine ⟨_, hexec, namedBecome_of_foldl id fun u n _ hu hsame => ?_⟩
  rw [hsame, calPeriods_congr (same_regs hu rfl)]

/-! ### STORE -/

theorem startJobWord_map {β : Type} {f : GrnJob → β} (hf : ∀ s j, f (layOut s j) = f j) (s : State) :
    (startJobWord s).grn.jobs.map f = s.grn.jobs.map f := by
  unfold startJobWord
  split
  · rfl
  next j rest hj =>
    extract_lets j' g u
    have hu : u.grn.jobs.map f = s.grn.jobs.map f := by simp [u, j', hj, hf]
    split
    · exact hu
    · split <;> exact hu

/-- A job that is laid out keeps its kind and its channels. -/
theorem layOut_kind_names (s : State) (j : GrnJob) : ((layOut s j).kind, (layOut s j).names) = (j.kind, j.names) := by
  unfold layOut
  split <;> rfl

theorem mem_queueJob (j : GrnJob) (s : State) : ∃ j' ∈ (queueJob j s).grn.jobs, j'.kind = j.kind ∧ j'.names = j.names := by
  have hmap : (queueJob j s).grn.jobs.map (fun j => (j.kind, j.names)) = (s.grn.jobs ++ [j]).map fun j => (j.kind, j.names) :=
    startJobWord_map layOut_kind_names _
  have hmem : (j.kind, j.names) ∈ (queueJob j s).grn.jobs.map fun j => (j.kind, j.names) := by
    rw [hmap]
    exact List.mem_map_of_mem (f := fun j : GrnJob => (j.kind, j.names)) (List.mem_append_right _ List.mem_cons_self)
  obtain ⟨j', hj', heq⟩ := List.mem_map.1 hmem
  exact ⟨j', hj', congrArg Prod.fst heq, congrArg Prod.snd heq⟩

theorem calEncStore_queues (h : CalStarts s id c) (hop : c.p 1 1 = 2) (hloaded : s.grn.loaded = true) :
    ∃ t, exec (.calEncStore id) s = .next t ∧ changesOnly { hst := true, grn := true } s t ∧
      ∃ j, t.grn.jobs.map GrnJob.cmd = s.grn.jobs.map GrnJob.cmd ++ [some id] ∧ j ∈ t.grn.jobs ∧ j.kind = 2 ∧ j.names = c.p 0 1 := by
  have hexec : ∃ j : GrnJob, j.cmd = some id ∧ j.kind = 2 ∧ j.names = c.p 0 1 ∧
      execCalEncStore id s = ok (queueJob j (cmdRun id s)) := by
    unfold execCalEncStore
    rw [h.cmd]
    dsimp only
    rw [if_neg (not_not.2 hop), calCheck_of_starts h, if_neg (not_not.2 rfl), if_neg (not_not.2 hloaded)]
    exact ⟨_, rfl, rfl, rfl, rfl⟩
  obtain ⟨j, hcmd, hkind, hnames, hexec⟩ := hexec
  obtain ⟨j', hj', hkind', hnames'⟩ := mem_queueJob j (cmdRun id s)
  refine ⟨_, hexec, (does_queueJob j (does_cmdRun id (Does.refl _ s) rfl) rfl).only, j', ?_, hj', hkind'.trans hkind, hnames'.trans hnames⟩
  rw [queueJob_cmds, hcmd]
  rfl

/-! ### LOAD and RESTORE -/

/-- Where no stripe freezes them, the coefficients of the channels named slew in. -/
theorem slews_named (h : CalStarts s id c) (hfree : ∀ n, n < 4 → bitAt (calCtrl s n) 2 = false) {k : State → Nat → Coef}
    (hk : ∀ u n, u.grn = s.grn → k u n = k s n) :
    NamedBecome c (fun n => { encGet s n with slew := some ((encGet s n).coef, k s n, 0), slewCmd := some id }) s
      ((calNames c).foldl (fun u n => applyCoef n (k u n) (some id) u) (calOpen id c s)) := by
  refine namedBecome_of_foldl id fun u n hn hu hsame => ?_
  have hctrl : bitAt (calCtrl u n) 2 = false := by
    rw [calCtrl, regGet_congr (same_regs hu rfl)]
    exact hfree n hn
  rw [applyCoef_of_free (fun hheld => Bool.false_ne_true (hctrl.symm.trans hheld.1)), hsame, (h.idle n hn).2,
    hk u n (same_grn hu rfl)]
  rfl

theorem calEncLoad_slews (h : CalStarts s id c) (hop : c.p 1 1 = 3) (hfree : ∀ n, n < 4 → bitAt (calCtrl s n) 2 = false)
    (hgc : 0 < (loadCoef c).gc) (hgs : 0 < (loadCoef c).gs) (hpa : 0x4000 ≤ (loadCoef c).pa) (hpa' : (loadCoef c).pa ≤ 0x4242)
    (hpb : -4390 ≤ (loadCoef c).pb) (hpb' : (loadCoef c).pb ≤ 4390) :
    ∃ t, exec (.calEncLoad id) s = .next t ∧ NamedBecome c (fun n =>
      { encGet s n with slew := some ((encGet s n).coef, loadCoef c, 0), slewCmd := some id }) s t := by
  refine ⟨_, ?_, slews_named h hfree (k := fun _ _ => loadCoef c) fun _ _ _ => rfl⟩
  show execCalEncLoad id s = _
  unfold execCalEncLoad
  rw [h.cmd]
  dsimp only
  rw [if_neg (not_not.2 hop), decide_eq_false (by omega), calCheck_of_starts h, if_neg (not_not.2 rfl)]
  rfl

/-- The stored coefficients are read from the granary alone. -/
theorem storedCoef_eq (s : State) (n : Nat) : storedCoef s n = storedCoef { grn := s.grn } n := rfl

theorem storedCoef_congr {s t : State} (h : t.grn = s.grn) (n : Nat) : storedCoef t n = storedCoef s n := by
  rw [storedCoef_eq, h, ← storedCoef_eq]

theorem calEncRestore_slews (h : CalStarts s id c) (hop : c.p 1 1 = 4) (hloaded : s.grn.loaded = true)
    (hcopy : (newestCopy s 2).1.isSome = true) (hfree : ∀ n, n < 4 → bitAt (calCtrl s n) 2 = false) :
    ∃ t, exec (.calEncRestore id) s = .next t ∧ NamedBecome c (fun n =>
      { encGet s n with slew := some ((encGet s n).coef, storedCoef s n, 0), slewCmd := some id }) s t := by
  refine ⟨_, ?_, slews_named h hfree (k := storedCoef) fun _ n hu => storedCoef_congr hu n⟩
  obtain ⟨r, hr⟩ := Option.isSome_iff_exists.1 hcopy
  show execCalEncRestore id s = _
  unfold execCalEncRestore
  rw [h.cmd]
  dsimp only
  rw [if_neg (not_not.2 hop), calCheck_of_starts h, if_neg (not_not.2 rfl), if_neg (not_not.2 hloaded), hr]
  rfl

end

/-- Settles O40: past the checks that the operations share, each is a fold over the channels named, or a store that is queued. -/
theorem calibrationCommands : Obligations.CalibrationCommands := by
  refine ⟨calEncTimeout_ends, fun s id c hcmd hready hres hnames hfour hidle => ?_⟩
  have h : CalStarts s id c := ⟨hcmd, hready, hres, hnames, hfour, hidle⟩
  exact ⟨calEncMeasure_opens h, calEncStore_queues h, calEncLoad_slews h, calEncRestore_slews h⟩

end Sys2Proof.Machine
end

section
/-! PROOFS. Encoder samples (R200 to R206): what a sample makes of its channel, and that nothing else which happens up to the next one
moves a count or settles a fault. -/

namespace Sys2Proof.Machine

/-! ### What stands of a channel between two samples -/

/-- What a sample decides of a channel: its count, the preset that waits, and whether its position is valid or has a tracking fault. -/
def EncCh.tracking (x : EncCh) : Nat × Option Nat × Bool × Bool := (x.count, x.preset, x.posValid, x.faulted)

theorem EncCh.tracking_eq_iff {x : EncCh} {count : Nat} {preset : Option Nat} {valid faulted : Bool} :
    x.tracking = (count, preset, valid, faulted) ↔
      x.count = count ∧ x.preset = preset ∧ x.posValid = valid ∧ x.faulted = faulted := by
  simp [EncCh.tracking]

/-- From `s` to `t` so many CK_ENC edges have passed, and the tracking of every channel stands. -/
structure EdgesPass (edges : Nat) (s t : State) : Prop where
  edge : t.enc.edge = s.enc.edge + edges
  tracking : ∀ n, (encGet t n).tracking = (encGet s n).tracking

namespace EdgesPass

variable {s t u : State} {a b : Nat}

theorem of_enc (h : t.enc = s.enc) : EdgesPass 0 s t :=
  ⟨by rw [h, Nat.add_zero], fun n => congrArg EncCh.tracking (encGet_congr (congrArg Enc.ch h) n)⟩

theorem of_only {F : Parts} (h : changesOnly F s t) (hF : F.enc = false := by rfl) : EdgesPass 0 s t := of_enc (same_enc h hF)

theorem refl (s : State) : EdgesPass 0 s s := of_enc rfl

theorem trans (h : EdgesPass a s t) (g : EdgesPass b t u) : EdgesPass (a + b) s u :=
  ⟨by rw [g.edge, h.edge, Nat.add_assoc], fun n => (g.tracking n).trans (h.tracking n)⟩

/-- Operations between two edges one after another. -/
theorem andThen (h : EdgesPass a s t) (g : EdgesPass 0 t u) : EdgesPass a s u := h.trans g

/-- An operation after an update of parts other than ENC. -/
theorem after_enc (g : EdgesPass 0 t u) (h : t.enc = s.enc) : EdgesPass 0 s u := (of_enc h).andThen g

theorem with_pac (h : EdgesPass a s t) (p : Pac) : EdgesPass a s { t with pac := p } := ⟨h.edge, h.tracking⟩

theorem ite {c : Prop} [Decidable c] (h : EdgesPass a s t) (g : EdgesPass a s u) : EdgesPass a s (if c then t else u) := by
  split <;> assumption

theorem foldl {α : Type} {f : State → α → State} (hf : ∀ x u, EdgesPass 0 u (f u x)) (l : List α) (s : State) :
    EdgesPass 0 s (l.foldl f s) := by
  induction l generalizing s with
  | nil => exact refl s
  | cons x l ih => exact (hf x s).andThen (ih _)

end EdgesPass

theorem encSet_edgesPass {s : State} {n : Nat} {x : EncCh} (h : x.tracking = (encGet s n).tracking) :
    EdgesPass 0 s (encSet s n x) := by
  refine ⟨rfl, fun m => ?_⟩
  by_cases hm : m = n
  · rw [hm, encGet_encSet_same, h]
  · rw [encGet_encSet_ne _ _ hm]

theorem calDone_edgesPass (cmd : Option Nat) (n outcome : Nat) (s : State) : EdgesPass 0 s (calDone cmd n outcome s) :=
  ⟨(calDone_enc cmd n outcome s).2, fun m => by rw [encGet_calDone]⟩

theorem raiseItems_edgesPass (code cls : Nat) (l : List (Nat × Nat)) (s : State) : EdgesPass 0 s (raiseItems code cls l s) :=
  .of_enc (raiseItems_enc _ _ _ _)

/-- The slews that the end of a stripe sets off move no count (R229). -/
theorem releaseCoefs_edgesPass (s : State) : EdgesPass 0 s (releaseCoefs s) := by
  refine EdgesPass.foldl (fun n u => ?_) _ _
  split
  · exact (calDone_edgesPass _ n 0 u).andThen (encSet_edgesPass rfl)
  · exact .refl u

/-! ### A stripe that a fault ends -/

/-- What an abort may touch before it releases the coefficients that wait. -/
def Parts.abort : Parts :=
  { Parts.events with units := true, pac := true, twn := true, tim := true, store := true }

theorem abortRunning_edgesPass (cause : Nat) (gc : Option Nat) (run gang : Bool) (s : State) :
    EdgesPass 0 s (abortRunning cause gc run gang s) := by
  unfold abortRunning
  split
  · exact .refl s
  next st hst =>
    split
    · exact .refl s
    · extract_lets limit nu shown
      split
      next x v a m =>
        extract_lets stop st' s1 s2 s3
        have h1 : Does Parts.abort s s1 := does_setStripe st' (Does.leaf (Does.refl Parts.abort s) rfl rfl) rfl
        have h2 : Does Parts.abort s s2 := does_closeCut false (does_raiseItems _ _ _ h1 rfl) rfl
        have h3 : Does Parts.abort s s3 := Does.ite (does_dxpSend _ _ _ h2 rfl) h2
        have h4 : Does Parts.abort s (if gang then gangAbort cause s3 else s3) := Does.ite (does_gangAbort cause h3 rfl) h3
        exact (EdgesPass.of_only h4.only).andThen (releaseCoefs_edgesPass _)

theorem discardStripe_edgesPass (keep : Bool) (status : Nat) (s : State) : EdgesPass 0 s (discardStripe keep status s) := by
  unfold discardStripe
  split
  · exact .refl s
  next st hst =>
    extract_lets s1 pac s2
    have hended : Does Parts.abort s (endAccount (dropStripe keep s)) := does_endAccount (does_dropStripe keep (Does.refl _ s) rfl) rfl
    have h1 : EdgesPass 0 s s1 := (EdgesPass.of_only hended.only).andThen (releaseCoefs_edgesPass _)
    have h2 : EdgesPass 0 s s2 := EdgesPass.ite (h1.with_pac _) h1
    have hdone := (does_completeOpt st.cmd status [] (Does.refl { outs := true, hst := true, obs := true } s2) rfl).only
    exact h2.andThen (.of_only hdone)

theorem abortOrDiscardFree_edgesPass (cause : Nat) (gang event : Bool) (s : State) :
    EdgesPass 0 s (abortOrDiscardFree cause gang event s) := by
  unfold abortOrDiscardFree drawFree abortOrDiscard
  have hdraw : EdgesPass 0 s { s with free := s.free + 1 } := .of_enc rfl
  dsimp only
  split
  · exact hdraw
  · refine EdgesPass.ite (hdraw.andThen (abortRunning_edgesPass _ _ _ _ _)) (EdgesPass.ite hdraw ?_)
    have hdiscard := hdraw.andThen (discardStripe_edgesPass false ((Config.freeValue s.free).toNat % 65536) _)
    exact EdgesPass.ite (hdiscard.andThen ((raiseItems_edgesPass _ _ _ _).after_enc rfl)) hdiscard

theorem encFaultStripe_edgesPass (before after : State) : EdgesPass 0 after (encFaultStripe before after) := by
  unfold encFaultStripe
  split
  · exact .refl after
  · extract_lets st1 s1
    have h1 : EdgesPass 0 after s1 := .of_enc rfl
    refine EdgesPass.ite (.of_enc rfl) (EdgesPass.ite (h1.andThen (abortRunning_edgesPass _ _ _ _ _)) (EdgesPass.ite ?_ h1))
    exact h1.andThen (abortOrDiscardFree_edgesPass _ _ _ _)

/-! ### What the readers of the positions do at an edge -/

theorem edgesAt_edgesPass (s : State) (n a b : Nat) : EdgesPass 0 s (edgesAt s n a b) := by
  unfold edgesAt
  exact EdgesPass.ite (.refl s) (encSet_edgesPass rfl)

theorem cmpSample_edgesPass (k pos : Nat) (s : State) : EdgesPass 0 s (cmpSample k pos s) := by
  unfold cmpSample
  have hset : ∀ x, EdgesPass 0 s (cmpSet s k x) := fun _ => ⟨rfl, fun _ => rfl⟩
  exact EdgesPass.ite ((hset _).andThen (raiseItems_edgesPass _ _ _ _)) (.refl s)

theorem targetAt_edgesPass (e pos : Nat) (s : State) : EdgesPass 0 s (targetAt e pos s) :=
  .of_only (does_targetAt e pos (Does.refl { outs := true, glb := true, hst := true, pac := true, slo := true, obs := true } s) rfl).only

theorem raiseOverrun_edgesPass (pos limit : Nat) (s : State) : EdgesPass 0 s (raiseOverrun pos limit s) :=
  .of_only (does_raiseOverrun pos limit
    (Does.refl { outs := true, glb := true, hst := true, pac := true, slo := true, obs := true } s) rfl).only

theorem limitCheck_edgesPass (pos : Nat) (s : State) : EdgesPass 0 s (limitCheck pos s) := by
  unfold limitCheck
  split
  · exact .refl s
  · have habort : ∀ limit, EdgesPass 0 s (abortRunning 2 none true true (raiseOverrun pos limit s)) := fun limit =>
      (raiseOverrun_edgesPass pos limit s).andThen (abortRunning_edgesPass _ _ _ _ _)
    exact EdgesPass.ite (.refl s) (EdgesPass.ite (habort _) (EdgesPass.ite (habort _) (.refl s)))

theorem crossCheck_edgesPass (p : List Nat) (s : State) : EdgesPass 0 s (crossCheck p s) := by
  unfold crossCheck
  split
  · exact .refl s
  next st hst =>
    refine EdgesPass.ite (.refl s) ?_
    extract_lets ctl tol dy dx s1
    have h1 : EdgesPass 0 s s1 := EdgesPass.ite ((raiseItems_edgesPass _ _ _ _).after_enc rfl) (.refl s)
    refine EdgesPass.ite ?_ h1
    split
    next st1 _ =>
      have h2 := h1.andThen ((raiseItems_edgesPass 0x0704 4 [(1, 0), (8, unsigned 64 dy)]
        (setStripe { st1 with failY := true } s1)).after_enc rfl)
      exact EdgesPass.ite (h2.andThen (abortRunning_edgesPass _ _ _ _ _)) h2
    next => exact h1

theorem encEdge_edgesPass (off : Nat) (prev : List Nat) (s : State) : EdgesPass 1 s (encEdge off prev s).2 := by
  unfold encEdge
  extract_lets now dir enc s0 s1 s2
  have h0 : EdgesPass 1 s s0 := ⟨rfl, fun _ => rfl⟩
  have h1 : EdgesPass 0 s0 s1 := EdgesPass.foldl (fun n u => EdgesPass.ite (edgesAt_edgesPass _ _ _ _) (.refl u)) _ _
  have h2 : EdgesPass 0 s1 s2 := EdgesPass.foldl (fun k u => cmpSample_edgesPass _ _ u) _ _
  exact (((((h0.andThen h1).andThen h2).andThen (targetAt_edgesPass _ _ _)).andThen (limitCheck_edgesPass _ _)).andThen
    (crossCheck_edgesPass _ _))

end Sys2Proof.Machine
end

section
/-! PROOFS. One sample of a channel (R200 to R206; logs 22 and 49). -/

namespace Sys2Proof.Machine

/-! ### Tracking faults (R206) -/

theorem encGet_trackFault (n cause : Nat) (s : State) :
    (encGet (trackFault n cause s) n).tracking = ((encGet s n).count, (encGet s n).preset, false, true) := by
  unfold trackFault
  extract_lets x r x1 x2
  obtain ⟨w, hy⟩ := encGet_reopen n (encSet s n x2)
  have h2 : x2.tracking = ((encGet s n).count, (encGet s n).preset, false, true) := by
    simp only [x2]
    split <;> rfl
  rw [encGet_raiseItems, encGet_calDone, hy, encGet_encSet_same]
  exact h2

theorem encGet_trackFault_ne {n m : Nat} (h : m ≠ n) (cause : Nat) (s : State) :
    encGet (trackFault n cause s) m = encGet s m := by
  unfold trackFault
  extract_lets x r x1 x2
  rw [encGet_raiseItems, encGet_calDone, encGet_reopen_ne h, encGet_encSet_ne _ _ h]

theorem reopen_edge (n : Nat) (s : State) : (reopen n s).enc.edge = s.enc.edge := by
  unfold reopen
  dsimp only
  split <;> rfl

theorem trackFault_edge (n cause : Nat) (s : State) : (trackFault n cause s).enc.edge = s.enc.edge := by
  unfold trackFault
  extract_lets x r x1 x2
  rw [raiseItems_enc, (calDone_enc _ _ _ _).2, reopen_edge]
  rfl

/-! ### The sample of one channel -/

/-- The corrected pair of a sample, with the coefficients of the slew that runs (R201, R227). -/
def EncCh.measured (x : EncCh) (p : EncPair) : Int × Int :=
  corrected (match x.slew with
    | some (a, b, i) => slewAt a b (min 4096 (i + 1))
    | none => x.coef) p

def EncCh.phase (x : EncCh) (p : EncPair) : Nat := phaseOf (x.measured p).1 (x.measured p).2

/-- The step of the phase; none at the first sample (R202). -/
def EncCh.turn (x : EncCh) (p : EncPair) : Int := match x.q with
  | some a => phaseStep a (x.phase p)
  | none => 0

/-- The fourth sample in a row outside the radius limits (R206). -/
def EncCh.SignalLost (x : EncCh) (p : EncPair) : Prop := radiusOk (x.measured p) = false ∧ 3 ≤ x.badRadius

/-- A sample is a tracking fault (R206). -/
def EncCh.Lost (x : EncCh) (p : EncPair) : Prop := x.SignalLost p ∨ 1536 ≤ x.turn p ∨ x.turn p ≤ -1536

/-- The count after a step of motion, modulo 2^48 (R202). -/
def EncCh.movedBy (x : EncCh) (inverted : Bool) (d : Int) : Nat :=
  (((x.count : Int) + (if inverted then -d else d)) % (2 ^ 48 : Int)).toNat

/-- What the first part of a sample leaves of the channel, and what it finds. -/
theorem sampleRaw_spec (x : EncCh) (p : EncPair) : ∃ x1 low, sampleRaw x p = (x1, low) ∧ x1.q = some (x.phase p) ∧
    (x1.badRadius = 0 ↔ radiusOk (x.measured p) = true) ∧ (low = true ↔ x.SignalLost p) ∧ x1.posValid = x.posValid ∧
    x1.faulted = x.faulted ∧ x1.preset = x.preset := by
  refine ⟨_, _, rfl, rfl, ?_, ?_, rfl, rfl, rfl⟩
  · show min 4 (if radiusOk (x.measured p) then 0 else x.badRadius + 1) = 0 ↔ _
    cases radiusOk (x.measured p) <;> simp
  · show decide ((if radiusOk (x.measured p) then 0 else x.badRadius + 1) ≥ 4) = true ↔ _
    unfold EncCh.SignalLost
    cases radiusOk (x.measured p) <;> simp

/-- The last part of a sample: a channel that has a fault stays as it is, and one whose sample is a fault is stopped. -/
def settleSample (n cause : Nat) (x : EncCh) (w : Option Window) (fault : Bool) (s : State) : State :=
  if x.faulted then encSet s n x
  else if fault then trackFault n cause (encSet s n x) else encSet s n { x with window := w }

theorem settleSample_spec {x : EncCh} {count : Nat} {preset : Option Nat} {valid faulted : Bool}
    (hx : x.tracking = (count, preset, valid, faulted)) (n cause : Nat) (w : Option Window) (fault : Bool) (s : State) :
    let y := encGet (settleSample n cause x w fault s) n
    y.count = count ∧ y.preset = preset ∧ y.posValid = (valid && (faulted || !fault)) ∧ y.faulted = (faulted || fault) := by
  obtain ⟨rfl, rfl, rfl, rfl⟩ := EncCh.tracking_eq_iff.1 hx
  unfold settleSample
  split
  next h => simp [h]
  next h =>
    have hf : x.faulted = false := by simpa using h
    split
    next hfault =>
      obtain ⟨hcount, hpreset, hvalid, hfaulted⟩ := EncCh.tracking_eq_iff.1 (encGet_trackFault n cause (encSet s n x))
      simp [hcount, hpreset, hvalid, hfaulted, hf, hfault]
    next hfault => simp [hf, hfault]

/-- What a sample that is taken makes of a channel, up to its last part: a preset that waits becomes the count, judged by the limits of
its sample (R205); the first sample sets the phase of its period; a later one moves the count, unless the channel has a fault or the
sample is one (R202, R206). -/
structure Counted (inverted fault : Bool) (p : EncPair) (x y : EncCh) : Prop where
  fault_iff : fault = true ↔ x.Lost p
  load : ∀ v, x.preset = some v → y.tracking = (v, none, !fault && radiusOk (x.measured p), x.faulted && fault)
  first : x.preset = none → x.q = none → y.tracking = (x.count / 4096 * 4096 + x.phase p, none, x.posValid, x.faulted)
  later : x.preset = none → x.q.isSome = true → y.tracking =
    (if x.faulted = true ∨ fault = true then x.count else x.movedBy inverted (x.turn p), none, x.posValid, x.faulted)

theorem sampleCh_of_off {s : State} {n : Nat} (hen : encEn s n = false) (p : EncPair) :
    ∃ y, sampleCh n p s = encSet s n y ∧ y.count = (encGet s n).count :=
  ⟨_, if_pos (by simp [hen]), rfl⟩

theorem sampleCh_of_on {s : State} {n : Nat} (hen : encEn s n = true) (p : EncPair) :
    ∃ (cause : Nat) (y : EncCh) (w : Option Window) (fault : Bool),
      sampleCh n p s = settleSample n cause y w fault s ∧ Counted (bitAt (encCfg s n) 1) fault p (encGet s n) y := by
  obtain ⟨x1, low, hraw, hq, hbad, hlow, hvalid, hfaulted, hpreset⟩ := sampleRaw_spec (encGet s n) p
  unfold sampleCh
  rw [if_neg (by simp [hen]), hraw]
  dsimp only
  refine ⟨_, _, _, _, rfl, ?fault, fun v hv => ?load, fun hnone hfirst => ?first, fun hnone hlater => ?later⟩
  case fault =>
    rw [hq]
    show (low || decide (1536 ≤ (encGet s n).turn p ∨ (encGet s n).turn p ≤ -1536)) = true ↔ _
    rw [Bool.or_eq_true, hlow, decide_eq_true_eq, EncCh.Lost]
  case load =>
    have hradius : (x1.badRadius == 0) = radiusOk ((encGet s n).measured p) := by rw [Bool.eq_iff_iff, beq_iff_eq, hbad]
    simp [hv, EncCh.tracking, EncCh.speedReset, hradius]
  case first => simp [hnone, hfirst, EncCh.tracking, hq, hvalid, hfaulted, hpreset]
  case later =>
    obtain ⟨a, ha⟩ := Option.isSome_iff_exists.1 hlater
    simp [hnone, ha, EncCh.tracking, EncCh.movedBy, EncCh.turn, hq, hvalid, hfaulted, hpreset]

/-- What a sample makes of a channel, `on` saying whether it is enabled and `inverted` whether its sign is turned. -/
structure Sampled (on inverted : Bool) (p : EncPair) (x y : EncCh) : Prop where
  off : on = false → y.count = x.count
  load : ∀ v, on = true → x.preset = some v → y.count = v ∧ y.preset = none ∧
    (y.posValid = true ↔ ¬ x.Lost p ∧ radiusOk (x.measured p) = true) ∧ (y.faulted = true ↔ x.Lost p)
  first : on = true → x.preset = none → x.q = none → y.count = x.count / 4096 * 4096 + x.phase p
  first_fault : on = true → x.preset = none → x.q = none → x.faulted = false → (y.faulted = true ↔ x.SignalLost p)
  stopped : on = true → x.preset = none → x.q.isSome = true → x.faulted = true → y.count = x.count ∧ y.faulted = true
  later : on = true → x.preset = none → x.q.isSome = true → x.faulted = false →
    (¬ x.Lost p → y.count = x.movedBy inverted (x.turn p) ∧ y.faulted = false) ∧
    (x.Lost p → y.faulted = true ∧ y.posValid = false ∧ y.count = x.count)

/-- At a first sample the phase takes no step, so only the signal can be lost. -/
theorem EncCh.lost_of_first {x : EncCh} (h : x.q = none) (p : EncPair) : x.Lost p ↔ x.SignalLost p := by
  have hturn : x.turn p = 0 := by rw [EncCh.turn, h]
  simp [EncCh.Lost, hturn]

theorem Counted.sampled {inverted fault : Bool} {p : EncPair} {x y : EncCh} (h : Counted inverted fault p x y) (n cause : Nat)
    (w : Option Window) (s : State) : Sampled true inverted p x (encGet (settleSample n cause y w fault s) n) := by
  obtain ⟨hfault, hload, hfirst, hlater⟩ := h
  refine ⟨nofun, fun v _ hv => ?load, fun _ hnone hnew => ?first, fun _ hnone hnew hgood => ?first_fault,
    fun _ hnone hold hbad => ?stopped, fun _ hnone hold hgood => ?later⟩
  case load =>
    obtain ⟨hcount, hpreset, hvalid, hfaulted⟩ := settleSample_spec (hload v hv) n cause w fault s
    rw [hvalid, hfaulted, ← hfault]
    refine ⟨hcount, hpreset, ?_, ?_⟩ <;> cases fault <;> simp
  case first => exact (settleSample_spec (hfirst hnone hnew) n cause w fault s).1
  case first_fault =>
    obtain ⟨-, -, -, hfaulted⟩ := settleSample_spec (hfirst hnone hnew) n cause w fault s
    rw [hfaulted, hgood, Bool.false_or, hfault, EncCh.lost_of_first hnew]
  case stopped =>
    obtain ⟨hcount, -, -, hfaulted⟩ := settleSample_spec (hlater hnone hold) n cause w fault s
    exact ⟨hcount.trans (if_pos (.inl hbad)), by rw [hfaulted, hbad, Bool.true_or]⟩
  case later =>
    obtain ⟨hcount, -, hvalid, hfaulted⟩ := settleSample_spec (hlater hnone hold) n cause w fault s
    rw [hcount, hvalid, hfaulted, hgood, ← hfault]
    cases fault <;> simp

theorem sampleCh_sampled (n : Nat) (p : EncPair) (s : State) :
    Sampled (encEn s n) (bitAt (encCfg s n) 1) p (encGet s n) (encGet (sampleCh n p s) n) := by
  cases hen : encEn s n with
  | false =>
    obtain ⟨y, hsample, hcount⟩ := sampleCh_of_off hen p
    rw [hsample, encGet_encSet_same]
    exact ⟨fun _ => hcount, nofun, nofun, nofun, nofun, nofun⟩
  | true =>
    obtain ⟨cause, y, w, fault, hsample, hcounted⟩ := sampleCh_of_on hen p
    rw [hsample]
    exact hcounted.sampled n cause w s

end Sys2Proof.Machine
end

section
/-! PROOFS. ENC_SAMPLE (R200 to R206): one sample of every channel, and the four CK_ENC edges up to the next. -/

namespace Sys2Proof.Machine

/-! ### A sample of one channel leaves the others and the edge alone -/

theorem settleSample_edge (n cause : Nat) (x : EncCh) (w : Option Window) (fault : Bool) (s : State) :
    (settleSample n cause x w fault s).enc.edge = s.enc.edge := by
  unfold settleSample
  split
  · rfl
  · split
    · exact trackFault_edge _ _ _
    · rfl

theorem encGet_settleSample_ne {n m : Nat} (h : m ≠ n) (cause : Nat) (x : EncCh) (w : Option Window) (fault : Bool) (s : State) :
    encGet (settleSample n cause x w fault s) m = encGet s m := by
  unfold settleSample
  split
  · exact encGet_encSet_ne _ _ h
  · split
    · rw [encGet_trackFault_ne h, encGet_encSet_ne _ _ h]
    · exact encGet_encSet_ne _ _ h

theorem sampleCh_edge (n : Nat) (p : EncPair) (s : State) : (sampleCh n p s).enc.edge = s.enc.edge := by
  cases hen : encEn s n with
  | false =>
    obtain ⟨y, hsample, -⟩ := sampleCh_of_off hen p
    rw [hsample]
    rfl
  | true =>
    obtain ⟨cause, y, w, fault, hsample, -⟩ := sampleCh_of_on hen p
    rw [hsample, settleSample_edge]

theorem encGet_sampleCh_ne {n m : Nat} (h : m ≠ n) (p : EncPair) (s : State) : encGet (sampleCh n p s) m = encGet s m := by
  cases hen : encEn s n with
  | false =>
    obtain ⟨y, hsample, -⟩ := sampleCh_of_off hen p
    rw [hsample, encGet_encSet_ne _ _ h]
  | true =>
    obtain ⟨cause, y, w, fault, hsample, -⟩ := sampleCh_of_on hen p
    rw [hsample, encGet_settleSample_ne h]

theorem sampleCh_regs (n : Nat) (p : EncPair) (s : State) : (sampleCh n p s).regs = s.regs :=
  same_regs (does_sampleCh n p (Does.refl
    { outs := true, glb := true, hst := true, enc := true, slo := true, obs := true } s) rfl).only rfl

/-! ### One sample of every channel -/

/-- The state once every channel has taken its sample. -/
def sampleAll (p0 p1 p2 p3 : EncPair) (s : State) : State :=
  ([p0, p1, p2, p3].zipIdx).foldl (fun s (p, n) => sampleCh n p s) s

theorem sampleAll_samples (p0 p1 p2 p3 : EncPair) (s : State) : (sampleAll p0 p1 p2 p3 s).enc.edge = s.enc.edge ∧
    ∀ n : Fin 4, Sampled (encEn s n) (bitAt (encCfg s n) 1) ([p0, p1, p2, p3].getD n p0) (encGet s n)
      (encGet (sampleAll p0 p1 p2 p3 s) n) := by
  obtain ⟨⟨-, hedge⟩, -, hsampled⟩ := foldl_channel (f := fun (u : State) (a : EncPair × Nat) => sampleCh a.2 a.1 u)
    (ch := Prod.snd) (I := fun u => u.regs = s.regs ∧ u.enc.edge = s.enc.edge)
    (R := fun a => Sampled (encEn s a.2) (bitAt (encCfg s a.2) 1) a.1)
    (fun a u hu => ⟨(sampleCh_regs _ _ u).trans hu.1, (sampleCh_edge _ _ u).trans hu.2⟩)
    (fun a u m hm => encGet_sampleCh_ne hm _ u)
    (fun a u hu => by
      have hsample := sampleCh_sampled a.2 a.1 u
      rwa [encEn, encCfg, regGet_congr hu.1] at hsample)
    (l := [p0, p1, p2, p3].zipIdx) (s := s) (show [0, 1, 2, 3].Nodup by decide) ⟨rfl, rfl⟩
  refine ⟨hedge, fun n => hsampled (_, n.val) ?_⟩
  fin_cases n <;> simp

/-! ### Up to the next sample -/

/-- What follows the samples: a stripe that a fault ends (R232), and four edges for the readers of the positions. -/
def afterSamples (s s1 : State) : State :=
  frameFlow ([16, 17, 18, 19].foldl (fun (q : List Nat × State) off => encEdge off q.1 q.2)
    ((List.range 4).map (encPos s), encFaultStripe s s1)).2

theorem encEdges_edgesPass (offs : List Nat) (q : List Nat × State) :
    EdgesPass offs.length q.2 (offs.foldl (fun q off => encEdge off q.1 q.2) q).2 := by
  induction offs generalizing q with
  | nil => exact .refl q.2
  | cons off offs ih =>
    rw [List.length_cons, Nat.add_comm]
    exact (encEdge_edgesPass off q.1 q.2).trans (ih _)

theorem frameFlow_edgesPass (s : State) : EdgesPass 0 s (frameFlow s) :=
  .of_only (does_frameFlow (Does.refl { outs := true, swl := true, obs := true } s) rfl).only

theorem afterSamples_edgesPass (s s1 : State) : EdgesPass 4 s1 (afterSamples s s1) :=
  ((encFaultStripe_edgesPass s s1).trans (encEdges_edgesPass [16, 17, 18, 19] (_, encFaultStripe s s1))).andThen
    (frameFlow_edgesPass _)

theorem execEncSample_of_running {s : State} (hclocks : s.glb.clocksOk = true) (hfatal : s.glb.fatal = false)
    (p0 p1 p2 p3 : EncPair) : execEncSample p0 p1 p2 p3 s = ok (afterSamples s (sampleAll p0 p1 p2 p3 s)) :=
  if_neg (by simp [hclocks, hfatal])

theorem Sampled.of_tracking {on inverted : Bool} {p : EncPair} {x y z : EncCh} (h : Sampled on inverted p x y)
    (hz : z.tracking = y.tracking) : Sampled on inverted p x z := by
  obtain ⟨hcount, hpreset, hvalid, hfaulted⟩ := EncCh.tracking_eq_iff.1 hz
  obtain ⟨hoff, hload, hfirst, hfault, hstopped, hlater⟩ := h
  rw [← hcount, ← hpreset, ← hvalid, ← hfaulted] at *
  exact ⟨hoff, hload, hfirst, hfault, hstopped, hlater⟩

/-- Settles O37: the sample decides the tracking of its channel, and it stands until the next. -/
theorem encoderSamples : Obligations.EncoderSamples := by
  intro s p0 p1 p2 p3 n hclocks hfatal
  refine ⟨_, execEncSample_of_running hclocks hfatal p0 p1 p2 p3, ?_⟩
  obtain ⟨hedge, hsampled⟩ := sampleAll_samples p0 p1 p2 p3 s
  have hpass := afterSamples_edgesPass s (sampleAll p0 p1 p2 p3 s)
  obtain ⟨hoff, hload, hfirst, hfault, hstopped, hlater⟩ := (hsampled n).of_tracking (hpass.tracking n)
  exact ⟨by rw [hpass.edge, hedge], hoff, hload, hfirst, hfault, hstopped, hlater⟩

end Sys2Proof.Machine
end

section
/-! PROOFS. The groups of a stripe stand in rising order (R252, R253): what keeps the order, and the operations of Machine/Flags.lean and
Machine/Stripe.lean. -/

-- One theorem at a time, as under Laws/: the package as one text takes too much memory in many threads.
set_option Elab.async false

namespace Sys2Proof.Machine

/-- The groups of a stripe stand in rising order, each once. -/
def Stripe.Rises (st : Stripe) : Prop := (st.groups.map Prod.fst).Pairwise (· < ·)

/-- Every part of the state but the PAC block. -/
def Parts.besidePac : Parts where
  outs := true
  free := true
  pins := true
  glb := true
  regs := true
  latch := true
  halves := true
  hst := true
  chains := true
  chk := true
  units := true
  dos := true
  enc := true
  swl := true
  twn := true
  lft := true
  tim := true
  grn := true
  slo := true
  store := true
  obs := true
  readbacks := true

namespace Stripe.Rises

variable {st : Stripe}

/-- Groups that close leave the order of the others. -/
theorem filter (h : st.Rises) (p : Nat × Group → Bool) : ((st.groups.filter p).map Prod.fst).Pairwise (· < ·) :=
  h.sublist (List.filter_sublist.map Prod.fst)

/-- A change within the groups leaves their order. -/
theorem of_keys {st' : Stripe} (h : st.Rises) (e : st'.groups.map Prod.fst = st.groups.map Prod.fst) : st'.Rises := by
  unfold Rises
  rw [e]
  exact h

/-- A group goes to its place in the order. -/
theorem tput {t : Tbl Group} (h : (t.map Prod.fst).Pairwise (· < ·)) (j : Nat) (g : Group) :
    ((tput t j g).map Prod.fst).Pairwise (· < ·) := by
  rw [List.pairwise_map] at h ⊢
  exact tput_sorted j g h

end Stripe.Rises

namespace GroupsRise

variable {s t : State}

/-! ### What keeps the order -/

theorem stripe (h : GroupsRise s) {st : Stripe} (hst : s.pac.stripe = some st) : st.Rises := h st hst

theorem of_stripe (h : GroupsRise s) (e : t.pac.stripe = s.pac.stripe) : GroupsRise t := fun st hst => h st (e ▸ hst)

/-- An update that leaves the stripe as it is. -/
theorem same (h : GroupsRise s) (e : t.pac.stripe = s.pac.stripe := by rfl) : GroupsRise t := h.of_stripe e

theorem of_none (e : s.pac.stripe = none) : GroupsRise s := fun st hst => by rw [e] at hst; cases hst

/-- A stripe whose groups are those of a stripe in order. -/
theorem of_some {st st' : Stripe} (h : st.Rises) (e : s.pac.stripe = some st') (hg : st'.groups = st.groups := by rfl) :
    GroupsRise s := fun u hu => by
  rw [e] at hu
  cases hu
  exact (congrArg (fun gs => (gs.map Prod.fst).Pairwise (· < ·)) hg).mpr h

theorem setStripe {st st' : Stripe} (h : st.Rises) (hg : st'.groups = st.groups := by rfl) : GroupsRise (setStripe st' s) :=
  of_some h rfl hg

theorem beside (h : GroupsRise s) (g : Does .besidePac s t) : GroupsRise t := h.of_stripe (by rw [same_pac g.only rfl])

theorem ite {c : Prop} [Decidable c] (h : GroupsRise s) (g : GroupsRise t) : GroupsRise (if c then s else t) := by
  split <;> assumption

theorem foldl {α : Type} {f : State → α → State} (h : GroupsRise s) (hf : ∀ x u, GroupsRise u → GroupsRise (f u x)) (l : List α) :
    GroupsRise (l.foldl f s) := by
  induction l generalizing s with
  | nil => exact h
  | cons x l ih => exact ih (hf x s h)

/-! ### Operations that leave the PAC block alone -/

theorem drawFree (h : GroupsRise s) : GroupsRise (drawFree s).2 := h

theorem raise (h : GroupsRise s) (code cls : Nat) (p : List Byte) : GroupsRise (raise code cls p s) :=
  h.beside (does_raise code cls p (.refl _ _) rfl)

theorem raiseItems (h : GroupsRise s) (code cls : Nat) (l : List (Nat × Nat)) : GroupsRise (raiseItems code cls l s) :=
  h.raise _ _ _

theorem complete (h : GroupsRise s) (id status : Nat) (data : List Byte) : GroupsRise (complete id status data s) :=
  h.beside (does_complete id status data (.refl _ _) rfl)

theorem completeOpt (h : GroupsRise s) (id : Option Nat) (status : Nat) (data : List Byte) :
    GroupsRise (completeOpt id status data s) :=
  h.beside (does_completeOpt id status data (.refl _ _) rfl)

theorem dxpSend (h : GroupsRise s) (ty arg : Nat) (p : List Nat) : GroupsRise (dxpSend ty arg p s) :=
  h.beside (does_dxpSend ty arg p (.refl _ _) rfl)

theorem releaseCoefs (h : GroupsRise s) : GroupsRise (releaseCoefs s) := h.beside (does_releaseCoefs (.refl _ _) rfl)

/-! ### Make-up records and the accounts (R159, R271 to R273, R482) -/

theorem pushRecord (h : GroupsRise s) (r : MkRec) : GroupsRise (pushRecord r s) := by
  unfold Machine.pushRecord
  extract_lets r' full ms s1 s2 s3
  have h2 : GroupsRise s2 := GroupsRise.raise h.same _ _ _
  have h3 : GroupsRise s3 := ite (h2.raiseItems _ _ _) h2
  clear_value s3
  split
  next st hst => exact of_some (h3.stripe hst) rfl
  next => exact h3

theorem raiseLoss (h : GroupsRise s) (a : Account) (r : MkRec) : GroupsRise (raiseLoss a r s) :=
  h.foldl (fun _ _ hu => ite (hu.pushRecord _) hu) _

theorem raiseStripeLoss (h : GroupsRise s) (r : MkRec) : GroupsRise (raiseStripeLoss r s) := by
  unfold Machine.raiseStripeLoss
  split
  · exact h.raiseLoss _ _
  · exact h

theorem closeRun (h : GroupsRise s) (a : Account) (l : Nat) (x : LaneAcc) : GroupsRise (closeRun a l x s).2 := by
  unfold Machine.closeRun
  split
  · exact h
  · exact h.raiseLoss _ _

theorem drainLane (h : GroupsRise s) (a : Account) (l n : Nat) (x : LaneAcc) : GroupsRise (drainLane a l n x s).2 := by
  induction n generalizing x s with
  | zero => exact h
  | succ n ih =>
    unfold Machine.drainLane
    split
    · split
      · exact h.closeRun _ _ _
      · exact h
    · exact h
    · extract_lets x1
      split
      · exact ih (h.closeRun _ _ _) _
      · split
        · split
          · exact ih h _
          · exact ih (h.closeRun _ _ _) _
        · exact ih h _

theorem accLane (h : GroupsRise s) (a : Account) (l : Nat) (f : Nat × FrameFate × Bool → Nat × FrameFate × Bool) :
    GroupsRise (accLane a l f s).2 := by
  unfold Machine.accLane
  exact h.drainLane a l _ _

theorem settleLane (h : GroupsRise s) (cur : Bool) (l : Nat) (f : Nat × FrameFate × Bool → Nat × FrameFate × Bool) :
    GroupsRise (settleLane cur l f s) := by
  unfold Machine.settleLane
  split
  · exact h
  next a _ =>
    refine (h.accLane a l f).of_stripe ?_
    cases cur <;> rfl

theorem settleAll (h : GroupsRise s) : GroupsRise (settleAll s) :=
  h.foldl (fun _ _ hu => (hu.settleLane _ _ _).settleLane _ _ _) _

theorem endAccount (h : GroupsRise s) : GroupsRise (endAccount s) := by
  unfold Machine.endAccount
  split
  · exact h
  · exact settleAll h

/-! ### The end of a stripe (R187, R188, R197, R309) -/

theorem dropStripe (s : State) (keep : Bool) : GroupsRise (dropStripe keep s) := of_none (dropStripe_stripe keep s)

theorem discardStripe (h : GroupsRise s) (keep : Bool) (status : Nat) : GroupsRise (discardStripe keep status s) := by
  unfold Machine.discardStripe
  split
  · exact h
  · extract_lets s1 pac s2
    have h1 : GroupsRise s1 := (dropStripe s keep).endAccount.releaseCoefs
    have h2 : GroupsRise s2 := ite h1 h1
    exact h2.completeOpt _ _ _

theorem closeCut (h : GroupsRise s) (rest : Bool) : GroupsRise (closeCut rest s) := by
  unfold Machine.closeCut
  split
  · exact h
  next st hst =>
    split
    · exact h
    · extract_lets nu pac s1
      have h1 : GroupsRise s1 := setStripe (h.stripe hst)
      exact ite h (ite (h1.raiseStripeLoss _) h1)

theorem abortRunning (h : GroupsRise s) (cause : Nat) (gc : Option Nat) (run gang : Bool) :
    GroupsRise (abortRunning cause gc run gang s) := by
  unfold Machine.abortRunning
  split
  · exact h
  next st hst =>
    refine ite h ?_
    extract_lets limit nu shown
    split
    next x v a m =>
      extract_lets stop st' s1 s2 s3
      have h1 : GroupsRise s1 := setStripe (st := st') ((h.stripe hst).filter _)
      have h2 : GroupsRise s2 := (h1.raiseItems _ _ _).closeCut _
      have h3 : GroupsRise s3 := ite (h2.dxpSend _ _ _) h2
      exact (ite (h3.beside (does_gangAbort _ (.refl _ _) rfl)) h3).releaseCoefs

theorem widenAbort (h : GroupsRise s) (gc : Nat) : GroupsRise (widenAbort gc s) := by
  unfold Machine.widenAbort
  split
  · exact h
  next st hst =>
    split
    · exact ite (setStripe (h.stripe hst)) h
    · exact h

theorem abortFault (h : GroupsRise s) : GroupsRise (abortFault s) := h.abortRunning _ _ _ _

theorem abortOrDiscard (h : GroupsRise s) (cause : Nat) (gang event : Bool) (armStatus : Nat) :
    GroupsRise (abortOrDiscard cause gang event armStatus s) := by
  unfold Machine.abortOrDiscard
  split
  · exact h
  · refine ite (h.abortRunning _ _ _ _) (ite h ?_)
    extract_lets s1
    have h1 : GroupsRise s1 := h.discardStripe false armStatus
    exact ite (raiseItems h1.same _ _ _) h1

theorem abortOrDiscardFree (h : GroupsRise s) (cause : Nat) (gang event : Bool) :
    GroupsRise (abortOrDiscardFree cause gang event s) := h.drawFree.abortOrDiscard _ _ _ _

theorem closeLate (h : GroupsRise s) : GroupsRise (closeLate s) := by
  unfold Machine.closeLate
  split
  · exact h
  next st hst =>
    split
    · exact h
    · have h1 : GroupsRise (Machine.setStripe { st with lateRun := none } s) := setStripe (h.stripe hst)
      exact ite (h1.raiseStripeLoss _) h1

theorem fatalBy (h : GroupsRise s) (hk : Bool) (cause unit fatalStatus : Nat) : GroupsRise (fatalBy hk cause unit fatalStatus s) := by
  unfold Machine.fatalBy
  refine ite h ?_
  split
  extract_lets s1 s2 s3 glb pins pac swl hst twn chk tim obs s4
  have h4 : GroupsRise s4 := of_none rfl
  exact (h4.beside (does_fatalTable _ (.refl _ _) rfl)).foldl (fun _ _ hu => hu.complete _ _ _) _

theorem goFatal (h : GroupsRise s) (cause unit fatalStatus : Nat) : GroupsRise (goFatal cause unit fatalStatus s) :=
  h.fatalBy _ _ _ _

end GroupsRise

end Sys2Proof.Machine
end

section
/-! PROOFS. The order of the groups under the operations of Machine/Encoder.lean, Machine/Ring.lean, Machine/HostRows.lean and
Machine/Admission.lean. -/

-- One theorem at a time, as under Laws/: the package as one text takes too much memory in many threads.
set_option Elab.async false

namespace Sys2Proof.Machine

/-- Every next state that an outcome gives has its groups in order. -/
def NextRises (o : Host.Outcome State Fault Refusal) : Prop := ∀ t, o = .next t → GroupsRise t

namespace NextRises

variable {s t : State} {o o' : Host.Outcome State Fault Refusal}

theorem ok (h : GroupsRise t) : NextRises (ok t) := fun _ e => by cases e; exact h

theorem ite {c : Prop} [Decidable c] (h : NextRises o) (g : NextRises o') : NextRises (if c then o else o') := by
  split <;> assumption

theorem withLen (h : GroupsRise t) (b : List Byte) (n : Nat) : NextRises (withLen b n t) := by
  unfold Machine.withLen
  exact ite (ok h) (fun _ e => by cases e)

/-- A row that leaves the PAC block alone. -/
theorem beside (h : GroupsRise s) (g : DoesO .besidePac s o) : NextRises o := fun t e => h.beside (g t e)

end NextRises

namespace GroupsRise

variable {s t : State}

/-! ### Readers of the positions (R186, R213, R216, R218, R232) -/

theorem slotCompare_groups (e pos : Nat) (down : Bool) (st : Stripe) : (slotCompare e pos down st).groups = st.groups := by
  unfold slotCompare
  split_ifs <;> rfl

theorem targetAt (h : GroupsRise s) (e pos : Nat) : GroupsRise (targetAt e pos s) := by
  unfold Machine.targetAt
  split
  · exact h
  next st0 hst =>
    extract_lets st below s1
    have h1 : GroupsRise s1 := setStripe (h.stripe hst) (slotCompare_groups _ _ _ _)
    exact ite (h1.raiseItems _ _ _) h1

theorem raiseOverrun (h : GroupsRise s) (pos limit : Nat) : GroupsRise (raiseOverrun pos limit s) := by
  unfold Machine.raiseOverrun
  split
  · exact h
  next st hst => exact ite h (raiseItems (setStripe (h.stripe hst)) _ _ _)

theorem limitCheck (h : GroupsRise s) (pos : Nat) : GroupsRise (limitCheck pos s) := by
  unfold Machine.limitCheck
  split
  · exact h
  · have habort (limit : Nat) := (h.raiseOverrun pos limit).abortRunning 2 none true true
    exact ite h (ite (habort _) (ite (habort _) h))

theorem crossCheck (h : GroupsRise s) (p : List Nat) : GroupsRise (crossCheck p s) := by
  unfold Machine.crossCheck
  split
  · exact h
  next st hst =>
    refine ite h ?_
    extract_lets ctl tol dy dx s1
    have h1 : GroupsRise s1 := ite (raiseItems (setStripe (h.stripe hst)) _ _ _) h
    refine ite ?_ h1
    split
    next st1 hst1 =>
      have h2 : GroupsRise (Machine.raiseItems 0x0704 4 [(1, 0), (8, unsigned 64 dy)] (Machine.setStripe { st1 with failY := true } s1)) :=
        raiseItems (setStripe (h1.stripe hst1)) _ _ _
      exact ite h2.abortFault h2
    next => exact h1

theorem encFaultStripe (before : State) (h : GroupsRise s) : GroupsRise (encFaultStripe before s) := by
  unfold Machine.encFaultStripe
  split
  · exact h
  next st hst =>
    extract_lets st1 s1
    have h1 : GroupsRise s1 := setStripe (h.stripe hst)
    exact ite (setStripe (h.stripe hst)) (ite h1.abortFault (ite (h1.abortOrDiscardFree _ _ _) h1))

theorem encEdge (h : GroupsRise s) (off : Nat) (prev : List Nat) : GroupsRise (encEdge off prev s).2 := by
  unfold Machine.encEdge
  extract_lets now dir enc s0 s1 s2
  have h0 : GroupsRise s0 := h
  have h1 : GroupsRise s1 := h0.foldl (fun _ _ hu => ite (hu.beside (does_edgesAt _ _ _ (.refl _ _) rfl)) hu) _
  have h2 : GroupsRise s2 := h1.foldl (fun _ _ hu => hu.beside (does_cmpSample _ _ (.refl _ _) rfl)) _
  exact ((h2.targetAt _ _).limitCheck _).crossCheck _

/-! ### Bursts (R385 to R388, R487) -/

theorem hostLoftWrite (h : GroupsRise s) (c : Nat) (poison : Bool) (a : Nat) (bs : List Byte) :
    GroupsRise (hostLoftWrite c poison a bs s) := by
  unfold Machine.hostLoftWrite
  extract_lets s1
  have h1 : GroupsRise s1 := h.beside (does_loftWrite _ _ _ _ _ (.refl _ _) rfl)
  clear_value s1
  split
  · exact h1
  · exact ite h1 h1

theorem copyParts (h : GroupsRise s) (c : Nat) (x : Chain) (fuel src dst n : Nat) : GroupsRise (copyParts c x fuel src dst n s) := by
  induction fuel generalizing s src dst n with
  | zero => exact h
  | succ fuel ih =>
    unfold Machine.copyParts
    exact ite h (ih (h.hostLoftWrite _ _ _ _) _ _ _)

theorem storeCrc (h : GroupsRise s) (c : Nat) (d : Desc) : GroupsRise (storeCrc c d s) := by
  unfold Machine.storeCrc
  extract_lets x a crc at_ s1
  have h1 : GroupsRise s1 := h
  exact ite (ite (h1.hostLoftWrite _ _ _ _) (h1.beside (does_writeHost _ _ (.refl _ _) rfl))) h

theorem burstDone (h : GroupsRise s) (c n : Nat) (d : Desc) : GroupsRise (burstDone c n d s) := by
  unfold Machine.burstDone
  extract_lets x atEnd s1
  have h1 : GroupsRise s1 := h.beside (does_cntHst _ _ _ (does_chainSet _ _ (.refl _ _) rfl) rfl)
  exact ite (h1.beside (does_withdrawChain _ (.refl _ _) rfl)) (h1.storeCrc _ _)

theorem burstLanded (h : GroupsRise s) (c n : Nat) (d : Desc) : GroupsRise (burstLanded c n d s) := ite h (h.burstDone _ _ _)

theorem landBursts (h : GroupsRise s) : GroupsRise (landBursts s) := by
  refine h.foldl (fun c u hu => ?_) _
  dsimp only
  split
  · exact ite (hu.burstDone _ _ _) hu
  · exact hu

theorem feedCrc (h : GroupsRise s) (c : Nat) (d : Desc) (bs : List Byte) : GroupsRise (feedCrc c d bs s) :=
  h.beside (does_feedCrc _ _ _ (.refl _ _) rfl)

theorem execDmaBurstEnd (h : GroupsRise s) (c : Fin 16) (data : Option (List Byte)) : NextRises (execDmaBurstEnd c data s) := by
  unfold Machine.execDmaBurstEnd
  extract_lets x
  split
  · refine .ite (.ok h) (.ite ?_ (.ite (.ok h) ?_))
    · split
      · exact .ok h
      · exact .withLen (((h.hostLoftWrite _ _ _ _).feedCrc _ _ _).burstLanded _ _ _) _ _
    · extract_lets b
      have hwrite := h.beside (does_writeHost (burstDst x ‹Desc›) b (.refl _ s) rfl)
      exact .ite (.ok ((hwrite.feedCrc _ _ _).burstDone _ _ _)) (.ok (((h.copyParts _ _ _ _ _ _).feedCrc _ _ _).burstLanded _ _ _))
  · exact .ok h

/-! ### Admissions (R192, R193, R195, R391) -/

theorem putAdm (h : GroupsRise s) (a : Admission) : GroupsRise (putAdm a s) := h

theorem startWork (h : GroupsRise s) (a : Admission) : GroupsRise (startWork a s) :=
  beside (h.putAdm _) (does_admitRead _ (.refl _ _) rfl)

theorem dropAdmission (h : GroupsRise s) (status : Nat) : GroupsRise (dropAdmission status s) := by
  unfold Machine.dropAdmission
  split
  · exact h
  · extract_lets pac s1
    have h1 : GroupsRise s1 := beside h.same (does_endAdmWork (.refl _ _) rfl)
    exact ite h1 (completeOpt (h1.beside (does_dropWaits _ (.refl _ _) rfl)) _ _ _)

theorem execStripeAdmit (h : GroupsRise s) (id : Nat) : NextRises (execStripeAdmit id s) := by
  unfold Machine.execStripeAdmit
  split
  · exact .ok h
  next c _ =>
    have hend (st : Nat) : NextRises (Machine.ok (Machine.complete id st [] s)) := .ok (h.complete _ _ _)
    refine .ite (hend 2) (.ite (hend 3) (.ite (hend 0x41) ?_))
    have hread := h.beside (does_readBlocks 3 4 (c.p 0 8 / 64) (.refl _ s) rfl)
    split
    next cls hb s1 e =>
      rw [e] at hread
      have hend1 (st : Nat) : NextRises (Machine.ok (Machine.complete id st [] s1)) := .ok (hread.complete _ _ _)
      extract_lets len s2 n a pac store s3
      have h2 : GroupsRise s2 := hread.dropAdmission 0x42
      have h3 : GroupsRise s3 := h2.same
      exact .ite (hend1 5) (.ite (hend1 0x41) (.ite (hend1 0x40) (.ok (ite h3 (h3.startWork _)))))

theorem execAdmitGuardWaitEnd (h : GroupsRise s) : NextRises (execAdmitGuardWaitEnd s) := by
  unfold Machine.execAdmitGuardWaitEnd
  split
  · exact .ite (.ok (h.startWork _)) (.ok h)
  · exact .ok h

theorem admitBinned (h : GroupsRise s) (a : Admission) : GroupsRise (admitBinned a s) := h.beside (does_admitBinned _ (.refl _ _) rfl)

theorem admitFeed (h : GroupsRise s) (cls : Nat) (bs : List Byte) : GroupsRise (admitFeed cls bs s) := by
  unfold Machine.admitFeed
  split
  · exact h
  next a0 _ =>
    extract_lets a k s1 b tag
    have h1 : GroupsRise s1 := by
      clear_value k
      simp only [s1]
      split
      · split
        · exact h.beside (does_cntChk _ _ _ (does_scanPut _ _ (.refl _ _) rfl) rfl)
        · exact h
      · exact h
    have hread (a : Admission) : GroupsRise (admitRead a (Machine.putAdm a s1)) := (h1.putAdm a).beside (does_admitRead _ (.refl _ _) rfl)
    exact ite (hread _) (ite (ite ((h1.putAdm b).beside (does_scanStart _ (.refl _ _) rfl)) (hread _)) ((h1.putAdm a).admitBinned a))

theorem admitDone (h : GroupsRise s) (a : Admission) (r : Refuse) (p : Plan) (tag slots : Nat) : GroupsRise (admitDone a r p tag slots s) :=
  h.beside (does_admitDone _ _ _ _ _ (.refl _ _) rfl)

theorem execAdmissionComplete (h : GroupsRise s) : NextRises (execAdmissionComplete s) := by
  unfold Machine.execAdmissionComplete
  split
  · exact .ok h
  · refine .ite (.ok h) (.ite (.ok (completeOpt h.same _ _ _)) ?_)
    split
    · extract_lets known
      exact .ok (admitDone h.same _ _ _ _ _)
    · exact .ok (GroupsRise.admitDone (GroupsRise.putAdm (h.beside (does_countShv _ _ (.refl _ _) rfl)) _) _ _ _ _ _)

end GroupsRise

end Sys2Proof.Machine
end

section
/-! PROOFS. The order of the groups under the build of groups (R101 to R131, R253, R294 to R303). -/

-- One theorem at a time, as under Laws/: the package as one text takes too much memory in many threads.
set_option Elab.async false

namespace Sys2Proof.Machine

namespace GroupsRise

variable {s t : State}

/-! ### Queues and lanes (R104, R105, R129) -/

theorem grpPut (h : GroupsRise s) (j : Nat) (g : Group) : GroupsRise (grpPut j g s) := by
  unfold Machine.grpPut
  split
  next st hst => exact setStripe (st := { st with groups := tput st.groups j g }) (Stripe.Rises.tput (h.stripe hst) j g)
  next => exact h

theorem cntThr (h : GroupsRise s) (ev : Nat) (u : Option Nat) (n : Nat) : GroupsRise (cntThr ev u n s) :=
  h.of_stripe (congrArg Pac.stripe (cntThr_pac ev u n s))

theorem cntTwn (h : GroupsRise s) (ev : Nat) (u : Option Nat) (n : Nat) : GroupsRise (cntTwn ev u n s) :=
  h.of_stripe (congrArg Pac.stripe (cntTwn_pac ev u n s))

theorem cntShv (h : GroupsRise s) (ev : Nat) (u : Option Nat) (n : Nat) : GroupsRise (cntShv ev u n s) :=
  h.beside (does_cntShv _ _ _ (.refl _ _) rfl)

theorem dealLane (h : GroupsRise s) (l : Nat) : GroupsRise (dealLane l s) := by
  unfold Machine.dealLane
  split
  · exact h
  next st _ =>
    refine ite h ?_
    split
    · exact h
    next r j g _ =>
      extract_lets units s1
      have h1 : GroupsRise s1 := grpPut h.same j g
      exact (ite (h1.cntThr _ _ _) h1).cntThr _ _ _

theorem dealAll (h : GroupsRise s) : GroupsRise (dealAll s) := h.foldl (fun _ _ hu => hu.dealLane _) _

theorem deliverRun (h : GroupsRise s) (thr : Nat) (r : Run) : GroupsRise (deliverRun thr r s) := by
  unfold Machine.deliverRun
  split
  · exact h
  next st _ =>
    split
    · exact h
    next g _ =>
      extract_lets hdr outs seen count short stg g' swl dos s1
      have h1 : GroupsRise s1 := grpPut h.same _ g'
      exact ((h1.beside (does_cntDos _ _ _ (does_cntDos _ _ _ (does_cntDos _ _ _ (does_cntDos _ _ _
        (does_cntDos _ _ _ (.refl _ _) rfl) rfl) rfl) rfl) rfl)).cntThr _ _ _).cntThr _ _ _ |>.cntThr _ _ _

/-! ### Expansion jobs and crib fills (R82, R100, R109, R173, R175) -/

theorem queueBin (h : GroupsRise s) (rank tile pass group : Nat) (b : Bin) : GroupsRise (queueBin rank tile pass group b s) :=
  h.beside (does_queueBin _ _ _ _ _ (.refl _ _) rfl)

theorem startWorkUnits (h : GroupsRise s) : GroupsRise (startWorkUnits s) := by
  unfold Machine.startWorkUnits
  split
  · exact h
  next st hst => exact (setStripe (h.stripe hst)).foldl (fun _ _ hu => hu.queueBin _ _ _ _ _) _

theorem loseJobs (h : GroupsRise s) (j : Nat) : GroupsRise (loseJobs j s) := by
  unfold Machine.loseJobs
  split
  · exact h
  next st hst => exact setStripe (h.stripe hst)

/-! ### The moment a group is final (R296 to R303) -/

theorem groupRecords (h : GroupsRise s) (st : Stripe) (j : Nat) (g : Group) (launched : Bool) (left : List Nat) :
    GroupsRise (groupRecords st j g launched left s) := by
  unfold Machine.groupRecords
  extract_lets n1 s1 s2 s3
  have h1 : GroupsRise s1 := h.foldl (fun b u hu => by split <;> exact hu.raiseStripeLoss _) _
  have h2 : GroupsRise s2 := by
    simp only [s2]
    clear_value s1
    split
    · exact h1.foldl (fun _ _ hu => hu.pushRecord _) _
    · exact h1
  have h3 : GroupsRise s3 := h2.foldl (fun _ _ hu => hu.raiseStripeLoss _) _
  exact ite h3 (h3.raiseStripeLoss _)

theorem finalGroup (h : GroupsRise s) (j : Nat) (launched : Bool) (lane failed : Nat) : GroupsRise (finalGroup j launched lane failed s) := by
  unfold Machine.finalGroup
  split
  · exact h
  next st hst =>
    split
    · exact h
    next g _ =>
      refine ite h ?_
      extract_lets left role g1 st1 units s1 s2 twn2 s3 twn3 s4 twn4 s5
      have h1 : GroupsRise s1 := setStripe (st := st1) (Stripe.Rises.tput (h.stripe hst) j g1)
      have h2 : GroupsRise s2 := ite (h1.groupRecords _ _ _ _ _) h1
      have h3 : GroupsRise s3 := ite h2 (cntTwn h2.same _ _ _)
      have h4 : GroupsRise s4 := ite (raiseItems h3.same _ _ _) h3
      have h5 : GroupsRise s5 := by
        simp only [s5]
        clear_value s4
        split
        · exact ite ((raiseItems h4.same _ _ _).abortOrDiscardFree _ _ _) h4
        · exact h4
      exact h5.dealAll

theorem voteGroup (h : GroupsRise s) (j : Nat) : GroupsRise (voteGroup j s) := by
  unfold Machine.voteGroup
  split
  · exact h
  next st _ =>
    split
    · exact h
    next g _ =>
      refine ite h ?_
      split
      next a b _ _ =>
        refine ite ?_ ?_
        · extract_lets m s1 twn s2
          have h1 : GroupsRise s1 := h.grpPut _ _
          have h2 : GroupsRise s2 := (cntTwn h1.same _ _ _).cntTwn _ _ _
          exact ite (h.finalGroup _ _ _ _) (h2.raiseItems _ _ _).dealAll
        · split
          · exact h.finalGroup _ _ _ _
          · exact h
      next => exact h

theorem deadline (h : GroupsRise s) (j : Nat) : GroupsRise (deadline j s) := by
  unfold Machine.deadline
  split
  · exact h
  · split
    · exact h
    · exact ite (h.finalGroup _ _ _ _) (ite (h.finalGroup _ _ _ _) (h.finalGroup _ _ _ _))

/-! ### Rows -/

theorem openGroup (h : GroupsRise s) (j : Nat) : GroupsRise (openGroup j s) := by
  unfold Machine.openGroup
  extract_lets s1
  have h1 : GroupsRise s1 := h.loseJobs j
  clear_value s1
  split
  · exact h1
  next st hst =>
    extract_lets st1 s2
    have h2 : GroupsRise s2 := setStripe (st := st1) (Stripe.Rises.tput ((h1.stripe hst).filter _) j _)
    exact h2.foldl (fun _ _ hu => hu.queueBin _ _ _ _ _) _

theorem execGroupQueueOpen (h : GroupsRise s) : NextRises (execGroupQueueOpen s) := by
  unfold Machine.execGroupQueueOpen
  split
  · exact .ok h
  · exact .ite (.ok (h.openGroup _).dealAll) (.ok h)

theorem retireThresher (h : GroupsRise s) (t cause : Nat) : GroupsRise (retireThresher t cause s) := by
  unfold Machine.retireThresher
  refine ite h ?_
  extract_lets runs units s1 s2
  have h1 : GroupsRise s1 := h
  have h2 : GroupsRise s2 := h1.foldl (fun r u hu => by split; exacts [hu.grpPut _ _, hu]) _
  exact (h2.raiseItems _ _ _).dealAll

theorem execRunComplete (h : GroupsRise s) (lane : Fin 256) (check : Option Bool) : NextRises (execRunComplete lane check s) := by
  unfold Machine.execRunComplete
  split
  next r st _ _ =>
    refine .ite (.ok h) ?_
    split
    · exact .ok (h.retireThresher _ _)
    · extract_lets s1 units
      exact .ok (dealLane (h.deliverRun _ _).same _)
  next => exact .ok h

theorem thrRetireOp (h : GroupsRise s) (v : Nat) : GroupsRise (thrRetireOp v s) := ite (h.retireThresher _ _) h

theorem execGroupBuilt (h : GroupsRise s) : NextRises (execGroupBuilt s) := by
  unfold Machine.execGroupBuilt
  split
  · exact .ok h
  next st _ =>
    split
    · exact .ok h
    next j g _ =>
      extract_lets u ds s1
      have hu : GroupsRise u := h.cntThr _ _ _
      have h1 : GroupsRise s1 := hu.grpPut _ _
      exact .ite (.ok (((hu.grpPut _ _).dxpSend _ _ _).voteGroup _)) (.ok (ite (h1.finalGroup _ _ _ _) h1))

theorem execRound2Built (h : GroupsRise s) : NextRises (execRound2Built s) := by
  unfold Machine.execRound2Built
  split
  · exact .ok h
  · split
    · exact .ok h
    · exact .ok (((h.grpPut _ _).dxpSend _ _ _).voteGroup _)

theorem execGroupDeadline (h : GroupsRise s) : NextRises (execGroupDeadline s) := by
  unfold Machine.execGroupDeadline
  split
  · exact .ok h
  · split
    · exact .ok (h.deadline _)
    · exact .ok h

theorem execRleJobComplete (h : GroupsRise s) (unit : Fin 32) : NextRises (execRleJobComplete unit s) := by
  unfold Machine.execRleJobComplete
  split
  · exact .ok h
  next st hst =>
    split
    · exact .ok h
    · exact .ok (cntShv (setStripe (h.stripe hst)) _ _ _).startWorkUnits

theorem admitNoUnits (h : GroupsRise s) : GroupsRise (admitNoUnits s) := by
  unfold Machine.admitNoUnits
  split
  next a _ =>
    have hdrop := h.beside (does_dropWaits 3 (does_endAdmWork (.refl _ s) rfl) rfl)
    exact ite (hdrop.putAdm _) h
  next => exact h

theorem execIngestUnitFailure (h : GroupsRise s) (unit : Fin 32) : NextRises (execIngestUnitFailure unit s) := by
  unfold Machine.execIngestUnitFailure
  refine .ite (.ok h) ?_
  extract_lets units s1
  have h1 : GroupsRise s1 := admitNoUnits h.same
  split
  · exact .ok (h1.raiseItems _ _ _)
  next st hst =>
    extract_lets n jobs cause s2 s3 lost s4
    have h2 : GroupsRise s2 := cntShv (raiseItems (setStripe (h.stripe hst)) _ _ _) _ _ _
    have h3 : GroupsRise s3 := h2.loseJobs _
    have h4 : GroupsRise s4 := h3.foldl (fun _ _ hu => ite (hu.raiseStripeLoss _) hu) _
    exact .ite (.ok (h4.abortOrDiscardFree _ _ _)) (.ok h2.startWorkUnits)

theorem execCribFillComplete (h : GroupsRise s) : NextRises (execCribFillComplete s) := by
  unfold Machine.execCribFillComplete
  split
  · exact .ok h
  next st hst =>
    split
    · exact .ok h
    · exact .ok (setStripe (h.stripe hst))

end GroupsRise

end Sys2Proof.Machine
end

section
/-! PROOFS. The order of the groups under slots, arming and pacing (R185, R196, R197, R213 to R217, R293). -/

-- One theorem at a time, as under Laws/: the package as one text takes too much memory in many threads.
set_option Elab.async false

namespace Sys2Proof.Machine

namespace GroupsRise

variable {s t : State}

/-! ### Counters, lanes and markers -/

theorem cntEnc (h : GroupsRise s) (ev : Nat) (u : Option Nat) (n : Nat) : GroupsRise (cntEnc ev u n s) :=
  h.beside (does_cntEnc _ _ _ (.refl _ _) rfl)

theorem cntPac (h : GroupsRise s) (ev : Nat) (u : Option Nat) (n : Nat) : GroupsRise (cntPac ev u n s) :=
  h.beside (does_cntPac _ _ _ (.refl _ _) rfl)

theorem cntSwl (h : GroupsRise s) (ev : Nat) (u : Option Nat) (n : Nat) : GroupsRise (cntSwl ev u n s) :=
  h.beside (does_cntSwl _ _ _ (.refl _ _) rfl)

/-! ### The slot trigger (R213 to R217, R255) -/

theorem accountFrame (h : GroupsRise s) (i : SlotInfo) (l : Nat) : GroupsRise (accountFrame i l s) := by
  unfold Machine.accountFrame
  split
  · exact h
  · refine ite h ?_
    extract_lets x up f pac s1
    have h1 : GroupsRise s1 := h.same
    exact ite h1 ((h1.cntSwl _ _ _).settleLane _ _ _)

theorem noteLate (h : GroupsRise s) (n : Nat) (late : Bool) : GroupsRise (noteLate n late s) := by
  unfold Machine.noteLate
  refine ite h.closeLate ?_
  split
  · exact h
  next st hst => exact cntEnc (raiseItems (setStripe (h.stripe hst)) _ _ _) _ _ _

theorem paceRate (h : GroupsRise s) (n k dt : Nat) : GroupsRise (paceRate n k dt s) := by
  unfold Machine.paceRate
  split
  · exact h
  next st hst => exact ite (ite (h.cntPac _ _ _) (raiseItems (setStripe (h.stripe hst)) _ _ _)) h

theorem paceCheck (h : GroupsRise s) (n issue : Nat) : GroupsRise (paceCheck n issue s) := by
  unfold Machine.paceCheck
  split
  · exact h
  next st _ =>
    extract_lets s1 s2
    have h1 : GroupsRise s1 := ite (h.paceRate _ _ _) h
    have h2 : GroupsRise s2 := by
      refine ite ?_ h1
      split
      next st1 hst1 => exact setStripe (h1.stripe hst1)
      next => exact h1
    exact ite (h2.paceRate _ _ _) h2

theorem settleGroup (h : GroupsRise s) (n : Nat) : GroupsRise (settleGroup n s) := by
  unfold Machine.settleGroup
  split
  · exact ite ((ite (h.openGroup _) h).deadline _) h
  · exact h

theorem keepRole (h : GroupsRise s) (n : Nat) : GroupsRise (keepRole n s) := by
  unfold Machine.keepRole
  split
  · split
    · exact ite (h.grpPut _ _) h
    · exact h
  · exact h

theorem chaffCut (h : GroupsRise s) (n : Nat) (chaff : Bool) : GroupsRise (chaffCut n chaff s) := by
  unfold Machine.chaffCut
  split
  next st hst =>
    split
    · exact ite (setStripe (h.stripe hst)) h
    · exact h
  next => exact h

theorem stagingErrors (h : GroupsRise s) (i : SlotInfo) (bad : List (Nat × Nat)) : GroupsRise (stagingErrors i bad s) := by
  refine ite h (h.foldl (fun q u hu => ?_) _)
  have h1 := hu.raiseItems 0x1008 4 [(4, i.n), (1, q.1), (1, q.2)]
  exact ite (h1.raiseStripeLoss _) h1

theorem stripeDone (h : GroupsRise s) : GroupsRise (stripeDone s) := by
  unfold Machine.stripeDone
  split
  · exact h
  · extract_lets s1 tag
    have h1 : GroupsRise s1 := h.closeLate
    clear_value s1
    refine ite h1 ?_
    split
    · exact h1
    next st1 hst1 => exact (raiseItems (setStripe (h1.stripe hst1)) _ _ _).releaseCoefs

theorem handOver (h : GroupsRise s) : GroupsRise (handOver s) := h.beside (does_handOver (.refl _ _) rfl)

theorem fireSlot (h : GroupsRise s) (issue due corrected : Nat) (bad : List (Nat × Nat)) :
    GroupsRise (fireSlot issue due corrected bad s) := by
  unfold Machine.fireSlot
  split
  · exact h
  next st0 _ =>
    extract_lets n late s1
    have h1 : GroupsRise s1 := (h.settleGroup _).keepRole _
    clear_value s1
    split
    · exact h1
    next st hst =>
      extract_lets first last
      split
      next rx rv _ =>
        extract_lets info
        split
        next tgt frac _ =>
          extract_lets st1 st2 s2 s3 s4 s5 s6 s7 swl s8 s9
          have h2 : GroupsRise s2 := setStripe (h1.stripe hst)
          have h3 : GroupsRise s3 := ite (h2.beside (does_trcPush _ _ (.refl _ _) rfl)) h2
          have h4 : GroupsRise s4 := ite (h3.raiseItems _ _ _) h3
          have h5 : GroupsRise s5 := cntEnc (ite (h4.cntPac _ _ _) h4) _ _ _
          have h6 : GroupsRise s6 := ((h5.paceCheck _ _).noteLate _ _).stagingErrors _ _
          have h7 : GroupsRise s7 := h6.handOver
          have h8 : GroupsRise s8 := foldl h7.same (fun l u hu => (hu.beside (does_sendFrame _ _ l (.refl _ _) rfl)).accountFrame _ _) _
          have h9 : GroupsRise s9 := (h8.chaffCut _ _).closeCut _
          exact (ite h9.stripeDone h9).startWorkUnits

theorem execSlotTrigger (h : GroupsRise s) (corrected : Nat) (bad : List (Fin 128 × Fin 128)) :
    NextRises (execSlotTrigger corrected bad s) := by
  unfold Machine.execSlotTrigger
  split
  · exact .ok h
  · split
    · exact .ok h
    · exact .ite (.ok h) (.ok ((h.fireSlot _ _ _ _).beside (does_handoverStep (.refl _ _) rfl)))

/-! ### Arming (R175, R196, R293, R488) -/

theorem beginArm (s : State) (a : Admission) (q : ArmReq) : GroupsRise (beginArm a q s) := by
  unfold Machine.beginArm
  extract_lets g0 g1 st acct pac dos enc twn units s1
  have hst : st.Rises := List.Pairwise.nil
  have h1 : GroupsRise s1 := of_some hst rfl
  exact (h1.beside (does_reportBeamMap _ (does_cmdRun _ (.refl _ _) rfl) rfl)).startWorkUnits

theorem armEnd (h : GroupsRise s) (status : Nat) : GroupsRise (armEnd status s) := by
  unfold Machine.armEnd
  split
  · exact h
  next st hst =>
    refine ite h (ite (h.discardStripe _ _) ?_)
    extract_lets groups id st1 pac s1
    have hkeys : st1.groups.map Prod.fst = st.groups.map Prod.fst := List.map_map
    have h1 : GroupsRise s1 := setStripe (st := st1) ((h.stripe hst).of_keys hkeys)
    exact h1.completeOpt _ _ _

theorem armBoth (h : GroupsRise s) : GroupsRise (armBoth s) := by
  unfold Machine.armBoth
  split
  · exact h.armEnd _
  · exact h

theorem armRefuse (h : GroupsRise s) (status : Nat) : GroupsRise (armRefuse status s) := (ite (h.dxpSend _ _ _) h).armEnd _

theorem armConclude (h : GroupsRise s) : GroupsRise (armConclude s) := by
  unfold Machine.armConclude
  split
  · exact ite h (dxpSend h.same _ _ _).armBoth
  · exact h

theorem prerollEnd (h : GroupsRise s) (st : Stripe) : GroupsRise (prerollEnd st s) := by
  unfold Machine.prerollEnd
  exact ite (h.armRefuse _) (ite (h.armEnd _) (ite (h.armEnd _) (dxpSend h.same _ _ _).armConclude))

theorem execStripeArm (h : GroupsRise s) (id : Nat) : NextRises (execStripeArm id s) := by
  unfold Machine.execStripeArm
  have hend (st : Nat) : NextRises (Machine.ok (Machine.complete id st [] s)) := .ok (h.complete _ _ _)
  split
  · exact .ok h
  · refine .ite (hend 2) (.ite (hend 0x47) ?_)
    split
    · exact hend 0x40
    · exact .ite (hend 0x40) (.ite (hend _) (.ok (beginArm _ _ _)))

theorem execPrerollComplete (h : GroupsRise s) : NextRises (execPrerollComplete s) := by
  unfold Machine.execPrerollComplete
  split
  · exact .ok h
  · exact .ite (.ok (h.prerollEnd _)) (.ok h)

theorem execDxpArmReady (h : GroupsRise s) (m : ArmReady) : NextRises (execDxpArmReady m s) :=
  .ite (.ok (armConclude h.same)) (.ok h)

theorem execDxpArmResult (h : GroupsRise s) (status : W32) : NextRises (execDxpArmResult status s) :=
  .ite (.ok (ite (armEnd h.same _) (armBoth h.same))) (.ok h)

theorem execTwinArmTimeout (h : GroupsRise s) : NextRises (execTwinArmTimeout s) := by
  unfold Machine.execTwinArmTimeout
  split
  · exact .ok h
  · exact .ite (.ok (h.armRefuse _)) (.ok h)

theorem abortStripe (h : GroupsRise s) (id : Nat) (st : Stripe) : GroupsRise (abortStripe id st s) := by
  unfold Machine.abortStripe
  extract_lets s1
  have h1 : GroupsRise s1 := ite (h.abortOrDiscardFree _ _ _) (ite h (h.abortOrDiscard _ _ _ _))
  exact h1.complete _ _ _

theorem execStripeAbort (h : GroupsRise s) (id : Nat) : NextRises (execStripeAbort id s) := by
  unfold Machine.execStripeAbort
  split
  · exact .ok h
  · extract_lets named
    refine .ite (.ok (h.complete _ _ _)) ?_
    split
    · exact .ok (h.abortStripe _ _)
    · exact .ite (.ok ((h.dropAdmission _).complete _ _ _)) (.ok (h.complete _ _ _))

theorem armMakeup (h : GroupsRise s) (id : Nat) (c : Cmd) (a : Admission) (recs : List MkRec) : GroupsRise (armMakeup id c a recs s) := by
  unfold Machine.armMakeup
  have hend (st : Nat) : GroupsRise (Machine.complete id st [] s) := h.complete _ _ _
  dsimp only
  refine ite (hend _) (ite (hend _) (ite (hend _) ?_))
  split
  · exact hend _
  · exact ite (hend _) (ite (hend _) (ite (hend _) (beginArm _ _ _)))

theorem execMakeupArmArm (h : GroupsRise s) (id : Nat) (data : Option (List Byte)) : NextRises (execMakeupArmArm id data s) := by
  unfold Machine.execMakeupArmArm
  have hend (st : Nat) : NextRises (Machine.ok (Machine.complete id st [] s)) := .ok (h.complete _ _ _)
  split
  · exact .ok h
  · refine .ite (.ok h) (.ite (hend _) ?_)
    split
    · exact hend _
    · refine .ite (hend _) ?_
      split
      · exact hend _
      · exact .withLen (h.armMakeup _ _ _ _) _ _

/-! ### Pacing (R183 to R191, R196, R309) -/

theorem sendPace (h : GroupsRise s) (m : Option SetPoint) : GroupsRise (sendPace m s) := ite (cntPac h.same _ _ _) h

theorem brakeCheck (h : GroupsRise s) : GroupsRise (brakeCheck s) := by
  unfold Machine.brakeCheck
  split
  · exact h
  next st _ =>
    extract_lets hi now s1
    have h1 : GroupsRise s1 := (h.raiseItems _ _ _).abortRunning _ _ _ _
    refine ite h (ite (ite (ite (h1.raiseOverrun _ _) h1) h) ?_)
    split
    · exact ite (h.raiseOverrun _ _) h
    · exact h

theorem execSetpointInstant (h : GroupsRise s) : NextRises (execSetpointInstant s) := by
  unfold Machine.execSetpointInstant
  refine .ite (.ok h) ?_
  extract_lets tim s1 s2
  have h1 : GroupsRise s1 := h
  split
  · exact .ok (h1.sendPace _)
  next st hst =>
    refine .ite (.ok (h1.sendPace _)) (.ite (.ok (sendPace (setStripe (h1.stripe hst)) _)) ?_)
    have h2 : GroupsRise s2 := h1.brakeCheck
    clear_value s2
    split
    · exact .ok h2
    next st2 hst2 => exact .ok (setStripe (h2.stripe hst2))

theorem execRunUpStart (h : GroupsRise s) : NextRises (execRunUpStart s) := by
  unfold Machine.execRunUpStart
  split
  · exact .ok h
  next st hst =>
    refine .ite (.ok h) (.ite ?_ ?_)
    · extract_lets s1 s2
      have h1 : GroupsRise s1 := ite (h.dxpSend _ _ _) h
      have h2 : GroupsRise s2 := h1.discardStripe _ _
      exact .ok (raiseItems h2.same _ _ _)
    · exact .ok (setStripe (h.stripe hst))

theorem execStopAtRest (h : GroupsRise s) : NextRises (execStopAtRest s) := by
  unfold Machine.execStopAtRest
  split
  · exact .ok h
  · exact .ite (.ok (dropStripe _ _)) (.ok h)

theorem execDxpAbort (h : GroupsRise s) (group : W32) (cause : Byte) : NextRises (execDxpAbort group cause s) :=
  .ite (.ok h) (.ite (.ok (h.abortRunning _ _ _ _)) (.ite (.ok (h.widenAbort _)) (.ok (h.abortOrDiscardFree _ _ _))))

/-! ### Encoder samples -/

theorem execEncSample (h : GroupsRise s) (p0 p1 p2 p3 : EncPair) : NextRises (execEncSample p0 p1 p2 p3 s) := by
  unfold Machine.execEncSample
  refine .ite (.ok h) ?_
  extract_lets before s1 s2
  have h1 : GroupsRise s1 := h.foldl (fun q u hu => hu.beside (does_sampleCh _ _ (.refl _ _) rfl)) _
  have h2 : GroupsRise s2 := encFaultStripe s h1
  have hedges (offs : List Nat) (q : List Nat × State) (hq : GroupsRise q.2) :
      GroupsRise (offs.foldl (fun (q : List Nat × State) off => Machine.encEdge off q.1 q.2) q).2 := by
    induction offs generalizing q with
    | nil => exact hq
    | cons off offs ih => exact ih _ (hq.encEdge off q.1)
  exact .ok ((hedges _ _ h2).beside (does_frameFlow (.refl _ _) rfl))

end GroupsRise

end Sys2Proof.Machine
end

section
/-! PROOFS. The order of the groups under the swath lanes, the beam table, the twin link, the loft and the granary (07 to 09, 12). -/

-- One theorem at a time, as under Laws/: the package as one text takes too much memory in many threads.
set_option Elab.async false

namespace Sys2Proof.Machine

namespace GroupsRise

variable {s t : State}

/-! ### Swath lanes (R255, R267, R270, R271) -/

theorem settleFrames (h : GroupsRise s) (cur : Bool) (l : Nat) (f : Nat × FrameFate × Bool → Nat × FrameFate × Bool) :
    GroupsRise (settleFrames cur l f s) := by
  unfold Machine.settleFrames
  split
  · exact h
  · exact (h.cntSwl _ _ _).settleLane _ _ _

theorem laneSet (h : GroupsRise s) (l : Nat) (x : Lane) : GroupsRise (laneSet s l x) := h

theorem cutFrame (h : GroupsRise s) (l : Nat) : GroupsRise (cutFrame l s) := by
  unfold Machine.cutFrame
  extract_lets x s1
  have h1 : GroupsRise s1 := h
  refine ite h ?_
  split
  · exact h1.settleFrames _ _ _
  · exact h1

theorem laneTo (h : GroupsRise s) (l : Nat) (goal : LaneState) (cause : Nat) : GroupsRise (laneTo l goal cause s) := by
  unfold Machine.laneTo
  extract_lets x enter
  refine ite (raiseItems (h.laneSet _ _) _ _ _) (ite ?_ (h.laneSet _ _))
  exact raiseItems (laneSet (h.cutFrame l) _ _) _ _ _

theorem takeChecked (h : GroupsRise s) (l : Nat) : GroupsRise (takeChecked l s) := h.beside (does_takeChecked _ (.refl _ _) rfl)

theorem laneCtrl (h : GroupsRise s) (l old v : Nat) : GroupsRise (laneCtrl l old v s) := by
  unfold Machine.laneCtrl
  extract_lets stripe refuse sa x s0 s1 s2 st
  have ha : GroupsRise sa := h.takeChecked l
  have h0 : GroupsRise s0 := ite ha.same ha.same
  have h1 : GroupsRise s1 := ite (ite h0 (h0.laneTo _ _ _)) (ite (h0.laneTo _ _ _) h0)
  have h2 : GroupsRise s2 := ite (h1.laneTo _ _ _) h1
  exact ite h2 (ite (ite (h2.laneTo _ _ _) h2) (ite h2 (h2.laneTo _ _ _)))

theorem badReturn (h : GroupsRise s) (k : Nat) : GroupsRise (badReturn k s) := h.beside (does_badReturn _ (.refl _ _) rfl)

theorem goodReturn (h : GroupsRise s) (k : Nat) : GroupsRise (goodReturn k s) := h.beside (does_goodReturn _ (.refl _ _) rfl)

theorem laneMsg (h : GroupsRise s) (k l : Nat) {act : State → State} (hact : ∀ u, GroupsRise u → GroupsRise (act u)) :
    NextRises (laneMsg k l act s) := by
  unfold Machine.laneMsg
  refine .ite (.ok h) (.ite (.ok (h.badReturn k)) ?_)
  extract_lets s1
  have h1 : GroupsRise s1 := h.goodReturn k
  exact .ite (.ok h1) (.ok (hact _ (ite (h1.laneTo _ _ _) h1)))

theorem settleStatus (h : GroupsRise s) (l rx high map : Nat) : GroupsRise (settleStatus l rx high map s) := by
  unfold Machine.settleStatus
  extract_lets lost valid hi seq isCur isPrev s1 s2
  have h1 : GroupsRise s1 := h.settleFrames _ _ _
  have h2 : GroupsRise s2 := h.settleFrames _ _ _
  exact ite (ite ((h.settleFrames _ _ _).settleFrames _ _ _) h)
    (ite (ite (h1.settleFrames _ _ _) h1) (ite (ite (h2.settleFrames _ _ _) h2) h))

theorem statusOp (h : GroupsRise s) (l rx high map crcErr : Nat) : GroupsRise (statusOp l rx high map crcErr s) := by
  unfold Machine.statusOp
  extract_lets st x s1
  have h1 : GroupsRise s1 := settleStatus (h.laneSet _ _) _ _ _ _
  exact ite h (ite (ite (h1.laneTo _ _ _) h1) (ite (h1.laneTo _ _ _) h1))

theorem execReturnStatus (h : GroupsRise s) (k : Fin 8) (lane : Fin 128) (rx : Fin 4) (high map : W32) (crcErr : BitVec 16) :
    NextRises (execReturnStatus k lane rx high map crcErr s) :=
  h.laneMsg _ _ fun _ hu => hu.statusOp _ _ _ _ _

theorem execReturnTapReq (h : GroupsRise s) (k : Fin 8) (lane : Fin 128) (seq req preset : Byte) :
    NextRises (execReturnTapReq k lane seq req preset s) :=
  h.laneMsg _ _ fun _ hu => hu.beside (does_tapReq _ _ _ _ (.refl _ _) rfl)

theorem execReturnTrained (h : GroupsRise s) (k : Fin 8) (lane : Fin 128) (seq : Byte) : NextRises (execReturnTrained k lane seq s) :=
  h.laneMsg _ _ fun _ hu => ite (hu.laneTo _ _ _) hu

theorem execReturnPrbsResult (h : GroupsRise s) (k : Fin 8) (lane : Fin 128) (errors words : W32) :
    NextRises (execReturnPrbsResult k lane errors words s) :=
  h.laneMsg _ _ fun _ hu => ite (hu.laneSet _ _) hu

theorem execReturnDownSettle (h : GroupsRise s) (k : Fin 8) : NextRises (execReturnDownSettle k s) :=
  .ite (.ok h) (.ok (h.foldl (fun _ _ hu => ite (hu.laneTo _ _ _) hu) _))

theorem execFrameSettleTimeout (h : GroupsRise s) (l : Fin 128) : NextRises (execFrameSettleTimeout l s) := by
  unfold Machine.execFrameSettleTimeout
  extract_lets under oldest mark
  split
  · exact .ok (h.settleFrames _ _ _)
  · split
    · exact .ok (h.settleFrames _ _ _)
    · exact .ok h

theorem execLaneMessageTimeout (h : GroupsRise s) (l : Fin 128) : NextRises (execLaneMessageTimeout l s) :=
  .ite (.ok (h.laneTo _ _ _)) (.ok h)

theorem execTrainTimeout (h : GroupsRise s) (l : Fin 128) : NextRises (execTrainTimeout l s) :=
  .ite (.ok h) (.ok (raiseItems (laneTo (h.laneSet _ _) _ _ _) _ _ _))

theorem execQuadPllUnlock (h : GroupsRise s) (q : Fin 32) : NextRises (execQuadPllUnlock q s) :=
  .ite (.ok h) (.ok (foldl (raiseItems h.same _ _ _) (fun _ _ hu => ite hu (laneTo (hu.takeChecked _) _ _ _)) _))

theorem execQuadPllRelock (h : GroupsRise s) (q : Fin 32) : NextRises (execQuadPllRelock q s) :=
  .ite (.ok h) (.ok (foldl h.same (fun _ _ hu => ite (hu.laneTo _ _ _) (ite (hu.laneTo _ _ _) hu)) _))

/-! ### Beam table commands (R156, R157, R310) -/

theorem applyTable (h : GroupsRise s) (m : TableMsg) : GroupsRise (applyTable m s) := by
  unfold Machine.applyTable
  extract_lets g upd
  exact ite (ite h.same h.same) h.same

theorem tableWritten (h : GroupsRise s) (failed : Bool) (words : Nat) : GroupsRise (tableWritten failed words s) :=
  h.beside (does_tableWritten _ _ (.refl _ _) rfl)

theorem queueJob (h : GroupsRise s) (j : GrnJob) : GroupsRise (queueJob j s) := h.beside (does_queueJob _ (.refl _ _) rfl)

theorem writeTable (h : GroupsRise s) (x : TableX) : GroupsRise (writeTable x s) := by
  unfold Machine.writeTable
  extract_lets m t y twn s1
  have h1 : GroupsRise s1 := applyTable h.same _
  exact ite (h1.tableWritten _ _) (queueJob (h1.beside (does_msgRecord _ _ (.refl _ _) rfl)) _)

theorem cmdRun (h : GroupsRise s) (id : Nat) : GroupsRise (cmdRun id s) := h.beside (does_cmdRun _ (.refl _ _) rfl)

theorem refuseTable (h : GroupsRise s) (id : Nat) (c : Cmd) (trim : Bool) (status : Nat) : GroupsRise (refuseTable id c trim status s) :=
  h.beside (does_refuseTable _ _ _ _ (.refl _ _) rfl)

theorem runTable (h : GroupsRise s) (id : Nat) (c : Cmd) (trim : Bool) (vals : List Nat) (bad : Bool) :
    GroupsRise (runTable id c trim vals bad s) := by
  unfold Machine.runTable
  extract_lets r m
  exact ite (h.refuseTable _ _ _ _)
    (ite (beside (cmdRun h.same _) (does_sendTable _ (.refl _ _) rfl)) (writeTable (h.cmdRun id) _))

theorem tableCmd (h : GroupsRise s) (id : Nat) (trim : Bool) (data : Option (List Byte)) : NextRises (tableCmd id trim data s) := by
  unfold Machine.tableCmd
  split
  · exact .ok h
  · extract_lets r n v bytes s1
    have h1 : GroupsRise s1 := h.same
    refine .ite (.ok (h.refuseTable _ _ _ _)) (.ite (.ok (h.runTable _ _ _ _ _)) ?_)
    split
    · exact .ok (h1.refuseTable _ _ _ _)
    · exact .withLen (h1.runTable _ _ _ _ _) _ _

theorem tableReply (h : GroupsRise s) (tag reply status : Nat) : GroupsRise (tableReply tag reply status s) := by
  unfold Machine.tableReply
  split
  · exact h
  · exact ite h (ite (h.writeTable _) (ite (completeOpt (beside h.same (does_msgRecord _ _ (.refl _ _) rfl)) _ _ _)
      (ite (h.beside (does_finishTable _ _ (.refl _ _) rfl)) h)))

theorem execDxpTableReply (h : GroupsRise s) (tag : BitVec 16) (reply : Fin 3) (status : Byte) :
    NextRises (execDxpTableReply tag reply status s) :=
  .ite (.ok (h.tableReply _ _ _)) (.ok h)

theorem execDxpTableCommit (h : GroupsRise s) (tag : BitVec 16) : NextRises (execDxpTableCommit tag s) := by
  unfold Machine.execDxpTableCommit
  refine .ite (.ok h) ?_
  split
  · exact .ite (.ok (h.writeTable _)) (.ok h)
  · exact .ok h

/-! ### The twin link (R289, R295, R307, R308) -/

theorem paceLost (h : GroupsRise s) : GroupsRise (paceLost s) := ite (h.abortOrDiscardFree _ _ _) h

theorem linkLost (h : GroupsRise s) : GroupsRise (linkLost s) := by
  unfold Machine.linkLost
  extract_lets s1 s2
  have h1 : GroupsRise s1 := h.beside (does_tableLinkLost (does_endHandover _ (.refl _ _) rfl) rfl)
  have h2 : GroupsRise s2 := ite (h1.armEnd _) h1
  exact ite h2 (ite (paceLost (beside h2.same (does_dropRole (.refl _ _) rfl))) (h2.beside (does_goSolo (.refl _ _) rfl)))

theorem dxpPreset (h : GroupsRise s) : GroupsRise (dxpPreset s) := h.beside (does_dxpPreset (.refl _ _) rfl)

theorem linkDown (h : GroupsRise s) : GroupsRise (linkDown s) := by
  unfold Machine.linkDown
  extract_lets before g s1
  have h1 : GroupsRise s1 := h.dxpPreset
  exact linkLost (raiseItems h1.same _ _ _)

theorem twnCtrl (h : GroupsRise s) (v : Nat) : GroupsRise (twnCtrl v s) := by
  unfold Machine.twnCtrl
  extract_lets s1 s2 twn s3
  have h1 : GroupsRise s1 := h.same
  have h2 : GroupsRise s2 := h1.dxpPreset
  have h3 : GroupsRise s3 := h2.same
  exact ite (ite h1.dxpPreset h1) (ite h3.linkLost h3)

theorem execDxpLinkTimeout (h : GroupsRise s) : NextRises (execDxpLinkTimeout s) := .ite (.ok h.linkDown) (.ok h)

theorem discardMsg (h : GroupsRise s) : GroupsRise (discardMsg s) := h.beside (does_discardMsg (.refl _ _) rfl)

theorem execDxpDigest (h : GroupsRise s) (group : W32) (round2 : Bool) (mask : BitVec 128) (digests : List W64) :
    NextRises (execDxpDigest group round2 mask digests s) := by
  unfold Machine.execDxpDigest
  extract_lets j ds lanes
  refine .ite (.ok h) (.ite (.ok h.discardMsg) ?_)
  split
  · exact .ite (.ok h) (.ok h.same)
  next st hst =>
    split
    · exact .ite (.ok h) (.ok (setStripe (h.stripe hst)))
    · exact .ite (.ok h) (.ite (.ok ((h.grpPut _ _).voteGroup _)) (.ok ((h.grpPut _ _).voteGroup _)))

theorem execPartnerDead (h : GroupsRise s) : NextRises (execPartnerDead s) := by
  unfold Machine.execPartnerDead
  refine .ite (.ok h) ?_
  extract_lets twn s1 pac s2
  have h1 : GroupsRise s1 := raiseItems h.same _ _ _
  have h2 : GroupsRise s2 := ite h1.same h1
  exact .ok h2.paceLost

end GroupsRise

end Sys2Proof.Machine
end

section
/-! PROOFS. The order of the groups under the loft, the gang and the resets (09, 11, 14). -/

-- One theorem at a time, as under Laws/: the package as one text takes too much memory in many threads.
set_option Elab.async false

namespace Sys2Proof.Machine

namespace GroupsRise

variable {s t : State}

/-! ### Loft reads (R334, R338, R342) -/

theorem loftFlow (h : GroupsRise s) : GroupsRise (loftFlow s) := landBursts (h.beside (does_loftGoOn (.refl _ _) rfl))

theorem execLoftRequestIssue (h : GroupsRise s) (c : Fin 12) : NextRises (execLoftRequestIssue c s) :=
  .ite (.ok (loftFlow (h.beside (does_issueNext _ (.refl _ _) rfl)))) (.ok h)

theorem addLoss (h : GroupsRise s) (r : MkRec) : GroupsRise (addLoss r s) := by
  unfold Machine.addLoss
  split
  · exact h
  next st hst =>
    refine ite h ?_
    extract_lets j late s1
    have h1 : GroupsRise s1 := setStripe (h.stripe hst)
    exact ite (h1.raiseStripeLoss _) h1

theorem loseRead (h : GroupsRise s) (q : LftReq) : GroupsRise (loseRead q s) := by
  unfold Machine.loseRead
  split
  · exact h
  · exact ite (h.addLoss _) (ite (h.foldl (fun _ _ hu => hu.addLoss _) _) h)

theorem deliverRead (h : GroupsRise s) (q : LftReq) (cls : Nat) (bs : List Byte) : GroupsRise (deliverRead q cls bs s) := by
  unfold Machine.deliverRead
  split
  case h_1 => exact ite (h.loseRead q) h
  case h_2 => exact h.same
  case h_3 => exact h.beside (does_scanFeed _ _ _ (.refl _ _) rfl)
  case h_4 => exact h.beside (does_loadFeed _ _ _ (.refl _ _) rfl)
  case h_5 => exact h.beside (does_readbackFeed _ _ (.refl _ _) rfl)
  case h_6 => exact h.admitFeed _ _
  case h_7 => exact h.same

theorem finishRead (h : GroupsRise s) (q : LftReq) (e : DramErr) : GroupsRise (finishRead q e s) := by
  unfold Machine.finishRead
  refine ite (h.deliverRead _ _ _) ?_
  exact deliverRead (beside (ite h (h.beside (does_strikeBlock _ _ (.refl _ _) rfl))) (does_decodeBlock _ _ _ _ _ (.refl _ _) rfl)) _ _ _

theorem execLoftReadComplete (h : GroupsRise s) (c : Fin 12) (err : DramErr) (mapErr : Bool) :
    NextRises (execLoftReadComplete c err mapErr s) := by
  unfold Machine.execLoftReadComplete
  extract_lets x
  split
  · exact .ok h
  · extract_lets s1 s2
    have h1 : GroupsRise s1 := h.same
    have h2 : GroupsRise s2 := ite (h1.beside (does_loseMapWord _ (.refl _ _) rfl)) h1
    exact .ok (loftFlow (beside (h2.finishRead _ _) (does_payOwed _ (.refl _ _) rfl)))

theorem execFillEngineStart (h : GroupsRise s) : NextRises (execFillEngineStart s) := .ok h.loftFlow

theorem execFillEngineDone (h : GroupsRise s) (e : Fin 8) : NextRises (execFillEngineDone e s) :=
  .ok (loftFlow (h.beside (does_fillRegion _ (.refl _ _) rfl)))

/-! ### The loss of a loft channel (R354, R355) -/

theorem failRequests (h : GroupsRise s) (c : Nat) : GroupsRise (failRequests c s) :=
  foldl h.same (fun _ _ hu => deliverRead (hu.beside (does_noteUe _ _ _ (does_freeBlock (.refl _ _) rfl) rfl)) _ _ _) _

theorem loseAdmission (h : GroupsRise s) : GroupsRise (loseAdmission s) := by
  unfold Machine.loseAdmission
  split
  · exact ite h.same (h.dropAdmission _)
  · exact h

theorem retireChannel (h : GroupsRise s) (c cause : Nat) : GroupsRise (retireChannel c cause s) := by
  unfold Machine.retireChannel
  extract_lets s1
  have h1 : GroupsRise s1 := beside (((h.failRequests c).abortOrDiscard _ _ _ _).loseAdmission)
    (does_channelOut _ _ (does_clearLoft (does_failTransfers (.refl _ _) rfl) rfl) rfl)
  exact ite h (raiseItems (h1.beside (does_moveScans _ (.refl _ _) rfl)) _ _ _)

theorem execLoftChannelFault (h : GroupsRise s) (c : Fin 12) (rcd : Bool) : NextRises (execLoftChannelFault c rcd s) :=
  .ite (.ok (h.retireChannel _ _)) (.ite (.ok (h.retireChannel _ _)) (.ok h))

theorem lftRetireOp (h : GroupsRise s) (c : Nat) : GroupsRise (lftRetireOp c s) := h.retireChannel _ _

theorem execPfwRecognized (h : GroupsRise s) : NextRises (execPfwRecognized s) :=
  .ite (.ok h) (.ok (abortFault (raiseItems h.same _ _ _)))

/-! ### The gang (R416, R417) -/

theorem gangAbortIn (h : GroupsRise s) : GroupsRise (gangAbortIn s) := by
  unfold Machine.gangAbortIn
  split
  · exact ite (h.abortOrDiscardFree _ _ _) (h.abortOrDiscard _ _ _ _)
  · exact h

theorem gangAct (h : GroupsRise s) (f : GangFrame) : GroupsRise (gangAct f s) := by
  unfold Machine.gangAct
  extract_lets acts s1
  have h1 : GroupsRise s1 := h.raiseItems _ _ _
  exact ite (h.raiseItems _ _ _) (ite (h.raiseItems _ _ _) (ite (ite h1.gangAbortIn h1) h))

theorem cntTim (h : GroupsRise s) (ev : Nat) (u : Option Nat) (n : Nat) : GroupsRise (cntTim ev u n s) :=
  h.beside (does_cntTim _ _ _ (.refl _ _) rfl)

theorem gangRx (h : GroupsRise s) (f : GangFrame) : GroupsRise (gangRx f s) := by
  unfold Machine.gangRx
  extract_lets s1 old isNew src kept x s2
  have h1 : GroupsRise s1 := h.beside (does_frameReceived _ (.refl _ _) rfl)
  have h2 : GroupsRise s2 := h1.same
  refine ite h (ite ?_ (ite (ite h1 (raiseItems h1.same _ _ _)) (ite (cntTim h2.same _ _ _) (gangAct (cntTim h2.same _ _ _) f))))
  exact beside (ite (h1.beside (does_chkFrame _ _ _ (.refl _ _) rfl)) h1) (does_discardFrame _ (.refl _ _) rfl)

/-! ### Resets, start-up and FATAL (R463, R465, R472, R478, R479, R505) -/

theorem resetAll (s : State) (cause : Nat) (pcie : Bool) : GroupsRise (resetAll cause pcie s) := of_none rfl

theorem glbResetOp (h : GroupsRise s) (v : Nat) : GroupsRise (glbResetOp v s) :=
  ite (beside (resetAll s _ _) (does_beginStartup (.refl _ _) rfl)) h

theorem execPowerOn (s : State) : NextRises (execPowerOn s) := .ok (of_none rfl)

theorem execSysRstNFall (h : GroupsRise s) : NextRises (execSysRstNFall s) := .ite (.ok (resetAll s _ _)) (.ok h)

theorem selftestFail (h : GroupsRise s) (f : SelfTestFail) : GroupsRise (selftestFail f s) := by
  cases f with
  | sram i noSpare => exact h.raiseItems _ _ _
  | thresher t => exact (h.raiseItems _ _ _).retireThresher _ _
  | ingest u =>
    have h1 : GroupsRise (Machine.raiseItems 0x0002 4 [(1, 3), (2, u), (1, 1)] s) := h.raiseItems _ _ _
    exact ite h1 (raiseItems h1.same _ _ _)
  | dose => exact h.raiseItems _ _ _
  | chk u => exact raiseItems (h.drawFree.same) _ _ _

theorem execSelftestDone (h : GroupsRise s) (fails : List SelfTestFail) : NextRises (execSelftestDone fails s) := by
  unfold Machine.execSelftestDone
  refine .ite (.ok h) ?_
  extract_lets chk s1
  have h1 : GroupsRise s1 := foldl h.same (fun _ _ hu => hu.selftestFail _) _
  clear_value s1
  split
  · exact .ok (h1.goFatal _ _ _)
  · exact .ok (foldl h1.same (fun _ _ hu => hu.same) _)

theorem execPllLockLoss (h : GroupsRise s) (unit : Byte) (hkRuns : Bool) : NextRises (execPllLockLoss unit hkRuns s) :=
  .ite (.ok (h.fatalBy _ _ _ _)) (.ok h)

theorem execSupplyFault (h : GroupsRise s) (unit : Byte) (hkRuns : Bool) : NextRises (execSupplyFault unit hkRuns s) :=
  .ite (.ok (fatalBy h.same _ _ _ _)) (.ok h)

theorem execWatchdogExpiry (h : GroupsRise s) (unit : Byte) : NextRises (execWatchdogExpiry unit s) :=
  .ite (.ok (h.goFatal _ _ _)) (.ok h)

theorem execDieTempRead (h : GroupsRise s) (t : BitVec 16) : NextRises (execDieTempRead t s) := by
  unfold Machine.execDieTempRead
  extract_lets v rise hot glb s1 s2
  have h1 : GroupsRise s1 := h.same
  have h2 : GroupsRise s2 := ite (h1.raiseItems _ _ _) h1
  exact .ite (.ok h) (.ok (ite (h2.goFatal _ _ _) h2))

end GroupsRise

end Sys2Proof.Machine
end

section
/-! PROOFS. The order of the groups under register accesses (R186, R427, R445, R495 to R504), under every command, and O5. -/

-- One theorem at a time, as under Laws/: the package as one text takes too much memory in many threads.
set_option Elab.async false

namespace Sys2Proof.Machine

/-- Every state that a register's own write rule gives has its groups in order. -/
def OwnRises (o : Option State) : Prop := ∀ t, o = some t → GroupsRise t

namespace OwnRises

variable {t : State} {o o' : Option State}

theorem none : OwnRises none := fun _ e => by cases e

theorem some (h : GroupsRise t) : OwnRises (some t) := fun _ e => by cases e; exact h

theorem ite {c : Prop} [Decidable c] (h : OwnRises o) (g : OwnRises o') : OwnRises (if c then o else o') := by
  split <;> assumption

end OwnRises

namespace GroupsRise

variable {s t : State}

/-! ### Writes -/

theorem vlimMoved (h : GroupsRise s) : GroupsRise (vlimMoved s) := by
  unfold Machine.vlimMoved
  split
  · exact ite (h.raiseOverrun _ _) h
  · exact h

theorem rwpEffect (h : GroupsRise s) (off was : Nat) : GroupsRise (rwpEffect off was s) :=
  ite h.vlimMoved (ite (h.beside (does_predSelected _ (.refl _ _) rfl)) h)

theorem rwpRecord (h : GroupsRise s) (off v req flags : Nat) : GroupsRise (rwpRecord off v req flags s) :=
  h.beside (does_rwpRecord _ _ _ _ (.refl _ _) rfl)

theorem recordBad (h : GroupsRise s) (kind off : Nat) : GroupsRise (recordBad kind off s) := h

theorem regSet (h : GroupsRise s) (off v : Nat) : GroupsRise (regSet s off v) := h

theorem takeHalf (h : GroupsRise s) (lo : Nat) : GroupsRise (takeHalf lo s) := h.beside (does_takeHalf _ (.refl _ _) rfl)

theorem rwpWrite (h : GroupsRise s) (off v req : Nat) : GroupsRise (rwpWrite off v req s) := by
  unfold Machine.rwpWrite
  extract_lets m old was s1
  have h1 : GroupsRise s1 := regSet (ite (h.takeHalf _) h) _ _
  refine ite (h.rwpRecord _ _ _ _) (ite (rwpRecord (h.recordBad _ _) _ _ _ _) (ite (h.rwpRecord _ _ _ _) (ite (rwpRecord h.same _ _ _ _) ?_)))
  exact ite (h1.rwpRecord _ _ _ _) (rwpEffect (beside (h1.rwpRecord _ _ _ _) (does_persist _ _ (.refl _ _) rfl)) _ _)

theorem ownWrite (h : GroupsRise s) (off v req : Nat) : OwnRises (ownWrite off v req s) := by
  unfold Machine.ownWrite
  extract_lets b o
  refine .ite (.ite (.some (h.glbResetOp _)) (.ite (.some (ite (h.beside (does_trySnap (.refl _ _) rfl)) h)) .none)) ?_
  refine .ite (.ite (.some (h.beside (does_hstCtrl _ (.refl _ _) rfl))) (.ite (.some h)
    (.ite (.some (h.beside (does_chainCtrl _ _ (.refl _ _) rfl))) .none))) ?_
  refine .ite (.some (h.thrRetireOp _)) (.ite (.some (beside (h.regSet _ _) (does_paceLinkOp (.refl _ _) rfl))) ?_)
  refine .ite (.ite (.some (beside (h.regSet _ _) (does_encEnable _ _ (.refl _ _) rfl)))
    (.ite (.some (h.beside (does_presetHi _ _ (.refl _ _) rfl))) (.ite (.some (h.beside (does_calCtrlOp _ _ (.refl _ _) rfl)))
    (.ite (.some (h.beside (does_xrefHi _ (.refl _ _) rfl))) (.ite (.some (h.beside (does_cmpCtrlOp _ _ (.refl _ _) rfl)))
    (.ite (.some (beside (regSet (h.takeHalf _) _ _) (does_cmpCommit _ _ (.refl _ _) rfl))) .none)))))) ?_
  refine .ite (.some (h.laneCtrl _ _ _)) (.ite (.some (h.twnCtrl _)) ?_)
  refine .ite (.ite (.some (ite (h.lftRetireOp _) h)) (.ite (.some (h.beside (does_lftCfg _ (.refl _ _) rfl)))
    (.ite (.some (h.beside (does_invalCtrl _ (.refl _ _) rfl))) (.ite (.some (beside (h.regSet _ _) (does_weevilCtrl _ (.refl _ _) rfl)))
    (.ite (.some (ite h.same h)) .none))))) ?_
  refine .ite (.ite (.some (h.beside (does_incrHi _ _ (.refl _ _) rfl))) (.ite (.some (h.beside (does_timCmd _ _ (.refl _ _) rfl)))
    (.ite (.some (ite h.same h)) (.ite (.some (h.beside (does_gangCtrlOp _ (.refl _ _) rfl)))
    (.ite (.some (ite (h.regSet _ _) (beside (h.regSet _ _) (does_portDown _ (.refl _ _) rfl))))
    (.ite (.some (h.beside (does_rxPop _ _ (.refl _ _) rfl))) (.ite (.some (h.beside (does_slotsWrite _ _ _ (.refl _ _) rfl))) .none))))))) ?_
  exact .ite (.some (h.beside (does_grnCtrl _ _ (.refl _ _) rfl))) (.ite (.some h.same) (.ite (.some (h.beside (does_sloCtrl _ (.refl _ _) rfl)))
    (.ite (.some (h.beside (does_trcCtrlOp _ (.refl _ _) rfl))) (.ite (.some (h.beside (does_cntCfg _ _ (.refl _ _) rfl))) .none))))

theorem writeReg (h : GroupsRise s) (off v req : Nat) : GroupsRise (writeReg off v req s) := by
  unfold Machine.writeReg
  extract_lets m
  refine ite (h.rwpWrite _ _ _) (ite (h.recordBad _ _) (ite h.same ?_))
  split
  next t ht => exact h.ownWrite off v req t ht
  next => exact beside (ite (h.regSet _ _) h) (does_w1cWrite _ _ (.refl _ _) rfl)

theorem arrive (h : GroupsRise s) (off v req : Nat) : GroupsRise (arrive off v req s) := by
  unfold Machine.arrive
  extract_lets b rec_
  have hrec (kind : Nat) : GroupsRise (rec_ (Machine.recordBad kind off s)) := ite (rwpRecord (h.recordBad _ _) _ _ _ _) (h.recordBad _ _)
  exact ite (h.recordBad _ _) (ite (hrec 6) (ite (hrec 7) (h.writeReg _ _ _)))

theorem busWrite (h : GroupsRise s) (off v req : Nat) : GroupsRise (busWrite off v req s) := ite h.same (h.arrive _ _ _)

theorem arriveHeld (h : GroupsRise s) (w : HeldWrite) : GroupsRise (arriveHeld w s) :=
  ite (h.beside (does_arrivePart _ _ _ _ (.refl _ _) rfl)) (h.arrive _ _ _)

theorem replayHeld (h : GroupsRise s) (n : Nat) : GroupsRise (replayHeld n s) := by
  induction n generalizing s with
  | zero => exact h
  | succ n ih =>
    unfold Machine.replayHeld
    split
    · exact h
    · exact ite h (ih (arriveHeld h.same _))

theorem releaseHeld (h : GroupsRise s) : GroupsRise (releaseHeld s) := h.replayHeld _

theorem writeDword (h : GroupsRise s) (off len be data req d : Nat) : GroupsRise (writeDword off len be data req d s) :=
  ite (h.busWrite _ _ _) (h.beside (does_busPart _ _ _ _ (.refl _ _) rfl))

theorem bar0Write (h : GroupsRise s) (off len be data req : Nat) : GroupsRise (bar0Write off len be data req s) :=
  ite (h.recordBad _ _) (h.foldl (fun _ _ hu => hu.writeDword _ _ _ _ _ _) _)

theorem execRegisterWrite (h : GroupsRise s) (bar2 : Bool) (off : BitVec 24) (len : Nat) (be : Byte) (data : W64) (req : BitVec 16) :
    NextRises (execRegisterWrite bar2 off len be data req s) :=
  .ite (.ok h) (.ite (.ok (h.beside (does_bar2Write _ _ _ (.refl _ _) rfl))) (.ok (h.bar0Write _ _ _ _ _)))

/-! ### Reads -/

theorem busRead (h : GroupsRise s) (off : Nat) : GroupsRise (busRead off s).2 := by
  unfold Machine.busRead
  split
  · exact h.recordBad _ _
  · split
    · exact h
    · split
      · exact h.beside (does_readRaw _ (.refl _ _) rfl)
      · exact h.beside (@does_readLive _ s s off (.refl _ _) rfl)

theorem readDwords (h : GroupsRise s) (l : List Nat) : GroupsRise (readDwords l s).2 := by
  induction l generalizing s with
  | nil => exact h
  | cons d l ih => exact ih (h.busRead d)

theorem bar0Read (h : GroupsRise s) (off len : Nat) : GroupsRise (bar0Read off len s) :=
  ite h.same (same (h.readDwords (dwords off len)))

theorem execLoRegisterRead (h : GroupsRise s) (bar2 : Bool) (off : BitVec 24) (len : Nat) : NextRises (execLoRegisterRead bar2 off len s) :=
  .ite (.ok h) (.ite (.ite (.ok h) (.ok h.same)) (.ite (.ok h) (.ok (h.bar0Read _ _))))

theorem execObsCntFetch (h : GroupsRise s) (i : Fin 512) : NextRises (execObsCntFetch i s) := .ite (.ok h) (.ok (h.bar0Read _ _))

/-! ### The persist queue and the power-fail warning (R427, R445) -/

theorem settleJobs (h : GroupsRise s) : GroupsRise (settleJobs s) := h.beside (does_settleJobs (.refl _ _) rfl)

theorem execPersistQueueDrain (h : GroupsRise s) : NextRises (execPersistQueueDrain s) :=
  .ite (.ok h) (.ok (releaseHeld (h.beside (does_drainOne (.refl _ _) rfl))))

theorem pfwRecover (h : GroupsRise s) : GroupsRise (pfwRecover s) := settleJobs (releaseHeld h.same)

theorem execPfwSequenceDone (h : GroupsRise s) : NextRises (execPfwSequenceDone s) := by
  unfold Machine.execPfwSequenceDone
  extract_lets s1
  have h1 : GroupsRise s1 := h.beside (does_pfwSave (.refl _ _) rfl)
  exact .ite (.ok h) (.ok (ite h1.pfwRecover h1))

theorem execPfwNRise (h : GroupsRise s) : NextRises (execPfwNRise s) := by
  unfold Machine.execPfwNRise
  extract_lets pins grn s1
  have h1 : GroupsRise s1 := h.same
  exact .ok (ite h1.pfwRecover h1)

theorem execPfwNStableHigh (h : GroupsRise s) : NextRises (execPfwNStableHigh s) :=
  .ite (.ok (settleJobs (releaseHeld h.same))) (.ok h)

/-- Every command keeps the order of the groups. -/
theorem exec (h : GroupsRise s) (c : Instr) : NextRises (exec c s) := by
  cases c with
  | rwpRegisterWrite | glbReset | glbSnap | thrRetire | pacVlimWrite | paceLinkEnable | encCppIntWrite
  | encPresetLoad | encChannelEnable | cmpArm | cmpDisarm | cmpTgtHiWrite | swlLaneEnable | swlLaneDisable | retrain
  | loopWrite | twnLinkEnable | lftInval | lftRetire | lftRptClear | lftPredWrite | weevilArm | weevilDisarm
  | timIncrHiWrite | timLoad | timAdjust | timSwitch | ptpTxGo | timRxPop | gangDisable | wipe | checkpoint
  | sloFreeze | sloUnfreeze | obsCntCfgWrite | obsCntClear | traceEnable | hstEnable | hstDisable | chainDisable => exact .ok (h.busWrite _ _ _)
  | gangStartRx | gangUserRx | gangAbortRx | gangIdClash | gangFrameRefused => exact .ok (h.gangRx _)
  | powerOn => exact GroupsRise.execPowerOn _
  | sysRstNFall => exact h.execSysRstNFall
  | sysRstNRise => exact .beside h (does_execSysRstNRise (.refl _ _) rfl)
  | clocksLocked => exact .beside h (does_execClocksLocked (.refl _ _) rfl)
  | selftestDone _ => exact h.execSelftestDone _
  | granaryLoadDone _ => exact .beside h (does_execGranaryLoadDone _ (.refl _ _) rfl)
  | loftChannelTrained _ _ _ _ => exact .beside h (does_execLoftChannelTrained _ _ _ _ (.refl _ _) rfl)
  | loftTrained => exact .beside h (does_execLoftTrained (.refl _ _) rfl)
  | startupDone _ => exact .beside h (does_execStartupDone _ (.refl _ _) rfl)
  | pllLockLoss _ _ => exact h.execPllLockLoss _ _
  | supplyFault _ _ => exact h.execSupplyFault _ _
  | watchdogExpiry _ => exact h.execWatchdogExpiry _
  | dieTempRead _ => exact h.execDieTempRead _
  | pfwNFall => exact .beside h (does_execPfwNFall (.refl _ _) rfl)
  | pfwRecognized => exact h.execPfwRecognized
  | pfwSequenceDone => exact h.execPfwSequenceDone
  | pcieLinkReset _ => exact .beside h (does_execPcieLinkReset _ (.refl _ _) rfl)
  | pciePerstN _ => exact .beside h (does_execPciePerstN _ (.refl _ _) rfl)
  | registerWrite _ _ _ _ _ _ => exact h.execRegisterWrite _ _ _ _ _ _
  | persistQueueDrain => exact h.execPersistQueueDrain
  | granaryWordWriteDone _ => exact .beside h (does_execGranaryWordWriteDone _ (.refl _ _) rfl)
  | loRegisterRead _ _ _ => exact h.execLoRegisterRead _ _ _
  | ptpTxDone _ _ => exact .beside h (does_execPtpTxDone _ _ (.refl _ _) rfl)
  | wearCheckpointTimer => exact .beside h (does_execWearCheckpointTimer (.refl _ _) rfl)
  | grnRawRead _ => exact .beside h (does_execGrnRawRead _ (.refl _ _) rfl)
  | obsCntFetch _ => exact h.execObsCntFetch _
  | traceCounterPeriod => exact .beside h (does_execTraceCounterPeriod (.refl _ _) rfl)
  | traceAlign => exact .beside h (does_execTraceAlign (.refl _ _) rfl)
  | traceLoss => exact .beside h (does_execTraceLoss (.refl _ _) rfl)
  | doorbellPoll => exact .beside h (does_execDoorbellPoll (.refl _ _) rfl)
  | doorbellPollComplete _ => exact .beside h (does_execDoorbellPollComplete _ (.refl _ _) rfl)
  | commandFetchComplete _ => exact .beside h (does_execCommandFetchComplete _ (.refl _ _) rfl)
  | commandStart _ => exact .beside h (does_execCommandStart _ (.refl _ _) rfl)
  | holdQueueDrain => exact .beside h (does_execHoldQueueDrain (.refl _ _) rfl)
  | msixModerationTimer => exact .beside h (does_execMsixModerationTimer (.refl _ _) rfl)
  | descriptorReadComplete _ _ => exact .beside h (does_execDescriptorReadComplete _ _ (.refl _ _) rfl)
  | dmaBurstStart _ => exact .beside h (does_execDmaBurstStart _ (.refl _ _) rfl)
  | dmaBurstEnd _ _ => exact h.execDmaBurstEnd _ _
  | descriptorEnd _ => exact .beside h (does_execDescriptorEnd _ (.refl _ _) rfl)
  | nop _ => exact .beside h (does_execNop _ (.refl _ _) rfl)
  | sheafLoad _ => exact .beside h (does_execSheafLoad _ (.refl _ _) rfl)
  | stripeAdmit _ => exact h.execStripeAdmit _
  | admitGuardWaitEnd => exact h.execAdmitGuardWaitEnd
  | stripeArm _ => exact h.execStripeArm _
  | prerollComplete => exact h.execPrerollComplete
  | stripeAbort _ => exact h.execStripeAbort _
  | makeupArmList _ => exact .beside h (does_execMakeupArmList _ (.refl _ _) rfl)
  | makeupArmArm _ _ => exact h.execMakeupArmArm _ _
  | beamMapSet _ _ => exact h.tableCmd _ _ _
  | trimSet _ _ => exact h.tableCmd _ _ _
  | tableChangeEffect => exact .beside h (does_execTableChangeEffect (.refl _ _) rfl)
  | tableSwitchRelease => exact .beside h (does_execTableSwitchRelease (.refl _ _) rfl)
  | scanCheck _ => exact .beside h (does_execScanCheck _ (.refl _ _) rfl)
  | readback _ => exact .beside h (does_execReadback _ (.refl _ _) rfl)
  | calEncMeasure _ => exact .beside h (does_execCalEncMeasure _ (.refl _ _) rfl)
  | calEncStore _ => exact .beside h (does_execCalEncStore _ (.refl _ _) rfl)
  | calEncLoad _ => exact .beside h (does_execCalEncLoad _ (.refl _ _) rfl)
  | calEncRestore _ => exact .beside h (does_execCalEncRestore _ (.refl _ _) rfl)
  | calEncTimeout _ => exact .beside h (does_execCalEncTimeout _ (.refl _ _) rfl)
  | twinPair _ => exact .beside h (does_execTwinPair _ (.refl _ _) rfl)
  | twinPairDissolve _ => exact .beside h (does_execTwinPairDissolve _ (.refl _ _) rfl)
  | twinPairTimeout => exact .beside h (does_execTwinPairTimeout (.refl _ _) rfl)
  | twinHandover _ => exact .beside h (does_execTwinHandover _ (.refl _ _) rfl)
  | gangLaunchCancel _ => exact .beside h (does_execGangLaunchCancel _ (.refl _ _) rfl)
  | gangLaunchStart _ => exact .beside h (does_execGangLaunchStart _ (.refl _ _) rfl)
  | gangLaunchAbort _ => exact .beside h (does_execGangLaunchAbort _ (.refl _ _) rfl)
  | gangLaunchUser _ => exact .beside h (does_execGangLaunchUser _ (.refl _ _) rfl)
  | gangLaunchDue => exact .beside h (does_execGangLaunchDue (.refl _ _) rfl)
  | gangFrameSent _ _ => exact .beside h (does_execGangFrameSent _ _ (.refl _ _) rfl)
  | snapshot _ => exact .beside h (does_execSnapshot _ (.refl _ _) rfl)
  | snapshotDue => exact .beside h (does_execSnapshotDue (.refl _ _) rfl)
  | timeTick => exact .beside h (does_execTimeTick (.refl _ _) rfl)
  | setpointInstant => exact h.execSetpointInstant
  | runUpStart => exact h.execRunUpStart
  | stopAtRest => exact h.execStopAtRest
  | encSample _ _ _ _ => exact h.execEncSample _ _ _ _
  | speedEdge _ _ => exact .beside h (does_execSpeedEdge _ _ (.refl _ _) rfl)
  | stillTimeout _ => exact .beside h (does_execStillTimeout _ (.refl _ _) rfl)
  | calWindowClose _ => exact .beside h (does_execCalWindowClose _ (.refl _ _) rfl)
  | calSlewEnd _ => exact .beside h (does_execCalSlewEnd _ (.refl _ _) rfl)
  | slotTrigger _ _ => exact h.execSlotTrigger _ _
  | groupQueueOpen => exact h.execGroupQueueOpen
  | runComplete _ _ => exact h.execRunComplete _ _
  | groupBuilt => exact h.execGroupBuilt
  | round2Built => exact h.execRound2Built
  | groupDeadline => exact h.execGroupDeadline
  | rleJobComplete _ => exact h.execRleJobComplete _
  | ingestUnitFailure _ => exact h.execIngestUnitFailure _
  | cribFillComplete => exact h.execCribFillComplete
  | loftReadComplete _ _ _ => exact h.execLoftReadComplete _ _ _
  | loftRequestIssue _ => exact h.execLoftRequestIssue _
  | loftWriteBatch _ => exact .beside h (does_execLoftWriteBatch _ (.refl _ _) rfl)
  | refreshDue _ => exact .beside h (does_execRefreshDue _ (.refl _ _) rfl)
  | dimmTempRead _ _ _ => exact .beside h (does_execDimmTempRead _ _ _ (.refl _ _) rfl)
  | fillEngineStart => exact h.execFillEngineStart
  | fillEngineDone _ => exact h.execFillEngineDone _
  | gleanerRead _ _ => exact .beside h (does_execGleanerRead _ _ (.refl _ _) rfl)
  | gleanerLapSlow _ => exact .beside h (does_execGleanerLapSlow _ (.refl _ _) rfl)
  | loftChannelFault _ _ => exact h.execLoftChannelFault _ _
  | returnStatus _ _ _ _ _ _ => exact h.execReturnStatus _ _ _ _ _ _
  | returnTapReq _ _ _ _ _ => exact h.execReturnTapReq _ _ _ _ _
  | returnTrained k lane seq => exact h.execReturnTrained k lane seq
  | returnPrbsResult _ _ _ _ => exact h.execReturnPrbsResult _ _ _ _
  | returnIdle k fill => exact .beside h (does_execReturnIdle k fill (.refl _ _) rfl)
  | returnLaneTimeout _ => exact .beside h (does_execReturnLaneTimeout _ (.refl _ _) rfl)
  | returnDownSettle _ => exact h.execReturnDownSettle _
  | frameSettleTimeout _ => exact h.execFrameSettleTimeout _
  | laneMessageTimeout _ => exact h.execLaneMessageTimeout _
  | trainTimeout _ => exact h.execTrainTimeout _
  | noPartnerTimeout _ => exact .beside h (does_execNoPartnerTimeout _ (.refl _ _) rfl)
  | quadPllUnlock _ => exact h.execQuadPllUnlock _
  | quadPllRelock _ => exact h.execQuadPllRelock _
  | amTimer => exact .beside h (does_execAmTimer (.refl _ _) rfl)
  | trainBlock _ => exact .beside h (does_execTrainBlock _ (.refl _ _) rfl)
  | dxpDigest _ _ _ _ => exact h.execDxpDigest _ _ _ _
  | dxpAbort _ _ => exact h.execDxpAbort _ _
  | dxpHandoverRequest => exact .beside h (does_execDxpHandoverRequest (.refl _ _) rfl)
  | dxpHandoverPropose _ => exact .beside h (does_execDxpHandoverPropose _ (.refl _ _) rfl)
  | dxpHandoverAccept _ => exact .beside h (does_execDxpHandoverAccept _ (.refl _ _) rfl)
  | dxpHandoverCommit _ => exact .beside h (does_execDxpHandoverCommit _ (.refl _ _) rfl)
  | dxpArmReady _ => exact h.execDxpArmReady _
  | dxpArmResult _ => exact h.execDxpArmResult _
  | dxpTable _ => exact .beside h (does_execDxpTable _ (.refl _ _) rfl)
  | dxpTableReply _ _ _ => exact h.execDxpTableReply _ _ _
  | dxpTableCommit _ => exact h.execDxpTableCommit _
  | dxpHello _ => exact .beside h (does_execDxpHello _ (.refl _ _) rfl)
  | dxpHeartbeat _ => exact .beside h (does_execDxpHeartbeat _ (.refl _ _) rfl)
  | heartbeatDue => exact .beside h (does_execHeartbeatDue (.refl _ _) rfl)
  | dxpLinkTimeout => exact h.execDxpLinkTimeout
  | dxpQuietEnd => exact .beside h (does_execDxpQuietEnd (.refl _ _) rfl)
  | dxpTrainTimeout => exact .beside h (does_execDxpTrainTimeout (.refl _ _) rfl)
  | dxpNoPartner => exact .beside h (does_execDxpNoPartner (.refl _ _) rfl)
  | twinArmTimeout => exact h.execTwinArmTimeout
  | partnerDead => exact h.execPartnerDead
  | roleTake => exact .beside h (does_execRoleTake (.refl _ _) rfl)
  | ethPortUp _ => exact .beside h (does_execEthPortUp _ (.refl _ _) rfl)
  | ethPortDown _ => exact .beside h (does_execEthPortDown _ (.refl _ _) rfl)
  | ptpFrameRx _ _ _ => exact .beside h (does_execPtpFrameRx _ _ _ (.refl _ _) rfl)
  | ethFrameDiscard _ _ => exact .beside h (does_execEthFrameDiscard _ _ (.refl _ _) rfl)
  | partnerLive => exact .beside h (does_execPartnerLive (.refl _ _) rfl)
  | dxpTrainBlockRx _ _ _ _ _ _ => exact .beside h (does_execDxpTrainBlockRx _ _ _ _ _ _ (.refl _ _) rfl)
  | dxpMessageDiscard => exact .beside h (does_execDxpMessageDiscard (.refl _ _) rfl)
  | returnMessageDiscard _ => exact .beside h (does_execReturnMessageDiscard _ (.refl _ _) rfl)
  | alignAm _ => exact .beside h (does_execAlignAm _ (.refl _ _) rfl)
  | msixVectorUnmask _ _ => exact .beside h (does_execMsixVectorUnmask _ _ (.refl _ _) rfl)
  | pfwNRise => exact h.execPfwNRise
  | pfwNStableHigh => exact h.execPfwNStableHigh
  | loftAlert _ => exact .beside h (does_execLoftAlert _ (.refl _ _) rfl)
  | loftRowTimeout _ _ => exact .beside h (does_execLoftRowTimeout _ _ (.refl _ _) rfl)
  | admissionComplete => exact h.execAdmissionComplete
  | readbackComplete => exact .beside h (does_execReadbackComplete (.refl _ _) rfl)
  | traceRecordSent => exact .beside h (does_execTraceRecordSent (.refl _ _) rfl)
  | pcieLinkUp _ _ _ _ => exact .beside h (does_execPcieLinkUp _ _ _ _ (.refl _ _) rfl)

end GroupsRise

/-- Settles O5: every command keeps the order, as each change of the groups keeps their keys, filters them or puts one in its place. -/
theorem stepKeepsGroups : Obligations.StepKeepsGroups := by
  intro s t h hst
  unfold step at hst
  split at hst
  · cases hst
    exact h
  next c _ _ => exact GroupsRise.exec h.same c t hst

end Sys2Proof.Machine
end

section
/-! PROOFS. Swath and return lanes (R255, R260 to R267, R270): what entering and leaving a lane state does to the lane, and what it leaves
alone. -/

-- One theorem at a time, as under Laws/: the package as one text takes too much memory in many threads.
set_option Elab.async false

namespace Sys2Proof.Machine

/-! ### What reads the swath block -/

theorem laneGet_congr {s t : State} (h : t.swl.lanes = s.swl.lanes) (l : Nat) : laneGet t l = laneGet s l := by rw [laneGet, laneGet, h]

theorem retGet_congr {s t : State} (h : t.swl.ret = s.swl.ret) (k : Nat) : retGet t k = retGet s k := by rw [retGet, retGet, h]

theorem tapInit_congr {s t : State} (h : t.regs = s.regs) (l : Nat) : tapInit t l = tapInit s l := by rw [tapInit, tapInit, regGet_congr h]

theorem laneEn_congr {s t : State} (h : t.regs = s.regs) (l : Nat) : laneEn t l = laneEn s l := by rw [laneEn, laneEn, regGet_congr h]

theorem laneLoop_congr {s t : State} (h : t.regs = s.regs) (l : Nat) : laneLoop t l = laneLoop s l := by
  rw [laneLoop, laneLoop, regGet_congr h]

variable {s t u : State}

/-- Operations that the event follows change nothing that its record shows of the state before. -/
theorem reported_after {code cls : Nat} (h : reported code cls u t) (hglb : u.glb = s.glb) (hslo : u.slo = s.slo) (htim : u.tim = s.tim) :
    reported code cls s t := by
  unfold reported nowA at h ⊢
  rwa [hglb, hslo, htim] at h

@[simp] theorem raiseItems_swl (code cls : Nat) (l : List (Nat × Nat)) (s : State) : (raiseItems code cls l s).swl = s.swl :=
  same_swl (raiseItems_only code cls l s) rfl

@[simp] theorem laneGet_raiseItems (code cls : Nat) (i : List (Nat × Nat)) (s : State) (l : Nat) :
    laneGet (raiseItems code cls i s) l = laneGet s l := laneGet_congr (by simp) l

@[simp] theorem retGet_raiseItems (code cls : Nat) (i : List (Nat × Nat)) (s : State) (k : Nat) :
    retGet (raiseItems code cls i s) k = retGet s k := retGet_congr (by simp) k

@[simp] theorem settleFrames_swl (cur : Bool) (l : Nat) (f : Nat × FrameFate × Bool → Nat × FrameFate × Bool) (s : State) :
    (settleFrames cur l f s).swl = s.swl :=
  same_swl (does_settleFrames (F := { Parts.events with pac := true, store := true }) cur l f (.refl _ s) rfl).only rfl

@[simp] theorem settleStatus_swl (l rx high map : Nat) (s : State) : (settleStatus l rx high map s).swl = s.swl :=
  same_swl (does_settleStatus (F := { Parts.events with pac := true, store := true }) l rx high map (.refl _ s) rfl).only rfl

/-! ### Outputs stay -/

/-- Every output of `s` is one of `t`. -/
def OutsGrow (s t : State) : Prop := ∀ o ∈ s.outs, o ∈ t.outs

namespace OutsGrow

theorem refl (s : State) : OutsGrow s s := fun _ h => h

theorem of_outs (h : t.outs = s.outs) : OutsGrow s t := fun _ ho => h ▸ ho

theorem trans (h : OutsGrow s t) (g : OutsGrow t u) : OutsGrow s u := fun o ho => g o (h o ho)

theorem ite {c : Prop} [Decidable c] (h : OutsGrow s t) (g : OutsGrow s u) : OutsGrow s (if c then t else u) := by split <;> assumption

theorem foldl {α : Type} {f : State → α → State} (hf : ∀ a u, OutsGrow u (f u a)) (l : List α) (s : State) : OutsGrow s (l.foldl f s) := by
  induction l generalizing s with
  | nil => exact refl s
  | cons a l ih => exact (hf a s).trans (ih _)

theorem raise (code cls : Nat) (p : List Byte) (s : State) : OutsGrow s (raise code cls p s) := fun _ => raise_mono code cls p s

theorem raiseItems (code cls : Nat) (l : List (Nat × Nat)) (s : State) : OutsGrow s (raiseItems code cls l s) := raise _ _ _ s

theorem pushRecord (r : MkRec) (s : State) : OutsGrow s (pushRecord r s) := by
  unfold Machine.pushRecord
  extract_lets r' full ms s1 s2 s3
  have h3 : OutsGrow s s3 := ite ((raise _ _ _ s1).trans (raiseItems _ _ _ _)) (raise _ _ _ s1)
  clear_value s3
  split <;> exact h3

theorem raiseLoss (a : Account) (r : MkRec) (s : State) : OutsGrow s (raiseLoss a r s) :=
  foldl (fun _ u => ite (pushRecord _ u) (refl u)) _ _

theorem closeRun (a : Account) (l : Nat) (x : LaneAcc) (s : State) : OutsGrow s (closeRun a l x s).2 := by
  unfold Machine.closeRun
  split
  · exact refl s
  · exact raiseLoss _ _ s

theorem drainLane (a : Account) (l fuel : Nat) (x : LaneAcc) (s : State) : OutsGrow s (drainLane a l fuel x s).2 := by
  induction fuel generalizing x s with
  | zero => exact refl s
  | succ fuel ih =>
    have hclose := closeRun a l
    unfold Machine.drainLane
    split
    · split
      · exact hclose _ _
      · exact refl s
    · exact refl s
    · dsimp only
      split
      · exact (hclose _ _).trans (ih _ _)
      · split
        · split
          · exact ih _ _
          · exact (hclose _ _).trans (ih _ _)
        · exact ih _ _

theorem settleLane (cur : Bool) (l : Nat) (f : Nat × FrameFate × Bool → Nat × FrameFate × Bool) (s : State) :
    OutsGrow s (settleLane cur l f s) := by
  unfold Machine.settleLane
  split
  · exact refl s
  next a _ => exact drainLane a l ((laneAcc a l).frames.length + 1) { laneAcc a l with frames := (laneAcc a l).frames.map f } s

theorem settleFrames (cur : Bool) (l : Nat) (f : Nat × FrameFate × Bool → Nat × FrameFate × Bool) (s : State) :
    OutsGrow s (settleFrames cur l f s) := by
  unfold Machine.settleFrames
  split
  · exact refl s
  next a _ =>
    refine (of_outs ?_).trans (settleLane cur l f _)
    exact same_outs (does_cntSwl 3 (some l) _ (.refl { obs := true } s) rfl).only rfl

end OutsGrow

/-! ### A frame that is cut short (R255) -/

theorem cutFrame_of_idle {l : Nat} (h : (laneGet s l).queue = []) : cutFrame l s = s := by simp [cutFrame, h]

/-- The queue of a lane that sends is emptied; of the swath block nothing else changes. -/
theorem cutFrame_swl_of_sending {l : Nat} (h : (laneGet s l).queue ≠ []) :
    (cutFrame l s).swl = (laneSet s l { laneGet s l with queue := [] }).swl := by
  unfold cutFrame
  extract_lets x s1
  rw [if_neg (by simpa [x] using h)]
  split
  · rw [settleFrames_swl]
    rfl
  · rfl

theorem cutFrame_swl (l : Nat) (s : State) : (cutFrame l s).swl = s.swl ∨
    (cutFrame l s).swl = (laneSet s l { laneGet s l with queue := [] }).swl := by
  by_cases h : (laneGet s l).queue = []
  · exact .inl (by rw [cutFrame_of_idle h])
  · exact .inr (cutFrame_swl_of_sending h)

theorem laneGet_cutFrame_same (l : Nat) (s : State) : laneGet (cutFrame l s) l = { laneGet s l with queue := [] } := by
  by_cases h : (laneGet s l).queue = []
  · rw [cutFrame_of_idle h, ← h]
  · rw [laneGet_congr (congrArg Swl.lanes (cutFrame_swl_of_sending h)), laneGet_laneSet_same]

theorem laneGet_cutFrame_ne {l m : Nat} (h : m ≠ l) (s : State) : laneGet (cutFrame l s) m = laneGet s m := by
  rcases cutFrame_swl l s with e | e
  · exact laneGet_congr (congrArg Swl.lanes e) m
  · rw [laneGet_congr (congrArg Swl.lanes e), laneGet_laneSet_ne _ _ h]

theorem cutFrame_ret (l : Nat) (s : State) : (cutFrame l s).swl.ret = s.swl.ret := by
  rcases cutFrame_swl l s with e | e <;> exact e ▸ rfl

theorem cutFrame_pll (l : Nat) (s : State) : (cutFrame l s).swl.pll = s.swl.pll := by
  rcases cutFrame_swl l s with e | e <;> exact e ▸ rfl

/-- A frame under way on the lane is cut in the output. -/
theorem cutFrame_sends {l : Nat} (h : (laneGet s l).queue ≠ []) : Output.swathCut l ∈ (cutFrame l s).outs := by
  unfold cutFrame
  extract_lets x s1
  have hcut : Output.swathCut l ∈ s1.outs := List.mem_cons_self
  rw [if_neg (by simpa [x] using h)]
  clear_value s1
  split
  · exact OutsGrow.settleFrames _ _ _ _ _ hcut
  · exact hcut

/-! ### Entering a state (R263, R267) -/

/-- A lane that enters a state: in PRESET its handshake starts afresh with the initial taps. -/
def Lane.enter (goal : LaneState) (init : Taps) (x : Lane) : Lane :=
  if goal = .preset then { x with state := .preset, taps := some init, ackSeq := 0, ack := 0, handled := false, noPartner := false }
  else { x with state := goal, noPartner := false }

@[simp] theorem Lane.enter_state (goal : LaneState) (init : Taps) (x : Lane) : (x.enter goal init).state = goal := by
  unfold Lane.enter
  split
  next h => exact h.symm
  next => rfl

/-- A lane as it stands after it has entered ACTIVE. -/
def Lane.begun (init : Taps) (x : Lane) : Lane :=
  { x.enter .active init with alive := 0, trains := sat32 (x.trains + 1), lastSlot := 0x7FFFFF }

/-- A lane as it stands after it has left ACTIVE: nothing waits to be sent, and the cause and the slot are noted. -/
def Lane.left (goal : LaneState) (cause slot : Nat) (init : Taps) (x : Lane) : Lane :=
  { Lane.enter goal init { x with queue := [] } with downSeen := true, downCause := cause, downSlot := slot }

theorem laneTo_active (l cause : Nat) (s : State) :
    laneTo l .active cause s = raiseItems 0x1001 0 [(1, l)] (laneSet s l ((laneGet s l).begun (tapInit s l))) := rfl

/-- A lane that was not ACTIVE only changes its state. -/
theorem laneTo_standing {l : Nat} {goal : LaneState} (hgoal : goal ≠ .active) (hx : (laneGet s l).state ≠ .active) (cause : Nat) :
    laneTo l goal cause s = laneSet s l ((laneGet s l).enter goal (tapInit s l)) := by
  unfold laneTo
  extract_lets x enter
  rw [if_neg hgoal, if_neg hx]
  unfold enter Lane.enter
  cases goal <;> rfl

theorem laneTo_leaving {l : Nat} {goal : LaneState} (hgoal : goal ≠ .active) (hx : (laneGet s l).state = .active) (cause : Nat) :
    laneTo l goal cause s = raiseItems 0x1002 4 [(1, l), (1, cause), (4, downSlotOf s l)]
      (laneSet (cutFrame l s) l ((laneGet s l).left goal cause (downSlotOf s l) (tapInit s l))) := by
  unfold laneTo
  dsimp only
  rw [if_neg hgoal, if_pos hx, laneGet_cutFrame_same]
  unfold Lane.left Lane.enter
  cases goal <;> rfl

/-! ### What entering a state leaves alone -/

theorem laneGet_laneTo_active (l cause : Nat) (s : State) : laneGet (laneTo l .active cause s) l = (laneGet s l).begun (tapInit s l) := by
  rw [laneTo_active, laneGet_raiseItems, laneGet_laneSet_same]

theorem laneGet_laneTo_standing {l : Nat} {goal : LaneState} (hgoal : goal ≠ .active) (hx : (laneGet s l).state ≠ .active) (cause : Nat) :
    laneGet (laneTo l goal cause s) l = (laneGet s l).enter goal (tapInit s l) := by
  rw [laneTo_standing hgoal hx, laneGet_laneSet_same]

theorem laneGet_laneTo_leaving {l : Nat} {goal : LaneState} (hgoal : goal ≠ .active) (hx : (laneGet s l).state = .active) (cause : Nat) :
    laneGet (laneTo l goal cause s) l = (laneGet s l).left goal cause (downSlotOf s l) (tapInit s l) := by
  rw [laneTo_leaving hgoal hx, laneGet_raiseItems, laneGet_laneSet_same]

theorem laneTo_state (l : Nat) (goal : LaneState) (cause : Nat) (s : State) : (laneGet (laneTo l goal cause s) l).state = goal := by
  by_cases hgoal : goal = .active
  · subst hgoal
    rw [laneGet_laneTo_active]
    exact Lane.enter_state _ _ _
  · by_cases hx : (laneGet s l).state = .active
    · rw [laneGet_laneTo_leaving hgoal hx]
      exact Lane.enter_state _ _ _
    · rw [laneGet_laneTo_standing hgoal hx, Lane.enter_state]

theorem laneGet_laneTo_ne {l m : Nat} (h : m ≠ l) (goal : LaneState) (cause : Nat) (s : State) :
    laneGet (laneTo l goal cause s) m = laneGet s m := by
  by_cases hgoal : goal = .active
  · subst hgoal
    rw [laneTo_active, laneGet_raiseItems, laneGet_laneSet_ne _ _ h]
  · by_cases hx : (laneGet s l).state = .active
    · rw [laneTo_leaving hgoal hx, laneGet_raiseItems, laneGet_laneSet_ne _ _ h, laneGet_cutFrame_ne h]
    · rw [laneTo_standing hgoal hx, laneGet_laneSet_ne _ _ h]

theorem laneTo_ret (l : Nat) (goal : LaneState) (cause : Nat) (s : State) : (laneTo l goal cause s).swl.ret = s.swl.ret := by
  by_cases hgoal : goal = .active
  · subst hgoal
    rw [laneTo_active, raiseItems_swl]
    rfl
  · by_cases hx : (laneGet s l).state = .active
    · rw [laneTo_leaving hgoal hx, raiseItems_swl]
      exact cutFrame_ret l s
    · rw [laneTo_standing hgoal hx]
      rfl

theorem laneTo_pll (l : Nat) (goal : LaneState) (cause : Nat) (s : State) : (laneTo l goal cause s).swl.pll = s.swl.pll := by
  by_cases hgoal : goal = .active
  · subst hgoal
    rw [laneTo_active, raiseItems_swl]
    rfl
  · by_cases hx : (laneGet s l).state = .active
    · rw [laneTo_leaving hgoal hx, raiseItems_swl]
      exact cutFrame_pll l s
    · rw [laneTo_standing hgoal hx]
      rfl

@[simp] theorem laneTo_regs (l : Nat) (goal : LaneState) (cause : Nat) (s : State) : (laneTo l goal cause s).regs = s.regs :=
  same_regs (does_laneTo (F := { Parts.events with pac := true, swl := true, store := true }) l goal cause (.refl _ s) rfl).only rfl

/-- A lane with nothing to send that leaves ACTIVE reports it. -/
theorem laneTo_reports {l : Nat} {goal : LaneState} (hgoal : goal ≠ .active) (hx : (laneGet s l).state = .active)
    (hq : (laneGet s l).queue = []) (cause : Nat) : reported 0x1002 4 s (laneTo l goal cause s) := by
  rw [laneTo_leaving hgoal hx, cutFrame_of_idle hq]
  exact reported_after (raiseItems_reported _ _ _ _) rfl rfl rfl

/-- A lane that leaves ACTIVE in the middle of a frame cuts the frame. -/
theorem laneTo_cuts {l : Nat} {goal : LaneState} (hgoal : goal ≠ .active) (hx : (laneGet s l).state = .active)
    (hq : (laneGet s l).queue ≠ []) (cause : Nat) : Output.swathCut l ∈ (laneTo l goal cause s).outs := by
  rw [laneTo_leaving hgoal hx]
  exact OutsGrow.raiseItems _ _ _ _ _ (cutFrame_sends hq)

end Sys2Proof.Machine
end

section
/-! PROOFS. Messages on the return lanes (R260 to R267, R277), and O42. -/

-- One theorem at a time, as under Laws/: the package as one text takes too much memory in many threads.
set_option Elab.async false

namespace Sys2Proof.Machine

variable {s t : State}

/-! ### Tap requests stay within Table 7-12 (R264, R266) -/

theorem judgeTap_legal {x : Taps} (h : x.legal = true) (code : Nat) (up down : Taps) : (judgeTap code up down x).1.legal = true := by
  unfold judgeTap
  split_ifs <;> assumption

theorem presetTaps_legal {n : Nat} (h : n < 8) : (presetTaps n).legal = true := (by decide : ∀ n : Fin 8, (presetTaps n).legal = true) ⟨n, h⟩

theorem applyReq_legal {x : Taps} (h : x.legal = true) (req preset : Nat) : (applyReq x req preset).1.legal = true := by
  unfold applyReq
  split
  next hp => exact presetTaps_legal hp
  next => exact judgeTap_legal (judgeTap_legal (judgeTap_legal h _ _ _) _ _ _) _ _ _

/-! ### What a message counts on its return lane (R260, R263) -/

/-- A return lane that has heard one more good message. -/
def RetLane.heard (x : RetLane) : RetLane :=
  { x with msgs := wrap32 (x.msgs + 1), good := min 4 (x.good + 1), sync := x.sync || decide (x.good + 1 ≥ 4) }

theorem goodReturn_swl (k : Nat) (s : State) : (goodReturn k s).swl = (retSet s k (retGet s k).heard).swl := by
  unfold goodReturn
  extract_lets x s1
  split
  · rw [raiseItems_swl]
    rfl
  · rfl

@[simp] theorem goodReturn_regs (k : Nat) (s : State) : (goodReturn k s).regs = s.regs :=
  same_regs (does_goodReturn (F := { Parts.events with swl := true }) k (.refl _ s) rfl).only rfl

theorem goodReturn_lanes (k : Nat) (s : State) : (goodReturn k s).swl.lanes = s.swl.lanes := by
  rw [goodReturn_swl]
  rfl

@[simp] theorem laneGet_goodReturn (k : Nat) (s : State) (l : Nat) : laneGet (goodReturn k s) l = laneGet s l :=
  laneGet_congr (goodReturn_lanes k s) l

theorem retGet_goodReturn (k : Nat) (s : State) : retGet (goodReturn k s) k = (retGet s k).heard := by
  rw [retGet_congr (congrArg Swl.ret (goodReturn_swl k s)), retGet_retSet_same]

/-- The fourth good message in a row brings the return lane in (R263). -/
theorem goodReturn_reports {k : Nat} (hdown : (retGet s k).sync = false) (hgood : (retGet s k).good = 3) :
    reported 0x1006 0 s (goodReturn k s) := by
  unfold goodReturn
  extract_lets x s1
  rw [if_pos ⟨by simp [x, hdown], by simp [x, hgood]⟩]
  exact reported_after (raiseItems_reported _ _ _ s1) rfl rfl rfl

theorem retGet_badReturn (k : Nat) (s : State) :
    (retGet (badReturn k s) k).crcErr = sat32 ((retGet s k).crcErr + 1) ∧ (retGet (badReturn k s) k).msgs = (retGet s k).msgs := by
  unfold badReturn
  simp

theorem badReturn_lanes (k : Nat) (s : State) : (badReturn k s).swl.lanes = s.swl.lanes := rfl

/-! ### A message that names a lane (R261 to R263) -/

/-- Where the return lane is in, the message acts on its lane, which a sign of life takes out of PRESET. -/
theorem laneMsg_taken {k l : Nat} {act : State → State} (hup : swathUp s = true) (hk : l / 16 = k) (hsync : (retGet s k).sync = true) :
    laneMsg k l act s = ok (act (if (laneGet s l).state = .preset then laneTo l .tap 0 (goodReturn k s) else goodReturn k s)) := by
  have hin : (retGet (goodReturn k s) k).sync = true := by simp [retGet_goodReturn, RetLane.heard, hsync]
  simp [laneMsg, hup, hk, hin]

theorem laneMsg_misdirected {k l : Nat} {act : State → State} (hup : swathUp s = true) (hk : l / 16 ≠ k) :
    laneMsg k l act s = ok (badReturn k s) := by
  simp [laneMsg, hup, hk]

/-- The message counts where the return lanes stand as it left them. -/
theorem heard_of_ret {k : Nat} (h : t.swl.ret = (goodReturn k s).swl.ret) :
    (retGet t k).msgs = wrap32 ((retGet s k).msgs + 1) ∧ (retGet t k).crcErr = (retGet s k).crcErr := by
  rw [retGet_congr h, retGet_goodReturn]
  exact ⟨rfl, rfl⟩

/-- A message for a lane past PRESET: it counts, and what it does is seen on any state with that lane and those registers. -/
theorem answers_laneMsg {c : Instr} {k l : Nat} {act : State → State} {P : State → Prop} (hexec : exec c s = laneMsg k l act s)
    (hup : swathUp s = true) (hk : l / 16 = k) (hsync : (retGet s k).sync = true) (hx : (laneGet s l).state ≠ .preset)
    (hret : ∀ u, (act u).swl.ret = u.swl.ret) (hact : ∀ u, laneGet u l = laneGet s l → u.regs = s.regs → P (act u)) :
    answers c s fun t =>
      (retGet t k).msgs = wrap32 ((retGet s k).msgs + 1) ∧ (retGet t k).crcErr = (retGet s k).crcErr ∧ P t := by
  have htaken := laneMsg_taken (act := act) hup hk hsync
  rw [if_neg hx] at htaken
  obtain ⟨hmsgs, hcrc⟩ := heard_of_ret (hret (goodReturn k s))
  exact ⟨_, hexec.trans htaken, hmsgs, hcrc, hact _ (laneGet_goodReturn k s l) (goodReturn_regs k s)⟩

/-! ### STATUS (R262, R267) -/

/-- A lane whose partner has sent a STATUS. -/
def Lane.shown (rx high crcErr : Nat) (x : Lane) : Lane := { x with rx := rx, crcErr := crcErr, high := high % 2 ^ 24 }

/-- The state in which a STATUS has been noted and its frames settled. -/
def statusNoted (l rx high map crcErr : Nat) (s : State) : State :=
  settleStatus l rx high map (laneSet s l ((laneGet s l).shown rx high crcErr))

variable {l rx high map crcErr : Nat}

theorem laneGet_statusNoted : laneGet (statusNoted l rx high map crcErr s) l = (laneGet s l).shown rx high crcErr := by
  unfold statusNoted
  rw [laneGet_congr (congrArg Swl.lanes (settleStatus_swl _ _ _ _ _)), laneGet_laneSet_same]

theorem statusNoted_ret : (statusNoted l rx high map crcErr s).swl.ret = s.swl.ret := by
  rw [statusNoted, settleStatus_swl]
  rfl

theorem statusOp_of_idle (hx : (laneGet s l).state ≠ .align) (hx' : (laneGet s l).state ≠ .active) :
    statusOp l rx high map crcErr s = s := by
  simp [statusOp, hx, hx']

theorem statusOp_of_align (hx : (laneGet s l).state = .align) : statusOp l rx high map crcErr s =
    if rx = 2 then laneTo l .active 0 (statusNoted l rx high map crcErr s) else statusNoted l rx high map crcErr s := by
  unfold statusOp
  extract_lets st
  rw [if_neg fun h => h.1 hx, if_pos hx]
  rfl

theorem statusOp_of_active (hx : (laneGet s l).state = .active) : statusOp l rx high map crcErr s =
    if rx = 0 ∨ rx = 3 then laneTo l .tap 1 (statusNoted l rx high map crcErr s) else statusNoted l rx high map crcErr s := by
  unfold statusOp
  extract_lets st
  rw [if_neg fun h => h.2 hx, if_neg (by simp [st, hx])]
  rfl

theorem statusOp_ret : (statusOp l rx high map crcErr s).swl.ret = s.swl.ret := by
  by_cases hx : (laneGet s l).state = .align
  · rw [statusOp_of_align hx]
    split
    · rw [laneTo_ret, statusNoted_ret]
    · exact statusNoted_ret
  · by_cases hx' : (laneGet s l).state = .active
    · rw [statusOp_of_active hx']
      split
      · rw [laneTo_ret, statusNoted_ret]
      · exact statusNoted_ret
    · rw [statusOp_of_idle hx hx']

/-- LOCKED takes a lane from ALIGN to ACTIVE. -/
theorem statusOp_align (hx : (laneGet s l).state = .align) :
    (laneGet (statusOp l rx high map crcErr s) l).rx = rx ∧ (laneGet (statusOp l rx high map crcErr s) l).crcErr = crcErr ∧
      (laneGet (statusOp l rx high map crcErr s) l).high = high % 2 ^ 24 ∧
      (rx = 2 → (laneGet (statusOp l rx high map crcErr s) l).state = .active ∧
        (laneGet (statusOp l rx high map crcErr s) l).trains = sat32 ((laneGet s l).trains + 1)) ∧
      (rx ≠ 2 → (laneGet (statusOp l rx high map crcErr s) l).state = .align) := by
  rw [statusOp_of_align hx]
  by_cases hrx : rx = 2
  · rw [if_pos hrx, laneGet_laneTo_active, laneGet_statusNoted]
    exact ⟨rfl, rfl, rfl, fun _ => ⟨rfl, rfl⟩, fun h => absurd hrx h⟩
  · rw [if_neg hrx, laneGet_statusNoted]
    exact ⟨rfl, rfl, rfl, fun h => absurd h hrx, fun _ => hx⟩

/-- A lock that is lost takes a lane from ACTIVE to TAP. -/
theorem statusOp_active (hx : (laneGet s l).state = .active) :
    (laneGet (statusOp l rx high map crcErr s) l).rx = rx ∧ (laneGet (statusOp l rx high map crcErr s) l).crcErr = crcErr ∧
      (rx = 0 ∨ rx = 3 → (laneGet (statusOp l rx high map crcErr s) l).state = .tap ∧
        (laneGet (statusOp l rx high map crcErr s) l).downCause = 1 ∧ (laneGet (statusOp l rx high map crcErr s) l).downSeen = true) ∧
      (¬ (rx = 0 ∨ rx = 3) → (laneGet (statusOp l rx high map crcErr s) l).state = .active) := by
  rw [statusOp_of_active hx]
  by_cases hrx : rx = 0 ∨ rx = 3
  · rw [if_pos hrx, laneGet_laneTo_leaving (by decide) (by rw [laneGet_statusNoted]; exact hx), laneGet_statusNoted]
    exact ⟨rfl, rfl, fun _ => ⟨rfl, rfl, rfl⟩, fun h => absurd hrx h⟩
  · rw [if_neg hrx, laneGet_statusNoted]
    exact ⟨rfl, rfl, fun h => absurd h hrx, fun _ => hx⟩

/-! ### Tap requests, TRAINED and PRBS results (R264, R266, R267, R277) -/

variable {seq req preset : Nat}

theorem tapReq_of_answered (h : (laneGet s l).handled = true) (hseq : (laneGet s l).ackSeq = seq) : tapReq l seq req preset s = s := by
  simp [tapReq, h, hseq]

theorem tapReq_of_new (hx : (laneGet s l).state = .tap) (hnew : (laneGet s l).handled = false ∨ (laneGet s l).ackSeq ≠ seq) :
    tapReq l seq req preset s = laneSet s l { laneGet s l with
      taps := some (applyReq (lTaps s l) req preset).1, ack := (applyReq (lTaps s l) req preset).2, ackSeq := seq, handled := true } := by
  unfold tapReq
  extract_lets x
  rw [if_neg]
  rintro (h | ⟨hh, hs⟩)
  · exact h hx
  · rcases hnew with h | h
    · exact absurd (hh.symm.trans h) (by decide)
    · exact h hs

theorem tapReq_ret : (tapReq l seq req preset s).swl.ret = s.swl.ret := by
  unfold tapReq
  dsimp only
  split <;> rfl

theorem lTaps_congr (hlane : laneGet t l = laneGet s l) (hregs : t.regs = s.regs) : lTaps t l = lTaps s l := by
  rw [lTaps, lTaps, hlane, tapInit_congr hregs]

/-- RETURN_TRAINED ends TAP. -/
def trainedOp (l : Nat) (s : State) : State := if (laneGet s l).state = .tap then laneTo l .align 0 s else s

theorem trainedOp_ret : (trainedOp l s).swl.ret = s.swl.ret := by
  unfold trainedOp
  split
  · exact laneTo_ret _ _ _ s
  · rfl

/-- RETURN_PRBS_RESULT adds to the loopback counters of a lane in far-end loopback. -/
def prbsOp (l errors words : Nat) (s : State) : State :=
  let x := laneGet s l
  if x.state = .loopback ∧ laneLoop s l = 3 then
    laneSet s l { x with lbErr := sat32 (x.lbErr + errors), lbWords := sat32 (x.lbWords + words) }
  else s

theorem prbsOp_ret {errors words : Nat} : (prbsOp l errors words s).swl.ret = s.swl.ret := by
  unfold prbsOp
  extract_lets x
  split <;> rfl

/-! ### The rows -/

section
variable (k : Fin 8) (l : Fin 128) (hup : swathUp s = true) (hk : l.val / 16 = k.val) (hsync : (retGet s k).sync = true)
include hup hk hsync

theorem answers_status_align (rx : Fin 4) (high map : W32) (e : BitVec 16) (hx : (laneGet s l).state = .align) :
    answers (.returnStatus k l rx high map e) s fun t =>
      (retGet t k).msgs = wrap32 ((retGet s k).msgs + 1) ∧ (retGet t k).crcErr = (retGet s k).crcErr ∧
      ((laneGet t l).rx = rx ∧ (laneGet t l).crcErr = e.toNat ∧ (laneGet t l).high = high.toNat % 2 ^ 24 ∧
        (rx = 2 → (laneGet t l).state = .active ∧ (laneGet t l).trains = sat32 ((laneGet s l).trains + 1)) ∧
        (rx ≠ 2 → (laneGet t l).state = .align)) := by
  refine answers_laneMsg (act := statusOp l rx high.toNat map.toNat e.toNat) rfl hup hk hsync (by simp [hx]) (fun u => statusOp_ret)
    fun u hu _ => ?_
  have h := statusOp_align (s := u) (l := l) (rx := rx) (high := high.toNat) (map := map.toNat) (crcErr := e.toNat) (by rw [hu, hx])
  obtain ⟨hrx, hcrc, hhigh, hlock, hwait⟩ := h
  exact ⟨hrx, hcrc, hhigh, fun q => hu ▸ hlock (by rw [q]; rfl), fun q => hwait fun q' => q (Fin.ext q')⟩

theorem answers_status_active (rx : Fin 4) (high map : W32) (e : BitVec 16) (hx : (laneGet s l).state = .active) :
    answers (.returnStatus k l rx high map e) s fun t =>
      (retGet t k).msgs = wrap32 ((retGet s k).msgs + 1) ∧ (retGet t k).crcErr = (retGet s k).crcErr ∧
      ((laneGet t l).rx = rx ∧ (laneGet t l).crcErr = e.toNat ∧
        (rx = 0 ∨ rx = 3 → (laneGet t l).state = .tap ∧ (laneGet t l).downCause = 1 ∧ (laneGet t l).downSeen = true) ∧
        (rx ≠ 0 → rx ≠ 3 → (laneGet t l).state = .active)) := by
  refine answers_laneMsg (act := statusOp l rx high.toNat map.toNat e.toNat) rfl hup hk hsync (by simp [hx]) (fun u => statusOp_ret)
    fun u hu _ => ?_
  have h := statusOp_active (s := u) (l := l) (rx := rx) (high := high.toNat) (map := map.toNat) (crcErr := e.toNat) (by rw [hu, hx])
  obtain ⟨hrx, hcrc, hlost, hkept⟩ := h
  refine ⟨hrx, hcrc, fun q => hlost ?_, fun q0 q3 => hkept ?_⟩
  · exact q.imp (congrArg Fin.val) (congrArg Fin.val)
  · exact not_or.2 ⟨fun q' => q0 (Fin.ext q'), fun q' => q3 (Fin.ext q')⟩

theorem answers_tapReq (seq req preset : Byte) (hx : (laneGet s l).state = .tap) :
    answers (.returnTapReq k l seq req preset) s fun t =>
      (retGet t k).msgs = wrap32 ((retGet s k).msgs + 1) ∧ (retGet t k).crcErr = (retGet s k).crcErr ∧
      (((laneGet s l).handled = true → (laneGet s l).ackSeq = seq.toNat → laneGet t l = laneGet s l) ∧
        ((laneGet s l).handled = false ∨ (laneGet s l).ackSeq ≠ seq.toNat → laneGet t l = { laneGet s l with
          taps := some (applyReq (lTaps s l) req.toNat preset.toNat).1, ack := (applyReq (lTaps s l) req.toNat preset.toNat).2,
          ackSeq := seq.toNat, handled := true })) := by
  refine answers_laneMsg (act := tapReq l seq.toNat req.toNat preset.toNat) rfl hup hk hsync (by simp [hx]) (fun u => tapReq_ret)
    fun u hu hregs => ⟨fun hh hseq => ?_, fun hnew => ?_⟩
  · rw [tapReq_of_answered (by rw [hu, hh]) (by rw [hu, hseq]), hu]
  · rw [tapReq_of_new (by rw [hu, hx]) (by rwa [hu]), laneGet_laneSet_same, hu, lTaps_congr hu hregs]

theorem answers_trained (seq : Byte) (hx : (laneGet s l).state = .tap) :
    answers (.returnTrained k l seq) s fun t =>
      (retGet t k).msgs = wrap32 ((retGet s k).msgs + 1) ∧ (retGet t k).crcErr = (retGet s k).crcErr ∧ (laneGet t l).state = .align := by
  refine answers_laneMsg (act := trainedOp l) rfl hup hk hsync (by simp [hx]) (fun u => trainedOp_ret) fun u hu _ => ?_
  rw [trainedOp, if_pos (by rw [hu, hx])]
  exact laneTo_state _ _ _ u

theorem answers_prbs (e w : W32) (hx : (laneGet s l).state = .loopback) (hloop : laneLoop s l = 3) :
    answers (.returnPrbsResult k l e w) s fun t =>
      (retGet t k).msgs = wrap32 ((retGet s k).msgs + 1) ∧ (retGet t k).crcErr = (retGet s k).crcErr ∧
      ((laneGet t l).lbErr = sat32 ((laneGet s l).lbErr + e.toNat) ∧ (laneGet t l).lbWords = sat32 ((laneGet s l).lbWords + w.toNat)) := by
  refine answers_laneMsg (act := prbsOp l e.toNat w.toNat) rfl hup hk hsync (by simp [hx]) (fun u => prbsOp_ret) fun u hu hregs => ?_
  have hin : (laneGet u l).state = .loopback ∧ laneLoop u l = 3 := ⟨by rw [hu, hx], by rw [laneLoop_congr hregs, hloop]⟩
  unfold prbsOp
  extract_lets x
  rw [if_pos hin, laneGet_laneSet_same]
  exact ⟨by simp only [x, hu], by simp only [x, hu]⟩

theorem answers_status_preset (rx : Fin 4) (high map : W32) (e : BitVec 16) (hx : (laneGet s l).state = .preset) :
    answers (.returnStatus k l rx high map e) s fun t =>
      (retGet t k).msgs = wrap32 ((retGet s k).msgs + 1) ∧ (retGet t k).crcErr = (retGet s k).crcErr ∧ (laneGet t l).state = .tap := by
  have htap := laneTo_state l .tap 0 (goodReturn k s)
  have htaken := laneMsg_taken (act := statusOp l rx high.toNat map.toNat e.toNat) hup hk hsync
  rw [if_pos hx, statusOp_of_idle (by simp [htap]) (by simp [htap])] at htaken
  obtain ⟨hmsgs, hcrc⟩ := heard_of_ret (laneTo_ret l .tap 0 (goodReturn k s))
  exact ⟨_, htaken, hmsgs, hcrc, htap⟩

end

theorem answers_idle (k : Fin 8) (fill : BitVec 96) (hup : swathUp s = true) :
    exec (.returnIdle k fill) s = ok (goodReturn k s) := if_pos hup

theorem answers_discarded (k : Fin 8) (l : Fin 128) (hup : swathUp s = true) {c : Instr}
    (hc : c = .returnMessageDiscard k ∨ (∃ seq, c = .returnTrained k l seq) ∧ l.val / 16 ≠ k.val) : exec c s = ok (badReturn k s) := by
  rcases hc with rfl | ⟨⟨seq, rfl⟩, hk⟩
  · exact if_pos hup
  · exact laneMsg_misdirected (act := trainedOp l) hup hk

/-- Settles O42: each message is the count on its return lane and then one operation on its lane, clause by clause. -/
theorem returnMessages : Obligations.ReturnMessages := by
  refine ⟨fun x req preset h => applyReq_legal h req preset, fun s k fill hup hdown hgood => ?_, fun s k l hup => ⟨fun hk hsync => ?_, ?_⟩⟩
  · refine ⟨_, answers_idle k fill hup, ?_, goodReturn_reports hdown hgood⟩
    rw [retGet_goodReturn]
    simp [RetLane.heard, hgood]
  · refine ⟨answers_status_align k l hup hk hsync, answers_status_active k l hup hk hsync, answers_tapReq k l hup hk hsync,
      answers_trained k l hup hk hsync, answers_prbs k l hup hk hsync, answers_status_preset k l hup hk hsync, fun fill => ?_⟩
    obtain ⟨hmsgs, hcrc⟩ := heard_of_ret (s := s) (k := k) rfl
    exact ⟨_, answers_idle k fill hup, hmsgs, hcrc, goodReturn_lanes k s⟩
  · intro c hc
    obtain ⟨hcrc, hmsgs⟩ := retGet_badReturn k s
    exact ⟨_, answers_discarded k l hup hc, hcrc, hmsgs, badReturn_lanes k s⟩

end Sys2Proof.Machine
end

section
/-! PROOFS. The control register of a swath lane (R267, R270, R276, Table 7-17), and O41. -/

-- One theorem at a time, as under Laws/: the package as one text takes too much memory in many threads.
set_option Elab.async false

namespace Sys2Proof.Machine

variable {s : State}

/-! ### The fields of SWLl_CTRL -/

theorem bits_loop_eq (v : Nat) : bits v 5 4 = v / 16 % 4 := by simp [bits, Nat.shiftRight_eq_div_pow]

theorem setBit_zero_eq (v : Nat) : setBit v 0 = 2 * (v / 2) + 1 := by
  unfold setBit clearBit bitAt
  rw [Nat.testBit_zero]
  split
  next h => simp only [decide_eq_true_eq] at h; omega
  next h => simp only [decide_eq_true_eq] at h; omega

theorem clearBit_zero_eq (v : Nat) : clearBit v 0 = 2 * (v / 2) := by
  unfold clearBit bitAt
  rw [Nat.testBit_zero]
  split
  next h => simp only [decide_eq_true_eq] at h; omega
  next h => simp only [decide_eq_true_eq] at h; omega

theorem bits_loop_mask (v : Nat) : bits (v &&& 0xB1) 5 4 = bits v 5 4 := by
  simp only [bits, Nat.shiftRight_and_distrib]
  exact (Nat.and_mod_two_pow (n := 2)).trans (Nat.and_two_pow_sub_one_of_lt_two_pow (n := 2) (Nat.mod_lt _ (by decide)))

theorem mask_odd (v : Nat) : (v &&& 0xB1) % 2 = v % 2 :=
  (Nat.and_mod_two_pow (n := 1)).trans (Nat.and_two_pow_sub_one_of_lt_two_pow (n := 1) (Nat.mod_lt _ (by decide)))

theorem bitAt_mask_retrain (v : Nat) : bitAt (v &&& 0xB1) 7 = bitAt v 7 := by
  rw [bitAt, bitAt, Nat.testBit_and]
  exact Bool.and_true _

theorem odd_of_testBit {v : Nat} (h : v.testBit 0 = true) : v % 2 = 1 := by simpa [Nat.testBit_zero] using h

theorem bits_setBit_zero (v : Nat) : bits (setBit v 0) 5 4 = bits v 5 4 := by
  rw [bits_loop_eq, bits_loop_eq, setBit_zero_eq]
  omega

theorem bits_clearBit_zero (v : Nat) : bits (clearBit v 0) 5 4 = bits v 5 4 := by
  rw [bits_loop_eq, bits_loop_eq, clearBit_zero_eq]
  omega

theorem bits_setBit_retrain (v : Nat) : bits (setBit v 7) 5 4 = bits v 5 4 := by
  have h := setBit_mod_two_pow (i := 7) (k := 7) (Nat.le_refl 7) v
  rw [bits_loop_eq, bits_loop_eq]
  omega

theorem bitAt_setBit_zero (v : Nat) : bitAt (setBit v 0) 7 = bitAt v 7 := by
  rw [bitAt, bitAt, setBit_zero_eq, Nat.testBit_succ, Nat.testBit_succ v]
  congr 1
  omega

theorem setBit_retrain_odd {v : Nat} (h : v.testBit 0 = true) : setBit v 7 % 2 = 1 :=
  (setBit_mod_two_pow (i := 7) (k := 1) (by decide) v).trans (odd_of_testBit h)

/-! ### What the quad checker takes in (R277) -/

theorem takeChecked_of_outside {l : Nat} (h : (laneGet s l).state ≠ .loopback) : takeChecked l s = s := by
  simp [takeChecked, nearEnd, h]

theorem takeChecked_only (l : Nat) (s : State) : changesOnly { free := true, swl := true } s (takeChecked l s) :=
  (does_takeChecked l (.refl _ s) rfl).only

theorem takeChecked_swl (l : Nat) (s : State) : ∃ e w, (takeChecked l s).swl = s.swl ∨
    (takeChecked l s).swl = (laneSet s l { laneGet s l with lbErr := e, lbWords := w }).swl := by
  unfold takeChecked
  split
  · exact ⟨_, _, .inr rfl⟩
  · exact ⟨0, 0, .inl rfl⟩

@[simp] theorem takeChecked_state (l : Nat) (s : State) : (laneGet (takeChecked l s) l).state = (laneGet s l).state := by
  obtain ⟨e, w, h | h⟩ := takeChecked_swl l s
  · rw [laneGet_congr (congrArg Swl.lanes h)]
  · rw [laneGet_congr (congrArg Swl.lanes h), laneGet_laneSet_same]

theorem laneGet_takeChecked_ne {l m : Nat} (h : m ≠ l) (s : State) : laneGet (takeChecked l s) m = laneGet s m := by
  obtain ⟨e, w, q | q⟩ := takeChecked_swl l s
  · exact laneGet_congr (congrArg Swl.lanes q) m
  · rw [laneGet_congr (congrArg Swl.lanes q), laneGet_laneSet_ne _ _ h]

theorem takeChecked_pll (l : Nat) (s : State) : (takeChecked l s).swl.pll = s.swl.pll := by
  obtain ⟨e, w, h | h⟩ := takeChecked_swl l s <;> exact h ▸ rfl

/-! ### One write of the register (Table 7-17) -/

@[simp] theorem laneGet_regSet (s : State) (off v l : Nat) : laneGet (regSet s off v) l = laneGet s l := rfl

theorem tapInit_regSet (s : State) (l v : Nat) : tapInit (regSet s (swlOff l 0) v) l = tapInit s l := by
  rw [tapInit, tapInit, regGet_regSet_ne _ _ (by simp only [swlOff]; omega)]

/-- The register after a write of EN and LOOP, and the lane's settings as it gives them. -/
theorem laneEn_of_ctrl {t : State} {l b m : Nat} (h : regGet t (swlOff l 0) = (b % 2 + m * 16) % 2 ^ 32) : laneEn t l = decide (b % 2 = 1) := by
  have hb : (b % 2 + m * 16) % 2 ^ 32 % 2 = b % 2 := by omega
  rw [laneEn, h, bitAt, Nat.testBit_zero, hb]

theorem laneLoop_of_ctrl {t : State} {l b m : Nat} (hm : m < 4) (h : regGet t (swlOff l 0) = (b % 2 + m * 16) % 2 ^ 32) : laneLoop t l = m := by
  rw [laneLoop, h, bits_loop_eq]
  omega

theorem bits_loop_lt (v : Nat) : bits v 5 4 < 4 := by
  rw [bits_loop_eq]
  omega

section
variable {l old w : Nat}

theorem laneCtrl_enables (hodd : w % 2 = 1) (hloop : bits w 5 4 = 0) (hretrain : bitAt w 7 = false)
    (hx : (laneGet s l).state = .disabled) (hup : swathUp s = true) (hpll : quadLocked s l = true) :
    laneCtrl l old w s = laneTo l .preset 0 (regSet s (swlOff l 0) 1) := by
  have hcheck : takeChecked l s = s := takeChecked_of_outside (by simp [hx])
  have hup' : swathUp (regSet s (swlOff l 0) 1) = true := hup
  have hpll' : quadLocked (regSet s (swlOff l 0) 1) l = true := hpll
  simp [laneCtrl, hcheck, hodd, hloop, hretrain, hx, hup', hpll', laneTo_state]

theorem laneCtrl_disables (heven : w % 2 = 0) (hloop : bits w 5 4 = 0) : laneCtrl l old w s =
    if (laneGet s l).state = .disabled then regSet (takeChecked l s) (swlOff l 0) 0
    else laneTo l .disabled 4 (regSet (takeChecked l s) (swlOff l 0) 0) := by
  by_cases hx : (laneGet s l).state = .disabled
  · simp [laneCtrl, heven, hloop, hx]
  · simp [laneCtrl, heven, hloop, hx, laneTo_state]

theorem laneCtrl_retrains (hodd : w % 2 = 1) (hloop : bits w 5 4 = 0) (hretrain : bitAt w 7 = true)
    (hx : (laneGet s l).state = .active) : laneCtrl l old w s = laneTo l .tap 4 (regSet s (swlOff l 0) 1) := by
  have hcheck : takeChecked l s = s := takeChecked_of_outside (by simp [hx])
  simp [laneCtrl, hcheck, hodd, hloop, hretrain, hx, laneTo_state]

theorem laneCtrl_loops (hodd : w % 2 = 1) (hloop : bits w 5 4 ≠ 0) (hretrain : bitAt w 7 = false)
    (hx : (laneGet s l).state ≠ .disabled) (hx' : (laneGet s l).state ≠ .loopback)
    (hlive : s.pac.stripe.any (fun st => st.state.live) = false) :
    laneCtrl l old w s = laneTo l .loopback 5 (regSet s (swlOff l 0) (w % 2 + bits w 5 4 * 16)) := by
  simp [laneCtrl, takeChecked_of_outside hx', hodd, hloop, hretrain, hx, hx', hlive]

theorem laneCtrl_refuses (hodd : w % 2 = 1) (hloop : bits w 5 4 ≠ 0) (hretrain : bitAt w 7 = false)
    (hx : (laneGet s l).state ≠ .disabled) (hx' : (laneGet s l).state ≠ .loopback)
    (hlive : s.pac.stripe.any (fun st => st.state.live) = true) : laneCtrl l old w s =
    laneSet (regSet s (swlOff l 0) (w % 2 + bits old 5 4 * 16)) l { laneGet s l with loopRefused := true } := by
  simp [laneCtrl, takeChecked_of_outside hx', hodd, hloop, hretrain, hx, hlive]

theorem laneCtrl_unloops (hodd : w % 2 = 1) (hloop : bits w 5 4 = 0) (hx : (laneGet s l).state = .loopback) :
    laneCtrl l old w s = laneTo l .tap 0 (regSet (takeChecked l s) (swlOff l 0) 1) := by
  simp [laneCtrl, hodd, hloop, hx]

end

/-! ### The rows -/

section
variable (l : Fin 128) (v : W32) (hw : writeReaches (swlOff l 0) s)
include hw

/-- An enabled lane begins in PRESET with its initial taps (R267). -/
theorem answers_laneEnable (hloop : bits v.toNat 5 4 = 0) (hretrain : v.toNat.testBit 7 = false) (hx : (laneGet s l).state = .disabled)
    (hup : swathUp s = true) (hpll : quadLocked s l = true) : answers (.swlLaneEnable l v) s fun t =>
      laneGet t l = { laneGet s l with
        state := .preset, taps := some (tapInit s l), ackSeq := 0, ack := 0, handled := false, noPartner := false } ∧
      laneEn t l = true ∧ changesOnly { regs := true, swl := true } s t := by
  have hodd : (setBit v.toNat 0 &&& 0xB1) % 2 = 1 := by rw [mask_odd, setBit_zero_eq]; omega
  have hzero : bits (setBit v.toNat 0 &&& 0xB1) 5 4 = 0 := by rw [bits_loop_mask, bits_setBit_zero, hloop]
  have hno : bitAt (setBit v.toNat 0 &&& 0xB1) 7 = false := by rw [bitAt_mask_retrain, bitAt_setBit_zero]; exact hretrain
  have hstand : (laneGet (regSet s (swlOff l 0) 1) l).state ≠ .active := by simp [hx]
  refine ⟨_, write_laneEnable l v hw, ?_⟩
  rw [laneCtrl_enables hodd hzero hno hx hup hpll]
  refine ⟨?_, ?_, ?_⟩
  · rw [laneGet_laneTo_standing (by decide) hstand, tapInit_regSet]
    rfl
  · rw [laneEn_congr (laneTo_regs _ _ _ _)]
    exact laneEn_of_ctrl (b := 1) (m := 0) (regGet_regSet_same _ _ _)
  · rw [laneTo_standing (by decide) hstand]
    exact (does_laneSet _ _ (does_regSet _ _ (.refl _ s) rfl) rfl).only

/-- A lane that is disabled goes to DISABLED at once; one that leaves ACTIVE notes it, reports it, and cuts the frame it sends (R255, R270). -/
theorem answers_laneDisable (hloop : bits v.toNat 5 4 = 0) : answers (.swlLaneDisable l v) s fun t =>
      (laneGet t l).state = .disabled ∧ laneEn t l = false ∧
      ((laneGet s l).state = .active → (laneGet t l).downCause = 4 ∧ (laneGet t l).downSeen = true ∧ (laneGet t l).queue = [] ∧
        ((laneGet s l).queue = [] → reported 0x1002 4 s t) ∧ ((laneGet s l).queue ≠ [] → Output.swathCut l ∈ t.outs)) ∧
      ((laneGet s l).state ≠ .active → t.slo = s.slo) := by
  have heven : (clearBit v.toNat 0 &&& 0xB1) % 2 = 0 := by rw [mask_odd, clearBit_zero_eq]; omega
  have hzero : bits (clearBit v.toNat 0 &&& 0xB1) 5 4 = 0 := by rw [bits_loop_mask, bits_clearBit_zero, hloop]
  have hslo : (takeChecked l s).slo = s.slo := same_slo (takeChecked_only l s) rfl
  have hen {t : State} (h : t.regs = (regSet (takeChecked l s) (swlOff l 0) 0).regs) : laneEn t l = false := by
    rw [laneEn_congr h]
    exact laneEn_of_ctrl (b := 0) (m := 0) (regGet_regSet_same _ _ _)
  refine ⟨_, write_laneDisable l v hw, ?_⟩
  rw [laneCtrl_disables heven hzero]
  by_cases hx : (laneGet s l).state = .disabled
  · rw [if_pos hx]
    exact ⟨by simp [hx], hen rfl, fun h => absurd (hx.symm.trans h) (by decide), fun _ => hslo⟩
  · rw [if_neg hx]
    refine ⟨laneTo_state _ _ _ _, hen (laneTo_regs _ _ _ _), fun hact => ?_, fun hstand => ?_⟩
    · rw [takeChecked_of_outside (by simp [hact])]
      have hlane : (laneGet (regSet s (swlOff l 0) 0) l).state = .active := hact
      rw [laneGet_laneTo_leaving (by decide) hlane]
      exact ⟨rfl, rfl, rfl, fun hq => reported_after (laneTo_reports (by decide) hlane hq 4) rfl rfl rfl,
        fun hq => laneTo_cuts (by decide) hlane hq 4⟩
    · rw [laneTo_standing (by decide) (by simp [hstand])]
      exact hslo

/-- RETRAIN returns an ACTIVE lane to TAP (Table 7-17). -/
theorem answers_retrain (hloop : bits v.toNat 5 4 = 0) (hen : v.toNat.testBit 0 = true) (hx : (laneGet s l).state = .active) :
    answers (.retrain l v) s fun t =>
      (laneGet t l).state = .tap ∧ (laneGet t l).downCause = 4 ∧ (laneGet t l).downSlot = downSlotOf s l ∧ (laneGet t l).queue = [] ∧
      ((laneGet s l).queue = [] → reported 0x1002 4 s t) := by
  have hodd : (setBit v.toNat 7 &&& 0xB1) % 2 = 1 := by rw [mask_odd, setBit_retrain_odd hen]
  have hzero : bits (setBit v.toNat 7 &&& 0xB1) 5 4 = 0 := by rw [bits_loop_mask, bits_setBit_retrain, hloop]
  have hyes : bitAt (setBit v.toNat 7 &&& 0xB1) 7 = true := by rw [bitAt_mask_retrain, bitAt_setBit_same]
  have hlane : (laneGet (regSet s (swlOff l 0) 1) l).state = .active := hx
  refine ⟨_, write_retrain l v hw, ?_⟩
  rw [laneCtrl_retrains hodd hzero hyes hx]
  dsimp only
  rw [laneGet_laneTo_leaving (by decide) hlane]
  exact ⟨rfl, rfl, rfl, rfl, fun hq => reported_after (laneTo_reports (by decide) hlane hq 4) rfl rfl rfl⟩

/-- LOOP moves a lane into LOOPBACK, or is refused while a stripe is live (R276). -/
theorem answers_loop (hloop : bits v.toNat 5 4 ≠ 0) (hen : v.toNat.testBit 0 = true) (hretrain : v.toNat.testBit 7 = false)
    (hx : (laneGet s l).state ≠ .disabled) (hx' : (laneGet s l).state ≠ .loopback) : answers (.loopWrite l v) s fun t =>
      (s.pac.stripe.any (fun st => st.state.live) = false → (laneGet t l).state = .loopback ∧ laneLoop t l = bits v.toNat 5 4) ∧
      (s.pac.stripe.any (fun st => st.state.live) = true →
        laneGet t l = { laneGet s l with loopRefused := true } ∧ laneLoop t l = laneLoop s l) := by
  have hodd : (v.toNat &&& 0xB1) % 2 = 1 := by rw [mask_odd, odd_of_testBit hen]
  have hset : bits (v.toNat &&& 0xB1) 5 4 ≠ 0 := by rwa [bits_loop_mask]
  have hno : bitAt (v.toNat &&& 0xB1) 7 = false := by rw [bitAt_mask_retrain]; exact hretrain
  refine ⟨_, write_loopWrite l v hw, fun hlive => ?_, fun hlive => ?_⟩
  · rw [laneCtrl_loops hodd hset hno hx hx' hlive, laneLoop_congr (laneTo_regs _ _ _ _), bits_loop_mask]
    exact ⟨laneTo_state _ _ _ _, laneLoop_of_ctrl (bits_loop_lt _) (regGet_regSet_same _ _ _)⟩
  · rw [laneCtrl_refuses hodd hset hno hx hx' hlive, laneGet_laneSet_same]
    exact ⟨rfl, laneLoop_of_ctrl (bits_loop_lt _) (regGet_regSet_same _ _ _)⟩

/-- LOOP at 0 takes a lane out of LOOPBACK. -/
theorem answers_unloop (hloop : bits v.toNat 5 4 = 0) (hen : v.toNat.testBit 0 = true) (hx : (laneGet s l).state = .loopback) :
    answers (.loopWrite l v) s fun t => (laneGet t l).state = .tap ∧ laneLoop t l = 0 := by
  have hodd : (v.toNat &&& 0xB1) % 2 = 1 := by rw [mask_odd, odd_of_testBit hen]
  have hzero : bits (v.toNat &&& 0xB1) 5 4 = 0 := by rw [bits_loop_mask, hloop]
  refine ⟨_, write_loopWrite l v hw, ?_⟩
  rw [laneCtrl_unloops hodd hzero hx]
  dsimp only
  rw [laneLoop_congr (laneTo_regs _ _ _ _)]
  exact ⟨laneTo_state _ _ _ _, laneLoop_of_ctrl (b := 1) (by decide) (regGet_regSet_same _ _ _)⟩

end

/-- Settles O41: each row is one write of SWLl_CTRL, and that write is one change of the lane's state. -/
theorem laneControls : Obligations.LaneControls := fun _ l v hw =>
  ⟨answers_laneEnable l v hw, answers_laneDisable l v hw, answers_retrain l v hw, answers_loop l v hw, answers_unloop l v hw⟩

end Sys2Proof.Machine
end

section
/-! PROOFS. The timers of lanes and quads, markers and TRAIN blocks (R250, R251, R259, R263, R265, R268, R271, R272), and O43. -/

-- One theorem at a time, as under Laws/: the package as one text takes too much memory in many threads.
set_option Elab.async false

namespace Sys2Proof.Machine

variable {s : State}

/-! ### Operations on lanes one after the other -/

theorem foldl_keeps {α β : Type} {f : State → α → State} (g : State → β) (hf : ∀ a u, g (f u a) = g u) (l : List α) (s : State) :
    g (l.foldl f s) = g s := by
  induction l generalizing s with
  | nil => rfl
  | cons a l ih => rw [List.foldl_cons, ih, hf]

/-- An output that one step sends in every state it can meet is there in the end. -/
theorem foldl_sends {α : Type} {f : State → α → State} {o : Output} {a : α} {l : List α} (I : State → Prop)
    (hgrow : ∀ a u, OutsGrow u (f u a)) (hinv : ∀ a u, I u → I (f u a)) (hsend : ∀ u, I u → o ∈ (f u a).outs) (ha : a ∈ l) (hs : I s) :
    o ∈ (l.foldl f s).outs := by
  induction l generalizing s with
  | nil => cases ha
  | cons b l ih =>
    rcases List.mem_cons.1 ha with rfl | ha
    · exact OutsGrow.foldl hgrow l _ _ (hsend s hs)
    · exact ih ha (hinv b s hs)

/-- An operation on one lane that leaves the other lanes and the registers alone. -/
structure OnLane (op : Nat → State → State) : Prop where
  others : ∀ {l m : Nat}, m ≠ l → ∀ u, laneGet (op l u) m = laneGet u m
  regs : ∀ l u, (op l u).regs = u.regs

/-- The operation on lanes b to b + n − 1. -/
def eachLane (op : Nat → State → State) (b n : Nat) (s : State) : State := (List.range n).foldl (fun s i => op (b + i) s) s

theorem eachLane_succ (op : Nat → State → State) (b n : Nat) (s : State) : eachLane op b (n + 1) s = op (b + n) (eachLane op b n s) := by
  simp [eachLane, List.range_succ]

namespace OnLane

variable {op : Nat → State → State}

theorem each_regs (h : OnLane op) (b n : Nat) (s : State) : (eachLane op b n s).regs = s.regs :=
  foldl_keeps State.regs (fun _ u => h.regs _ u) _ s

theorem each_above (h : OnLane op) {b n m : Nat} (hm : b + n ≤ m) (s : State) : laneGet (eachLane op b n s) m = laneGet s m := by
  induction n with
  | zero => rfl
  | succ n ih =>
    rw [eachLane_succ, h.others (by omega)]
    exact ih (by omega)

/-- Each lane is changed once, from its first state. -/
theorem each_within (h : OnLane op) {b n m : Nat} (hb : b ≤ m) (hm : m < b + n) (s : State) :
    ∃ u, laneGet u m = laneGet s m ∧ u.regs = s.regs ∧ laneGet (eachLane op b n s) m = laneGet (op m u) m := by
  induction n with
  | zero => omega
  | succ n ih =>
    by_cases hlast : m = b + n
    · subst hlast
      exact ⟨_, h.each_above (Nat.le_refl _) s, h.each_regs b n s, by rw [eachLane_succ]⟩
    · obtain ⟨u, hu, hregs, hend⟩ := ih (by omega)
      exact ⟨u, hu, hregs, by rw [eachLane_succ, h.others hlast, hend]⟩

end OnLane

/-! ### Timers of one lane (R263, R268) -/

theorem answers_laneMessageTimeout (l : Fin 128) (hx : (laneGet s l).state = .tap ∨ (laneGet s l).state = .align) :
    answers (.laneMessageTimeout l) s fun t =>
      (laneGet t l).state = .preset ∧ (laneGet t l).taps = some (tapInit s l) ∧ changesOnly { swl := true } s t := by
  have hstand : (laneGet s l).state ≠ .active := by rcases hx with h | h <;> simp [h]
  refine ⟨laneTo l .preset 0 s, if_pos hx, laneTo_state _ _ _ s, ?_, ?_⟩
  · rw [laneGet_laneTo_standing (by decide) hstand]
    rfl
  · rw [laneTo_standing (by decide) hstand]
    exact (does_laneSet _ _ (.refl _ s) rfl).only

theorem answers_trainTimeout (l : Fin 128) (hx : (laneGet s l).state = .tap) : answers (.trainTimeout l) s fun t =>
    (laneGet t l).state = .preset ∧ (laneGet t l).tapTimeout = true ∧ reported 0x1004 1 s t := by
  have hstand : (laneGet (laneSet s l { laneGet s l with tapTimeout := true }) l).state ≠ .active := by simp [hx]
  refine ⟨_, if_neg (not_not.2 hx), ?_⟩
  dsimp only
  rw [laneTo_standing (by decide) hstand, laneGet_raiseItems, laneGet_laneSet_same, laneGet_laneSet_same]
  exact ⟨rfl, rfl, reported_after (raiseItems_reported _ _ _ _) rfl rfl rfl⟩

theorem answers_noPartnerTimeout (l : Fin 128) (hx : (laneGet s l).state = .preset) (hno : (laneGet s l).noPartner = false) :
    answers (.noPartnerTimeout l) s fun t => laneGet t l = { laneGet s l with noPartner := true } ∧ reported 0x1003 1 s t := by
  refine ⟨_, if_pos ⟨hx, by simp [hno]⟩, ?_, reported_after (raiseItems_reported _ _ _ _) rfl rfl rfl⟩
  rw [laneGet_raiseItems, laneGet_laneSet_same]

/-! ### A return lane that falls silent (R263, R272) -/

theorem answers_returnLaneTimeout (k : Fin 8) (hx : (retGet s k).sync = true) : answers (.returnLaneTimeout k) s fun t =>
    retGet t k = { retGet s k with sync := false, good := 0, lostSeen := true } ∧ reported 0x1005 4 s t := by
  refine ⟨_, if_neg (not_not.2 hx), ?_, reported_after (raiseItems_reported _ _ _ _) rfl rfl rfl⟩
  rw [retGet_raiseItems, retGet_retSet_same]

/-- An ACTIVE lane whose return lane is down goes to PRESET. -/
def settleDown (l : Nat) (s : State) : State := if (laneGet s l).state = .active then laneTo l .preset 2 s else s

theorem onLane_settleDown : OnLane settleDown where
  others h u := by
    unfold settleDown
    split
    · exact laneGet_laneTo_ne h _ _ u
    · rfl
  regs l u := by
    unfold settleDown
    split
    · exact laneTo_regs _ _ _ u
    · rfl

theorem answers_returnDownSettle (k : Fin 8) (hx : (retGet s k).sync = false) : answers (.returnDownSettle k) s fun t =>
    ∀ l, l / 16 = k.val →
      ((laneGet s l).state = .active → (laneGet t l).state = .preset ∧ (laneGet t l).downCause = 2) ∧
      ((laneGet s l).state ≠ .active → laneGet t l = laneGet s l) := by
  refine ⟨eachLane settleDown (16 * k) 16 s, if_neg (by simp [hx]), fun l hl => ?_⟩
  obtain ⟨u, hu, -, hend⟩ := onLane_settleDown.each_within (b := 16 * k) (n := 16) (m := l) (by omega) (by omega) s
  rw [hend, ← hu]
  refine ⟨fun hact => ?_, fun hstand => ?_⟩
  · rw [settleDown, if_pos hact, laneGet_laneTo_leaving (by decide) hact]
    exact ⟨rfl, rfl⟩
  · rw [settleDown, if_neg hstand]

/-! ### Quad PLLs (R259) -/

/-- A lane of a quad whose PLL has lost lock stops. -/
def unlockLane (l : Nat) (s : State) : State :=
  if (laneGet s l).state = .disabled then s else laneTo l .pllWait 3 (takeChecked l s)

theorem onLane_unlockLane : OnLane unlockLane where
  others h u := by
    unfold unlockLane
    split
    · rfl
    · rw [laneGet_laneTo_ne h, laneGet_takeChecked_ne h]
  regs l u := by
    unfold unlockLane
    split
    · rfl
    · rw [laneTo_regs, same_regs (takeChecked_only l u) rfl]

theorem unlockLane_pll (l : Nat) (s : State) : (unlockLane l s).swl.pll = s.swl.pll := by
  unfold unlockLane
  split
  · rfl
  · rw [laneTo_pll, takeChecked_pll]

theorem answers_quadPllUnlock (q : Fin 32) (hq : q.val ∈ s.swl.pll) : answers (.quadPllUnlock q) s fun t =>
    q.val ∉ t.swl.pll ∧ ∀ l, l / 4 = q.val →
      ((laneGet s l).state ≠ .disabled → (laneGet t l).state = .pllWait) ∧
      ((laneGet s l).state = .active → (laneGet t l).downCause = 3) ∧ ((laneGet s l).state = .disabled → laneGet t l = laneGet s l) := by
  refine ⟨eachLane unlockLane (4 * q) 4 (raiseItems 0x1007 4 [(1, q)] { s with swl := { s.swl with pll := s.swl.pll.filter (· != q.val) } }),
    if_neg (by simpa using hq), ?_, fun l hl => ?_⟩
  · rw [eachLane, foldl_keeps (fun u => u.swl.pll) (fun _ u => unlockLane_pll _ u), raiseItems_swl]
    simp
  · obtain ⟨u, hu, -, hend⟩ := onLane_unlockLane.each_within (b := 4 * q) (n := 4) (m := l) (by omega) (by omega)
      (raiseItems 0x1007 4 [(1, q)] { s with swl := { s.swl with pll := s.swl.pll.filter (· != q.val) } })
    rw [laneGet_raiseItems] at hu
    have hu : laneGet u l = laneGet s l := hu
    rw [hend, ← hu]
    refine ⟨fun hin => ?_, fun hact => ?_, fun hout => ?_⟩
    · rw [unlockLane, if_neg hin, laneTo_state]
    · rw [unlockLane, if_neg (by simp [hact]), takeChecked_of_outside (by simp [hact]), laneGet_laneTo_leaving (by decide) hact]
      rfl
    · rw [unlockLane, if_pos hout]

/-- A lane of a quad whose PLL has locked trains again, or begins where it is enabled. -/
def relockLane (l : Nat) (s : State) : State :=
  if (laneGet s l).state = .pllWait then laneTo l .tap 0 s
  else if (laneGet s l).state = .disabled ∧ laneEn s l then laneTo l .preset 0 s
  else s

theorem onLane_relockLane : OnLane relockLane where
  others h u := by
    unfold relockLane
    split
    · exact laneGet_laneTo_ne h _ _ u
    · split
      · exact laneGet_laneTo_ne h _ _ u
      · rfl
  regs l u := by
    unfold relockLane
    split
    · exact laneTo_regs _ _ _ u
    · split
      · exact laneTo_regs _ _ _ u
      · rfl

theorem relockLane_pll (l : Nat) (s : State) : (relockLane l s).swl.pll = s.swl.pll := by
  unfold relockLane
  split
  · exact laneTo_pll _ _ _ s
  · split
    · exact laneTo_pll _ _ _ s
    · rfl

theorem mem_natInsert_self (k : Nat) (l : List Nat) : k ∈ natInsert k l := by
  induction l with
  | nil => simp [natInsert]
  | cons j l ih =>
    unfold natInsert
    split_ifs with hlt heq
    · simp
    · simp [heq]
    · simp [ih]

theorem answers_quadPllRelock (q : Fin 32) (hq : q.val ∉ s.swl.pll) (hup : swathUp s = true) : answers (.quadPllRelock q) s fun t =>
    q.val ∈ t.swl.pll ∧ ∀ l, l / 4 = q.val →
      ((laneGet s l).state = .pllWait → (laneGet t l).state = .tap) ∧
      ((laneGet s l).state = .disabled → laneEn s l = true → (laneGet t l).state = .preset) := by
  refine ⟨eachLane relockLane (4 * q) 4 { s with swl := { s.swl with pll := natInsert q s.swl.pll } },
    if_neg (by simp [hq, hup]), ?_, fun l hl => ?_⟩
  · rw [eachLane, foldl_keeps (fun u => u.swl.pll) (fun _ u => relockLane_pll _ u)]
    exact mem_natInsert_self _ _
  · obtain ⟨u, hu, hregs, hend⟩ := onLane_relockLane.each_within (b := 4 * q) (n := 4) (m := l) (by omega) (by omega)
      { s with swl := { s.swl with pll := natInsert q s.swl.pll } }
    have hu : laneGet u l = laneGet s l := hu
    rw [hend, ← hu]
    refine ⟨fun hwait => ?_, fun hout hen => ?_⟩
    · rw [relockLane, if_pos hwait, laneTo_state]
    · rw [relockLane, if_neg (by simp [hout]), if_pos ⟨hout, (laneEn_congr hregs l).trans hen⟩, laneTo_state]

/-! ### Markers (R250, R251) -/

@[simp] theorem cntSwl_swl (ev : Nat) (u : Option Nat) (n : Nat) (s : State) : (cntSwl ev u n s).swl = s.swl :=
  same_swl (does_cntSwl ev u n (.refl { obs := true } s) rfl).only rfl

@[simp] theorem cntSwl_outs (ev : Nat) (u : Option Nat) (n : Nat) (s : State) : (cntSwl ev u n s).outs = s.outs :=
  same_outs (does_cntSwl ev u n (.refl { obs := true } s) rfl).only rfl

@[simp] theorem cntSwl_pac (ev : Nat) (u : Option Nat) (n : Nat) (s : State) : (cntSwl ev u n s).pac = s.pac :=
  same_pac (does_cntSwl ev u n (.refl { obs := true } s) rfl).only rfl

/-- An ACTIVE lane sends an AM. -/
def sendAm (q : Nat) (s : State) (l : Nat) : State :=
  let x := laneGet s l
  if x.state = .active then cntSwl 4 (some l) 1 (emit (.swathBlock l (amBlock l q x.lastSlot)) s) else s

theorem sendAm_swl (q : Nat) (s : State) (l : Nat) : (sendAm q s l).swl = s.swl := by
  unfold sendAm
  extract_lets x
  split
  · rw [cntSwl_swl]
    rfl
  · rfl

theorem sendAm_grows (q : Nat) (s : State) (l : Nat) : OutsGrow s (sendAm q s l) := by
  unfold sendAm
  extract_lets x
  refine OutsGrow.ite (fun o ho => ?_) (.refl s)
  rw [cntSwl_outs]
  exact List.mem_cons_of_mem _ ho

theorem sendAm_sends {q l : Nat} (hx : (laneGet s l).state = .active) :
    Output.swathBlock l (amBlock l q (laneGet s l).lastSlot) ∈ (sendAm q s l).outs := by
  unfold sendAm
  extract_lets x
  rw [if_pos hx, cntSwl_outs]
  exact List.mem_cons_self

theorem answers_amTimer (hstripe : s.pac.stripe = none) (hup : swathUp s = true) (hflight : s.swl.flight = none) :
    answers .amTimer s fun t =>
      t.swl = { s.swl with amSeq := (s.swl.amSeq + 1) % 65536 } ∧ changesOnly { outs := true, swl := true, obs := true } s t ∧
      ∀ l, l < 128 → (laneGet s l).state = .active →
        Output.swathBlock l (amBlock l ((s.swl.amSeq + 1) % 65536) (laneGet s l).lastSlot) ∈ t.outs := by
  refine ⟨sendAms s, if_neg (by simp [hstripe, hup, hflight]), ?_, (does_sendAms (.refl _ s) rfl).only, fun l hl hx => ?_⟩
  · exact foldl_keeps State.swl (fun l u => sendAm_swl _ u l) _ { s with swl := { s.swl with amSeq := (s.swl.amSeq + 1) % 65536 } }
  · refine foldl_sends (s := { s with swl := { s.swl with amSeq := (s.swl.amSeq + 1) % 65536 } }) (fun u => u.swl.lanes = s.swl.lanes)
      (fun m u => sendAm_grows ((s.swl.amSeq + 1) % 65536) u m) (fun m u hu => ?_) (fun u hu => ?_) (List.mem_range.2 hl) rfl
    · exact (congrArg Swl.lanes (sendAm_swl _ u m)).trans hu
    · rw [← laneGet_congr hu]
      exact sendAm_sends ((laneGet_congr hu l).symm ▸ hx)

theorem answers_alignAm_lane (l : Fin 128) (hx : (laneGet s l).state = .align) : answers (.alignAm (some l)) s fun t =>
    t.outs = .swathBlock l (amBlock l s.swl.amSeq (laneGet s l).lastSlot) :: s.outs ∧ changesOnly { outs := true, obs := true } s t :=
  ⟨_, if_pos hx, cntSwl_outs _ _ _ _, (does_cntSwl _ _ _ (does_emit _ (.refl _ s) rfl) rfl).only⟩

theorem answers_alignAm_link (hlink : s.twn.link = .align ∨ s.twn.link = .up) : answers (.alignAm none) s fun t =>
    ∀ k, k < 8 → Output.dxpBlock k (amBlock k s.swl.amSeq 0x7FFFFF) ∈ t.outs := by
  refine ⟨_, if_pos hlink, fun k hk => ?_⟩
  exact foldl_sends (fun u => u.swl = s.swl) (fun _ _ _ ho => List.mem_cons_of_mem _ ho) (fun _ _ hu => hu)
    (fun u hu => by rw [hu]; exact List.mem_cons_self) (List.mem_range.2 hk) rfl

/-! ### TRAIN blocks (R265) -/

theorem answers_trainBlock_lane (l : Fin 128) (hx : (laneGet s l).state = .preset ∨ (laneGet s l).state = .tap) :
    answers (.trainBlock (.inl l)) s fun t =>
      t = { s with outs := .swathBlock l (trainBytes l (if (laneGet s l).state = .preset then 1 else 2) (laneGet s l).ackSeq
                     (laneGet s l).ack (lTaps s l) ++ List.replicate 8 0) :: s.outs } :=
  ⟨_, if_pos hx, rfl⟩

theorem trainBytes_length (lane state ackSeq ack : Nat) (t : Taps) : (trainBytes lane state ackSeq ack t).length = 8 := rfl

theorem answers_trainBlock_link (k : Fin 8) (hlink : s.twn.link = .tap) : answers (.trainBlock (.inr k)) s fun t =>
    t.free = s.free + 1 ∧ changesOnly { outs := true, free := true } s t ∧ ∃ b, t.outs = .dxpBlock k b :: s.outs ∧
      b.take 8 = trainBytes k 2 (dxpGet s k).ackSeq (dxpGet s k).ack (dxpGet s k).taps := by
  refine ⟨_, if_pos (.inr hlink), rfl, (does_emit _ (does_drawFree (.refl _ s) rfl) rfl).only, _, rfl, ?_⟩
  rw [hlink, List.append_assoc, List.append_assoc]
  exact List.take_left' (trainBytes_length _ _ _ _ _)

/-! ### A frame that nobody settles (R271) -/

/-- The fate of slot n's frame where it is still unsettled. -/
def unconfirm (n : Nat) (q : Nat × FrameFate × Bool) : Nat × FrameFate × Bool :=
  if q.1 = n ∧ q.2.1 = .unsettled then (q.1, .unconfirmed, q.2.2) else q

theorem unconfirm_settled {n : Nat} {q : Nat × FrameFate × Bool} (h : (unconfirm n q).1 = n) : (unconfirm n q).2.1 ≠ .unsettled := by
  unfold unconfirm at h ⊢
  split
  · simp
  next hq =>
    rw [if_neg hq] at h
    exact fun hu => hq ⟨h, hu⟩

theorem closeRun_frames (a : Account) (l : Nat) (x : LaneAcc) (s : State) : (closeRun a l x s).1.frames = x.frames := by
  unfold closeRun
  split <;> rfl

/-- Draining takes frames away and changes none. -/
theorem drainLane_frames (a : Account) (l fuel : Nat) (x : LaneAcc) (s : State) : (drainLane a l fuel x s).1.frames ⊆ x.frames := by
  induction fuel generalizing x s with
  | zero => exact List.Subset.refl _
  | succ fuel ih =>
    unfold drainLane
    split
    · split
      · rw [closeRun_frames]
        exact List.Subset.refl _
      · exact List.Subset.refl _
    · exact List.Subset.refl _
    next n f act rest _ hframes =>
      rw [hframes]
      dsimp only
      refine List.Subset.trans ?_ (List.subset_cons_self _ rest)
      split
      · exact List.Subset.trans (ih _ _) (by rw [closeRun_frames]; exact List.Subset.refl _)
      · split
        · split
          · exact ih _ _
          · exact List.Subset.trans (ih _ _) (by dsimp only; rw [closeRun_frames]; exact List.Subset.refl _)
        · exact ih _ _

/-- The frames of a lane that is settled are those that the settlement leaves. -/
theorem settleLane_frames {a : Account} (ha : s.pac.acct = some a) (l : Nat) (f : Nat × FrameFate × Bool → Nat × FrameFate × Bool) :
    ∃ a', (settleLane true l f s).pac.acct = some a' ∧ (laneAcc a' l).frames ⊆ (laneAcc a l).frames.map f := by
  simp only [settleLane, if_true, ha]
  refine ⟨_, rfl, ?_⟩
  simp only [accLane, laneAcc, putLaneAcc, tget_tset_same]
  exact drainLane_frames a l _ { laneAcc a l with frames := (laneAcc a l).frames.map f } s

theorem settleFrames_frames {a : Account} (ha : s.pac.acct = some a) (l : Nat) (f : Nat × FrameFate × Bool → Nat × FrameFate × Bool) :
    ∃ a', (settleFrames true l f s).pac.acct = some a' ∧ (laneAcc a' l).frames ⊆ (laneAcc a l).frames.map f := by
  simp only [settleFrames, if_true, ha]
  exact settleLane_frames (by rw [cntSwl_pac, ha]) l f

/-- Where no frame is under way on the lane, none is passed over. -/
theorem unsettled_beside_no_frame (q : Nat × FrameFate × Bool) : (q.2.1 == .unsettled && (none : Option Nat) != some q.1) = (q.2.1 == .unsettled) :=
  Bool.and_true _

theorem answers_frameSettleTimeout (l : Fin 128) (a : Account) (n : Nat) (hprev : s.pac.prevAcct = none) (hq : (laneGet s l).queue = [])
    (ha : s.pac.acct = some a) (hn : ((laneAcc a l).frames.find? (fun q => q.2.1 == .unsettled)).map (fun q => q.1) = some n) :
    answers (.frameSettleTimeout l) s fun t =>
      ∃ a', t.pac.acct = some a' ∧ ∀ q ∈ (laneAcc a' l).frames, q.1 = n → q.2.1 ≠ .unsettled := by
  refine ⟨settleFrames true l (unconfirm n) s, ?_, ?_⟩
  · show execFrameSettleTimeout l s = _
    simp only [execFrameSettleTimeout, hq, hprev, ha, List.isEmpty_nil, if_true, Option.bind_none, Option.bind_some, unsettled_beside_no_frame, hn]
    rfl
  · obtain ⟨a', ha', hsub⟩ := settleFrames_frames ha l (unconfirm n)
    refine ⟨a', ha', fun q hmem hslot => ?_⟩
    obtain ⟨p, -, rfl⟩ := List.mem_map.1 (hsub hmem)
    exact unconfirm_settled hslot

/-- Settles O43: each timer is one change of a lane, or the same change on every lane of a return lane or quad. -/
theorem laneTimers : Obligations.LaneTimers := fun _ =>
  ⟨fun l => ⟨answers_laneMessageTimeout l, answers_trainTimeout l, answers_noPartnerTimeout l⟩,
    fun k => ⟨answers_returnLaneTimeout k, answers_returnDownSettle k⟩,
    fun q => ⟨answers_quadPllUnlock q, answers_quadPllRelock q⟩,
    answers_amTimer,
    fun l => ⟨answers_trainBlock_lane l, answers_alignAm_lane l, answers_frameSettleTimeout l⟩,
    answers_alignAm_link, answers_trainBlock_link⟩

end Sys2Proof.Machine
end

section
/-! PROOFS. A read of one 32-bit register (R496, R497, R499, R503), and O28. -/

-- One theorem at a time, as under Laws/: the package as one text takes too much memory in many threads.
set_option Elab.async false

namespace Sys2Proof.Machine

variable {s : State} {off : Nat}

/-! ### What a read takes in and clears -/

/-- What a read may change beside the latches. -/
def Parts.readSide : Parts := { free := true, hst := true, swl := true, twn := true, tim := true, slo := true, obs := true }

theorem beforeRead_only (off : Nat) (s : State) : changesOnly Parts.readSide s (beforeRead off s) :=
  (does_beforeRead off (.refl _ s) rfl).only

theorem clearOnRead_only (off : Nat) (s : State) : changesOnly Parts.readSide s (clearOnRead off s) :=
  (does_clearOnRead off (.refl _ s) rfl).only

/-- The HI registers latch what they show. -/
def latchAll (hs : List Nat) (s : State) : State :=
  hs.foldl (fun t h => { t with latch := tput t.latch h (BitVec.ofNat 32 ((regShow s h).getD 0)) }) s

theorem readLive_snd (off : Nat) (s : State) : (readLive off s).2 = clearOnRead off (latchAll (latchedBy off) (beforeRead off s)) := rfl

theorem readLive_only (off : Nat) (s : State) : changesOnly { Parts.readSide with latch := true } s (readLive off s).2 :=
  (@does_readLive _ s s off (.refl _ s) rfl).only

/-- The answer is the one output of a read. -/
theorem readLive_sends (off v : Nat) (s : State) : (emit (.readData 4 v) (readLive off s).2).outs = .readData 4 v :: s.outs := by
  rw [emit_outs, same_outs (readLive_only off s) rfl]

/-! ### One dword -/

/-- A read of one register answers the low 32 bits of what the bus read. -/
theorem bar0Read_dword (h : off % 4 = 0) (s : State) :
    bar0Read off 4 s = emit (.readData 4 ((busRead off s).1 % 2 ^ 32)) (busRead off s).2 := by
  have hsize : oversize off 4 = false := by
    simp only [oversize, decide_eq_false_iff_not]
    omega
  have hdwords : dwords off 4 = [off] := by
    simp only [dwords, h, Nat.zero_add, ceilDiv]
    simp
    omega
  simp [bar0Read, hsize, hdwords, readDwords, h]

theorem exec_read (a : BitVec 24) (ha : a.toNat % 4 = 0) (hheld : s.grn.held = []) :
    exec (.loRegisterRead false a 4) s = ok (emit (.readData 4 ((busRead a.toNat s).1 % 2 ^ 32)) (busRead a.toNat s).2) := by
  rw [← bar0Read_dword ha]
  show execLoRegisterRead false a 4 s = _
  simp [execLoRegisterRead, hheld]

theorem busRead_live (hshow : (regShow s off).isSome = true) (hphase : off / 65536 = 0 ∨ earlyPhase s = false) (hraw : off ≠ 0x16001C) :
    busRead off s = readLive off s := by
  have hmapped : ¬ (regShow s off).isNone = true := by simpa [Option.isSome_iff_ne_none] using hshow
  have hlive : ¬ (off / 65536 ≠ 0 ∧ earlyPhase s = true) := by
    rintro ⟨hb, he⟩
    rcases hphase with h | h
    · exact hb h
    · exact absurd (he.symm.trans h) (by decide)
  rw [busRead, if_neg hmapped, if_neg hlive, if_neg hraw]

theorem busRead_unmapped (hshow : regShow s off = none) : busRead off s = (0, recordBad 1 off s) := by
  simp [busRead, hshow]

theorem readLive_value {v : Nat} (hsource : latchSource off = none) (hv : regShow (beforeRead off s) off = some v) :
    (readLive off s).1 = v := by
  simp [readLive, hsource, hv]

theorem readLive_latched {lo : Nat} (hsource : latchSource off = some lo) : (readLive off s).1 = (tget s.latch off 0).toNat := by
  simp [readLive, hsource, same_latch (beforeRead_only off s) rfl]

/-- A read of the LO half latches what its HI half then shows. -/
theorem readLive_latches {h w : Nat} (hlatch : latchedBy off = [h]) (hw : regShow (beforeRead off s) h = some w) :
    tget (readLive off s).2.latch h 0 = BitVec.ofNat 32 w := by
  rw [readLive_snd, same_latch (clearOnRead_only _ _) rfl, hlatch]
  simp [latchAll, hw, tget_tput_same]

/-- Settles O28: one dword is read, which is the register's value, the value latched for it, or the 0 of an unmapped address. -/
theorem registerReads : Obligations.RegisterReads := by
  intro s off ha hheld
  have hread := exec_read off ha hheld
  refine ⟨fun v hshow hv hlt hphase hraw hsource => ?_, fun lo hsource hshow hphase hraw => ?_, fun hshow => ?_⟩
  · rw [busRead_live hshow hphase hraw, readLive_value hsource hv, Nat.mod_eq_of_lt hlt] at hread
    have hregs : (readLive off.toNat s).2.regs = s.regs := same_regs (readLive_only _ s) rfl
    exact ⟨_, hread, readLive_sends _ _ s, fun h w hlatch hw => readLive_latches hlatch hw, hregs⟩
  · rw [busRead_live hshow hphase hraw, readLive_latched hsource, Nat.mod_eq_of_lt (BitVec.isLt _)] at hread
    exact ⟨_, hread, readLive_sends _ _ s⟩
  · rw [busRead_unmapped hshow] at hread
    exact ⟨_, hread, rfl, rfl, (does_emit _ (does_recordBad _ _ (.refl _ s) rfl) rfl).only⟩

end Sys2Proof.Machine
end

section
/-! PROOFS. The twin block (R283 to R309): what the operations that several rows share leave of it, and of the Dexpin link in it. -/

-- One theorem at a time, as under Laws/: the package as one text takes too much memory in many threads.
set_option Elab.async false

namespace Sys2Proof.Machine

variable {s t u : State}

/-! ### Operations that leave the twin block alone -/

@[simp] theorem raiseItems_twn (code cls : Nat) (l : List (Nat × Nat)) (s : State) : (raiseItems code cls l s).twn = s.twn :=
  same_twn (raiseItems_only code cls l s) rfl

@[simp] theorem complete_twn (id status : Nat) (data : List Byte) (s : State) : (complete id status data s).twn = s.twn :=
  completeOpt_twn (some id) status data s

@[simp] theorem cntTwn_twn (ev : Nat) (u : Option Nat) (n : Nat) (s : State) : (cntTwn ev u n s).twn = s.twn :=
  same_twn (does_cntTwn ev u n (.refl { obs := true } s) rfl).only rfl

@[simp] theorem endAccount_twn (s : State) : (endAccount s).twn = s.twn :=
  same_twn (does_endAccount (.refl { Parts.events with pac := true, store := true } s) rfl).only rfl

@[simp] theorem releaseCoefs_twn (s : State) : (releaseCoefs s).twn = s.twn :=
  same_twn (does_releaseCoefs (.refl { outs := true, hst := true, enc := true, obs := true } s) rfl).only rfl

@[simp] theorem closeCut_twn (rest : Bool) (s : State) : (closeCut rest s).twn = s.twn :=
  same_twn (does_closeCut rest (.refl { Parts.events with pac := true, store := true } s) rfl).only rfl

@[simp] theorem gangAbort_twn (cause : Nat) (s : State) : (gangAbort cause s).twn = s.twn :=
  same_twn (does_gangAbort cause (.refl { outs := true, tim := true, obs := true } s) rfl).only rfl

/-! ### A message leaves all but the outputs, its count in TWN and the counters -/

theorem dxpSend_only (ty arg : Nat) (p : List Nat) (s : State) :
    changesOnly { outs := true, twn := true, obs := true } s (dxpSend ty arg p s) := (does_dxpSend ty arg p (.refl _ s) rfl).only

theorem dxpSend_twn (hup : s.twn.link = .up) (ty arg : Nat) (p : List Nat) :
    (dxpSend ty arg p s).twn = { s.twn with txAlive := (s.twn.txAlive + 1) % 65536 } := (dxpSend_of_up hup ty arg p).2

/-! ### An event among other changes -/

/-- One frame after another. -/
theorem only_trans {F A B : Parts} (h : changesOnly A s u) (g : changesOnly B u t) (hA : A.le F = true := by rfl)
    (hB : B.le F = true := by rfl) : changesOnly F s t := Eq.trans (blank_mono hB g) (blank_mono hA h)

/-- An event raised after changes of parts that its record does not show, and before others, is reported. -/
theorem reported_between {code cls : Nat} {l : List (Nat × Nat)} {A B : Parts} (h : changesOnly A s u)
    (g : changesOnly B (raiseItems code cls l u) t)
    (hA : A.glb = false ∧ A.slo = false ∧ A.tim = false := by exact ⟨rfl, rfl, rfl⟩)
    (hB : B.glb = false ∧ B.slo = false := by exact ⟨rfl, rfl⟩) : reported code cls s t :=
  reported_of_same (reported_after (raiseItems_reported code cls l u) (same_glb h hA.1) (same_slo h hA.2.1) (same_tim h hA.2.2))
    (same_glb g hB.1) (same_slo g hB.2)

/-! ### Every lane of the link -/

/-- An update of the eight lanes, one after the other. -/
def eachDxp (f : State → Nat → DxpLane) (n : Nat) (s : State) : State := (List.range n).foldl (fun u k => dxpSet u k (f u k)) s

theorem eachDxp_succ (f : State → Nat → DxpLane) (n : Nat) (s : State) :
    eachDxp f (n + 1) s = dxpSet (eachDxp f n s) n (f (eachDxp f n s) n) := by
  simp [eachDxp, List.range_succ]

theorem eachDxp_only (f : State → Nat → DxpLane) (n : Nat) (s : State) : changesOnly { twn := true } s (eachDxp f n s) := by
  induction n with
  | zero => rfl
  | succ n ih => rw [eachDxp_succ]; exact Eq.trans (rfl : changesOnly { twn := true } _ (dxpSet (eachDxp f n s) n _)) ih

theorem eachDxp_twn (f : State → Nat → DxpLane) (n : Nat) (s : State) : ∃ ls, (eachDxp f n s).twn = { s.twn with lanes := ls } := by
  induction n with
  | zero => exact ⟨s.twn.lanes, rfl⟩
  | succ n ih =>
    obtain ⟨ls, h⟩ := ih
    rw [eachDxp_succ]
    exact ⟨_, by simp only [dxpSet, h]; rfl⟩

/-- Where the update of a lane looks at the registers and the lane alone, each lane is changed once, from its first state. -/
theorem dxpGet_eachDxp {f : State → Nat → DxpLane} (hf : ∀ u v k, u.regs = v.regs → dxpGet u k = dxpGet v k → f u k = f v k) (n : Nat)
    (s : State) (k : Nat) : dxpGet (eachDxp f n s) k = if k < n then f s k else dxpGet s k := by
  induction n with
  | zero => rfl
  | succ n ih =>
    rw [eachDxp_succ]
    rcases Nat.lt_trichotomy k n with hlt | rfl | hgt
    · rw [dxpGet_dxpSet_ne _ _ (Nat.ne_of_lt hlt), ih, if_pos hlt, if_pos (by omega)]
    · rw [dxpGet_dxpSet_same, if_pos (Nat.lt_succ_self k)]
      exact hf _ _ _ (same_regs (eachDxp_only f k s) rfl) (ih.trans (if_neg (Nat.lt_irrefl k)))
    · rw [dxpGet_dxpSet_ne _ _ (Nat.ne_of_gt hgt), ih, if_neg (by omega), if_neg (by omega)]

/-! ### The link starts again (R289, Table 8-2) -/

/-- A lane at its start taps, with nothing received. -/
def startLane (s : State) (k : Nat) : DxpLane := { taps := tapsOf (regGet s (0x120040 + 4 * k)) }

/-- Every lane of `t` stands at the start taps that the registers of `s` give. -/
def LanesStart (s t : State) : Prop := ∀ k, k < 8 → dxpGet t k = startLane s k

/-- The twin block in PRESET, beside the lanes. -/
def presetTwn (t : Twn) : Twn := { t with link := .preset, noPartner := false, tables := [] }

theorem dxpPreset_only (s : State) : changesOnly { twn := true } s (dxpPreset s) := (does_dxpPreset (.refl _ s) rfl).only

theorem dxpPreset_twn (s : State) : ∃ ls, (dxpPreset s).twn = { presetTwn s.twn with lanes := ls } :=
  eachDxp_twn startLane 8 { s with twn := presetTwn s.twn }

theorem dxpPreset_link (s : State) : (dxpPreset s).twn.link = .preset := by
  obtain ⟨ls, h⟩ := dxpPreset_twn s
  rw [h]
  rfl

theorem dxpPreset_starts (s : State) : LanesStart s (dxpPreset s) := fun k hk => by
  have hf : ∀ u v : State, ∀ k, u.regs = v.regs → dxpGet u k = dxpGet v k → startLane u k = startLane v k := fun u v k h _ => by
    rw [startLane, regGet_congr h, startLane]
  exact (dxpGet_eachDxp hf 8 { s with twn := presetTwn s.twn } k).trans (if_pos hk)

/-- The twin sends nothing for 20 µs (R289). -/
def fallSilent (s : State) : State := { s with twn := { s.twn with quiet := true } }

@[simp] theorem fallSilent_link (s : State) : (fallSilent s).twn.link = s.twn.link := rfl
@[simp] theorem fallSilent_quiet (s : State) : (fallSilent s).twn.quiet = true := rfl
@[simp] theorem fallSilent_lanes (s : State) : (fallSilent s).twn.lanes = s.twn.lanes := rfl

/-! ### The link in the twin block -/

/-- The link, its silence, its lanes and what is known of the partner (R283, R289). -/
def linkView (s : State) : LinkState × Bool × Tbl DxpLane × Bool × Bool :=
  (s.twn.link, s.twn.quiet, s.twn.lanes, s.twn.partnerLive, s.twn.partnerDeadSeen)

/-- From `s` to `t` the link, its lanes and what is known of the partner stand. -/
def LinkKept (s t : State) : Prop := linkView t = linkView s

theorem dxpGet_congr (h : t.twn.lanes = s.twn.lanes) (k : Nat) : dxpGet t k = dxpGet s k := by rw [dxpGet, h, dxpGet]

namespace LinkKept

theorem refl (s : State) : LinkKept s s := rfl

theorem trans (h : LinkKept s t) (g : LinkKept t u) : LinkKept s u := Eq.trans g h

theorem of_twn (h : t.twn = s.twn) : LinkKept s t := by rw [LinkKept, linkView, h, linkView]

theorem ite {c : Prop} [Decidable c] (h : LinkKept s t) (g : LinkKept s u) : LinkKept s (if c then t else u) := by
  split <;> assumption

theorem with_pac (h : LinkKept s t) (p : Pac) : LinkKept s { t with pac := p } := h

theorem link (h : LinkKept s t) : t.twn.link = s.twn.link := congrArg Prod.fst h

theorem quiet (h : LinkKept s t) : t.twn.quiet = s.twn.quiet := congrArg (fun v => v.2.1) h

theorem lanes (h : LinkKept s t) : t.twn.lanes = s.twn.lanes := congrArg (fun v => v.2.2.1) h

theorem partnerLive (h : LinkKept s t) : t.twn.partnerLive = s.twn.partnerLive := congrArg (fun v => v.2.2.2.1) h

theorem partnerDeadSeen (h : LinkKept s t) : t.twn.partnerDeadSeen = s.twn.partnerDeadSeen := congrArg (fun v => v.2.2.2.2) h

theorem raiseItems (h : LinkKept s t) (code cls : Nat) (l : List (Nat × Nat)) : LinkKept s (raiseItems code cls l t) :=
  h.trans (of_twn (raiseItems_twn code cls l t))

theorem completeOpt (h : LinkKept s t) (id : Option Nat) (status : Nat) (data : List Byte) :
    LinkKept s (completeOpt id status data t) := h.trans (of_twn (completeOpt_twn id status data t))

theorem dxpSend (h : LinkKept s t) (ty arg : Nat) (p : List Nat) : LinkKept s (dxpSend ty arg p t) := by
  by_cases hup : t.twn.link = .up
  · refine h.trans ?_
    rw [LinkKept, linkView, dxpSend_twn hup, linkView]
  · rwa [Machine.dxpSend, if_neg hup]

/-! ### Stripes that end -/

theorem handoverDone (h : LinkKept s t) : LinkKept s (handoverDone t) := by
  unfold Machine.handoverDone
  split
  · exact h
  · exact ite (completeOpt (t := { t with twn := { t.twn with handover := none } }) h _ _ _) h

theorem dropStripe (h : LinkKept s t) (keep : Bool) : LinkKept s (dropStripe keep t) := by
  unfold Machine.dropStripe
  split
  · exact h
  · refine handoverDone ?_
    exact h

theorem discardStripe (h : LinkKept s t) (keep : Bool) (status : Nat) : LinkKept s (discardStripe keep status t) := by
  unfold Machine.discardStripe
  split
  · exact h
  next st _ =>
    extract_lets s1 pac s2
    have h1 : LinkKept s s1 := (h.dropStripe keep).trans (of_twn (by simp [s1]))
    have h2 : LinkKept s s2 := ite (h1.with_pac _) h1
    exact h2.completeOpt _ _ _

theorem abortRunning (h : LinkKept s t) (cause : Nat) (gc : Option Nat) (run gang : Bool) :
    LinkKept s (abortRunning cause gc run gang t) := by
  unfold Machine.abortRunning
  split
  · exact h
  next st _ =>
    refine ite h ?_
    extract_lets limit nu shown
    split
    next x v a m =>
      extract_lets stop st' s1 s2 s3
      have h2 : LinkKept s s2 := h.trans (of_twn (by simp [s2, s1]))
      have h3 : LinkKept s s3 := ite (h2.dxpSend _ _ _) h2
      exact (ite (h3.trans (of_twn (gangAbort_twn cause s3))) h3).trans (of_twn (releaseCoefs_twn _))

theorem abortOrDiscard (h : LinkKept s t) (cause : Nat) (gang event : Bool) (armStatus : Nat) :
    LinkKept s (abortOrDiscard cause gang event armStatus t) := by
  unfold Machine.abortOrDiscard
  split
  · exact h
  · extract_lets s1 pac
    have h1 : LinkKept s s1 := h.discardStripe _ _
    exact ite (h.abortRunning _ _ _ _) (ite h (ite ((h1.with_pac _).raiseItems _ _ _) h1))

theorem abortOrDiscardFree (h : LinkKept s t) (cause : Nat) (gang event : Bool) :
    LinkKept s (abortOrDiscardFree cause gang event t) :=
  abortOrDiscard (t := { t with free := t.free + 1 }) h _ _ _ _

theorem armEnd (h : LinkKept s t) (status : Nat) : LinkKept s (armEnd status t) := by
  unfold Machine.armEnd
  split
  · exact h
  next st _ =>
    refine ite h (ite (h.discardStripe true status) ?_)
    extract_lets groups id st1 pac s1
    have h1 : LinkKept s s1 := h
    exact h1.completeOpt _ _ _

/-! ### A link that is lost (R305 to R307, R311) -/

theorem dropRole (h : LinkKept s t) : LinkKept s (dropRole t) := by
  unfold Machine.dropRole
  refine ite (raiseItems ?_ _ _ _) h
  exact h

theorem paceLost (h : LinkKept s t) : LinkKept s (paceLost t) := ite (h.abortOrDiscardFree _ _ _) h

theorem endHandover (h : LinkKept s t) (status : Nat) : LinkKept s (endHandover status t) := by
  unfold Machine.endHandover
  split
  · exact h
  · refine completeOpt ?_ _ _ _
    exact h

theorem finishTable (h : LinkKept s t) (x : TableX) (status : Nat) : LinkKept s (finishTable x status t) := by
  refine h.trans ?_
  rw [LinkKept, linkView, finishTable_twn, linkView]
  rfl

theorem splitTable (h : LinkKept s t) (x : TableX) : LinkKept s (splitTable x t) := by
  unfold Machine.splitTable
  extract_lets s1 twn
  have h1 : LinkKept s s1 := h.finishTable x 0x45
  refine raiseItems ?_ _ _ _
  exact h1

theorem tableLinkLost (h : LinkKept s t) : LinkKept s (tableLinkLost t) := by
  unfold Machine.tableLinkLost
  split
  · exact h
  next x _ =>
    dsimp only [drawFree]
    refine ite h (ite (h.splitTable x) (ite h (ite ?_ (completeOpt (trans ?_ (of_twn (msgRecord_twn _ _ _))) _ _ _))))
    · exact h
    · exact h

theorem linkLost (h : LinkKept s t) : LinkKept s (linkLost t) := by
  unfold Machine.linkLost
  extract_lets s1 s2 twn
  have h1 : LinkKept s s1 := (h.endHandover 0x41).tableLinkLost
  have h2 : LinkKept s s2 := ite (h1.armEnd 0x4C) h1
  have hsplit : LinkKept s { s2 with twn := { twn with split := true, splitSeen := true, hbStandby := 0 } } := h2
  exact ite h2 (ite hsplit.dropRole.paceLost h2)

end LinkKept

end Sys2Proof.Machine
end

section
/-! PROOFS. Pairing (R290, R291): what HELLO, a pair that forms and the rows of TWIN_PAIR do, and O46. -/

-- One theorem at a time, as under Laws/: the package as one text takes too much memory in many threads.
set_option Elab.async false

namespace Sys2Proof.Machine

variable {s : State} {id : Nat} {c : Cmd} {m : Hello}

/-! ### A device that works alone -/

/-- The twin block of a device that works alone. -/
def soloTwn (t : Twn) : Twn := { t with paired := false, active := true, roleNext := none, rejoin := false, hbStandby := 0 }

@[simp] theorem soloTwn_link (t : Twn) : (soloTwn t).link = t.link := rfl
@[simp] theorem soloTwn_quiet (t : Twn) : (soloTwn t).quiet = t.quiet := rfl

theorem goSolo_twn (s : State) : (goSolo s).twn = soloTwn s.twn := rfl

/-! ### HELLO and a pair that forms -/

/-- Of TWN a HELLO changes the count of messages alone. -/
theorem sendHello_twn (s : State) : ∃ n, (sendHello s).twn = { s.twn with txAlive := n } := by
  by_cases h : s.twn.link = .align ∨ s.twn.link = .up
  · refine ⟨(s.twn.txAlive + 1) % 65536, ?_⟩
    simp only [sendHello, if_pos h]
    rw [dxpSend_twn rfl]
  · exact ⟨s.twn.txAlive, by simp only [sendHello, if_neg h]⟩

theorem tryPair_of_no_hello (h : s.twn.hello = none) (fresh : Bool) : tryPair fresh s = s := by
  simp only [tryPair, h]

/-- With no TWIN_PAIR under way and no split pair to form again, a HELLO forms no pair. -/
theorem tryPair_of_no_request (hreq : s.twn.pairReq = none) (hrejoin : s.twn.rejoin = false) (fresh : Bool) : tryPair fresh s = s := by
  unfold tryPair
  split
  · rfl
  · simp [hreq, hrejoin]

theorem tryPair_of_agreed {q : PairReq} (hm : s.twn.hello = some m) (hlink : s.twn.link = .up) (hst : s.pac.stripe = none)
    (hq : s.twn.pairReq = some q) (hcheck : pairCheck s.twn m q.sn = 0) (fresh : Bool) : tryPair fresh s = formPair m s := by
  simp [tryPair, hm, hlink, hst, hq, hcheck]

/-- The HELLOs of two twins that take different sides agree (Table 8-6). -/
theorem pairCheck_eq_zero {t : Twn} {expected : Nat} (hside : t.sideB ≠ m.sideB) (hmaster : t.master ≠ m.paceMaster)
    (hown : expected = 0 ∨ expected = m.serial.toNat) (hpeer : m.expected = 0 ∨ m.expected = Config.serial)
    (hstep : m.stepping.toNat = steppingB0) : pairCheck t m expected = 0 := by
  unfold pairCheck
  rw [if_neg (not_or.2 ⟨hside, hmaster⟩), if_neg, if_neg (not_not.2 hstep)]
  rintro (⟨h0, h1⟩ | ⟨h0, h1⟩)
  · exact hown.elim h0 h1
  · exact hpeer.elim h0 h1

/-- The twin block of a pair that has formed. -/
def pairedTwn (m : Hello) (t : Twn) : Twn :=
  { t with paired := true, active := !t.sideB, roleNext := none, roleGrp := 0, split := false, rejoin := false, hbStandby := 0,
           partnerSn := m.serial.toNat, pairReq := none }

@[simp] theorem formPair_twn (m : Hello) (s : State) : (formPair m s).twn = pairedTwn m s.twn := by
  simp only [formPair, completeOpt_twn, raiseItems_twn]
  rfl

theorem cmdFind_formPair {q : PairReq} (hq : s.twn.pairReq = some q) : cmdFind (formPair m s) q.cmd = none := by
  simp only [formPair, hq]
  exact cmdFind_complete _ _ _ _

theorem formPair_only (m : Hello) (s : State) : changesOnly { Parts.events with twn := true } s (formPair m s) :=
  (does_formPair m (.refl _ s) rfl).only

theorem formPair_reported (m : Hello) (s : State) : reported 0x1201 0 s (formPair m s) := by
  unfold formPair
  extract_lets twn s1
  have h1 : changesOnly { twn := true } s s1 := rfl
  exact reported_between h1 (does_completeOpt _ _ _ (.refl { outs := true, hst := true, obs := true } _) rfl).only

/-! ### The rows of TWIN_PAIR -/

/-- Reserved parameters of TWIN_PAIR that are not 0. -/
abbrev PairReserved (c : Cmd) : Prop := c.reserved 0x10 = true ∨ 4 ≤ c.p 1 1 ∨ c.p 2 2 ≠ 0

/-- Parameters of TWIN_PAIR outside their range. -/
abbrev PairRange (c : Cmd) : Prop := 1 < c.p 0 1 ∨ c.p 4 4 = 0 ∨ 600000 < c.p 4 4

/-- The row of a TWIN_PAIR: with or without DISSOLVE. -/
def pairRow (id : Nat) (c : Cmd) : Instr := if bitAt (c.p 1 1) 1 then .twinPairDissolve id else .twinPair id

/-- The request of a TWIN_PAIR. -/
def pairRequest (id : Nat) (c : Cmd) : PairReq :=
  { cmd := id, sideB := c.p 0 1 == 1, master := bitAt (c.p 1 1) 0, sn := c.p 8 8 }

/-- A TWIN_PAIR takes its settings and stands (R290). -/
def takePair (id : Nat) (c : Cmd) (s : State) : State :=
  cmdRun id { s with twn := { s.twn with
    sideB := (pairRequest id c).sideB, master := (pairRequest id c).master, expectSn := c.p 8 8, pairReq := some (pairRequest id c) } }

/-- A working pair leaves its link (R290). -/
def leavePair (s : State) : State := fallSilent (dxpPreset (tableLinkLost (endHandover 0x41 s)))

theorem leavePair_link (s : State) : (leavePair s).twn.link = .preset ∧ (leavePair s).twn.quiet = true :=
  ⟨(fallSilent_link _).trans (dxpPreset_link _), fallSilent_quiet _⟩

/-- The parameters of TWIN_PAIR are checked alike with DISSOLVE and without. -/
theorem exec_pairRow_refused (hc : cmdOp s id 0x0B = some c) (hbad : PairReserved c ∨ PairRange c ∨ s.pac.stripe.isSome = true) :
    exec (pairRow id c) s =
      .next (complete id (if PairReserved c then 2 else if PairRange c then 0x40 else 0x44) [] s) := by
  have key : ∀ {a b : Host.Outcome State Fault Refusal},
      (if PairReserved c then ok (complete id 2 [] s) else if PairRange c then ok (complete id 0x40 [] s)
        else if s.pac.stripe.isSome then a else b) =
      if PairReserved c then ok (complete id 2 [] s) else if PairRange c then ok (complete id 0x40 [] s) else a := by
    intro a b
    split
    · rfl
    · split
      · rfl
      · exact if_pos (by tauto)
  have hrow : exec (pairRow id c) s =
      if PairReserved c then ok (complete id 2 [] s) else if PairRange c then ok (complete id 0x40 [] s) else ok (complete id 0x44 [] s) := by
    unfold pairRow
    cases hbit : bitAt (c.p 1 1) 1
    · simp only [Bool.false_eq_true, if_false]
      exact (by simp only [exec, execTwinPair, hc, hbit]; rfl : exec (.twinPair id) s = _).trans key
    · simp only [if_true]
      exact (by simp only [exec, execTwinPairDissolve, hc, hbit]; rfl : exec (.twinPairDissolve id) s = _).trans key
  rw [hrow]
  split
  · rfl
  · split <;> rfl

theorem exec_twinPair (hc : cmdOp s id 0x0B = some c) (hres : ¬ PairReserved c) (hrange : ¬ PairRange c) (hst : s.pac.stripe = none)
    (hbit : bitAt (c.p 1 1) 1 = false) (hreq : s.twn.pairReq = none) :
    exec (.twinPair id) s = .next (tryPair false (sendHello (takePair id c s))) := by
  simp only [exec, execTwinPair, hc, hbit, hst, hreq]
  exact (if_neg hres).trans (if_neg hrange)

theorem exec_twinPairDissolve (hc : cmdOp s id 0x0B = some c) (hres : ¬ PairReserved c) (hrange : ¬ PairRange c) (hst : s.pac.stripe = none)
    (hbit : bitAt (c.p 1 1) 1 = true) : exec (.twinPairDissolve id) s =
      .next (complete id 0 (pairResult s.twn) (goSolo (if s.twn.link = .up ∧ s.twn.paired = true then leavePair s else s))) := by
  simp only [exec, execTwinPairDissolve, hc, hbit, hst]
  exact (if_neg hres).trans (if_neg hrange)

/-! ### What each row answers -/

/-- Acceptance leaves the request in TWN, and the HELLO goes out with the new settings. -/
theorem helloAfterTake_twn (id : Nat) (c : Cmd) (s : State) :
    ∃ n, (sendHello (takePair id c s)).twn = { (takePair id c s).twn with txAlive := n } := sendHello_twn _

theorem helloAfterTake_only (id : Nat) (c : Cmd) (s : State) :
    changesOnly { outs := true, hst := true, twn := true, obs := true } s (sendHello (takePair id c s)) :=
  only_step (rfl : changesOnly { outs := true, hst := true, twn := true, obs := true } s (takePair id c s))
    (does_sendHello (.refl { outs := true, twn := true, obs := true } _) rfl)

theorem tryPair_settings (fresh : Bool) (s : State) : (tryPair fresh s).twn.sideB = s.twn.sideB ∧
    (tryPair fresh s).twn.master = s.twn.master ∧ (tryPair fresh s).twn.expectSn = s.twn.expectSn := by
  have hform : ∀ m, (formPair m s).twn.sideB = s.twn.sideB ∧ (formPair m s).twn.master = s.twn.master ∧
      (formPair m s).twn.expectSn = s.twn.expectSn := fun m => by simp [pairedTwn]
  unfold tryPair
  split
  · exact ⟨rfl, rfl, rfl⟩
  · split
    · exact ⟨rfl, rfl, rfl⟩
    · split
      · dsimp only
        split
        · exact hform _
        · split
          · simp
          · exact ⟨rfl, rfl, rfl⟩
      · split
        · exact hform _
        · exact ⟨rfl, rfl, rfl⟩

section Accepted

variable (hc : cmdOp s id 0x0B = some c) (hres : ¬ PairReserved c) (hrange : ¬ PairRange c) (hst : s.pac.stripe = none)
include hc hres hrange hst

theorem answers_twinPair (hbit : bitAt (c.p 1 1) 1 = false) (hreq : s.twn.pairReq = none) : answers (.twinPair id) s fun t =>
    t.twn.sideB = decide (c.p 0 1 = 1) ∧ t.twn.master = bitAt (c.p 1 1) 0 ∧ t.twn.expectSn = c.p 8 8 ∧
    (s.twn.hello = none → t.twn.pairReq = some (pairRequest id c) ∧ t.twn.paired = s.twn.paired ∧
      changesOnly { outs := true, hst := true, twn := true, obs := true } s t) ∧
    (∀ m, s.twn.hello = some m → s.twn.link = .up → m.sideB ≠ decide (c.p 0 1 = 1) → m.paceMaster ≠ bitAt (c.p 1 1) 0 →
      (c.p 8 8 = 0 ∨ c.p 8 8 = m.serial.toNat) → (m.expected = 0 ∨ m.expected = Config.serial) → m.stepping.toNat = steppingB0 →
      t.twn.paired = true ∧ t.twn.active = decide (c.p 0 1 ≠ 1) ∧ t.twn.partnerSn = m.serial.toNat ∧ t.twn.pairReq = none ∧
      cmdFind t id = none ∧ reported 0x1201 0 s t ∧ changesOnly { Parts.events with twn := true } s t) := by
  refine ⟨_, exec_twinPair hc hres hrange hst hbit hreq, ?_⟩
  obtain ⟨n, htwn⟩ := helloAfterTake_twn id c s
  have honly := helloAfterTake_only id c s
  obtain ⟨hside, hmaster, hexpect⟩ := tryPair_settings false (sendHello (takePair id c s))
  rw [htwn] at hside hmaster hexpect
  refine ⟨hside, hmaster, hexpect, fun hnone => ?_, fun m hm hlink hmside hmmaster hown hpeer hstep => ?_⟩
  · rw [tryPair_of_no_hello (by rw [htwn]; exact hnone), htwn]
    exact ⟨rfl, rfl, honly⟩
  · have hcheck : pairCheck (sendHello (takePair id c s)).twn m (pairRequest id c).sn = 0 := by
      rw [htwn]
      exact pairCheck_eq_zero hmside.symm hmmaster.symm hown hpeer hstep
    have hstripe : (sendHello (takePair id c s)).pac.stripe = none := by rw [same_pac honly rfl, hst]
    have hreq' : (sendHello (takePair id c s)).twn.pairReq = some (pairRequest id c) := by rw [htwn]; rfl
    rw [tryPair_of_agreed (by rw [htwn]; exact hm) (by rw [htwn]; exact hlink) hstripe hreq' hcheck]
    refine ⟨by simp [pairedTwn], ?_, by simp [pairedTwn], by simp [pairedTwn], cmdFind_formPair hreq',
      reported_after (formPair_reported m _) (same_glb honly rfl) (same_slo honly rfl) (same_tim honly rfl),
      only_trans honly (formPair_only m _)⟩
    rw [formPair_twn, htwn]
    exact (decide_not).symm

theorem answers_twinPairDissolve (hbit : bitAt (c.p 1 1) 1 = true) : answers (.twinPairDissolve id) s fun t =>
    t.twn.paired = false ∧ t.twn.active = true ∧ t.twn.roleNext = none ∧ t.twn.rejoin = false ∧ cmdFind t id = none ∧
    (s.twn.link = .up → s.twn.paired = true → t.twn.link = .preset ∧ t.twn.quiet = true) ∧
    (s.twn.link ≠ .up ∨ s.twn.paired = false → completedWith { twn := true } id 0 s t ∧ t.twn.link = s.twn.link) := by
  refine ⟨_, exec_twinPairDissolve hc hres hrange hst hbit, ?_⟩
  have hsolo : ∀ u, (complete id 0 (pairResult s.twn) (goSolo u)).twn = soloTwn u.twn := fun u => (complete_twn _ _ _ _).trans (goSolo_twn u)
  obtain ⟨hlink, hquiet⟩ := leavePair_link s
  split
  next hup =>
    dsimp only
    rw [hsolo]
    refine ⟨rfl, rfl, rfl, rfl, cmdFind_complete _ _ _ _, fun _ _ =>
      ⟨(soloTwn_link _).trans hlink, (soloTwn_quiet _).trans hquiet⟩, fun halone => ?_⟩
    exact absurd halone (by simp [hup])
  next halone =>
    dsimp only
    rw [hsolo]
    exact ⟨rfl, rfl, rfl, rfl, cmdFind_complete _ _ _ _, fun hup hp => absurd ⟨hup, hp⟩ halone, fun _ => ⟨⟨goSolo s, _, rfl, rfl⟩, rfl⟩⟩

end Accepted

theorem exec_twinPairTimeout {q : PairReq} (hq : s.twn.pairReq = some q) : exec .twinPairTimeout s =
    .next (complete q.cmd 0x43 (pairResult s.twn) { s with twn := { s.twn with pairReq := none } }) := by
  simp only [exec, execTwinPairTimeout, hq]
  rfl

/-- Settles O46: both rows make the same checks; past them TWIN_PAIR takes its settings and forms a pair where the HELLOs agree, and
DISSOLVE leaves this device alone. -/
theorem twinPairing : Obligations.TwinPairing := by
  intro s
  refine ⟨fun id c hc => ?_, fun q hq => ?_⟩
  · intro row bad range
    refine ⟨fun hbad => ?_, fun hgood hrange => ?_, fun hgood hrange hst => ?_, fun hgood hrange hst =>
      ⟨answers_twinPair hc hgood hrange hst, answers_twinPairDissolve hc hgood hrange hst⟩⟩
    · exact answers_complete ((exec_pairRow_refused hc (.inl hbad)).trans (by rw [if_pos hbad]))
    · exact answers_complete ((exec_pairRow_refused hc (.inr (.inl hrange))).trans (by rw [if_neg hgood, if_pos hrange]))
    · exact answers_complete ((exec_pairRow_refused hc (.inr (.inr hst))).trans (by rw [if_neg hgood, if_neg hrange]))
  · exact ⟨_, exec_twinPairTimeout hq, complete_twn _ _ _ _, { s with twn := { s.twn with pairReq := none } }, _, rfl, rfl⟩

end Sys2Proof.Machine
end

section
/-! PROOFS. The active role of a pair (R283, R304 to R308): how a role is taken, handed over and dropped, and O47. -/

-- One theorem at a time, as under Laws/: the package as one text takes too much memory in many threads.
set_option Elab.async false

namespace Sys2Proof.Machine

variable {s t u : State} {id g : Nat} {act : Bool} {ho : Handover}

/-! ### The role now sent -/

theorem roleNow_congr (hpac : t.pac = s.pac) (hpaired : t.twn.paired = s.twn.paired) (hactive : t.twn.active = s.twn.active)
    (hnext : t.twn.roleNext = s.twn.roleNext) : roleNow t = roleNow s := by
  unfold roleNow roleAt
  rw [hpac, hpaired, hactive, hnext]

/-- A twin of a pair with no role change to come holds the role it has. -/
theorem roleNow_of_settled (hpaired : s.twn.paired = true) (hnext : s.twn.roleNext = none) : roleNow s = s.twn.active := by
  unfold roleNow roleAt
  split <;> simp [hpaired, hnext]

/-! ### A role that is taken (R304, R306) -/

theorem setRole_only (g : Nat) (act : Bool) (s : State) : changesOnly { Parts.events with twn := true } s (setRole g act s) :=
  (does_setRole g act (.refl _ s) rfl).only

/-- A role change begins with an update of TWN alone, and its event follows. -/
theorem setRole_eq (g : Nat) (act : Bool) (s : State) : setRole g act s =
    raiseItems 0x1205 0 [(1, if act then 1 else 0), (4, g)] { s with twn :=
      if s.pac.stripe.isSome ∧ g ≠ max32 then { s.twn with roleGrp := g % 2 ^ 20, active := roleNow s, roleNext := some (g, act) }
      else { s.twn with roleGrp := g % 2 ^ 20, active := act, roleNext := none } } := by
  unfold setRole
  split <;> rfl

theorem setRole_reported (g : Nat) (act : Bool) (s : State) : reported 0x1205 0 s (setRole g act s) := by
  rw [setRole_eq]
  exact reported_after (raiseItems_reported _ _ _ _) rfl rfl rfl

theorem setRole_inflight (g : Nat) (act : Bool) (s : State) : (setRole g act s).hst.inflight = s.hst.inflight := by
  rw [setRole_eq, raiseItems_inflight]

/-- Outside a stripe, or with no group named, the role changes at once. -/
theorem setRole_twn_of_now (h : s.pac.stripe = none ∨ g = max32) :
    (setRole g act s).twn = { s.twn with roleGrp := g % 2 ^ 20, active := act, roleNext := none } := by
  rw [setRole_eq, raiseItems_twn, if_neg]
  rintro ⟨hst, hg⟩
  rcases h with h | h
  · simp [h] at hst
  · exact hg h

/-- In a stripe the role changes from the group on. -/
theorem setRole_twn_of_later (hst : s.pac.stripe.isSome = true) (hg : g ≠ max32) :
    (setRole g act s).twn = { s.twn with roleGrp := g % 2 ^ 20, active := roleNow s, roleNext := some (g, act) } := by
  rw [setRole_eq, raiseItems_twn, if_pos ⟨hst, hg⟩]

/-- A twin that must not hold the role under R306 does not hold it after dropping it. -/
theorem roleNow_dropRole (hrule : liveRule s = true) (hrole : liveRole s = false) : roleNow (dropRole s) = false := by
  have hpaired : s.twn.paired = true := by
    unfold liveRule at hrule
    exact (Bool.and_eq_true_iff.1 hrule).1
  unfold dropRole
  split
  · rw [roleNow_of_settled] <;> simp [hpaired]
  next hkeep => exact Bool.eq_false_iff.2 fun h => hkeep ⟨hrule, by simp [hrole], .inl h⟩

theorem dropRole_only (s : State) : changesOnly { Parts.events with twn := true } s (dropRole s) := (does_dropRole (.refl _ s) rfl).only

/-! ### The end of a handover (R305) -/

/-- The handover in progress, or none, set. -/
def setHandover (x : Option Handover) (s : State) : State := { s with twn := { s.twn with handover := x } }

/-- COMMIT has gone or come: the handover waits for its group (R304). -/
def setCommitted (ho : Handover) (s : State) : State := setHandover (some { ho with committed := true }) s

@[simp] theorem setCommitted_twn (ho : Handover) (s : State) :
    (setCommitted ho s).twn = { s.twn with handover := some { ho with committed := true } } := rfl

@[simp] theorem setHandover_twn (x : Option Handover) (s : State) : (setHandover x s).twn = { s.twn with handover := x } := rfl

theorem endHandover_of_open (h : s.twn.handover = some ho) (hopen : ho.committed = false) (status : Nat) :
    endHandover status s = completeOpt ho.cmd status [] (setHandover none s) := by
  simp [endHandover, h, hopen, setHandover]

theorem handoverDone_of_committed (h : s.twn.handover = some ho) (hdone : ho.committed = true) :
    handoverDone s = completeOpt ho.cmd 0 (le 4 ho.group) (setHandover none s) := by
  simp [handoverDone, h, hdone, setHandover]

theorem cmdFind_completeOpt {cmd : Option Nat} (hcmd : cmd = some id) (status : Nat) (data : List Byte) (s : State) :
    cmdFind (completeOpt cmd status data s) id = none := by
  subst hcmd
  exact cmdFind_complete _ _ _ _

theorem completeOpt_only (cmd : Option Nat) (status : Nat) (data : List Byte) (s : State) :
    changesOnly { outs := true, hst := true, obs := true } s (completeOpt cmd status data s) :=
  (does_completeOpt cmd status data (.refl _ s) rfl).only

/-! ### The exchange that succeeds (R304, R305) -/

theorem commitHandover_only (ho : Handover) (act : Bool) (s : State) :
    changesOnly { Parts.events with twn := true } s (commitHandover ho act s) := (does_commitHandover ho act (.refl _ s) rfl).only

/-- Outside a stripe, or with no group named, the role changes and the command completes. -/
theorem commitHandover_of_now (h : s.pac.stripe = none ∨ ho.group = max32) :
    commitHandover ho act s = completeOpt ho.cmd 0 (le 4 ho.group)
      (setHandover none (setRole ho.group act (setCommitted ho s))) := by
  have hnow : ¬ (s.pac.stripe.isSome = true ∧ ho.group ≠ max32) := by
    rintro ⟨hst, hg⟩
    rcases h with h | h
    · simp [h] at hst
    · exact hg h
  have htwn := setRole_twn_of_now (s := setCommitted ho s) (act := act) h
  exact (if_neg hnow).trans (handoverDone_of_committed (ho := { ho with committed := true }) (by exact congrArg Twn.handover htwn) rfl)

/-- In a stripe both wait for the group. -/
theorem commitHandover_of_later (hst : s.pac.stripe.isSome = true) (hg : ho.group ≠ max32) :
    commitHandover ho act s = setRole ho.group act (setCommitted ho s) := if_pos ⟨hst, hg⟩

theorem commitHandover_twn_of_now (h : s.pac.stripe = none ∨ ho.group = max32) : (commitHandover ho act s).twn =
    { s.twn with roleGrp := ho.group % 2 ^ 20, active := act, roleNext := none, handover := none } := by
  rw [commitHandover_of_now h, completeOpt_twn, setHandover_twn, setRole_twn_of_now (s := setCommitted ho s) h, setCommitted_twn]

theorem commitHandover_twn_of_later (hst : s.pac.stripe.isSome = true) (hg : ho.group ≠ max32) : (commitHandover ho act s).twn =
    { s.twn with roleGrp := ho.group % 2 ^ 20, active := roleNow s, roleNext := some (ho.group, act),
                 handover := some { ho with committed := true } } := by
  rw [commitHandover_of_later hst hg, setRole_twn_of_later (s := setCommitted ho s) hst hg, setCommitted_twn,
    roleNow_congr (s := s) (t := setCommitted ho s) rfl rfl rfl rfl]

theorem cmdFind_commitHandover_of_now (h : s.pac.stripe = none ∨ ho.group = max32) (hcmd : ho.cmd = some id) :
    cmdFind (commitHandover ho act s) id = none := by
  rw [commitHandover_of_now h]
  exact cmdFind_completeOpt hcmd _ _ _

theorem commitHandover_inflight_of_later (hst : s.pac.stripe.isSome = true) (hg : ho.group ≠ max32) :
    (commitHandover ho act s).hst.inflight = s.hst.inflight := by
  rw [commitHandover_of_later hst hg, setRole_inflight]
  rfl

/-- A handover is for now or for a later group. -/
theorem now_or_later (s : State) (g : Nat) : (s.pac.stripe = none ∨ g = max32) ∨ (s.pac.stripe.isSome = true ∧ g ≠ max32) := by
  cases s.pac.stripe with
  | none => exact .inl (.inl rfl)
  | some st => exact (em (g = max32)).imp .inr fun hg => ⟨rfl, hg⟩

theorem commitHandover_reported (ho : Handover) (act : Bool) (s : State) : reported 0x1205 0 s (commitHandover ho act s) := by
  have hrole : reported 0x1205 0 s (setRole ho.group act (setCommitted ho s)) :=
    reported_after (setRole_reported _ _ _) rfl rfl rfl
  rcases now_or_later s ho.group with hnow | ⟨hst, hg⟩
  · rw [commitHandover_of_now hnow]
    generalize setRole ho.group act (setCommitted ho s) = u at hrole ⊢
    have hopen : reported 0x1205 0 s (setHandover none u) := reported_of_same hrole rfl rfl
    have hdone := completeOpt_only ho.cmd 0 (le 4 ho.group) (setHandover none u)
    exact reported_of_same hopen (same_glb hdone rfl) (same_slo hdone rfl)
  · rwa [commitHandover_of_later hst hg]

theorem commitHandover_roleGrp (ho : Handover) (act : Bool) (s : State) : (commitHandover ho act s).twn.roleGrp = ho.group % 2 ^ 20 := by
  rcases now_or_later s ho.group with hnow | ⟨hst, hg⟩
  · rw [commitHandover_twn_of_now hnow]
  · rw [commitHandover_twn_of_later hst hg]

/-! ### Rows of the handover -/

/-- A message that only counts on leaves the role, the handover and the commands as they are. -/
structure OnlyCounted (s u : State) : Prop where
  twn : ∃ n, u.twn = { s.twn with txAlive := n }
  only : changesOnly { outs := true, twn := true, obs := true } s u

theorem OnlyCounted.refl (s : State) : OnlyCounted s s := ⟨⟨s.twn.txAlive, rfl⟩, rfl⟩

theorem OnlyCounted.dxpSend (hup : s.twn.link = .up) (ty arg : Nat) (p : List Nat) : OnlyCounted s (dxpSend ty arg p s) :=
  ⟨⟨_, dxpSend_twn hup ty arg p⟩, dxpSend_only ty arg p s⟩

theorem OnlyCounted.roleNow (h : OnlyCounted s u) : roleNow u = roleNow s := by
  obtain ⟨⟨n, htwn⟩, honly⟩ := h
  exact roleNow_congr (same_pac honly rfl) (by rw [htwn]) (by rw [htwn]) (by rw [htwn])

/-- ACCEPT for the twin that proposed and COMMIT for the other come to the same, after the COMMIT that the first sends (R304). -/
theorem exec_handoverEnd {g : W32} {c : Instr} (hho : s.twn.handover = some ho) (hg : ho.group = g.toNat) (hopen : ho.committed = false)
    (hv : voting s = true)
    (hc : c = .dxpHandoverAccept g ∧ ho.proposed = true ∧ act = false ∨ c = .dxpHandoverCommit g ∧ ho.proposed = false ∧ act = true) :
    ∃ u, OnlyCounted s u ∧ exec c s = .next (if beforeDeadline s ho.group then commitHandover ho act u else endHandover 0x41 s) := by
  rcases hc with ⟨rfl, hprop, rfl⟩ | ⟨rfl, hprop, rfl⟩
  · refine ⟨dxpSend 7 ho.group [3] s, .dxpSend (link_of_voting hv) _ _ _, ?_⟩
    simp only [exec, execDxpHandoverAccept, hho]
    refine (if_neg (by simp [hv, hprop, hopen, hg])).trans ?_
    cases beforeDeadline s ho.group <;> rfl
  · refine ⟨s, .refl s, ?_⟩
    simp only [exec, execDxpHandoverCommit, hho]
    refine (if_neg (by simp [hv, hprop, hopen, hg])).trans ?_
    cases beforeDeadline s ho.group <;> rfl

theorem answers_handoverEnd {g : W32} {c : Instr} (hho : s.twn.handover = some ho) (hg : ho.group = g.toNat) (hopen : ho.committed = false)
    (hv : voting s = true)
    (hc : c = .dxpHandoverAccept g ∧ ho.proposed = true ∧ act = false ∨ c = .dxpHandoverCommit g ∧ ho.proposed = false ∧ act = true) :
    answers c s fun t =>
      changesOnly { Parts.events with twn := true } s t ∧
      (beforeDeadline s ho.group = true → reported 0x1205 0 s t ∧ t.twn.roleGrp = ho.group % 2 ^ 20 ∧
        (s.pac.stripe = none ∨ ho.group = max32 → t.twn.active = act ∧ t.twn.roleNext = none ∧ t.twn.handover = none ∧
          (∀ id, ho.cmd = some id → cmdFind t id = none)) ∧
        (s.pac.stripe.isSome = true → ho.group ≠ max32 → t.twn.active = roleNow s ∧ t.twn.roleNext = some (ho.group, act) ∧
          t.twn.handover = some { ho with committed := true } ∧ (∀ id, cmdFind t id = cmdFind s id))) ∧
      (beforeDeadline s ho.group = false → t.twn.active = s.twn.active ∧ t.twn.roleNext = s.twn.roleNext ∧ t.twn.handover = none ∧
        (∀ id, ho.cmd = some id → cmdFind t id = none)) := by
  obtain ⟨u, hu, hexec⟩ := exec_handoverEnd hho hg hopen hv hc
  obtain ⟨⟨n, htwn⟩, honly⟩ := hu
  have hpac : u.pac = s.pac := same_pac honly rfl
  refine ⟨_, hexec, ?_⟩
  cases hdue : beforeDeadline s ho.group with
  | true =>
    refine ⟨only_trans honly (commitHandover_only ho act u), fun _ => ⟨?_, commitHandover_roleGrp ho act u,
      fun hnow => ?_, fun hst hmax => ?_⟩, fun h => by cases h⟩
    · exact reported_after (commitHandover_reported ho act u) (same_glb honly rfl) (same_slo honly rfl) (same_tim honly rfl)
    · have hnow' : u.pac.stripe = none ∨ ho.group = max32 := by rwa [hpac]
      simp only [if_true]
      rw [commitHandover_twn_of_now hnow']
      exact ⟨rfl, rfl, rfl, fun id hid => cmdFind_commitHandover_of_now hnow' hid⟩
    · have hst' : u.pac.stripe.isSome = true := by rwa [hpac]
      simp only [if_true]
      have hflight : (commitHandover ho act u).hst.inflight = s.hst.inflight := by
        rw [commitHandover_inflight_of_later hst' hmax, same_hst honly rfl]
      rw [commitHandover_twn_of_later hst' hmax]
      exact ⟨OnlyCounted.roleNow ⟨⟨n, htwn⟩, honly⟩, rfl, rfl, fun id => cmdFind_congr hflight id⟩
  | false =>
    have hend : changesOnly { Parts.events with twn := true } s (endHandover 0x41 s) := (does_endHandover 0x41 (.refl _ s) rfl).only
    refine ⟨hend, fun h => (by cases h), fun _ => ?_⟩
    simp only [Bool.false_eq_true, if_false]
    rw [endHandover_of_open hho hopen, completeOpt_twn]
    exact ⟨rfl, rfl, rfl, fun id hid => cmdFind_completeOpt hid _ _ _⟩

/-! ### The command and the proposal (R304, R305) -/

/-- A handover goes on with its message. -/
theorem sendHandover_spec (hup : s.twn.link = .up) (x : Option Handover) (ty arg : Nat) (p : List Nat) :
    (dxpSend ty arg p (setHandover x s)).twn.handover = x ∧
      (dxpSend ty arg p (setHandover x s)).outs = nextMessage s ty arg p :: s.outs ∧
      changesOnly { outs := true, twn := true, obs := true } s (dxpSend ty arg p (setHandover x s)) := by
  have hup' : (setHandover x s).twn.link = .up := hup
  have honly : changesOnly { twn := true } s (setHandover x s) := rfl
  exact ⟨congrArg Twn.handover (dxpSend_twn hup' ty arg p), dxpSend_outs hup' ty arg p, only_trans honly (dxpSend_only ty arg p _)⟩

/-- TWIN_HANDOVER refused (R305). -/
theorem exec_twinHandover_refused {c : Cmd} {st : Nat} (hc : cmdOp s id 0x0C = some c)
    (h : c.reserved 0 = true ∧ st = 2 ∨ c.reserved 0 = false ∧ (s.twn.paired = false ∧ st = 0x40 ∨
      s.twn.paired = true ∧ voting s = false ∧ st = 0x41 ∨ voting s = true ∧ handoverBusy s = true ∧ st = 0x42)) :
    exec (.twinHandover id) s = .next (complete id st [] s) := by
  have hpaired : voting s = true → s.twn.paired = true := fun hv => by
    simp only [voting, Bool.and_eq_true] at hv
    exact hv.1.1
  simp only [exec, execTwinHandover, hc]
  rcases h with ⟨hres, rfl⟩ | ⟨hres, ⟨hp, rfl⟩ | ⟨hp, hv, rfl⟩ | ⟨hv, hbusy, rfl⟩⟩
  · exact if_pos hres
  · exact (if_neg (by simp [hres])).trans (if_pos (by simp [hp]))
  · exact (if_neg (by simp [hres])).trans ((if_neg (by simp [hp])).trans (if_pos (by simp [hv])))
  · exact (if_neg (by simp [hres])).trans ((if_neg (by simp [hpaired hv])).trans ((if_neg (by simp [hv])).trans (if_pos hbusy)))

theorem exec_twinHandover {c : Cmd} (hc : cmdOp s id 0x0C = some c) (hres : c.reserved 0 = false) (hv : voting s = true)
    (hbusy : handoverBusy s = false) : exec (.twinHandover id) s = .next (if roleNow s then propose (some id) (cmdRun id s)
      else dxpSend 7 0 [0] (cmdRun id (setHandover (some { group := max32, cmd := some id, proposed := false }) s))) := by
  have hpaired : s.twn.paired = true := by
    simp only [voting, Bool.and_eq_true] at hv
    exact hv.1.1
  simp only [exec, execTwinHandover, hc]
  refine (if_neg (by simp [hres])).trans ((if_neg (by simp [hpaired])).trans ((if_neg (by simp [hv])).trans ((if_neg (by simp [hbusy])).trans ?_)))
  cases roleNow s <;> rfl

theorem answers_twinHandover {c : Cmd} (hc : cmdOp s id 0x0C = some c) (hres : c.reserved 0 = false) (hv : voting s = true)
    (hbusy : handoverBusy s = false) : answers (.twinHandover id) s fun t =>
      (roleNow s = true → t.twn.handover = some { group := handoverGroup s, cmd := some id, proposed := true } ∧
        t.outs = nextMessage s 7 (handoverGroup s) [1] :: s.outs) ∧
      (roleNow s = false → t.twn.handover = some { group := max32, cmd := some id, proposed := false } ∧
        t.outs = nextMessage s 7 0 [0] :: s.outs) ∧
      changesOnly { outs := true, hst := true, twn := true, obs := true } s t := by
  have hup : (cmdRun id s).twn.link = .up := link_of_voting hv
  have hrun : changesOnly { hst := true } s (cmdRun id s) := rfl
  refine ⟨_, exec_twinHandover hc hres hv hbusy, ?_⟩
  cases roleNow s with
  | true =>
    obtain ⟨hho, houts, honly⟩ := sendHandover_spec hup
      (some { group := handoverGroup s, cmd := some id, proposed := true }) 7 (handoverGroup s) [1]
    exact ⟨fun _ => ⟨hho, houts⟩, fun h => (by cases h), only_trans hrun honly⟩
  | false =>
    obtain ⟨hho, houts, honly⟩ := sendHandover_spec hup (some { group := max32, cmd := some id, proposed := false }) 7 0 [0]
    exact ⟨fun h => (by cases h), fun _ => ⟨hho, houts⟩, only_trans hrun honly⟩

theorem answers_handoverRequest (hv : voting s = true) (hrole : roleNow s = true) (hbusy : handoverBusy s = false) :
    answers .dxpHandoverRequest s fun t =>
      t.twn.handover = some { group := handoverGroup s, cmd := none, proposed := true } ∧
      t.outs = nextMessage s 7 (handoverGroup s) [1] :: s.outs ∧ changesOnly { outs := true, twn := true, obs := true } s t :=
  ⟨propose none s, if_pos (by simp [hv, hrole, hbusy]), sendHandover_spec (link_of_voting hv) _ _ _ _⟩

theorem answers_handoverPropose (g : W32) (hv : voting s = true) (hrole : roleNow s = false) :
    answers (.dxpHandoverPropose g) s fun t =>
      t.twn.handover = some { group := g.toNat, cmd := s.twn.handover.bind (fun h => h.cmd), proposed := false } ∧
      t.outs = nextMessage s 7 g.toNat [2] :: s.outs ∧ changesOnly { outs := true, twn := true, obs := true } s t :=
  ⟨_, if_neg (by simp [hv, hrole]), sendHandover_spec (link_of_voting hv) _ _ _ _⟩

/-! ### Liveness (R283, R306 to R308) -/

theorem answers_roleTake (hrule : liveRule s = true) (hrole : liveRole s = true)
    (hwill : (s.twn.roleNext.map Prod.snd).getD s.twn.active = false) : answers .roleTake s fun t =>
      t.twn.hbStandby = 0 ∧ reported 0x1205 0 s t ∧ changesOnly { Parts.events with twn := true } s t ∧
      (s.pac.stripe = none → t.twn.active = true ∧ t.twn.roleNext = none) ∧
      (s.pac.stripe.isSome = true → takeGroup s ≠ max32 → t.twn.roleNext = some (takeGroup s, true)) := by
  let u : State := { s with twn := { s.twn with hbStandby := 0 } }
  have hexec : exec .roleTake s = .next (setRole (takeGroup s) true u) := by
    refine if_pos ⟨hrule, hrole, ?_⟩
    cases hnext : s.twn.roleNext <;> simpa [hnext] using hwill
  refine ⟨_, hexec, ?_, reported_after (setRole_reported _ _ _) rfl rfl rfl, setRole_only _ _ u, fun hst => ?_, fun hst hg => ?_⟩
  · rcases now_or_later u (takeGroup s) with hnow | ⟨hst, hg⟩
    · rw [setRole_twn_of_now hnow]
    · rw [setRole_twn_of_later hst hg]
  · rw [setRole_twn_of_now (s := u) (.inl hst)]
    exact ⟨rfl, rfl⟩
  · rw [setRole_twn_of_later (s := u) hst hg]

/-- A partner that is heard is live, and a twin on side B drops the role where R306 rules. -/
theorem answers_partnerLive (s : State) : answers .partnerLive s fun t =>
    t.twn.partnerLive = true ∧ t.twn.partnerDeadSeen = false ∧
    (liveRule s = true → s.twn.sideB = true → roleNow t = false) ∧ changesOnly { Parts.events with twn := true } s t := by
  let u : State := { s with twn := { s.twn with partnerLive := true, partnerDeadSeen := false } }
  have hkept : LinkKept u (dropRole u) := (LinkKept.refl u).dropRole
  refine ⟨dropRole u, rfl, hkept.partnerLive, hkept.partnerDeadSeen, fun hrule hside => ?_, dropRole_only u⟩
  exact roleNow_dropRole (s := u) hrule (by simp [liveRole, u, hside])

/-- A pair that is not split, or a pace master, does not abort for want of its partner (R307). -/
theorem paceLost_of_kept (h : s.twn.paired = false ∨ s.twn.split = false ∨ s.twn.partnerDeadSeen = false ∨ s.twn.master = true) :
    paceLost s = s := by
  refine if_neg ?_
  rintro ⟨hp, hsplit, hdead, hmaster⟩
  rcases h with h | h | h | h <;> simp_all

/-- The partner's death is known, and reported (R307). -/
def partnerDies (s : State) : State :=
  raiseItems 0x1204 4 [(4, groupNow s)] { s with twn := { s.twn with partnerLive := false, partnerDeadSeen := true } }

theorem partnerDies_twn (s : State) : (partnerDies s).twn = { s.twn with partnerLive := false, partnerDeadSeen := true } := raiseItems_twn _ _ _ _

theorem partnerDies_pac (s : State) : (partnerDies s).pac = s.pac := raiseItems_pac _ _ _ _

theorem partnerDies_only (s : State) : changesOnly { Parts.events with twn := true } s (partnerDies s) := only_raiseItems _ _ _ rfl

/-- The frames of a dead partner are this twin's to record (R308). -/
def takeFrames (s : State) : State :=
  { s with pac := if s.twn.paired then { s.pac with acct := s.pac.acct.map claimFrames } else s.pac }

theorem takeFrames_only (s : State) : changesOnly { pac := true } s (takeFrames s) := rfl

@[simp] theorem takeFrames_twn (s : State) : (takeFrames s).twn = s.twn := rfl

theorem exec_partnerDead (hlive : s.twn.partnerLive = true) : exec .partnerDead s = .next (paceLost (takeFrames (partnerDies s))) := by
  have hclaim : takeFrames (partnerDies s) =
      if (partnerDies s).twn.paired then { partnerDies s with pac := { (partnerDies s).pac with acct := (partnerDies s).pac.acct.map claimFrames } }
      else partnerDies s := by
    unfold takeFrames
    split <;> rfl
  rw [hclaim]
  exact if_neg (by simp [hlive])

theorem answers_partnerDead (hlive : s.twn.partnerLive = true) : answers .partnerDead s fun t =>
    t.twn.partnerLive = false ∧ t.twn.partnerDeadSeen = true ∧
    (s.twn.paired = false ∨ s.twn.split = false ∨ s.twn.master = true →
      reported 0x1204 4 s t ∧ changesOnly { Parts.events with pac := true, twn := true } s t ∧
      t.pac = (if s.twn.paired then { s.pac with acct := s.pac.acct.map claimFrames } else s.pac)) := by
  have hkept : LinkKept (partnerDies s) (paceLost (takeFrames (partnerDies s))) := (LinkKept.of_twn (takeFrames_twn _)).paceLost
  refine ⟨_, exec_partnerDead hlive, ?_, ?_, fun h => ?_⟩
  · rw [hkept.partnerLive, partnerDies_twn]
  · rw [hkept.partnerDeadSeen, partnerDies_twn]
  · rw [paceLost_of_kept (by rw [takeFrames_twn, partnerDies_twn]; tauto)]
    refine ⟨?_, ?_, ?_⟩
    · exact reported_of_same (reported_after (raiseItems_reported _ _ _ _) rfl rfl rfl : reported 0x1204 4 s (partnerDies s)) rfl rfl
    · exact only_trans (partnerDies_only s) (takeFrames_only _)
    · simp only [takeFrames, partnerDies_twn, partnerDies_pac]

/-- Settles O47: each row of the exchange is one update of the handover with its message, or a role change; R306 takes and drops a role by
the same two operations. -/
theorem twinRoles : Obligations.TwinRoles := by
  intro s msg
  refine ⟨fun id c hc => ?_, answers_handoverRequest, answers_handoverPropose, fun g ho c act hho hg hopen hv hcase =>
    answers_handoverEnd hho hg hopen hv hcase, answers_roleTake, answers_partnerLive s, answers_partnerDead⟩
  intro fails
  have hfail : ∀ {st}, exec (.twinHandover id) s = .next (complete id st [] s) → fails st := answers_complete
  refine ⟨fun hres => hfail (exec_twinHandover_refused hc (.inl ⟨hres, rfl⟩)), fun hres => ⟨fun hp => ?_, fun hp hv => ?_, fun hv hb => ?_,
    answers_twinHandover hc hres⟩⟩
  · exact hfail (exec_twinHandover_refused hc (.inr ⟨hres, .inl ⟨hp, rfl⟩⟩))
  · exact hfail (exec_twinHandover_refused hc (.inr ⟨hres, .inr (.inl ⟨hp, hv, rfl⟩)⟩))
  · exact hfail (exec_twinHandover_refused hc (.inr ⟨hres, .inr (.inr ⟨hv, hb, rfl⟩)⟩))

end Sys2Proof.Machine
end

section
/-! PROOFS. The Dexpin link (R285 to R289, Tables 8-2 and 8-4): its rows, the loss of an UP link, and O45. -/

-- One theorem at a time, as under Laws/: the package as one text takes too much memory in many threads.
set_option Elab.async false

namespace Sys2Proof.Machine

variable {s t u : State} {v : Nat}

/-! ### TWN_CTRL (R285) -/

theorem twnCtrl_of_start (hv : v % 2 = 1) (hlink : s.twn.link = .disabled) (hlanes : s.glb.lanesStarted = true) (hlive : s.glb.fatal = false) :
    twnCtrl v s = dxpPreset (regSet s 0x120000 1) := by
  simp [twnCtrl, hv, hlink, hlanes, hlive]

theorem twnCtrl_of_enabled (hv : v % 2 = 1) (hlink : s.twn.link ≠ .disabled) : twnCtrl v s = regSet s 0x120000 1 := by
  simp [twnCtrl, hv, hlink]

/-- The link out of use. -/
def setDisabled (s : State) : State := { s with twn := { s.twn with link := .disabled, quiet := false } }

theorem setDisabled_link (s : State) : (setDisabled s).twn.link = .disabled := rfl

theorem setDisabled_only (s : State) : changesOnly { twn := true } s (setDisabled s) := rfl

/-- The link disabled, its lanes at their start. -/
def disableLink (s : State) : State := setDisabled (dxpPreset (regSet s 0x120000 0))

theorem disableLink_link (s : State) : (disableLink s).twn.link = .disabled := setDisabled_link _

theorem regSet_only (s : State) (off v : Nat) : changesOnly { regs := true } s (regSet s off v) := rfl

theorem disableLink_only (s : State) : changesOnly { regs := true, twn := true } s (disableLink s) :=
  only_trans (regSet_only s 0x120000 0) (only_trans (F := { twn := true }) (dxpPreset_only _) (setDisabled_only _))

theorem regGet_dxpPreset (off : Nat) (s : State) : regGet (dxpPreset s) off = regGet s off := regGet_congr (same_regs (dxpPreset_only s) rfl) off

theorem disableLink_enable (s : State) : regGet (disableLink s) 0x120000 = 0 :=
  (regGet_congr (same_regs (setDisabled_only _) rfl) _).trans ((regGet_dxpPreset _ _).trans (regGet_regSet_same _ _ _))

theorem twnCtrl_of_off (hv : v % 2 = 0) : twnCtrl v s = if s.twn.link = .up then linkLost (disableLink s) else disableLink s := by
  simp only [twnCtrl, hv]
  rfl

theorem answers_twnLinkEnable (h : writeReaches 0x120000 s) (v : W32) :
    (v.toNat.testBit 0 = true → s.twn.link = .disabled → s.glb.lanesStarted = true → answers (.twnLinkEnable v) s fun t =>
      t.twn.link = .preset ∧ regGet t 0x120000 = 1 ∧ LanesStart s t ∧ changesOnly { regs := true, twn := true } s t) ∧
    (v.toNat.testBit 0 = true → s.twn.link ≠ .disabled → answers (.twnLinkEnable v) s fun t =>
      regGet t 0x120000 = 1 ∧ changesOnly { regs := true } s t) ∧
    (v.toNat.testBit 0 = false → answers (.twnLinkEnable v) s fun t =>
      t.twn.link = .disabled ∧ (s.twn.link ≠ .up → regGet t 0x120000 = 0 ∧ changesOnly { regs := true, twn := true } s t)) := by
  have hexec : exec (.twnLinkEnable v) s = .next (twnCtrl (v.toNat % 2) s) := write_twnLinkEnable v h
  obtain ⟨-, -, -, hlive⟩ := h
  simp only [Nat.testBit_zero, decide_eq_true_eq, decide_eq_false_iff_not]
  refine ⟨fun hv hlink hlanes => ⟨_, hexec, ?_⟩, fun hv hlink => ⟨_, hexec, ?_⟩, fun hv => ⟨_, hexec, ?_⟩⟩
  · rw [twnCtrl_of_start (by omega) hlink hlanes hlive]
    refine ⟨dxpPreset_link _, (regGet_dxpPreset _ _).trans (regGet_regSet_same _ _ _), fun k hk => ?_,
      only_trans (A := { regs := true }) (u := regSet s 0x120000 1) rfl (dxpPreset_only _)⟩
    rw [dxpPreset_starts _ k hk, startLane, regGet_regSet_ne _ _ (by omega), startLane]
  · rw [twnCtrl_of_enabled (by omega) hlink]
    exact ⟨regGet_regSet_same _ _ _, rfl⟩
  · rw [twnCtrl_of_off (by omega)]
    split
    next hup =>
      exact ⟨((LinkKept.refl (disableLink s)).linkLost.link).trans (disableLink_link s), fun hne => absurd hup hne⟩
    next => exact ⟨disableLink_link s, fun _ => ⟨disableLink_enable s, disableLink_only s⟩⟩

/-! ### Training blocks (R285, R266) -/

/-- The lane after the tap request of a training block, which is taken once (R266). -/
def takeRequest (x : DxpLane) (seq req preset : Byte) : DxpLane :=
  if x.handled ∧ x.ackSeq = seq.toNat then x
  else { x with taps := (applyReq x.taps req.toNat preset.toNat).1, ack := (applyReq x.taps req.toNat preset.toNat).2, ackSeq := seq.toNat,
                handled := true }

/-- The lane after a training block. -/
def takeBlock (x : DxpLane) (rx : Fin 3) (own : Fin 4) (seq req preset : Byte) : DxpLane :=
  { takeRequest x seq req preset with seen := true, own := own, partnerTrained := decide (rx = 2) }

theorem takeRequest_of_handled {x : DxpLane} {seq : Byte} (h : x.handled = true) (hseq : x.ackSeq = seq.toNat) (req preset : Byte) :
    takeRequest x seq req preset = x := if_pos ⟨h, hseq⟩

theorem takeRequest_of_new {x : DxpLane} {seq : Byte} (h : x.handled = false ∨ x.ackSeq ≠ seq.toNat) (req preset : Byte) :
    ((takeRequest x seq req preset).taps, (takeRequest x seq req preset).ack) = applyReq x.taps req.toNat preset.toNat ∧
      (takeRequest x seq req preset).ackSeq = seq.toNat := by
  rw [takeRequest, if_neg (by rcases h with h | h <;> simp [h])]
  exact ⟨rfl, rfl⟩

theorem exec_dxpTrainBlockRx (k : Fin 8) (rx : Fin 3) (own : Fin 4) (seq req preset : Byte)
    (h : s.twn.link = .preset ∧ s.twn.quiet = false ∨ s.twn.link = .tap) :
    exec (.dxpTrainBlockRx k rx own seq req preset) s = .next (dxpAdvance (dxpSet s k (takeBlock (dxpGet s k) rx own seq req preset))) := by
  refine (if_neg (by rcases h with ⟨h, hq⟩ | h <;> simp [*])).trans ?_
  rfl

theorem dxpAdvance_only (s : State) : changesOnly { outs := true, twn := true, obs := true } s (dxpAdvance s) := (does_dxpAdvance (.refl _ s) rfl).only

theorem dxpAdvance_lanes (s : State) : (dxpAdvance s).twn.lanes = s.twn.lanes := by
  unfold dxpAdvance
  extract_lets lanes
  split
  · rfl
  · split
    · obtain ⟨n, h⟩ := sendHello_twn { s with twn := { s.twn with link := .align } }
      rw [h]
    · rfl

/-- From PRESET the link goes on to TAP once every lane has received a block. -/
theorem dxpAdvance_of_preset (hlink : s.twn.link = .preset) (hquiet : s.twn.quiet = false) :
    (dxpAdvance s).twn.link = if (List.range 8).all (fun j => (dxpGet s j).seen) then .tap else .preset := by
  simp only [dxpAdvance, List.all_map, hlink, hquiet, Function.comp_def]
  generalize (List.range 8).all (fun j => (dxpGet s j).seen) = all
  cases all
  · exact hlink
  · rfl

/-- From TAP the link goes on to ALIGN, with its HELLO, once both twins have trained every lane. -/
theorem dxpAdvance_of_tap (hlink : s.twn.link = .tap) : (dxpAdvance s).twn.link =
    if (List.range 8).all (fun j => decide (2 ≤ (dxpGet s j).own) && (dxpGet s j).partnerTrained) then .align else .tap := by
  simp only [dxpAdvance, List.all_map, hlink, Function.comp_def]
  generalize (List.range 8).all (fun j => decide (2 ≤ (dxpGet s j).own) && (dxpGet s j).partnerTrained) = all
  obtain ⟨n, htwn⟩ := sendHello_twn { s with twn := { s.twn with link := .align } }
  cases all
  · exact hlink
  · exact congrArg Twn.link htwn

theorem dxpSet_only (s : State) (k : Nat) (x : DxpLane) : changesOnly { twn := true } s (dxpSet s k x) := rfl

@[simp] theorem dxpSet_link (s : State) (k : Nat) (x : DxpLane) : (dxpSet s k x).twn.link = s.twn.link := rfl

@[simp] theorem dxpSet_quiet (s : State) (k : Nat) (x : DxpLane) : (dxpSet s k x).twn.quiet = s.twn.quiet := rfl

theorem answers_dxpTrainBlockRx (k : Fin 8) (rx : Fin 3) (own : Fin 4) (seq req preset : Byte)
    (h : s.twn.link = .preset ∧ s.twn.quiet = false ∨ s.twn.link = .tap) :
    answers (.dxpTrainBlockRx k rx own seq req preset) s fun t =>
      let x := dxpGet s k
      let y := dxpGet t k
      y.seen = true ∧ y.own = own.val ∧ y.partnerTrained = decide (rx.val = 2) ∧
      (x.handled = true → x.ackSeq = seq.toNat → y.taps = x.taps ∧ y.ack = x.ack) ∧
      (x.handled = false ∨ x.ackSeq ≠ seq.toNat → (y.taps, y.ack) = applyReq x.taps req.toNat preset.toNat ∧ y.ackSeq = seq.toNat) ∧
      (∀ j, j ≠ k.val → dxpGet t j = dxpGet s j) ∧
      (s.twn.link = .preset → t.twn.link = if (List.range 8).all (fun j => (dxpGet t j).seen) then .tap else .preset) ∧
      (s.twn.link = .tap → t.twn.link =
        if (List.range 8).all (fun j => decide (2 ≤ (dxpGet t j).own) && (dxpGet t j).partnerTrained) then .align else .tap) ∧
      changesOnly { outs := true, twn := true, obs := true } s t := by
  refine ⟨_, exec_dxpTrainBlockRx k rx own seq req preset h, ?_⟩
  have hx : dxpGet (dxpSet s k (takeBlock (dxpGet s k) rx own seq req preset)) k = takeBlock (dxpGet s k) rx own seq req preset :=
    dxpGet_dxpSet_same _ _ _
  have hne : ∀ j, j ≠ k.val → dxpGet (dxpSet s k (takeBlock (dxpGet s k) rx own seq req preset)) j = dxpGet s j :=
    fun j hj => dxpGet_dxpSet_ne _ _ hj
  have honly := dxpSet_only s k (takeBlock (dxpGet s k) rx own seq req preset)
  have hlink := dxpSet_link s k (takeBlock (dxpGet s k) rx own seq req preset)
  have hquiet := dxpSet_quiet s k (takeBlock (dxpGet s k) rx own seq req preset)
  generalize dxpSet s k (takeBlock (dxpGet s k) rx own seq req preset) = u at *
  simp only [dxpGet_congr (dxpAdvance_lanes u), hx]
  refine ⟨rfl, rfl, ?_, fun hh hseq => ?_, fun hnew => takeRequest_of_new hnew req preset, hne, fun hl => ?_, fun hl => ?_,
    only_trans honly (dxpAdvance_only u)⟩
  · simp [takeBlock, Fin.ext_iff]
  · rw [takeBlock, takeRequest_of_handled hh hseq]
    exact ⟨rfl, rfl⟩
  · have hq : s.twn.quiet = false := h.elim And.right fun ht => absurd (hl.symm.trans ht) (by decide)
    exact dxpAdvance_of_preset (hlink.trans hl) (hquiet.trans hq)
  · exact dxpAdvance_of_tap (hlink.trans hl)

/-! ### The timeouts of training (R285, R289) -/

theorem answers_dxpTrainTimeout (h : s.twn.link = .tap ∨ s.twn.link = .align) : answers .dxpTrainTimeout s fun t =>
    t.twn.link = .preset ∧ LanesStart s t ∧ changesOnly { twn := true } s t :=
  ⟨dxpPreset s, if_pos h, dxpPreset_link s, dxpPreset_starts s, dxpPreset_only s⟩

theorem answers_dxpNoPartner (hlink : s.twn.link = .preset) (hquiet : s.twn.quiet = false) (hno : s.twn.noPartner = false)
    (hseen : ∀ k, k < 8 → (dxpGet s k).seen = false) : answers .dxpNoPartner s fun t =>
      t.twn = { s.twn with noPartner := true } ∧ reported 0x1202 1 s t ∧ changesOnly { Parts.events with twn := true } s t := by
  have hnone : ¬ (List.range 8).any (fun k => (dxpGet s k).seen) := by
    simp only [List.any_eq_true, List.mem_range]
    rintro ⟨k, hk, h⟩
    simp [hseen k hk] at h
  exact ⟨_, if_pos ⟨hlink, by simp [hquiet], by simp [hno], hnone⟩, raiseItems_twn _ _ _ _,
    reported_after (raiseItems_reported _ _ _ _) rfl rfl rfl, only_raiseItems _ _ _ rfl⟩

/-! ### HELLO and HEARTBEAT received (R286, R288) -/

/-- The partner has said hello. -/
def takeHello (m : Hello) (s : State) : State := { s with twn := { s.twn with link := .up, hello := some m, partnerSn := m.serial.toNat } }

/-- A lane that the partner has trained. -/
def trainedLane (s : State) (k : Nat) : DxpLane := { dxpGet s k with own := 3 }

theorem exec_dxpHello {m : Hello} (h : s.twn.link = .align ∨ s.twn.link = .up) :
    exec (.dxpHello m) s = .next (tryPair true (eachDxp trainedLane 8 (takeHello m s))) := by
  refine if_neg ?_
  rintro ⟨h1, h2⟩
  exact h.elim h1 h2

theorem answers_dxpHello (m : Hello) (h : s.twn.link = .align ∨ s.twn.link = .up) (hreq : s.twn.pairReq = none)
    (hrejoin : s.twn.rejoin = false) : answers (.dxpHello m) s fun t =>
      t.twn.link = .up ∧ t.twn.hello = some m ∧ t.twn.partnerSn = m.serial.toNat ∧ (∀ k, k < 8 → (dxpGet t k).own = 3) ∧
      t.twn.paired = s.twn.paired ∧ changesOnly { twn := true } s t := by
  refine ⟨_, exec_dxpHello h, ?_⟩
  obtain ⟨ls, htwn⟩ := eachDxp_twn trainedLane 8 (takeHello m s)
  have hlanes : ∀ k, k < 8 → (dxpGet (eachDxp trainedLane 8 (takeHello m s)) k).own = 3 := fun k hk => by
    rw [dxpGet_eachDxp (fun u v k _ h => by rw [trainedLane, h, trainedLane]) 8 _ k, if_pos hk, trainedLane]
  have honly : changesOnly { twn := true } s (eachDxp trainedLane 8 (takeHello m s)) :=
    Eq.trans (eachDxp_only trainedLane 8 (takeHello m s)) (rfl : changesOnly { twn := true } s (takeHello m s))
  generalize eachDxp trainedLane 8 (takeHello m s) = u at *
  rw [tryPair_of_no_request (by rw [htwn]; exact hreq) (by rw [htwn]; exact hrejoin), htwn]
  exact ⟨rfl, rfl, rfl, hlanes, rfl, honly⟩

theorem answers_dxpHeartbeat (m : Heartbeat) (hup : s.twn.link = .up) (hreq : s.twn.pairReq = none) (hrejoin : s.twn.rejoin = false) :
    answers (.dxpHeartbeat m) s fun t =>
      t = { s with twn := { s.twn with
        hb := some m, rtt := m.rtt.toNat,
        hbStandby := if s.twn.paired = true ∧ m.active = false ∧ roleNow s = false then min 2 (s.twn.hbStandby + 1) else 0 } } := by
  refine ⟨_, if_neg (by simp [hup]), ?_⟩
  rw [tryPair_of_no_request (by exact hreq) (by exact hrejoin)]
  simp only [Bool.and_eq_true, Bool.not_eq_true']

/-! ### HEARTBEAT sent, and what waits behind it (R288) -/

/-- Messages of type 8, one after the other. -/
def sendTables (l : List (Nat × List Nat)) (s : State) : State := l.foldl (fun u q => dxpSend 8 q.1 q.2 u) s

theorem sendTables_cons (q : Nat × List Nat) (l : List (Nat × List Nat)) (s : State) :
    sendTables (q :: l) s = sendTables l (dxpSend 8 q.1 q.2 s) := rfl

theorem sendTables_only (l : List (Nat × List Nat)) (s : State) :
    changesOnly { outs := true, twn := true, obs := true } s (sendTables l s) := by
  induction l generalizing s with
  | nil => rfl
  | cons q l ih => exact Eq.trans (ih _) (dxpSend_only 8 q.1 q.2 s)

/-- Each message goes out once, and beside the count of messages TWN stands. -/
theorem sendTables_of_up (l : List (Nat × List Nat)) (hup : s.twn.link = .up) :
    (∃ n, (sendTables l s).twn = { s.twn with txAlive := n }) ∧ ∃ ms, ms.length = l.length ∧ (sendTables l s).outs = ms ++ s.outs := by
  induction l generalizing s with
  | nil => exact ⟨⟨s.twn.txAlive, rfl⟩, [], rfl, rfl⟩
  | cons q l ih =>
    have htwn := dxpSend_twn hup 8 q.1 q.2
    obtain ⟨⟨n, hn⟩, ms, hlen, houts⟩ := ih (s := dxpSend 8 q.1 q.2 s) (by rw [htwn]; exact hup)
    rw [sendTables_cons]
    refine ⟨⟨n, by rw [hn, htwn]⟩, ms ++ [nextMessage s 8 q.1 q.2], by simp [hlen], ?_⟩
    rw [houts, dxpSend_outs hup, List.append_assoc]
    rfl

/-- The list of waiting messages emptied. -/
def clearTables (s : State) : State := { s with twn := { s.twn with tables := [] } }

@[simp] theorem clearTables_twn (s : State) : (clearTables s).twn = { s.twn with tables := [] } := rfl
@[simp] theorem clearTables_outs (s : State) : (clearTables s).outs = s.outs := rfl
theorem clearTables_only (s : State) : changesOnly { twn := true } s (clearTables s) := rfl

theorem sendWaiting_eq (s : State) : sendWaiting s = sendTables s.twn.tables (clearTables s) := rfl

/-- The payload of a HEARTBEAT (Table 8-4). -/
def heartbeatPayload (s : State) : List Nat :=
  [flag (roleNow s) 0, pacState s, numThr s, numIng s, numCh s, (refCh s).density, nbrKOf s, cfgDigest s, tableDigest s.dos.cur]

theorem answers_heartbeatDue (hup : s.twn.link = .up) : answers .heartbeatDue s fun t =>
    t.twn = { s.twn with tables := [], txAlive := t.twn.txAlive } ∧
    (∃ ms, ms.length = s.twn.tables.length ∧ t.outs = ms ++ nextMessage s 2 s.twn.roleGrp (heartbeatPayload s) :: s.outs) ∧
    (s.twn.tables = [] → t.twn.txAlive = (s.twn.txAlive + 1) % 65536) ∧
    (∀ q, s.twn.tables = [q] → t.twn.txAlive = (s.twn.txAlive + 2) % 65536 ∧
      t.outs.head? = some (.dxpMessage (dxpWords ((s.twn.txAlive + 2) % 65536) 8 q.1 q.2))) ∧
    changesOnly { outs := true, twn := true, obs := true } s t := by
  refine ⟨sendWaiting (dxpSend 2 s.twn.roleGrp (heartbeatPayload s) s), rfl, ?_⟩
  have htwn := dxpSend_twn hup 2 s.twn.roleGrp (heartbeatPayload s)
  have houts := dxpSend_outs hup 2 s.twn.roleGrp (heartbeatPayload s)
  have honly := dxpSend_only 2 s.twn.roleGrp (heartbeatPayload s) s
  generalize dxpSend 2 s.twn.roleGrp (heartbeatPayload s) s = u at *
  have hclear : (clearTables u).twn.link = .up := by rw [clearTables_twn, htwn]; exact hup
  obtain ⟨⟨n, hn⟩, ms, hlen, hms⟩ := sendTables_of_up u.twn.tables hclear
  have htables : u.twn.tables = s.twn.tables := by rw [htwn]
  have honce : ((s.twn.txAlive + 1) % 65536 + 1) % 65536 = (s.twn.txAlive + 2) % 65536 := by omega
  rw [sendWaiting_eq]
  refine ⟨?_, ⟨ms, by rw [hlen, htables], by rw [hms, clearTables_outs, houts]⟩, fun hnone => ?_, fun q hq => ?_,
    only_trans honly (only_trans (F := { outs := true, twn := true, obs := true }) (clearTables_only u) (sendTables_only _ _))⟩
  · rw [hn, clearTables_twn, htwn]
  · rw [htables, hnone]
    exact congrArg Twn.txAlive htwn
  · rw [htables, hq, sendTables_cons]
    have htx : (clearTables u).twn.txAlive = (s.twn.txAlive + 1) % 65536 := by rw [clearTables_twn, htwn]
    refine ⟨?_, ?_⟩
    · exact (congrArg Twn.txAlive (dxpSend_twn hclear 8 q.1 q.2)).trans (by rw [← honce, ← htx])
    · exact (congrArg List.head? (dxpSend_outs hclear 8 q.1 q.2)).trans (by rw [nextMessage, htx, honce]; rfl)

/-! ### Messages discarded (R287) -/

theorem discardMsg_twn (s : State) : (discardMsg s).twn = { s.twn with msgErr := sat32 (s.twn.msgErr + 1) } := cntTwn_twn _ _ _ _

theorem discardMsg_only (s : State) : changesOnly { twn := true, obs := true } s (discardMsg s) := (does_discardMsg (.refl _ s) rfl).only

theorem chkFrame_only (ev path n : Nat) (s : State) : changesOnly { obs := true } s (chkFrame ev path n s) :=
  (does_chkFrame ev path n (.refl _ s) rfl).only

theorem answers_dxpMessageDiscard (hup : s.twn.link = .up) : answers .dxpMessageDiscard s fun t =>
    t.twn = { s.twn with msgErr := sat32 (s.twn.msgErr + 1) } ∧ changesOnly { twn := true, obs := true } s t :=
  ⟨chkFrame 2 128 s.twn.msgErr (discardMsg s), if_pos hup, (same_twn (chkFrame_only _ _ _ _) rfl).trans (discardMsg_twn s),
    only_trans (discardMsg_only s) (chkFrame_only _ _ _ _)⟩

/-! ### The loss of an UP link (R289, R305 to R307) -/

/-- The link has fallen to PRESET, silent and reported; what its loss ends is still to come. -/
def linkFell (s : State) : State := raiseItems 0x1203 4 [(1, linkCode s.twn.link), (4, groupNow s)] (fallSilent (dxpPreset s))

/-- The twin block of a link that has fallen, beside the lanes. -/
def fellTwn (t : Twn) : Twn := { presetTwn t with quiet := true }

theorem fallSilent_only (s : State) : changesOnly { twn := true } s (fallSilent s) := rfl

theorem fallSilent_preset_only (s : State) : changesOnly { twn := true } s (fallSilent (dxpPreset s)) :=
  only_trans (dxpPreset_only s) (fallSilent_only _)

theorem linkFell_only (s : State) : changesOnly { Parts.events with twn := true } s (linkFell s) :=
  only_trans (fallSilent_preset_only s) (raiseItems_only _ _ _ _)

theorem linkFell_pac (s : State) : (linkFell s).pac = s.pac := same_pac (linkFell_only s) rfl

theorem linkFell_reported (s : State) : reported 0x1203 4 s (linkFell s) :=
  have h := fallSilent_preset_only s
  reported_after (raiseItems_reported _ _ _ _) (same_glb h rfl) (same_slo h rfl) (same_tim h rfl)

theorem linkFell_twn (s : State) : ∃ ls, (linkFell s).twn = { fellTwn s.twn with lanes := ls } := by
  obtain ⟨ls, h⟩ := dxpPreset_twn s
  refine ⟨ls, (raiseItems_twn _ _ _ _).trans ?_⟩
  rw [fallSilent, h]
  rfl

theorem linkFell_starts (s : State) : LanesStart s (linkFell s) := fun k hk =>
  (dxpGet_congr ((congrArg Twn.lanes (raiseItems_twn _ _ _ _)).trans (fallSilent_lanes _)) k).trans (dxpPreset_starts s k hk)

/-- With no handover, table exchange or arming under way, the loss of the link is the loss of the pair alone. -/
structure NothingPending (s : State) : Prop where
  tableX : s.twn.tableX = none
  handover : s.twn.handover = none
  armSent : s.twn.armSent = false

/-- The pair split in the middle of a stripe (R307). -/
def splitPair (s : State) : State := { s with twn := { s.twn with split := true, splitSeen := true, hbStandby := 0 } }

theorem linkLost_of_nothing_pending (h : NothingPending s) : linkLost s =
    if s.twn.paired = false then s else if s.pac.stripe.isSome then paceLost (dropRole (splitPair s)) else goSolo s := by
  obtain ⟨htable, hho, harm⟩ := h
  have hend : endHandover 0x41 s = s := by simp only [endHandover, hho]
  have htl : tableLinkLost s = s := by simp only [tableLinkLost, htable]
  simp only [linkLost, hend, htl, harm, Bool.false_eq_true, if_false, Bool.not_eq_true, splitPair]

theorem goSolo_only (s : State) : changesOnly { twn := true } s (goSolo s) := rfl

theorem splitPair_only (s : State) : changesOnly { twn := true } s (splitPair s) := rfl

/-- What dropping the role leaves of the pair. -/
theorem dropRole_pair (s : State) : (dropRole s).twn.split = s.twn.split ∧ (dropRole s).twn.splitSeen = s.twn.splitSeen ∧
    (dropRole s).twn.paired = s.twn.paired ∧ (dropRole s).pac = s.pac := by
  unfold dropRole
  split
  · rw [raiseItems_twn, raiseItems_pac]
    exact ⟨rfl, rfl, rfl, rfl⟩
  · exact ⟨rfl, rfl, rfl, rfl⟩

theorem answers_dxpLinkTimeout (hup : s.twn.link = .up) : answers .dxpLinkTimeout s fun t =>
    t.twn.link = .preset ∧ t.twn.quiet = true ∧ LanesStart s t ∧
    (s.twn.paired = false → s.twn.tableX = none → s.twn.handover = none → s.twn.armSent = false →
      reported 0x1203 4 s t ∧ changesOnly { Parts.events with twn := true } s t) ∧
    (s.twn.paired = true → s.twn.tableX = none → s.twn.handover = none → s.twn.armSent = false → s.pac.stripe = none →
      t.twn.paired = false ∧ t.twn.active = true ∧ reported 0x1203 4 s t ∧ changesOnly { Parts.events with twn := true } s t) ∧
    (s.twn.paired = true → s.twn.tableX = none → s.twn.handover = none → s.twn.armSent = false → s.pac.stripe.isSome = true →
      s.twn.partnerDeadSeen = false →
      t.twn.split = true ∧ t.twn.splitSeen = true ∧ t.twn.paired = true ∧ t.pac = s.pac ∧
      changesOnly { Parts.events with twn := true } s t) := by
  refine ⟨linkLost (linkFell s), if_pos hup, ?_⟩
  obtain ⟨ls, htwn⟩ := linkFell_twn s
  have honly := linkFell_only s
  have hpac := linkFell_pac s
  have hrep := linkFell_reported s
  have hstarts := linkFell_starts s
  generalize linkFell s = u at *
  have hpaired : u.twn.paired = s.twn.paired := by rw [htwn]; rfl
  have hnothing : s.twn.tableX = none → s.twn.handover = none → s.twn.armSent = false → NothingPending u := fun h1 h2 h3 =>
    ⟨by rw [htwn]; exact h1, by rw [htwn]; exact h2, by rw [htwn]; exact h3⟩
  have hkept : LinkKept u (linkLost u) := (LinkKept.refl u).linkLost
  refine ⟨?_, ?_, fun k hk => (dxpGet_congr hkept.lanes k).trans (hstarts k hk), fun hp h1 h2 h3 => ?_, fun hp h1 h2 h3 hst => ?_,
    fun hp h1 h2 h3 hst hdead => ?_⟩
  · rw [hkept.link, htwn]; rfl
  · rw [hkept.quiet, htwn]; rfl
  · rw [linkLost_of_nothing_pending (hnothing h1 h2 h3), if_pos (hpaired.trans hp)]
    exact ⟨hrep, honly⟩
  · rw [linkLost_of_nothing_pending (hnothing h1 h2 h3), if_neg (by simp [hpaired, hp]), if_neg (by simp [hpac, hst])]
    exact ⟨rfl, rfl, reported_of_same hrep rfl rfl, only_trans honly (goSolo_only u)⟩
  · rw [linkLost_of_nothing_pending (hnothing h1 h2 h3), if_neg (by simp [hpaired, hp]), if_pos (by simp [hpac, hst])]
    have hdead' : (dropRole (splitPair u)).twn.partnerDeadSeen = false := by
      rw [((LinkKept.refl (splitPair u)).dropRole).partnerDeadSeen]
      exact (congrArg Twn.partnerDeadSeen htwn).trans hdead
    obtain ⟨hsplit, hseen, hp', hpac'⟩ := dropRole_pair (splitPair u)
    rw [paceLost_of_kept (.inr (.inr (.inl hdead')))]
    exact ⟨hsplit, hseen, hp'.trans (hpaired.trans hp), hpac'.trans hpac,
      only_trans honly (only_trans (F := { Parts.events with twn := true }) (splitPair_only u) (dropRole_only _))⟩

/-- Settles O45: every way back to PRESET is one operation, which sets each lane to its start taps; a training block changes its own lane,
and the link goes on from what all eight show. -/
theorem dexpinLink : Obligations.DexpinLink := by
  intro s starts
  exact ⟨answers_twnLinkEnable, answers_dxpTrainBlockRx, answers_dxpTrainTimeout, ⟨_, rfl, rfl⟩, answers_dxpNoPartner, answers_dxpHello,
    answers_dxpHeartbeat, answers_heartbeatDue, answers_dxpMessageDiscard, answers_dxpLinkTimeout⟩

end Sys2Proof.Machine
end

section
/-! PROOFS. Messages between twins (R293, R295, R296, R309): digests and the vote on a group. -/

-- One theorem at a time, as under Laws/: the package as one text takes too much memory in many threads.
set_option Elab.async false

namespace Sys2Proof.Machine

variable {s t u : State} {st : Stripe} {j m k : Nat} {g : Group} {h : Header}

/-! ### The outcome of a group while its runs are dealt (R104, R105, R129) -/

/-- A run that leaves the queue of a group leaves the group's outcome and its differing lanes. -/
theorem takeRun_keeps {r : Run} {g' : Group} (htake : takeRun h j g = some (r, g')) : g'.final = g.final ∧ g'.mask = g.mask := by
  unfold takeRun at htake
  split at htake
  · cases htake; exact ⟨rfl, rfl⟩
  · split at htake
    · cases htake; exact ⟨rfl, rfl⟩
    · split at htake
      · cases htake; exact ⟨rfl, rfl⟩
      · cases htake

/-- The group that deals the next run is one of the groups, with a shorter queue. -/
theorem nextRun_keeps {gs : Tbl Group} {r : Run} {g' : Group} (hnext : nextRun h gs = some (r, k, g')) :
    ∃ g, (k, g) ∈ gs ∧ g'.final = g.final ∧ g'.mask = g.mask := by
  induction gs with
  | nil => cases hnext
  | cons p gs ih =>
    obtain ⟨i, g0⟩ := p
    have hlater : nextRun h gs = some (r, k, g') → ∃ g, (k, g) ∈ (i, g0) :: gs ∧ g'.final = g.final ∧ g'.mask = g.mask := fun hl => by
      obtain ⟨g, hmem, hsame⟩ := ih hl
      exact ⟨g, List.mem_cons_of_mem _ hmem, hsame⟩
    simp only [nextRun] at hnext
    split at hnext
    · exact hlater hnext
    · split at hnext
      next htake =>
        cases hnext
        exact ⟨g0, List.mem_cons_self, takeRun_keeps htake⟩
      next => exact hlater hnext

/-- In a table in rising order, an entry is the one found under its key. -/
theorem tfind_of_mem {α : Type} {l : Tbl α} {x : α} (hrise : (l.map Prod.fst).Pairwise (· < ·)) (hmem : (k, x) ∈ l) : tfind l k = some x := by
  induction l with
  | nil => cases hmem
  | cons p l ih =>
    obtain ⟨i, y⟩ := p
    simp only [List.map_cons, List.pairwise_cons] at hrise
    obtain ⟨hlt, hrise⟩ := hrise
    rcases List.mem_cons.1 hmem with heq | hmem
    · cases heq
      exact if_pos rfl
    · have hik : i ≠ k := Nat.ne_of_lt (hlt k (List.mem_map_of_mem hmem))
      exact (if_neg hik).trans (ih hrise hmem)

/-- A lane takes a run. -/
def takeLane (l : Nat) (r : Run) (s : State) : State := { s with units := { s.units with lanes := tput s.units.lanes l r } }

/-- The group of a stripe stands with the outcome and the differing lanes given. -/
def GroupHas (j : Nat) (final : Option Bool) (mask : List Nat) (s : State) : Prop :=
  ∃ st g, s.pac.stripe = some st ∧ grpGet st j = some g ∧ g.final = final ∧ g.mask = mask

namespace GroupHas

variable {final : Option Bool} {mask : List Nat}

theorem of_pac (hs : GroupHas j final mask s) (e : t.pac = s.pac) : GroupHas j final mask t := by
  unfold GroupHas
  rwa [e]

theorem of_raised (hs : GroupHas j final mask s) (e : RecordsRaised s t) : GroupHas j final mask t := by
  obtain ⟨st, g, hst, hg, hsame⟩ := hs
  obtain ⟨n, hn⟩ := e.some_stripe hst
  exact ⟨_, g, hn, hg, hsame⟩

/-- The group is set with its outcome. -/
theorem grpPut_same (hst : s.pac.stripe = some st) (j : Nat) (g : Group) : GroupHas j g.final g.mask (grpPut j g s) :=
  ⟨_, g, congrArg Pac.stripe (grpPut_pac hst j g), tfind_tput_same _ _ _, rfl, rfl⟩

theorem grpPut_ne (hs : GroupHas j final mask s) (hne : j ≠ k) (g : Group) : GroupHas j final mask (grpPut k g s) := by
  obtain ⟨st, g0, hst, hg, hsame⟩ := hs
  exact ⟨_, g0, congrArg Pac.stripe (grpPut_pac hst k g), (tfind_tput_ne _ _ hne).trans hg, hsame⟩

/-- A run that a lane takes leaves every group its outcome. -/
theorem dealLane (hs : GroupHas j final mask s) (hr : GroupsRise s) (l : Nat) : GroupHas j final mask (dealLane l s) := by
  have ⟨st0, g0, hst0, hg0, hfinal, hmask⟩ := hs
  unfold Machine.dealLane
  split
  · exact hs
  next st hst =>
    obtain rfl : st0 = st := Option.some.inj (hst0.symm.trans hst)
    split
    · exact hs
    · split
      · exact hs
      next r k g hnext =>
        extract_lets units s1
        have h1 : GroupHas j final mask s1 := by
          obtain ⟨g1, hmem, hf, hm⟩ := nextRun_keeps hnext
          by_cases hjk : j = k
          · subst hjk
            obtain rfl : g0 = g1 := Option.some.inj (hg0.symm.trans (tfind_of_mem (hr.stripe hst) hmem))
            rw [← hfinal, ← hmask, ← hf, ← hm]
            exact grpPut_same (s := takeLane l r s) hst j g
          · exact grpPut_ne (s := takeLane l r s) hs hjk g
        refine h1.of_pac ?_
        split <;> simp

theorem dealAll (hs : GroupHas j final mask s) (hr : GroupsRise s) : GroupHas j final mask (dealAll s) := by
  unfold Machine.dealAll
  generalize List.range 256 = ls
  induction ls generalizing s with
  | nil => exact hs
  | cons l ls ih => exact ih (hs.dealLane hr l) (hr.dealLane l)

end GroupHas

/-! ### A group that is launched (R296) -/

theorem groupRecords_raises (st : Stripe) (j : Nat) (g : Group) (launched : Bool) (left : List Nat) (s : State) :
    RecordsRaised s (groupRecords st j g launched left s) := by
  unfold groupRecords
  extract_lets n1 s1 s2 s3
  have h1 : RecordsRaised s s1 := .foldl (fun b u => by split <;> exact raiseStripeLoss_raises _ u) _ _
  have h2 : RecordsRaised s1 s2 := by
    simp only [s2]
    split
    · exact .foldl (fun _ u => pushRecord_raises _ u) _ _
    · exact .refl _
  have h3 : RecordsRaised s2 s3 := .foldl (fun _ u => raiseStripeLoss_raises _ u) _ _
  exact .ite (h1.trans (h2.trans h3)) (h1.trans (h2.trans (h3.trans (raiseStripeLoss_raises _ _))))

/-- The group that both twins agree on is final, and is launched. -/
theorem finalGroup_launched (hst : s.pac.stripe = some st) (hg : grpGet st j = some g) (hopen : g.final = none) (hr : GroupsRise s) :
    GroupHas j (some true) g.mask (finalGroup j true 0 0 s) := by
  unfold finalGroup
  split
  next h => cases h.symm.trans hst
  next st0 hst0 =>
    obtain rfl : st = st0 := Option.some.inj (hst.symm.trans hst0)
    split
    next h => cases h.symm.trans hg
    next g0 hg0 =>
      obtain rfl : g = g0 := Option.some.inj (hg.symm.trans hg0)
      rw [if_neg (by simp [hopen])]
      extract_lets left role g1 st1 units s1 s2 twn2 s3 twn3 s4 twn4 s5
      have h1 : GroupHas j (some true) g.mask s1 := ⟨st1, g1, rfl, tfind_tput_same _ _ _, rfl, rfl⟩
      have h1r : GroupsRise s1 := GroupsRise.of_some (st := st1) (Stripe.Rises.tput (hr.stripe hst) j g1) rfl
      have h2 : GroupHas j (some true) g.mask s2 := h1.of_raised (.ite (groupRecords_raises _ _ _ _ _ _) (.refl _))
      have h2r : GroupsRise s2 := GroupsRise.ite (h1r.groupRecords _ _ _ _ _) h1r
      have h4 : s4 = s2 := (if_neg (by simp)).trans (if_pos rfl)
      have h5 : s5 = s4 := by
        simp only [s5]
        clear_value s4
        split
        · exact if_neg (by simp)
        · rfl
      rw [h5, h4]
      exact h2.dealAll h2r

/-! ### The vote (R293, R295) -/

/-- Before this twin's own digests the vote waits. -/
theorem voteGroup_of_no_own (hst : s.pac.stripe = some st) (hg : grpGet st j = some g) (hown : g.own1 = none) : voteGroup j s = s := by
  simp only [voteGroup, hst, hg, hown, ite_self]

/-- The digests of round 1 agree. -/
theorem voteGroup_of_equal {a b : List Nat} (hst : s.pac.stripe = some st) (hg : grpGet st j = some g) (hopen : g.final = none)
    (ha : g.own1 = some a) (hb : g.peer1 = some b) (hmask : g.mask = []) (heq : differing a b = []) :
    voteGroup j s = finalGroup j true 0 0 s := by
  simp [voteGroup, hst, hg, hopen, ha, hb, hmask, heq]

/-- The count of recomputations goes on. -/
def countRecompute (s : State) : State := { s with twn := { s.twn with recomp := sat32 (s.twn.recomp + 1) } }

theorem countRecompute_only (s : State) : changesOnly { twn := true } s (countRecompute s) := rfl

@[simp] theorem countRecompute_twn (s : State) : (countRecompute s).twn = { s.twn with recomp := sat32 (s.twn.recomp + 1) } := rfl

@[simp] theorem countRecompute_pac (s : State) : (countRecompute s).pac = s.pac := rfl

/-- The lanes whose digests differ are computed again (R295), before the lanes take their runs. -/
def recompute (j : Nat) (lanes beams : List Nat) (g : Group) (s : State) : State :=
  cntTwn 3 none lanes.length (cntTwn 5 none 1 (countRecompute (grpPut j { g with mask := lanes, recomp := beams } s)))

theorem voteGroup_of_differing {a b : List Nat} (hst : s.pac.stripe = some st) (hg : grpGet st j = some g) (hopen : g.final = none)
    (ha : g.own1 = some a) (hb : g.peer1 = some b) (hmask : g.mask = []) (hne : differing a b ≠ []) :
    voteGroup j s = dealAll (raiseItems 0x1206 0 [(4, j), (4, (differing a b).length)]
      (recompute j (differing a b) (laneBeams st.adm.hdr j (differing a b)) g s)) := by
  simp [voteGroup, recompute, countRecompute, hst, hg, hopen, ha, hb, hmask, hne]

theorem grpPut_only (j : Nat) (g : Group) (s : State) : changesOnly { pac := true } s (grpPut j g s) := (does_grpPut j g (.refl _ s) rfl).only

theorem cntTwn_only (ev : Nat) (unit : Option Nat) (n : Nat) (s : State) : changesOnly { obs := true } s (cntTwn ev unit n s) :=
  (does_cntTwn ev unit n (.refl _ s) rfl).only

theorem recompute_only (j : Nat) (lanes beams : List Nat) (g : Group) (s : State) :
    changesOnly { pac := true, twn := true, obs := true } s (recompute j lanes beams g s) :=
  only_trans (grpPut_only _ _ s) (only_trans (F := { twn := true, obs := true }) (countRecompute_only _)
    (only_trans (F := { obs := true }) (cntTwn_only _ _ _ _) (cntTwn_only _ _ _ _)))

theorem recompute_twn (j : Nat) (lanes beams : List Nat) (g : Group) (s : State) :
    (recompute j lanes beams g s).twn = { s.twn with recomp := sat32 (s.twn.recomp + 1) } := by
  have htwn := same_twn (grpPut_only j { g with mask := lanes, recomp := beams } s) rfl
  simp only [recompute, cntTwn_twn, countRecompute_twn, htwn]

theorem recompute_has (hst : s.pac.stripe = some st) (hopen : g.final = none) (lanes beams : List Nat) :
    GroupHas j none lanes (recompute j lanes beams g s) := by
  have hput : GroupHas j g.final lanes (grpPut j { g with mask := lanes, recomp := beams } s) := GroupHas.grpPut_same hst _ _
  exact hopen ▸ hput.of_pac (by simp only [recompute, cntTwn_pac, countRecompute_pac])

theorem recompute_rises (hr : GroupsRise s) (j : Nat) (lanes beams : List Nat) (g : Group) : GroupsRise (recompute j lanes beams g s) := by
  have hput : GroupsRise (grpPut j { g with mask := lanes, recomp := beams } s) := hr.grpPut j _
  exact hput.of_stripe (by simp only [recompute, cntTwn_pac, countRecompute_pac])

theorem dealAll_only (s : State) : changesOnly { units := true, pac := true, obs := true } s (dealAll s) := (does_dealAll (.refl _ s) rfl).only

/-! ### The digests of round 1 received (R293) -/

section Round1

variable {n : W32} {mask : BitVec 128} {ds : List W64} (hv : voting s = true)
include hv

theorem exec_dxpDigest_short (hlen : ds.length ≠ 128) : exec (.dxpDigest n false mask ds) s = .next (discardMsg s) :=
  (if_neg (by simp [hv])).trans (if_pos (by simpa using hlen))

/-- Digests that come before the stripe are kept for it. -/
theorem exec_dxpDigest_early (hlen : ds.length = 128) (hst : s.pac.stripe = none) : exec (.dxpDigest n false mask ds) s =
    .next { s with twn := { s.twn with early := tput s.twn.early n.toNat (ds.map BitVec.toNat) } } := by
  refine (if_neg (by simp [hv])).trans ((if_neg (by simp [hlen])).trans ?_)
  simp only [hst]
  rfl

theorem exec_dxpDigest_open (hlen : ds.length = 128) (hst : s.pac.stripe = some st) (hg : grpGet st n.toNat = some g)
    (hopen : g.final = none) : exec (.dxpDigest n false mask ds) s =
      .next (voteGroup n.toNat (grpPut n.toNat { g with peer1 := some (ds.map BitVec.toNat) } s)) := by
  refine (if_neg (by simp [hv])).trans ((if_neg (by simp [hlen])).trans ?_)
  simp only [hst, hg, hopen]
  rfl

theorem answers_dxpDigest_open (hlen : ds.length = 128) (hst : s.pac.stripe = some st) (hg : grpGet st n.toNat = some g)
    (hopen : g.final = none) : answers (.dxpDigest n false mask ds) s fun t =>
      (g.own1 = none → t = setStripe { st with groups := tput st.groups n.toNat { g with peer1 := some (ds.map BitVec.toNat) } } s) ∧
      (∀ a, GroupsRise s → g.own1 = some a → g.mask = [] → ∃ st' g', t.pac.stripe = some st' ∧ grpGet st' n.toNat = some g' ∧
        (differing a (ds.map BitVec.toNat) = [] → g'.final = some true) ∧
        (differing a (ds.map BitVec.toNat) ≠ [] → g'.final = none ∧ g'.mask = differing a (ds.map BitVec.toNat) ∧
          t.twn.recomp = sat32 (s.twn.recomp + 1) ∧ reported 0x1206 0 s t)) := by
  refine ⟨_, exec_dxpDigest_open hv hlen hst hg hopen, ?_⟩
  generalize ds.map BitVec.toNat = b
  generalize n.toNat = j at *
  have hput : (grpPut j { g with peer1 := some b } s).pac.stripe = some { st with groups := tput st.groups j { g with peer1 := some b } } :=
    congrArg Pac.stripe (grpPut_pac hst j _)
  have hget : grpGet { st with groups := tput st.groups j { g with peer1 := some b } } j = some { g with peer1 := some b } :=
    tfind_tput_same _ _ _
  refine ⟨fun hown => ?_, fun a hr ha hmask => ?_⟩
  · rw [voteGroup_of_no_own hput hget hown]
    simp only [grpPut, hst]
  · have hr' : GroupsRise (grpPut j { g with peer1 := some b } s) := hr.grpPut j _
    have honly := grpPut_only j { g with peer1 := some b } s
    generalize grpPut j { g with peer1 := some b } s = u at *
    by_cases heq : differing a b = []
    · rw [voteGroup_of_equal hput hget hopen ha rfl hmask heq]
      obtain ⟨st', g', hst', hg', hfinal, -⟩ := finalGroup_launched hput hget hopen hr'
      exact ⟨st', g', hst', hg', fun _ => hfinal, fun hne => absurd heq hne⟩
    · rw [voteGroup_of_differing hput hget hopen ha rfl hmask heq]
      generalize laneBeams _ j (differing a b) = beams
      have hhas := recompute_has (j := j) (g := { g with peer1 := some b }) hput hopen (differing a b) beams
      have hrise := recompute_rises hr' j (differing a b) beams { g with peer1 := some b }
      have htwn := recompute_twn j (differing a b) beams { g with peer1 := some b } u
      have hre := recompute_only j (differing a b) beams { g with peer1 := some b } u
      generalize recompute j (differing a b) beams { g with peer1 := some b } u = w at *
      obtain ⟨st', g', hst', hg', hfinal, hm⟩ := GroupHas.dealAll (hhas.of_pac (raiseItems_pac 0x1206 0 [(4, j), (4, (differing a b).length)] w))
        (hrise.raiseItems _ _ _)
      refine ⟨st', g', hst', hg', fun h => absurd h heq, fun _ => ⟨hfinal, hm, ?_, ?_⟩⟩
      · rw [same_twn (dealAll_only _) rfl, raiseItems_twn, htwn, same_twn honly rfl]
      · exact reported_between (only_trans (F := { pac := true, twn := true, obs := true }) honly hre) (dealAll_only _)

end Round1

end Sys2Proof.Machine
end

section
/-! PROOFS. Messages between twins (R293, R295, R296, R309): ABORT. -/

-- One theorem at a time, as under Laws/: the package as one text takes too much memory in many threads.
set_option Elab.async false

namespace Sys2Proof.Machine

variable {s t : State} {st : Stripe} {id cause : Nat} {g : W32} {c : Byte}

/-! ### A stripe that stops at a group (R188, R309) -/

/-- The record of an abort leaves the stop as it is. -/
theorem closeCut_stop (hst : s.pac.stripe = some st) : ∃ st', (closeCut false s).pac.stripe = some st' ∧
    st'.state = st.state ∧ st'.groupLimit = st.groupLimit ∧ st'.abort = st.abort := by
  unfold closeCut
  split
  next h => cases h.symm.trans hst
  next st0 hst0 =>
    obtain rfl : st = st0 := Option.some.inj (hst.symm.trans hst0)
    split
    · exact ⟨st, hst, rfl, rfl, rfl⟩
    next c nu habort =>
      simp only [Bool.false_eq_true, if_false]
      split
      · exact ⟨st, hst, rfl, rfl, rfl⟩
      · split
        · obtain ⟨n, hn⟩ := (raiseStripeLoss_raises _ _).some_stripe (setStripe_stripe _ _)
          exact ⟨_, hn, rfl, rfl, habort.symm⟩
        · exact ⟨_, setStripe_stripe _ _, rfl, rfl, habort.symm⟩

/-- An abort of a moving stripe begins its stop at the group that it names, or at the next group. -/
theorem abortRunning_limits (hst : s.pac.stripe = some st) (hmoving : st.state.moving = true) (cause : Nat) (gc : Option Nat)
    (run gang : Bool) : ∃ st', (abortRunning cause gc run gang s).pac.stripe = some st' ∧ st'.state = .stopping ∧
      st'.groupLimit = gc.getD st.nextGroup ∧ st'.abort = some (cause, st.cutSlot (gc.getD st.nextGroup)) := by
  unfold abortRunning
  split
  next h => cases h.symm.trans hst
  next st0 hst0 =>
    obtain rfl : st = st0 := Option.some.inj (hst.symm.trans hst0)
    rw [if_neg (not_not.2 hmoving)]
    extract_lets limit nu shown
    split
    next x v a m =>
      extract_lets stop st' s1 s2 s3
      have h1 : (raiseItems 0x0603 3 [(4, st.id), (1, cause), (4, shown)] s1).pac.stripe = some st' := by simp [s1]
      obtain ⟨st2, h2, hstop⟩ := closeCut_stop h1
      have h3 : s3.pac.stripe = some st2 := by
        simp only [s3]
        split <;> simpa [s2] using h2
      refine ⟨st2, ?_, hstop⟩
      rw [releaseCoefs_pac]
      split <;> simpa using h3

theorem abortRunning_only (cause : Nat) (gc : Option Nat) (run gang : Bool) (s : State) :
    changesOnly Parts.ending s (abortRunning cause gc run gang s) := (does_abortRunning cause gc run gang (.refl _ s) rfl).only

/-! ### A stripe that is discarded (R197, R309) -/

theorem cmdFind_discardStripe (hst : s.pac.stripe = some st) (hcmd : st.cmd = some id) (keep : Bool) (status : Nat) :
    cmdFind (discardStripe keep status s) id = none := by
  obtain ⟨u, heq, -⟩ := discardStripe_spec keep status hst
  rw [heq]
  exact cmdFind_completeOpt hcmd _ _ _

/-- An abort that is shown with no slot cut, for a stripe that had not begun. -/
def showNoCut (s : State) : State := { s with pac := { s.pac with abortSlot := 0 } }

@[simp] theorem showNoCut_pac (s : State) : (showNoCut s).pac = { s.pac with abortSlot := 0 } := rfl

theorem abortOrDiscard_standing (hst : s.pac.stripe = some st) (hstate : st.state = .arming ∨ st.state = .armed) (cause : Nat) (gang : Bool)
    (status : Nat) : abortOrDiscard cause gang true status s =
      raiseItems 0x0603 3 [(4, st.id), (1, cause), (4, 0)] (showNoCut (discardStripe false status s)) := by
  have hmoving : st.state.moving = false := by rcases hstate with h | h <;> rw [h] <;> rfl
  have hstopping : st.state ≠ .stopping := by rcases hstate with h | h <;> simp [h]
  simp only [abortOrDiscard, hst, hmoving, Bool.false_eq_true, if_false, hstopping, if_true, showNoCut]

/-- A stripe that has not begun its run-up is gone after the abort, and so is its command. -/
theorem abortOrDiscard_discards (hst : s.pac.stripe = some st) (hstate : st.state = .arming ∨ st.state = .armed) (cause : Nat) (gang : Bool)
    (status : Nat) : (abortOrDiscard cause gang true status s).pac.stripe = none ∧
      (abortOrDiscard cause gang true status s).pac.abortSlot = 0 ∧
      ∀ id, st.cmd = some id → cmdFind (abortOrDiscard cause gang true status s) id = none := by
  rw [abortOrDiscard_standing hst hstate]
  refine ⟨?_, ?_, fun id hcmd => ?_⟩
  · rw [raiseItems_pac]
    exact discardStripe_no_stripe _ _
  · rw [raiseItems_pac, showNoCut_pac]
  · exact (cmdFind_congr (raiseItems_inflight _ _ _ _) id).trans (cmdFind_discardStripe hst hcmd _ _)

theorem abortOrDiscardFree_only (cause : Nat) (gang event : Bool) (s : State) :
    changesOnly Parts.ending s (abortOrDiscardFree cause gang event s) := (does_abortOrDiscardFree cause gang event (.refl _ s) rfl).only

/-! ### An ABORT received (R309) -/

section Received

variable (hv : voting s = true)
include hv

theorem exec_dxpAbort_moving (hst : s.pac.stripe = some st) (hmoving : st.state.moving = true) :
    exec (.dxpAbort g c) s = .next (abortRunning c.toNat (some g.toNat) true true s) :=
  (if_neg (by simp [hv])).trans (if_pos (by simp [hst, hmoving]))

theorem exec_dxpAbort_stopping (hst : s.pac.stripe = some st) (hstopping : st.state = .stopping) :
    exec (.dxpAbort g c) s = .next (widenAbort g.toNat s) :=
  (if_neg (by simp [hv])).trans ((if_neg (by rw [hst, Option.any_some, hstopping]; decide)).trans (if_pos (by simp [hst, hstopping])))

theorem exec_dxpAbort_standing (hst : ∀ st, s.pac.stripe = some st → st.state = .arming ∨ st.state = .armed) :
    exec (.dxpAbort g c) s = .next (abortOrDiscardFree c.toNat false true s) := by
  refine (if_neg (by simp [hv])).trans ((if_neg ?_).trans (if_neg ?_))
  all_goals
    intro h
    obtain ⟨st, hmem, h⟩ := Option.any_eq_true _ _ |>.1 h
    rcases hst st hmem with hs | hs <;> rw [hs] at h <;> cases h

theorem answers_dxpAbort_moving (hst : s.pac.stripe = some st) (hmoving : st.state.moving = true) : answers (.dxpAbort g c) s fun t =>
    changesOnly Parts.ending s t ∧ ∃ st', t.pac.stripe = some st' ∧ st'.state = .stopping ∧ st'.groupLimit = g.toNat ∧
      st'.abort = some (c.toNat, st.cutSlot g.toNat) :=
  ⟨_, exec_dxpAbort_moving hv hst hmoving, abortRunning_only _ _ _ _ s, abortRunning_limits hst hmoving _ _ _ _⟩

theorem answers_dxpAbort_standing (hst : s.pac.stripe = some st) (hstate : st.state = .arming ∨ st.state = .armed) :
    answers (.dxpAbort g c) s fun t =>
      t.pac.stripe = none ∧ t.pac.abortSlot = 0 ∧ (∀ id, st.cmd = some id → cmdFind t id = none) ∧ changesOnly Parts.ending s t := by
  refine ⟨_, exec_dxpAbort_standing hv fun st' hst' => Option.some.inj (hst.symm.trans hst') ▸ hstate, ?_⟩
  obtain ⟨hnone, hslot, hcmd⟩ := abortOrDiscard_discards (s := { s with free := s.free + 1 }) hst hstate c.toNat false ((drawFree s).1.toNat % 65536)
  exact ⟨hnone, hslot, hcmd, abortOrDiscardFree_only _ _ _ s⟩

/-- With no stripe, what the abort might have completed is the one value drawn. -/
theorem answers_dxpAbort_none (hst : s.pac.stripe = none) : answers (.dxpAbort g c) s fun t => changesOnly { free := true } s t := by
  refine ⟨_, exec_dxpAbort_standing hv fun st' hst' => (by rw [hst] at hst'; cases hst'), ?_⟩
  have hkeep : abortOrDiscardFree c.toNat false true s = { s with free := s.free + 1 } := by
    simp only [abortOrDiscardFree, abortOrDiscard, drawFree, hst]
  rw [hkeep]
  rfl

/-- While the stripe stops, an ABORT opens the groups below the one that it names, where that one is higher and not yet cut (R309). -/
theorem exec_dxpAbort_widens {cause nu : Nat} (hst : s.pac.stripe = some st) (hstopping : st.state = .stopping)
    (habort : st.abort = some (cause, nu)) : exec (.dxpAbort g c) s = .next (if st.groupLimit < g.toNat ∧ st.nextSlot < nu then
      setStripe { st with groupLimit := g.toNat, abort := some (cause, st.cutSlot g.toNat) }
        { s with pac := { s.pac with abortSlot := if st.cutSlot g.toNat < st.slotEnd then st.cutSlot g.toNat else max32 } } else s) := by
  rw [exec_dxpAbort_stopping hv hst hstopping]
  simp only [widenAbort, hst, habort, hstopping, true_and]

end Received

end Sys2Proof.Machine
end

section
/-! PROOFS. Messages between twins (R293, R295, R296, R309): ARM_READY and ARM_RESULT, the timeout of an arm, and O48. -/

-- One theorem at a time, as under Laws/: the package as one text takes too much memory in many threads.
set_option Elab.async false

namespace Sys2Proof.Machine

variable {s t : State} {st : Stripe} {m : ArmReady} {r : W32}

/-! ### Outputs stand while a stripe ends -/

namespace OutsGrow

theorem complete (id status : Nat) (data : List Byte) (s : State) : OutsGrow s (complete id status data s) := fun _ => complete_mono

theorem completeOpt (id : Option Nat) (status : Nat) (data : List Byte) (s : State) : OutsGrow s (completeOpt id status data s) := by
  unfold Machine.completeOpt
  split
  · exact refl s
  · exact complete _ _ _ s

theorem handoverDone (s : State) : OutsGrow s (handoverDone s) := by
  unfold Machine.handoverDone
  split
  · exact refl s
  next ho _ => exact ite (completeOpt ho.cmd 0 (le 4 ho.group) { s with twn := { s.twn with handover := none } }) (refl s)

theorem dropStripe (keep : Bool) (s : State) : OutsGrow s (dropStripe keep s) := by
  unfold Machine.dropStripe
  split
  · exact refl s
  · refine trans (of_outs ?_) (handoverDone _)
    rfl

theorem endAccount (s : State) : OutsGrow s (endAccount s) := by
  unfold Machine.endAccount
  split
  · exact refl s
  · unfold settleAll
    refine trans (of_outs ?_) (foldl (fun l u => (settleLane true l id u).trans (settleLane false l id _)) _ _)
    rfl

theorem calDone (cmd : Option Nat) (n outcome : Nat) (s : State) : OutsGrow s (calDone cmd n outcome s) := by
  unfold Machine.calDone
  split
  · exact refl s
  · split
    · exact refl s
    · extract_lets l'
      refine ite ?_ (of_outs rfl)
      refine trans (of_outs ?_) (complete _ _ _ _)
      rfl

theorem releaseCoefs (s : State) : OutsGrow s (releaseCoefs s) := by
  refine foldl (fun n u => ?_) _ s
  split
  · exact (calDone _ _ _ u).trans (of_outs rfl)
  · exact refl u

theorem discardStripe (keep : Bool) (status : Nat) (s : State) : OutsGrow s (discardStripe keep status s) := by
  unfold Machine.discardStripe
  split
  · exact refl s
  next st _ =>
    extract_lets s1 pac s2
    have h1 : OutsGrow s s1 := (dropStripe keep s).trans ((endAccount _).trans (releaseCoefs _))
    have h2 : OutsGrow s s2 := ite (h1.trans (of_outs rfl)) h1
    exact h2.trans (completeOpt _ _ _ _)

theorem armEnd (status : Nat) (s : State) : OutsGrow s (armEnd status s) := by
  unfold Machine.armEnd
  split
  · exact refl s
  next st _ =>
    refine ite (refl s) (ite (discardStripe true status s) ?_)
    extract_lets groups id st1 pac s1
    exact (of_outs rfl : OutsGrow s s1).trans (completeOpt _ _ _ _)

end OutsGrow

/-! ### The status of an arm (R196, log 25) -/

theorem armStatus_ne_zero {a b : Nat} (h : a ≠ 0 ∨ b ≠ 0) : armStatus a b ≠ 0 := by
  unfold armStatus
  split_ifs <;> omega

/-- The partner's result has come. -/
def setPeerResult (n : Nat) (s : State) : State := { s with twn := { s.twn with peerResult := some n } }

theorem setPeerResult_only (n : Nat) (s : State) : changesOnly { twn := true } s (setPeerResult n s) := rfl

/-- The partner's ARM_READY has come. -/
def setPeerArm (m : ArmReady) (s : State) : State := { s with twn := { s.twn with peerArm := some m } }

theorem setPeerArm_only (m : ArmReady) (s : State) : changesOnly { twn := true } s (setPeerArm m s) := rfl

/-- This twin's result is known. -/
def setOwnResult (n : Nat) (s : State) : State := { s with twn := { s.twn with ownResult := some n } }

theorem setOwnResult_only (n : Nat) (s : State) : changesOnly { twn := true } s (setOwnResult n s) := rfl

/-- The result of this twin's comparison with the partner's ARM_READY. -/
def ownStatus (st : Stripe) (m : ArmReady) (s : State) : Nat := twinArmStatus s (s.twn.ownArm.getD (armReadyOf s st)) m

theorem ownStatus_setPeerArm (st : Stripe) (m : ArmReady) (s : State) : ownStatus st m (setPeerArm m s) = ownStatus st m s := rfl

theorem armConclude_of_both (hst : s.pac.stripe = some st) (hpeer : s.twn.peerArm = some m) (harming : st.state = .arming)
    (hsent : s.twn.armSent = true) (hown : s.twn.ownResult = none) :
    armConclude s = armBoth (dxpSend 5 (ownStatus st m s) [] (setOwnResult (ownStatus st m s) s)) := by
  simp only [armConclude, hst, hpeer]
  rw [if_neg (by simp [harming, hsent, hown])]
  simp only [ownStatus, setOwnResult, hpeer]

/-- Before the partner's result the arm waits. -/
theorem armBoth_of_no_peer (h : s.twn.peerResult = none) : armBoth s = s := by
  unfold armBoth
  rw [h]
  split
  next hsome => cases hsome
  next => rfl

/-! ### ARM_READY and ARM_RESULT received -/

section Received

variable (hpaired : s.twn.paired = true) (hup : s.twn.link = .up)
include hpaired hup

theorem exec_dxpArmReady : exec (.dxpArmReady m) s = .next (armConclude (setPeerArm m s)) := if_pos ⟨hpaired, hup⟩

theorem exec_dxpArmResult : exec (.dxpArmResult r) s = .next
    (if r ≠ 0 ∧ s.twn.ownResult.isNone then armEnd r.toNat (setPeerResult r.toNat s) else armBoth (setPeerResult r.toNat s)) :=
  if_pos ⟨hpaired, hup⟩

variable (hst : s.pac.stripe = some st) (harming : st.state = .arming)
include hst

/-- Before this twin has sent its own ARM_READY, the partner's waits. -/
theorem answers_dxpArmReady_early (hsent : s.twn.armSent = false) :
    answers (.dxpArmReady m) s fun t => t = { s with twn := { s.twn with peerArm := some m } } := by
  refine ⟨_, exec_dxpArmReady hpaired hup, ?_⟩
  simp [armConclude, setPeerArm, hst, hsent]

include harming

/-- Once both have come, this twin compares them and sends its result (R196). -/
theorem answers_dxpArmReady_both (hsent : s.twn.armSent = true) (hown : s.twn.ownResult = none) (hpeer : s.twn.peerResult = none) :
    answers (.dxpArmReady m) s fun t =>
      let r := twinArmStatus s (s.twn.ownArm.getD (armReadyOf s st)) m
      t.twn = { s.twn with peerArm := some m, ownResult := some r, txAlive := (s.twn.txAlive + 1) % 65536 } ∧
      t.outs = .dxpMessage (dxpWords ((s.twn.txAlive + 1) % 65536) 5 r []) :: s.outs ∧
      changesOnly { outs := true, twn := true, obs := true } s t := by
  have hup' : (setOwnResult (ownStatus st m s) (setPeerArm m s)).twn.link = .up := hup
  have htwn := dxpSend_twn hup' 5 (ownStatus st m s) []
  refine ⟨dxpSend 5 (ownStatus st m s) [] (setOwnResult (ownStatus st m s) (setPeerArm m s)), ?_, htwn, dxpSend_outs hup' 5 _ [],
    only_trans (setPeerArm_only m s) (only_trans (F := { outs := true, twn := true, obs := true }) (setOwnResult_only _ _)
      (dxpSend_only _ _ _ _))⟩
  rw [exec_dxpArmReady hpaired hup, armConclude_of_both (s := setPeerArm m s) hst rfl harming hsent hown, ownStatus_setPeerArm,
    armBoth_of_no_peer (by rw [htwn]; exact hpeer)]

omit hst harming in
/-- A partner that armed waits for this twin's own result. -/
theorem answers_dxpArmResult_first (hown : s.twn.ownResult = none) (hr : r = 0) :
    answers (.dxpArmResult r) s fun t => t = { s with twn := { s.twn with peerResult := some 0 } } := by
  subst hr
  refine ⟨_, exec_dxpArmResult hpaired hup, ?_⟩
  rw [if_neg (by simp)]
  simp only [armBoth, setPeerResult, hown]
  rfl

/-- A partner that refused ends the arm here at once. -/
theorem answers_dxpArmResult_refused (hown : s.twn.ownResult = none) (hr : r ≠ 0) : answers (.dxpArmResult r) s fun t =>
    t.pac.stripe = none ∧ ∀ id, st.cmd = some id → completedWith Parts.ending id r.toNat s t := by
  refine ⟨_, exec_dxpArmResult hpaired hup, ?_⟩
  rw [if_pos ⟨hr, by simp [hown]⟩]
  have hne : r.toNat ≠ 0 := fun h => hr (BitVec.eq_of_toNat_eq h)
  have hrefused := armEnd_refuses (s := setPeerResult r.toNat s) hst harming hne
  exact ⟨hrefused.stripe, fun id hid => completedWith_of_only (rfl : changesOnly Parts.ending s (setPeerResult r.toNat s)) (hrefused.cmd id hid)⟩

omit hst harming in
/-- With both results known the arm ends with one status. -/
theorem exec_dxpArmResult_both {a : Nat} (hown : s.twn.ownResult = some a) :
    exec (.dxpArmResult r) s = .next (armEnd (armStatus a r.toNat) (setPeerResult r.toNat s)) := by
  rw [exec_dxpArmResult hpaired hup, if_neg (by simp [hown])]
  simp only [armBoth, setPeerResult, hown]

theorem answers_dxpArmResult_armed (hown : s.twn.ownResult = some 0) (hr : r = 0) : answers (.dxpArmResult r) s fun t =>
    (∃ st', t.pac.stripe = some st' ∧ st'.state = .armed ∧ st'.cmd = none ∧
      st'.id = (if st.makeup.isSome then wrap32 (s.pac.admitCount + 1) else st.id)) ∧
    (∀ id, st.cmd = some id → completedWith { pac := true, twn := true } id 0 s t) := by
  subst hr
  refine ⟨_, exec_dxpArmResult_both hpaired hup hown, ?_⟩
  obtain ⟨⟨st', hst', hstate, hcmd, hid, -⟩, hdone⟩ := armEnd_arms (s := setPeerResult 0 s) hst harming
  refine ⟨⟨st', hst', hstate, hcmd, hid⟩, fun id hc => ?_⟩
  obtain ⟨u, data, honly, ht⟩ := hdone id hc
  exact ⟨u, data, only_trans (setPeerResult_only 0 s) honly, ht⟩

theorem answers_dxpArmResult_ended {a : Nat} (hown : s.twn.ownResult = some a) (hne : a ≠ 0 ∨ r ≠ 0) : answers (.dxpArmResult r) s fun t =>
    t.pac.stripe = none ∧ ∀ id, st.cmd = some id → completedWith Parts.ending id (armStatus a r.toNat) s t := by
  refine ⟨_, exec_dxpArmResult_both hpaired hup hown, ?_⟩
  have hstatus : armStatus a r.toNat ≠ 0 := armStatus_ne_zero (hne.imp_right fun hr h => hr (BitVec.eq_of_toNat_eq h))
  have hrefused := armEnd_refuses (s := setPeerResult r.toNat s) hst harming hstatus
  exact ⟨hrefused.stripe, fun id hid => completedWith_of_only (rfl : changesOnly Parts.ending s (setPeerResult r.toNat s)) (hrefused.cmd id hid)⟩

end Received

/-! ### The timeout of an arm (R196) -/

theorem answers_twinArmTimeout (hpaired : s.twn.paired = true) (hpeer : s.twn.peerArm = none) (hst : s.pac.stripe = some st)
    (harming : st.state = .arming) : answers .twinArmTimeout s fun t =>
      t.pac.stripe = none ∧ (∀ id, st.cmd = some id → completedWith Parts.ending id 0x4B s t) ∧
      (s.twn.link = .up → nextMessage s 5 0x4B [] ∈ t.outs) := by
  have hexec : exec .twinArmTimeout s = .next (armRefuse 0x4B s) := by
    simp only [exec, execTwinArmTimeout, hst]
    exact if_pos ⟨harming, hpaired, by simp [hpeer]⟩
  have hrefused := armRefuse_refuses hst harming (status := 0x4B) (by decide)
  refine ⟨_, hexec, hrefused.stripe, hrefused.cmd, fun hup => ?_⟩
  unfold armRefuse
  rw [if_pos hpaired]
  refine OutsGrow.armEnd 0x4B _ _ ?_
  rw [dxpSend_outs hup]
  exact List.mem_cons_self

/-- Settles O48: a digest of round 1 sets the partner's half of the vote, and no run that is dealt afterwards touches what the vote found;
an ABORT and the arm messages come to the operations that end a stripe. -/
theorem twinMessages : Obligations.TwinMessages := by
  intro s
  refine ⟨fun j mask ds hv => ⟨fun hlen => ?_, fun hlen hst => ?_, fun st g => answers_dxpDigest_open hv⟩,
    fun g cause hv => ⟨answers_dxpAbort_none hv, fun st hst => ⟨answers_dxpAbort_moving hv hst, answers_dxpAbort_standing hv hst,
      fun hstop c nu habort => ⟨fun hlow => ?_, fun hlimit hslot => ?_⟩⟩⟩,
    fun hpaired hup st hst harming => ⟨fun m => ⟨answers_dxpArmReady_early hpaired hup hst, answers_dxpArmReady_both hpaired hup hst harming⟩,
      fun r => ⟨answers_dxpArmResult_first hpaired hup, answers_dxpArmResult_refused hpaired hup hst harming,
        answers_dxpArmResult_armed hpaired hup hst harming, fun a => answers_dxpArmResult_ended hpaired hup hst harming⟩⟩,
    fun hpaired hpeer st => answers_twinArmTimeout hpaired hpeer⟩
  · exact ⟨_, exec_dxpDigest_short hv hlen, discardMsg_twn s, discardMsg_only s⟩
  · exact ⟨_, exec_dxpDigest_early hv hlen hst, tfind_tput_same _ _ _, rfl⟩
  · rw [exec_dxpAbort_widens hv hst hstop habort, if_neg (by omega)]
  · exact ⟨_, (exec_dxpAbort_widens hv hst hstop habort).trans (congrArg _ (if_pos ⟨hlimit, hslot⟩)), rfl, rfl, rfl⟩

end Sys2Proof.Machine
end

section
/-! PROOFS. What a step keeps (R341, R375, R439, R461, R482): every command keeps the bounds, and O4. -/

-- One theorem at a time, as under Laws/: the package as one text takes too much memory in many threads.
set_option Elab.async false

namespace Sys2Proof.Machine

/-- Every part of the state but the queue of waiting commands, which no command touches. -/
def Parts.all : Parts := { Parts.besidePac with pac := true }

/-- Every command keeps the bounds, whatever it touches. -/
theorem exec_does (c : Instr) (s : State) : DoesO .all s (exec c s) := by
  cases c with
  | rwpRegisterWrite | glbReset | glbSnap | thrRetire | pacVlimWrite | paceLinkEnable | encCppIntWrite | encPresetLoad
  | encChannelEnable | cmpArm | cmpDisarm | cmpTgtHiWrite | swlLaneEnable | swlLaneDisable | retrain | loopWrite | twnLinkEnable
  | lftInval | lftRetire | lftRptClear | lftPredWrite | weevilArm | weevilDisarm | timIncrHiWrite | timLoad | timAdjust | timSwitch
  | ptpTxGo | timRxPop | gangDisable | wipe | checkpoint | sloFreeze | sloUnfreeze | obsCntCfgWrite | obsCntClear | traceEnable
  | hstEnable | hstDisable | chainDisable => exact .next (does_busWrite _ _ _ (.refl _ s) rfl)
  | gangStartRx | gangUserRx | gangAbortRx | gangIdClash | gangFrameRefused => exact .next (does_gangRx _ (.refl _ s) rfl)
  | beamMapSet | trimSet => exact does_tableCmd _ _ _ (.refl _ s) rfl
  | powerOn => exact does_execPowerOn (.refl _ s) rfl
  | sysRstNFall => exact does_execSysRstNFall (.refl _ s) rfl
  | sysRstNRise => exact does_execSysRstNRise (.refl _ s) rfl
  | clocksLocked => exact does_execClocksLocked (.refl _ s) rfl
  | selftestDone => exact does_execSelftestDone _ (.refl _ s) rfl
  | granaryLoadDone => exact does_execGranaryLoadDone _ (.refl _ s) rfl
  | loftChannelTrained => exact does_execLoftChannelTrained _ _ _ _ (.refl _ s) rfl
  | loftTrained => exact does_execLoftTrained (.refl _ s) rfl
  | startupDone => exact does_execStartupDone _ (.refl _ s) rfl
  | pllLockLoss => exact does_execPllLockLoss _ _ (.refl _ s) rfl
  | supplyFault => exact does_execSupplyFault _ _ (.refl _ s) rfl
  | watchdogExpiry => exact does_execWatchdogExpiry _ (.refl _ s) rfl
  | dieTempRead => exact does_execDieTempRead _ (.refl _ s) rfl
  | pfwNFall => exact does_execPfwNFall (.refl _ s) rfl
  | pfwRecognized => exact does_execPfwRecognized (.refl _ s) rfl
  | pfwSequenceDone => exact does_execPfwSequenceDone (.refl _ s) rfl
  | pcieLinkReset => exact does_execPcieLinkReset _ (.refl _ s) rfl
  | pciePerstN => exact does_execPciePerstN _ (.refl _ s) rfl
  | registerWrite => exact does_execRegisterWrite _ _ _ _ _ _ (.refl _ s) rfl
  | persistQueueDrain => exact does_execPersistQueueDrain (.refl _ s) rfl
  | granaryWordWriteDone => exact does_execGranaryWordWriteDone _ (.refl _ s) rfl
  | loRegisterRead => exact does_execLoRegisterRead _ _ _ (.refl _ s) rfl
  | ptpTxDone => exact does_execPtpTxDone _ _ (.refl _ s) rfl
  | wearCheckpointTimer => exact does_execWearCheckpointTimer (.refl _ s) rfl
  | grnRawRead => exact does_execGrnRawRead _ (.refl _ s) rfl
  | obsCntFetch => exact does_execObsCntFetch _ (.refl _ s) rfl
  | traceCounterPeriod => exact does_execTraceCounterPeriod (.refl _ s) rfl
  | traceAlign => exact does_execTraceAlign (.refl _ s) rfl
  | traceLoss => exact does_execTraceLoss (.refl _ s) rfl
  | doorbellPoll => exact does_execDoorbellPoll (.refl _ s) rfl
  | doorbellPollComplete => exact does_execDoorbellPollComplete _ (.refl _ s) rfl
  | commandFetchComplete => exact does_execCommandFetchComplete _ (.refl _ s) rfl
  | commandStart => exact does_execCommandStart _ (.refl _ s) rfl
  | holdQueueDrain => exact does_execHoldQueueDrain (.refl _ s) rfl
  | msixModerationTimer => exact does_execMsixModerationTimer (.refl _ s) rfl
  | descriptorReadComplete => exact does_execDescriptorReadComplete _ _ (.refl _ s) rfl
  | dmaBurstStart => exact does_execDmaBurstStart _ (.refl _ s) rfl
  | dmaBurstEnd => exact does_execDmaBurstEnd _ _ (.refl _ s) rfl
  | descriptorEnd => exact does_execDescriptorEnd _ (.refl _ s) rfl
  | nop => exact does_execNop _ (.refl _ s) rfl
  | sheafLoad => exact does_execSheafLoad _ (.refl _ s) rfl
  | stripeAdmit => exact does_execStripeAdmit _ (.refl _ s) rfl
  | admitGuardWaitEnd => exact does_execAdmitGuardWaitEnd (.refl _ s) rfl
  | stripeArm => exact does_execStripeArm _ (.refl _ s) rfl
  | prerollComplete => exact does_execPrerollComplete (.refl _ s) rfl
  | stripeAbort => exact does_execStripeAbort _ (.refl _ s) rfl
  | makeupArmList => exact does_execMakeupArmList _ (.refl _ s) rfl
  | makeupArmArm => exact does_execMakeupArmArm _ _ (.refl _ s) rfl
  | tableChangeEffect => exact does_execTableChangeEffect (.refl _ s) rfl
  | tableSwitchRelease => exact does_execTableSwitchRelease (.refl _ s) rfl
  | scanCheck => exact does_execScanCheck _ (.refl _ s) rfl
  | readback => exact does_execReadback _ (.refl _ s) rfl
  | calEncMeasure => exact does_execCalEncMeasure _ (.refl _ s) rfl
  | calEncStore => exact does_execCalEncStore _ (.refl _ s) rfl
  | calEncLoad => exact does_execCalEncLoad _ (.refl _ s) rfl
  | calEncRestore => exact does_execCalEncRestore _ (.refl _ s) rfl
  | calEncTimeout => exact does_execCalEncTimeout _ (.refl _ s) rfl
  | twinPair => exact does_execTwinPair _ (.refl _ s) rfl
  | twinPairDissolve => exact does_execTwinPairDissolve _ (.refl _ s) rfl
  | twinPairTimeout => exact does_execTwinPairTimeout (.refl _ s) rfl
  | twinHandover => exact does_execTwinHandover _ (.refl _ s) rfl
  | gangLaunchCancel => exact does_execGangLaunchCancel _ (.refl _ s) rfl
  | gangLaunchStart => exact does_execGangLaunchStart _ (.refl _ s) rfl
  | gangLaunchAbort => exact does_execGangLaunchAbort _ (.refl _ s) rfl
  | gangLaunchUser => exact does_execGangLaunchUser _ (.refl _ s) rfl
  | gangLaunchDue => exact does_execGangLaunchDue (.refl _ s) rfl
  | gangFrameSent => exact does_execGangFrameSent _ _ (.refl _ s) rfl
  | snapshot => exact does_execSnapshot _ (.refl _ s) rfl
  | snapshotDue => exact does_execSnapshotDue (.refl _ s) rfl
  | timeTick => exact does_execTimeTick (.refl _ s) rfl
  | setpointInstant => exact does_execSetpointInstant (.refl _ s) rfl
  | runUpStart => exact does_execRunUpStart (.refl _ s) rfl
  | stopAtRest => exact does_execStopAtRest (.refl _ s) rfl
  | encSample => exact does_execEncSample _ _ _ _ (.refl _ s) rfl
  | speedEdge => exact does_execSpeedEdge _ _ (.refl _ s) rfl
  | stillTimeout => exact does_execStillTimeout _ (.refl _ s) rfl
  | calWindowClose => exact does_execCalWindowClose _ (.refl _ s) rfl
  | calSlewEnd => exact does_execCalSlewEnd _ (.refl _ s) rfl
  | slotTrigger => exact does_execSlotTrigger _ _ (.refl _ s) rfl
  | groupQueueOpen => exact does_execGroupQueueOpen (.refl _ s) rfl
  | runComplete => exact does_execRunComplete _ _ (.refl _ s) rfl
  | groupBuilt => exact does_execGroupBuilt (.refl _ s) rfl
  | round2Built => exact does_execRound2Built (.refl _ s) rfl
  | groupDeadline => exact does_execGroupDeadline (.refl _ s) rfl
  | rleJobComplete => exact does_execRleJobComplete _ (.refl _ s) rfl
  | ingestUnitFailure => exact does_execIngestUnitFailure _ (.refl _ s) rfl
  | cribFillComplete => exact does_execCribFillComplete (.refl _ s) rfl
  | loftReadComplete => exact does_execLoftReadComplete _ _ _ (.refl _ s) rfl
  | loftRequestIssue => exact does_execLoftRequestIssue _ (.refl _ s) rfl
  | loftWriteBatch => exact does_execLoftWriteBatch _ (.refl _ s) rfl
  | refreshDue => exact does_execRefreshDue _ (.refl _ s) rfl
  | dimmTempRead => exact does_execDimmTempRead _ _ _ (.refl _ s) rfl
  | fillEngineStart => exact does_execFillEngineStart (.refl _ s) rfl
  | fillEngineDone => exact does_execFillEngineDone _ (.refl _ s) rfl
  | gleanerRead => exact does_execGleanerRead _ _ (.refl _ s) rfl
  | gleanerLapSlow => exact does_execGleanerLapSlow _ (.refl _ s) rfl
  | loftChannelFault => exact does_execLoftChannelFault _ _ (.refl _ s) rfl
  | returnStatus => exact does_execReturnStatus _ _ _ _ _ _ (.refl _ s) rfl
  | returnTapReq => exact does_execReturnTapReq _ _ _ _ _ (.refl _ s) rfl
  | returnTrained k lane seq => exact does_execReturnTrained k lane seq (.refl _ s) rfl
  | returnPrbsResult => exact does_execReturnPrbsResult _ _ _ _ (.refl _ s) rfl
  | returnIdle k fill => exact does_execReturnIdle k fill (.refl _ s) rfl
  | returnLaneTimeout => exact does_execReturnLaneTimeout _ (.refl _ s) rfl
  | returnDownSettle => exact does_execReturnDownSettle _ (.refl _ s) rfl
  | frameSettleTimeout => exact does_execFrameSettleTimeout _ (.refl _ s) rfl
  | laneMessageTimeout => exact does_execLaneMessageTimeout _ (.refl _ s) rfl
  | trainTimeout => exact does_execTrainTimeout _ (.refl _ s) rfl
  | noPartnerTimeout => exact does_execNoPartnerTimeout _ (.refl _ s) rfl
  | quadPllUnlock => exact does_execQuadPllUnlock _ (.refl _ s) rfl
  | quadPllRelock => exact does_execQuadPllRelock _ (.refl _ s) rfl
  | amTimer => exact does_execAmTimer (.refl _ s) rfl
  | trainBlock => exact does_execTrainBlock _ (.refl _ s) rfl
  | dxpDigest => exact does_execDxpDigest _ _ _ _ (.refl _ s) rfl
  | dxpAbort => exact does_execDxpAbort _ _ (.refl _ s) rfl
  | dxpHandoverRequest => exact does_execDxpHandoverRequest (.refl _ s) rfl
  | dxpHandoverPropose => exact does_execDxpHandoverPropose _ (.refl _ s) rfl
  | dxpHandoverAccept => exact does_execDxpHandoverAccept _ (.refl _ s) rfl
  | dxpHandoverCommit => exact does_execDxpHandoverCommit _ (.refl _ s) rfl
  | dxpArmReady => exact does_execDxpArmReady _ (.refl _ s) rfl
  | dxpArmResult => exact does_execDxpArmResult _ (.refl _ s) rfl
  | dxpTable => exact does_execDxpTable _ (.refl _ s) rfl
  | dxpTableReply => exact does_execDxpTableReply _ _ _ (.refl _ s) rfl
  | dxpTableCommit => exact does_execDxpTableCommit _ (.refl _ s) rfl
  | dxpHello => exact does_execDxpHello _ (.refl _ s) rfl
  | dxpHeartbeat => exact does_execDxpHeartbeat _ (.refl _ s) rfl
  | heartbeatDue => exact does_execHeartbeatDue (.refl _ s) rfl
  | dxpLinkTimeout => exact does_execDxpLinkTimeout (.refl _ s) rfl
  | dxpQuietEnd => exact does_execDxpQuietEnd (.refl _ s) rfl
  | dxpTrainTimeout => exact does_execDxpTrainTimeout (.refl _ s) rfl
  | dxpNoPartner => exact does_execDxpNoPartner (.refl _ s) rfl
  | twinArmTimeout => exact does_execTwinArmTimeout (.refl _ s) rfl
  | partnerDead => exact does_execPartnerDead (.refl _ s) rfl
  | roleTake => exact does_execRoleTake (.refl _ s) rfl
  | ethPortUp => exact does_execEthPortUp _ (.refl _ s) rfl
  | ethPortDown => exact does_execEthPortDown _ (.refl _ s) rfl
  | ptpFrameRx => exact does_execPtpFrameRx _ _ _ (.refl _ s) rfl
  | ethFrameDiscard => exact does_execEthFrameDiscard _ _ (.refl _ s) rfl
  | partnerLive => exact does_execPartnerLive (.refl _ s) rfl
  | dxpTrainBlockRx => exact does_execDxpTrainBlockRx _ _ _ _ _ _ (.refl _ s) rfl
  | dxpMessageDiscard => exact does_execDxpMessageDiscard (.refl _ s) rfl
  | returnMessageDiscard => exact does_execReturnMessageDiscard _ (.refl _ s) rfl
  | alignAm => exact does_execAlignAm _ (.refl _ s) rfl
  | msixVectorUnmask => exact does_execMsixVectorUnmask _ _ (.refl _ s) rfl
  | pfwNRise => exact does_execPfwNRise (.refl _ s) rfl
  | pfwNStableHigh => exact does_execPfwNStableHigh (.refl _ s) rfl
  | loftAlert => exact does_execLoftAlert _ (.refl _ s) rfl
  | loftRowTimeout => exact does_execLoftRowTimeout _ _ (.refl _ s) rfl
  | admissionComplete => exact does_execAdmissionComplete (.refl _ s) rfl
  | readbackComplete => exact does_execReadbackComplete (.refl _ s) rfl
  | traceRecordSent => exact does_execTraceRecordSent (.refl _ s) rfl
  | pcieLinkUp => exact does_execPcieLinkUp _ _ _ _ (.refl _ s) rfl

/-- Settles O4: every command keeps the bounds, and taking it from the queue touches nothing that they see. -/
theorem stepKeepsBounds : Obligations.StepKeepsBounds := by
  intro s t h hst
  unfold step at hst
  split at hst
  · cases hst
    exact h
  next c _ _ => exact (exec_does c s.popFront t hst).keeps (bounded_of_watched (s := s) rfl h)

end Sys2Proof.Machine
end

section
/-! PROOFS. The loft as memory (R314 to R353): what its address map, its queues and its fill engines read, and what a write does that
nothing holds up. -/

-- One theorem at a time, as under Laws/: the package as one text takes too much memory in many threads.
set_option Elab.async false

namespace Sys2Proof.Machine

variable {s t : State}

/-! ### Population and address map (R314, R316) -/

/-- What the address map reads of a channel. -/
def LftCh.pop (x : LftCh) : LftChState × Nat × Nat × Nat := (x.state, x.density, x.ranks, x.dimms)

/-- The channels of `t` are populated as those of `s` are. -/
def SamePop (s t : State) : Prop := ∀ k, (lftGet t k).pop = (lftGet s k).pop

theorem lftGet_congr (h : t.lft.ch = s.lft.ch) (k : Nat) : lftGet t k = lftGet s k := by rw [lftGet, h, lftGet]

@[simp] theorem lftSet_lft (s : State) (c : Nat) (x : LftCh) : (lftSet s c x).lft = { s.lft with ch := tset s.lft.ch c x {} } := rfl

/-! What raises, counts and completions leave of the loft. -/

@[simp] theorem raiseItems_lft (code cls : Nat) (l : List (Nat × Nat)) (s : State) : (raiseItems code cls l s).lft = s.lft :=
  same_lft (raiseItems_only code cls l s) rfl

@[simp] theorem lftGet_raiseItems (code cls : Nat) (l : List (Nat × Nat)) (s : State) (k : Nat) :
    lftGet (raiseItems code cls l s) k = lftGet s k := lftGet_congr (by rw [raiseItems_lft]) k

theorem cntLft_only (ev : Nat) (u : Option Nat) (n : Nat) (s : State) : changesOnly { obs := true } s (cntLft ev u n s) :=
  (does_cntLft ev u n (.refl _ s) rfl).only

@[simp] theorem cntLft_lft (ev : Nat) (u : Option Nat) (n : Nat) (s : State) : (cntLft ev u n s).lft = s.lft :=
  same_lft (cntLft_only ev u n s) rfl

@[simp] theorem lftGet_cntLft (ev : Nat) (u : Option Nat) (n : Nat) (s : State) (k : Nat) : lftGet (cntLft ev u n s) k = lftGet s k :=
  lftGet_congr (by rw [cntLft_lft]) k

theorem lftSet_only (s : State) (c : Nat) (x : LftCh) : changesOnly { lft := true } s (lftSet s c x) := rfl

namespace SamePop

theorem of_ch (h : t.lft.ch = s.lft.ch) : SamePop s t := fun k => congrArg LftCh.pop (lftGet_congr h k)

theorem lftSet (c : Nat) {x : LftCh} (h : x.pop = (lftGet s c).pop) : SamePop s (lftSet s c x) := fun k => by
  by_cases hk : k = c
  · rw [hk, lftGet_lftSet_same, h]
  · rw [lftGet_lftSet_ne _ _ hk]

theorem state (h : SamePop s t) (k : Nat) : (lftGet t k).state = (lftGet s k).state := congrArg Prod.fst (h k)

theorem inService (h : SamePop s t) : inService t = inService s := by
  simp only [Machine.inService, h.state]

theorem numCh (h : SamePop s t) : numCh t = numCh s := congrArg List.length h.inService

theorem refCh (h : SamePop s t) : (refCh t).pop = (refCh s).pop := by
  simp only [Machine.refCh, h.inService]
  split
  · exact h _
  · rfl

/-- The address map is that of the population. -/
theorem coordOf (h : SamePop s t) (a : Nat) : coordOf t a = coordOf s a := by
  have hp := h.refCh
  simp only [LftCh.pop, Prod.mk.injEq] at hp
  obtain ⟨-, hdensity, hranks, hdimms⟩ := hp
  simp only [Machine.coordOf, h.inService, hdensity, hranks, hdimms]

end SamePop

/-- The address map goes by blocks. -/
theorem coordOf_block (s : State) (a : Nat) : coordOf s (64 * (a / 64)) = coordOf s a := by
  have h : 64 * (a / 64) / 64 = a / 64 := by omega
  simp only [coordOf, loftDecode, h]

theorem regionOf_eq_div (a : Nat) : a / 64 / 16384 = regionOf a := by
  simp only [regionOf]
  omega

/-! ### Requests enter the queues (R320 to R322, R342) -/

/-- The loft with other waiting writes. -/
def withWaits (ws : List WaitWrite) (s : State) : State := { s with lft := { s.lft with waits := ws } }

/-- The loft with other fill engines at work. -/
def withFills (fs : Tbl FillEng) (s : State) : State := { s with lft := { s.lft with fills := fs } }

@[simp] theorem withWaits_lft (ws : List WaitWrite) (s : State) : (withWaits ws s).lft = { s.lft with waits := ws } := rfl
@[simp] theorem withFills_lft (fs : Tbl FillEng) (s : State) : (withFills fs s).lft = { s.lft with fills := fs } := rfl
@[simp] theorem lftGet_withWaits (ws : List WaitWrite) (s : State) (k : Nat) : lftGet (withWaits ws s) k = lftGet s k := rfl
@[simp] theorem lftGet_withFills (fs : Tbl FillEng) (s : State) (k : Nat) : lftGet (withFills fs s) k = lftGet s k := rfl

theorem withWaits_of_eq {ws : List WaitWrite} (h : s.lft.waits = ws) : withWaits ws s = s := by subst h; rfl

theorem fillOf_of_none (h : s.lft.fills = []) (r : Nat) : fillOf s r = none := by rw [fillOf, h, List.find?_nil]

theorem coverBlock_of_none {blk : Nat} (h : fillOf s (blk / 16384) = none) : coverBlock blk s = s := by
  simp only [coverBlock, h]

theorem coverBlock_of_some {blk e : Nat} {f : FillEng} (h : fillOf s (blk / 16384) = some (e, f)) :
    coverBlock blk s = withFills (tput s.lft.fills e { f with mask := natInsert blk f.mask }) s := by
  simp only [coverBlock, h]
  rfl

/-- The request that a write of a whole block becomes. -/
def writeReq (client blk : Nat) (data : List Byte) (poison : Bool) (s : State) : LftReq :=
  { rank := 4, client := client, addr := 64 * blk, seq := (lftGet s (coordOf s (64 * blk)).ch).seq, data := data, poison := poison }

section Enters

variable (client blk : Nat) (data : List Byte) (poison : Bool)

theorem enterWrite_writes : (lftGet (enterWrite client blk data poison s) (coordOf s (64 * blk)).ch).writes =
    (lftGet s (coordOf s (64 * blk)).ch).writes ++ [writeReq client blk data poison s] := by
  rw [enterWrite, lftGet_lftSet_same]
  rfl

theorem lftGet_enterWrite_ne {k : Nat} (h : k ≠ (coordOf s (64 * blk)).ch) :
    lftGet (enterWrite client blk data poison s) k = lftGet s k := lftGet_lftSet_ne _ _ h

theorem enterWrite_only : changesOnly { lft := true } s (enterWrite client blk data poison s) := rfl

/-- A write enters as it does where nothing waits. -/
theorem enterWrite_withWaits (ws : List WaitWrite) :
    withWaits [] (enterWrite client blk data poison (withWaits ws s)) = enterWrite client blk data poison (withWaits [] s) := rfl

end Enters

theorem writeRoom_congr (h : t.lft.ch = s.lft.ch) (blk : Nat) : writeRoom t blk = writeRoom s blk := by
  simp only [writeRoom, (SamePop.of_ch h).coordOf, lftGet_congr h]

/-! ### Fill engines and waiting writes go on (R321, R342) -/

theorem fillStep_of_none {e : Nat} (h : tfind s.lft.fills e = none) : fillStep e s = s := by
  simp only [fillStep, h]

theorem fillStep_of_busy {e : Nat} {f : FillEng} (h : tfind s.lft.fills e = some f) (hbusy : f.busy = true) : fillStep e s = s := by
  simp only [fillStep, h, hbusy, if_true]

/-- The steps of all eight fill engines. -/
def fillSteps (s : State) : State := (List.range 8).foldl (fun s e => fillStep e s) s

theorem loftGoOn_eq (s : State) : loftGoOn s = pushWaits (fillSteps s) := rfl

theorem foldl_of_still {α : Type} {f : State → α → State} {l : List α} (h : ∀ x ∈ l, f s x = s) : l.foldl f s = s := by
  induction l with
  | nil => rfl
  | cons x l ih =>
    rw [List.foldl_cons, h x List.mem_cons_self]
    exact ih fun y hy => h y (List.mem_cons_of_mem _ hy)

theorem fillSteps_of_still (h : ∀ e, e < 8 → fillStep e s = s) : fillSteps s = s :=
  foldl_of_still fun e he => h e (List.mem_range.1 he)

theorem fillSteps_of_none (h : s.lft.fills = []) : fillSteps s = s :=
  fillSteps_of_still fun _ _ => fillStep_of_none (by rw [h]; rfl)

theorem pushWaits_of_none (h : s.lft.waits = []) : pushWaits s = s := by
  rw [pushWaits, h, pushGo, ← h]

/-- The one waiting write enters. -/
theorem pushWaits_of_enters {w : WaitWrite} (h : s.lft.waits = [w]) (htry : tryWrite w s = (none, t)) : pushWaits s = withWaits [] t := by
  simp only [pushWaits, h, pushGo, List.any_nil, Bool.false_eq_true, if_false, htry]
  rfl

/-- The one waiting write waits on. -/
theorem pushWaits_of_stays {w : WaitWrite} (h : s.lft.waits = [w]) (htry : tryWrite w s = (some w, s)) : pushWaits s = s := by
  simp only [pushWaits, h, pushGo, List.any_nil, Bool.false_eq_true, if_false, htry, List.nil_append]
  exact withWaits_of_eq h

/-- The loft serves writes to a region: it is valid, being filled, or takes the first free engine (R342). -/
def serveRegion (r : Nat) (s : State) : Option State :=
  if s.lft.valid.contains r || (fillOf s r).isSome then some s
  else ((List.range 8).find? (fun e => !thas s.lft.fills e)).map
    fun e => withFills (tput s.lft.fills e { region := r, mask := [] }) s

/-- A write that has an engine, if it needs one, on its way into the write queue. -/
def enterServed (w : WaitWrite) (s : State) : Option WaitWrite × State :=
  if w.reading then (some w, s)
  else if decide (w.addr % 64 = 0 ∧ w.bytes.length = 64) then
    if writeRoom s (w.addr / 64) then
      (none, notePoison w.poison (w.addr / 64)
        (enterWrite (if w.part then 2 else w.client) (w.addr / 64) w.bytes w.poison (coverBlock (w.addr / 64) s)))
    else (some w, s)
  else if blockLive s (w.addr / 64) then
    (some { w with reading := true }, queueRead { rank := 3, client := 2, addr := 64 * (w.addr / 64), who := .partial_ } s)
  else if writeRoom s (w.addr / 64) then
    (none, notePoison w.poison (w.addr / 64) (enterWrite 2 (w.addr / 64)
      (mergePart (List.replicate 64 0) (w.addr % 64) w.bytes) w.poison (coverBlock (w.addr / 64) s)))
  else (some w, s)

/-- A waiting write is served, or waits on. -/
theorem tryWrite_eq (w : WaitWrite) (s : State) :
    tryWrite w s = ((serveRegion (regionOf w.addr) s).map (enterServed w)).getD (some w, s) := by
  unfold tryWrite serveRegion
  extract_lets blk r whole served
  by_cases h : served = true
  · rw [if_pos h, if_pos h]
    rfl
  · rw [if_neg h, if_neg h]
    cases (List.range 8).find? (fun e => !thas s.lft.fills e) <;> rfl

/-- A whole block without poison enters where its write queue has a place. -/
theorem tryWrite_of_served {w : WaitWrite} {s1 : State} (hserve : serveRegion (regionOf w.addr) s = some s1) (hch : s1.lft.ch = s.lft.ch)
    (hreading : w.reading = false) (halign : w.addr % 64 = 0) (hlen : w.bytes.length = 64) (hpoison : w.poison = false)
    (hroom : writeRoom s (w.addr / 64) = true) :
    tryWrite w s = (none, enterWrite (if w.part then 2 else w.client) (w.addr / 64) w.bytes false (coverBlock (w.addr / 64) s1)) := by
  have hroom1 : writeRoom s1 (w.addr / 64) = true := (writeRoom_congr hch _).trans hroom
  rw [tryWrite_eq, hserve]
  simp only [Option.map_some, Option.getD_some, enterServed, hreading, halign, hlen, hpoison, hroom1, notePoison, and_self, decide_true,
    if_true, Bool.false_eq_true, if_false]

theorem tryWrite_of_not_served {w : WaitWrite} (hserve : serveRegion (regionOf w.addr) s = none) : tryWrite w s = (some w, s) := by
  rw [tryWrite_eq, hserve]
  rfl

theorem serveRegion_of_valid {r : Nat} (h : r ∈ s.lft.valid) : serveRegion r s = some s :=
  if_pos (by simp [h])

theorem serveRegion_of_not_valid {r : Nat} (h : r ∉ s.lft.valid) (hfill : fillOf s r = none) :
    serveRegion r s = ((List.range 8).find? (fun e => !thas s.lft.fills e)).map
      fun e => withFills (tput s.lft.fills e { region := r, mask := [] }) s :=
  if_neg (by simp [h, hfill])

theorem landBursts_of_none (h : ∀ c, (chainGet s c).landed = false) : landBursts s = s := by
  refine List.foldl_fixed' (fun c => ?_) _
  simp only [h, Bool.false_eq_true, false_and, if_false]
  split <;> rfl

/-- With nothing to carry on with, the loft stands. -/
theorem loftFlow_of_quiet (h : loftQuiet s) : loftFlow s = s := by
  obtain ⟨hwaits, hfills, hlanded⟩ := h
  rw [loftFlow, loftGoOn_eq, fillSteps_of_none hfills, pushWaits_of_none hwaits, landBursts_of_none hlanded]

/-! ### A write of one block (R321, R339, R340, R342) -/

theorem writeParts_of_block {client a fuel : Nat} {owner : Option Nat} {poison : Bool} {bs : List Byte} (ha : a % 64 = 0)
    (hlen : bs.length = 64) :
    writeParts client owner poison (fuel + 2) a bs = [{ client := client, owner := owner, addr := a, bytes := bs, poison := poison }] := by
  have hne : bs.isEmpty = false := List.isEmpty_eq_false_iff.2 fun h => by rw [h] at hlen; cases hlen
  simp [writeParts, hne, ha, List.take_of_length_le hlen.le, List.drop_of_length_le hlen.le]

/-- The one waiting write, of a whole block of a valid region and without poison, enters. -/
theorem loftGoOn_of_block {w : WaitWrite} (hwaits : s.lft.waits = [w]) (hvalid : regionOf w.addr ∈ s.lft.valid) (hfills : s.lft.fills = [])
    (hreading : w.reading = false) (halign : w.addr % 64 = 0) (hlen : w.bytes.length = 64) (hpoison : w.poison = false)
    (hroom : writeRoom s (w.addr / 64) = true) :
    loftGoOn s = withWaits [] (enterWrite (if w.part then 2 else w.client) (w.addr / 64) w.bytes false s) := by
  have htry := tryWrite_of_served (serveRegion_of_valid hvalid) rfl hreading halign hlen hpoison hroom
  rw [coverBlock_of_none (fillOf_of_none hfills _)] at htry
  rw [loftGoOn_eq, fillSteps_of_none hfills]
  exact pushWaits_of_enters hwaits htry

/-- A block written to a valid region, behind nothing that waits, enters its write queue. -/
theorem loftWrite_of_block {client a : Nat} {owner : Option Nat} {bs : List Byte} (ha : a % 64 = 0) (hlen : bs.length = 64)
    (hvalid : regionOf a ∈ s.lft.valid) (hwaits : s.lft.waits = []) (hfills : s.lft.fills = []) (hroom : writeRoom s (a / 64) = true) :
    loftWrite client owner false a bs s = enterWrite client (a / 64) bs false s := by
  have hparts : s.lft.waits ++ writeParts client owner false (bs.length + 1) a bs =
      [{ client := client, owner := owner, addr := a, bytes := bs }] := by
    rw [hwaits, hlen, List.nil_append]
    exact writeParts_of_block ha hlen
  have hgo : loftWrite client owner false a bs s =
      loftGoOn (withWaits (s.lft.waits ++ writeParts client owner false (bs.length + 1) a bs) s) := rfl
  have henters := loftGoOn_of_block (s := withWaits [{ client := client, owner := owner, addr := a, bytes := bs }] s) rfl hvalid hfills rfl ha
    hlen rfl ((writeRoom_congr rfl _).trans hroom)
  rw [hgo, hparts, henters, enterWrite_withWaits, withWaits_of_eq hwaits]
  rfl

/-- A write that the weevil does not select puts its bytes into the DRAM (R340). -/
theorem putBlock_mem {w : LftReq} (h : weevilHits s (w.addr / 64) = false) :
    (putBlock w s).lft.mem = memWrite s.lft.mem (64 * (w.addr / 64)) w.data := by
  simp only [putBlock, h, Bool.false_eq_true, if_false]
  split <;> rfl

/-- Settles O21: a whole block meets nothing that holds it up, and an issued write is one write of memory. -/
theorem loftWrites : Obligations.LoftWrites := by
  refine ⟨fun client a owner bs s ha hlen hvalid hwaits hfills hroom => ?_, fun w s haddr hlen hmiss x => ?_⟩
  · have hblk : 64 * (a / 64) = a := by omega
    rw [loftWrite_of_block ha hlen hvalid hwaits hfills hroom]
    refine ⟨⟨writeReq client (a / 64) bs false s, ?_, hblk, rfl, rfl, rfl, rfl⟩, hwaits, rfl, fun k hk => ?_, enterWrite_only _ _ _ _⟩
    · have hw := enterWrite_writes (s := s) client (a / 64) bs false
      rwa [hblk] at hw
    · exact lftGet_enterWrite_ne _ _ _ _ (hblk.symm ▸ hk)
  · rw [putBlock_mem hmiss, show 64 * (w.addr / 64) = w.addr by omega]
    split
    next hx =>
      obtain ⟨i, rfl⟩ := Nat.exists_eq_add_of_le hx.1
      have hi : i < w.data.length := by omega
      rw [memGet_memWrite_inside _ _ _ _ hi, Nat.add_sub_cancel_left, List.getD_eq_getElem _ _ hi]
    next hx => exact memGet_memWrite_outside _ _ _ _ (by omega)

end Sys2Proof.Machine
end

section
/-! PROOFS. The granary load and the training of the loft (R314, R318, R319, R433, R434, R470), and O44. -/

-- One theorem at a time, as under Laws/: the package as one text takes too much memory in many threads.
set_option Elab.async false

namespace Sys2Proof.Machine

variable {s t u : State}

/-! ### The granary load (R433, R434) -/

/-- From `s` to `t` what the granary holds, that it is loaded, and the phase stand. -/
structure LoadStands (s t : State) : Prop where
  loaded : t.grn.loaded = s.grn.loaded
  badWords : t.grn.badWords = s.grn.badWords
  words : t.grn.words = s.grn.words
  ones : t.grn.ones = s.grn.ones
  rings : t.grn.rings = s.grn.rings
  phase : t.glb.phase = s.glb.phase

namespace LoadStands

theorem refl (s : State) : LoadStands s s := ⟨rfl, rfl, rfl, rfl, rfl, rfl⟩

theorem trans (h : LoadStands s t) (g : LoadStands t u) : LoadStands s u :=
  ⟨g.loaded.trans h.loaded, g.badWords.trans h.badWords, g.words.trans h.words, g.ones.trans h.ones, g.rings.trans h.rings, g.phase.trans h.phase⟩

theorem of_grn (h : t.grn = s.grn) (hphase : t.glb.phase = s.glb.phase) : LoadStands s t :=
  ⟨by rw [h], by rw [h], by rw [h], by rw [h], by rw [h], hphase⟩

theorem raiseItems (code cls : Nat) (l : List (Nat × Nat)) (s : State) : LoadStands s (raiseItems code cls l s) := by
  refine of_grn (same_grn (raiseItems_only code cls l s) rfl) ((congrArg Glb.phase (raise_glb _ _ _ _)).trans ?_)
  unfold glbCount
  split <;> rfl

theorem foldl {α : Type} {f : State → α → State} (hf : ∀ x u, LoadStands u (f u x)) (l : List α) (s : State) :
    LoadStands s (l.foldl f s) := by
  induction l generalizing s with
  | nil => exact refl s
  | cons x l ih => exact (hf x s).trans (ih _)

theorem noteUnreadable (w : Nat) (s : State) : LoadStands s (noteUnreadable w s) := by
  simp only [Machine.noteUnreadable, drawFree]
  split
  · refine trans ?_ (raiseItems _ _ _ _)
    exact ⟨rfl, rfl, rfl, rfl, rfl, rfl⟩
  · exact ⟨rfl, rfl, rfl, rfl, rfl, rfl⟩

theorem loadRings (s : State) : LoadStands s (loadRings s) :=
  have h := (does_loadRings (.refl { regs := true } s) rfl).only
  of_grn (same_grn h rfl) (congrArg Glb.phase (same_glb h rfl))

theorem loadWear (s : State) : LoadStands s (loadWear s) := by
  unfold Machine.loadWear
  split <;> exact ⟨rfl, rfl, rfl, rfl, rfl, rfl⟩

theorem loadDose (s : State) : LoadStands s (loadDose s) := by
  simp only [Machine.loadDose]
  split
  · refine trans ?_ (raiseItems _ _ _ _)
    exact ⟨rfl, rfl, rfl, rfl, rfl, rfl⟩
  · exact ⟨rfl, rfl, rfl, rfl, rfl, rfl⟩

/-- The table that the granary holds is seen through its words and which of them are lost. -/
theorem loadTable (h : LoadStands s t) : loadTable t = loadTable s := by
  have heq (s : State) : Machine.loadTable s =
      Machine.loadTable { grn := { words := s.grn.words, ones := s.grn.ones, badWords := s.grn.badWords } } := rfl
  rw [heq t, h.words, h.ones, h.badWords, ← heq s]

end LoadStands

/-- The table copy is ready, with the table that the granary holds. -/
theorem loadDose_dos (s : State) : (loadDose s).dos.ready = true ∧ (loadDose s).dos.cur = loadTable s := by
  simp only [loadDose]
  split
  · rw [show ∀ x, (raiseDirty x).dos = x.dos from fun x => raiseItems_dos _ _ _ x]
    exact ⟨rfl, rfl⟩
  · exact ⟨rfl, rfl⟩

theorem loadCoefs_glb (s : State) : (loadCoefs s).glb = { s.glb with encOk := true } := by
  unfold loadCoefs
  extract_lets gen
  exact same_glb (Does.foldl (.refl { enc := true } _) (fun n u h => does_encSet _ _ h rfl)).only rfl

theorem startLinks_glb (s : State) : (startLinks s).glb = { s.glb with lanesStarted := true } := by
  simp only [startLinks]
  split
  · exact same_glb (dxpPreset_only _) rfl
  · rfl

theorem startLinks_pins (s : State) : (startLinks s).pins = { s.pins with idle := false } := by
  simp only [startLinks]
  split
  · exact same_pins (dxpPreset_only _) rfl
  · rfl

/-- The granary as the load finds it: its rings are in the registers, its wear counters loaded. -/
def granaryFound (us : List Nat) (s : State) : State :=
  us.foldl (fun s w => noteUnreadable w s) (loadWear (loadRings { s with grn := { s.grn with loaded := true, badWords := us } }))

/-- The load without the phase that it leaves. -/
def granaryLoaded (us : List Nat) (s : State) : State := startLinks (loadCoefs (loadDose (granaryFound us s)))

theorem granaryFound_stands (us : List Nat) (s : State) :
    LoadStands { s with grn := { s.grn with loaded := true, badWords := us } } (granaryFound us s) :=
  ((LoadStands.loadRings _).trans (LoadStands.loadWear _)).trans (LoadStands.foldl (fun w u => LoadStands.noteUnreadable w u) us _)

theorem loadCoefs_only (s : State) : changesOnly { glb := true, enc := true } s (loadCoefs s) := (does_loadCoefs (.refl _ s) rfl).only

theorem startLinks_only (s : State) : changesOnly { pins := true, glb := true, twn := true } s (startLinks s) :=
  (does_startLinks (.refl _ s) rfl).only

theorem loadDose_only (s : State) : changesOnly { Parts.events with dos := true } s (loadDose s) := (does_loadDose (.refl _ s) rfl).only

theorem granaryFound_only (us : List Nat) (s : State) :
    changesOnly { Parts.events with free := true, regs := true, grn := true } s (granaryFound us s) := by
  refine (Does.foldl ?_ fun w u h => does_noteUnreadable w h rfl).only
  have hfound : Does { Parts.events with free := true, regs := true, grn := true } s
      { s with grn := { s.grn with loaded := true, badWords := us } } := ⟨rfl, bounded_of_watched rfl⟩
  exact does_loadWear (does_loadRings hfound rfl) rfl

theorem granaryLoaded_only (us : List Nat) (s : State) :
    changesOnly { Parts.events with free := true, pins := true, regs := true, dos := true, enc := true, twn := true, grn := true } s
      (granaryLoaded us s) := by
  have hfound := only_trans (F := { Parts.events with free := true, regs := true, dos := true, grn := true })
    (granaryFound_only us s) (loadDose_only _)
  have hcoefs := only_trans (F := { Parts.events with free := true, regs := true, dos := true, enc := true, grn := true })
    hfound (loadCoefs_only _)
  exact only_trans hcoefs (startLinks_only _)

/-- After the steps of the load the granary is as it was found, and the loft as it was. -/
theorem granaryLoaded_grn (us : List Nat) (s : State) : (granaryLoaded us s).grn = (granaryFound us s).grn := by
  rw [granaryLoaded, same_grn (startLinks_only _) rfl, same_grn (loadCoefs_only _) rfl, same_grn (loadDose_only _) rfl]

theorem granaryLoaded_dos (us : List Nat) (s : State) : (granaryLoaded us s).dos = (loadDose (granaryFound us s)).dos := by
  rw [granaryLoaded, same_dos (startLinks_only _) rfl, same_dos (loadCoefs_only _) rfl]

theorem granaryLoaded_glb (us : List Nat) (s : State) :
    (granaryLoaded us s).glb = { (loadDose (granaryFound us s)).glb with encOk := true, lanesStarted := true } := by
  rw [granaryLoaded, startLinks_glb, loadCoefs_glb]

theorem granaryLoaded_pins (us : List Nat) (s : State) : (granaryLoaded us s).pins = { s.pins with idle := false } := by
  rw [granaryLoaded, startLinks_pins, same_pins (loadCoefs_only _) rfl, same_pins (loadDose_only _) rfl, same_pins (granaryFound_only us s) rfl]

/-- The phase in which a load ends (R470). -/
def phaseLoaded (s : State) : Phase := if s.lft.trained = true ∧ numCh s = 0 then .noLoft else s.glb.phase

def setPhase (p : Phase) (s : State) : State := { s with glb := { s.glb with phase := p } }

theorem exec_granaryLoadDone (hphase : s.glb.phase = .loading) (hloaded : s.grn.loaded = false) (us : List Nat) :
    exec (.granaryLoadDone us) s = .next (setPhase (phaseLoaded (granaryLoaded us s)) (granaryLoaded us s)) :=
  if_neg (by simp [hphase, hloaded])

theorem answers_granaryLoadDone (hphase : s.glb.phase = .loading) (hloaded : s.grn.loaded = false) (us : List Nat) :
    answers (.granaryLoadDone us) s fun t =>
      t.grn.loaded = true ∧ t.grn.badWords = us ∧ t.grn.words = s.grn.words ∧ t.grn.rings = s.grn.rings ∧ t.dos.ready = true ∧
      t.glb.encOk = true ∧ t.glb.lanesStarted = true ∧ t.pins = { s.pins with idle := false } ∧
      (us = [] → t.dos.cur = loadTable { s with grn := { s.grn with badWords := [] } }) ∧
      t.glb.phase = (if s.lft.trained = true ∧ numCh s = 0 then .noLoft else .loading) ∧
      changesOnly { Parts.events with free := true, pins := true, regs := true, dos := true, enc := true, twn := true, grn := true } s t := by
  have hstands := granaryFound_stands us s
  have honly := granaryLoaded_only us s
  have hlft : (granaryLoaded us s).lft = s.lft := same_lft honly rfl
  have hgrn := granaryLoaded_grn us s
  have hglb := granaryLoaded_glb us s
  obtain ⟨hready, hcur⟩ := loadDose_dos (granaryFound us s)
  refine ⟨_, exec_granaryLoadDone hphase hloaded us, ?_, ?_, ?_, ?_, ?_, ?_, ?_, granaryLoaded_pins us s, fun hus => ?_, ?_,
    only_trans (B := { glb := true }) honly rfl⟩
  · exact (congrArg Grn.loaded hgrn).trans hstands.loaded
  · exact (congrArg Grn.badWords hgrn).trans hstands.badWords
  · exact (congrArg Grn.words hgrn).trans hstands.words
  · exact (congrArg Grn.rings hgrn).trans hstands.rings
  · exact (congrArg Dos.ready (granaryLoaded_dos us s)).trans hready
  · exact congrArg Glb.encOk hglb
  · exact congrArg Glb.lanesStarted hglb
  · subst hus
    exact (congrArg Dos.cur (granaryLoaded_dos [] s)).trans (hcur.trans hstands.loadTable)
  · have hp : (granaryLoaded us s).glb.phase = .loading :=
      (congrArg Glb.phase hglb).trans (((LoadStands.loadDose _).phase.trans hstands.phase).trans hphase)
    have hnum : numCh (granaryLoaded us s) = numCh s := (SamePop.of_ch (by rw [hlft])).numCh
    show phaseLoaded (granaryLoaded us s) = _
    rw [phaseLoaded, hlft, hnum, hp]

/-! ### Training steps (R314, R318; log 73) -/

/-- The channel with what the sideband step has read of its DIMMs. -/
def LftCh.confRead (x : LftCh) : TrainStep → Option DimmConf → LftCh
  | .sideband, some d => { x with density := d.density, ranks := d.ranks, dimms := d.dimms }
  | _, _ => x

/-- The attempt passes. -/
def stepPasses (s : State) (x : LftCh) (good : Bool) (conf : Option DimmConf) : TrainStep → Bool
  | .sideband => good && conf.any confLegal
  | .config => refConf s == some (x.density, x.ranks, x.dimms)
  | _ => good

/-- Why a channel is excluded by a step (Table 9-2). -/
def excludeCause (conf : Option DimmConf) : TrainStep → Nat
  | .sideband => if conf.isNone then 1 else 2
  | .config => 3
  | _ => 4

theorem LftCh.confRead_kept (x : LftCh) (step : TrainStep) (conf : Option DimmConf) :
    (x.confRead step conf).state = x.state ∧ (x.confRead step conf).steps = x.steps ∧ (x.confRead step conf).stepFails = x.stepFails := by
  cases step <;> cases conf <;> exact ⟨rfl, rfl, rfl⟩

section Trained

variable {c : Fin 12} {step : TrainStep} (good : Bool) (conf : Option DimmConf) (hstate : (lftGet s c).state = .training)
  (hsteps : (lftGet s c).steps = stepIndex step) (hside : step = .config → sidebandDone s = true)
include hstate hsteps hside

/-- One attempt at a step that is due: it passes, fails for the first time, or excludes the channel. -/
theorem exec_loftChannelTrained : exec (.loftChannelTrained c step good conf) s = .next (
    if stepPasses s (lftGet s c) good conf step then
      lftSet s c { (lftGet s c).confRead step conf with
        steps := (lftGet s c).steps + 1, stepFails := 0, state := if (lftGet s c).steps + 1 = 5 then .inService else .training }
    else if (lftGet s c).stepFails = 0 then lftSet s c { (lftGet s c).confRead step conf with stepFails := 1 }
    else raiseItems 0x1301 4 [(1, c), (1, excludeCause conf step)]
      (lftSet s c { (lftGet s c).confRead step conf with state := .excluded, cause := excludeCause conf step, stepFails := 0 })) := by
  refine (if_neg ?_).trans ?_
  · rintro (h | h | ⟨h, hn⟩)
    · exact h hstate
    · exact h hsteps
    · exact hn (hside h)
  · cases step <;> cases conf <;> simp only [ok, apply_ite Host.Outcome.next] <;> rfl

/-- What each outcome of an attempt leaves of the channel. -/
theorem answers_loftChannelTrained : answers (.loftChannelTrained c step good conf) s fun t =>
    let x := lftGet s c
    let y := lftGet t c
    (stepPasses s x good conf step = true →
      y.steps = x.steps + 1 ∧ y.stepFails = 0 ∧ y.state = (if x.steps = 4 then .inService else .training)) ∧
    (stepPasses s x good conf step = false → x.stepFails = 0 → y.steps = x.steps ∧ y.stepFails = 1 ∧ y.state = .training) ∧
    (stepPasses s x good conf step = false → x.stepFails ≠ 0 → y.state = .excluded ∧ reported 0x1301 4 s t) ∧
    (∀ d, step = .sideband → conf = some d → y.density = d.density.val ∧ y.ranks = d.ranks.val ∧ y.dimms = d.dimms.val) ∧
    (∀ k, k ≠ c.val → lftGet t k = lftGet s k) ∧ changesOnly { Parts.events with lft := true } s t := by
  refine ⟨_, exec_loftChannelTrained good conf hstate hsteps hside, ?_⟩
  obtain ⟨hread, hreadSteps, -⟩ := (lftGet s c).confRead_kept step conf
  have hconf (d : DimmConf) (h1 : step = .sideband) (h2 : conf = some d) : (lftGet s c).confRead step conf =
      { lftGet s c with density := d.density, ranks := d.ranks, dimms := d.dimms } := by subst h1 h2; rfl
  split
  next hpass =>
    refine ⟨fun _ => ?_, fun h => absurd hpass (by simp [h]), fun h => absurd hpass (by simp [h]), fun d h1 h2 => ?_,
      fun k hk => lftGet_lftSet_ne _ _ hk, rfl⟩
    · rw [lftGet_lftSet_same]
      exact ⟨rfl, rfl, by simp⟩
    · rw [lftGet_lftSet_same, hconf d h1 h2]
      exact ⟨rfl, rfl, rfl⟩
  next hpass =>
    split
    next hfirst =>
      refine ⟨fun h => absurd h hpass, fun _ _ => ?_, fun _ h => absurd hfirst h, fun d h1 h2 => ?_,
        fun k hk => lftGet_lftSet_ne _ _ hk, rfl⟩
      · rw [lftGet_lftSet_same]
        exact ⟨hreadSteps, rfl, hread.trans hstate⟩
      · rw [lftGet_lftSet_same, hconf d h1 h2]
        exact ⟨rfl, rfl, rfl⟩
    next hfirst =>
      refine ⟨fun h => absurd h hpass, fun _ h => absurd h hfirst,
        fun _ _ => ⟨?_, reported_between (B := {}) (lftSet_only _ _ _) rfl⟩, fun d h1 h2 => ?_,
        fun k hk => ?_, only_trans (lftSet_only _ _ _) (raiseItems_only _ _ _ _)⟩
      · rw [lftGet_raiseItems, lftGet_lftSet_same]
      · rw [lftGet_raiseItems, lftGet_lftSet_same, hconf d h1 h2]
        exact ⟨rfl, rfl, rfl⟩
      · rw [lftGet_raiseItems, lftGet_lftSet_ne _ _ hk]

end Trained

/-! ### Training is over (R319, R470) -/

theorem exec_loftTrained (htrained : s.lft.trained = false) (hphase : s.glb.phase = .loading)
    (hended : ∀ c, c < 12 → (lftGet s c).state = .inService ∨ (lftGet s c).state = .excluded ∨ (lftGet s c).state = .retired) :
    exec .loftTrained s = .next { s with
      lft := { s.lft with trained := true, ready := decide (numCh s ≥ 1), valid := [], fills := [], raw := [], rawWritten := [] },
      glb := { s.glb with phase := if numCh s = 0 ∧ s.grn.loaded then .noLoft else s.glb.phase } } := by
  have hall : (List.range 12).all (fun c => decide ((lftGet s c).state = .inService ∨ (lftGet s c).state = .excluded ∨
      (lftGet s c).state = .retired)) = true :=
    List.all_eq_true.2 fun c hc => decide_eq_true (hended c (List.mem_range.1 hc))
  refine if_neg ?_
  rintro (h | h | h)
  · rw [htrained] at h
    cases h
  · exact h hphase
  · exact h hall

/-- Settles O44: the load keeps what the granary holds, an attempt at a step has three outcomes, and the end of training is one update. -/
theorem startupLoads : Obligations.StartupLoads := by
  intro s
  refine ⟨fun hphase hloaded us => answers_granaryLoadDone hphase hloaded us, fun c step good conf => ?_, fun htrained hphase hended => ?_⟩
  · intro x pass hstate hsteps hside
    have hpass : pass = stepPasses s x good conf step := by
      cases step
      case config => exact (beq_eq_decide _ _).symm
      all_goals rfl
    rw [hpass]
    exact answers_loftChannelTrained good conf hstate hsteps hside
  · refine ⟨_, exec_loftTrained htrained hphase hended, rfl, rfl, rfl, rfl, rfl, ?_, rfl⟩
    rw [hphase]

end Sys2Proof.Machine
end

section
/-! PROOFS. The small units of the loft and the loss of a channel (R344, R351, R352, R354, R355), and O50. -/

-- One theorem at a time, as under Laws/: the package as one text takes too much memory in many threads.
set_option Elab.async false

namespace Sys2Proof.Machine

variable {s t u : State}

/-! ### What leaves the DRAM and the issued reads alone -/

/-- From `s` to `t` what the DRAM holds stands, and a channel without an issued read has none. -/
structure NoIssue (s t : State) : Prop where
  ready : t.lft.ready = s.lft.ready
  valid : t.lft.valid = s.lft.valid
  mem : t.lft.mem = s.lft.mem
  issued : ∀ k, (lftGet s k).issued = [] → (lftGet t k).issued = []

namespace NoIssue

theorem refl (s : State) : NoIssue s s := ⟨rfl, rfl, rfl, fun _ h => h⟩

theorem trans (h : NoIssue s t) (g : NoIssue t u) : NoIssue s u :=
  ⟨g.ready.trans h.ready, g.valid.trans h.valid, g.mem.trans h.mem, fun k hk => g.issued k (h.issued k hk)⟩

/-- Beside the channels and what the DRAM holds, the loft may change. -/
theorem of_ch (hch : t.lft.ch = s.lft.ch) (hready : t.lft.ready = s.lft.ready := by rfl) (hvalid : t.lft.valid = s.lft.valid := by rfl)
    (hmem : t.lft.mem = s.lft.mem := by rfl) : NoIssue s t :=
  ⟨hready, hvalid, hmem, fun k hk => by rwa [lftGet_congr hch]⟩

theorem of_lft (h : t.lft = s.lft) : NoIssue s t := of_ch (by rw [h]) (by rw [h]) (by rw [h]) (by rw [h])

theorem of_does (h : Does { Parts.all with lft := false } s t) : NoIssue s t := of_lft (same_lft h.only rfl)

theorem lftSet (c : Nat) {x : LftCh} (h : (lftGet s c).issued = [] → x.issued = []) : NoIssue s (lftSet s c x) :=
  ⟨rfl, rfl, rfl, fun k hk => by
    by_cases hkc : k = c
    · rw [hkc, lftGet_lftSet_same]
      exact h (hkc ▸ hk)
    · rwa [lftGet_lftSet_ne _ _ hkc]⟩

theorem ite {p : Prop} [Decidable p] {x y : State} (h : NoIssue s x) (g : NoIssue s y) : NoIssue s (if p then x else y) := by
  split
  · exact h
  · exact g

theorem foldl {α : Type} {f : State → α → State} (hf : ∀ x u, NoIssue u (f u x)) (l : List α) (s : State) : NoIssue s (l.foldl f s) := by
  induction l generalizing s with
  | nil => exact refl s
  | cons x l ih => exact (hf x s).trans (ih _)

theorem raiseItems (code cls : Nat) (l : List (Nat × Nat)) (s : State) : NoIssue s (raiseItems code cls l s) := of_lft (raiseItems_lft _ _ _ _)

theorem complete (id status : Nat) (data : List Byte) (s : State) : NoIssue s (complete id status data s) :=
  of_does (does_complete id status data (.refl _ s) rfl)

/-! Requests enter the queues, and waiting writes go on (R320 to R322, R342). -/

theorem queueRead (r : LftReq) (s : State) : NoIssue s (queueRead r s) := lftSet _ id

theorem enterWrite (client blk : Nat) (data : List Byte) (poison : Bool) (s : State) : NoIssue s (enterWrite client blk data poison s) :=
  lftSet _ fun h => by rw [h]; rfl

theorem coverBlock (blk : Nat) (s : State) : NoIssue s (coverBlock blk s) := by
  unfold Machine.coverBlock
  split
  · exact of_ch rfl
  · exact refl s

theorem notePoison (poison : Bool) (blk : Nat) (s : State) : NoIssue s (notePoison poison blk s) := ite (raiseItems _ _ _ s) (refl s)

theorem fillStep (e : Nat) (s : State) : NoIssue s (fillStep e s) := by
  unfold Machine.fillStep
  split
  · exact refl s
  next f _ =>
    refine ite (refl s) ?_
    split
    · exact of_ch rfl
    · refine ite ?_ (refl s)
      refine trans ?_ (enterWrite _ _ _ _ _)
      exact of_ch rfl

theorem serveRegion {r : Nat} (h : serveRegion r s = some t) : NoIssue s t := by
  unfold Machine.serveRegion at h
  split at h
  · exact Option.some.inj h ▸ refl s
  · obtain ⟨e, -, rfl⟩ := Option.map_eq_some_iff.1 h
    exact of_ch rfl

theorem enterServed (w : WaitWrite) (s : State) : NoIssue s (enterServed w s).2 := by
  have hwrite (client : Nat) (data : List Byte) : NoIssue s
      (Machine.notePoison w.poison (w.addr / 64) (Machine.enterWrite client (w.addr / 64) data w.poison (Machine.coverBlock (w.addr / 64) s))) :=
    ((coverBlock _ s).trans (enterWrite _ _ _ _ _)).trans (notePoison _ _ _)
  unfold Machine.enterServed
  split
  · exact refl s
  · split
    · split
      · exact hwrite _ _
      · exact refl s
    · split
      · exact queueRead _ s
      · split
        · exact hwrite _ _
        · exact refl s

theorem tryWrite (w : WaitWrite) (s : State) : NoIssue s (tryWrite w s).2 := by
  rw [tryWrite_eq]
  cases h : Machine.serveRegion (regionOf w.addr) s with
  | none => exact refl s
  | some t => exact (serveRegion h).trans (enterServed w t)

theorem pushGo (l kept : List WaitWrite) (s : State) : NoIssue s (pushGo l kept s) := by
  induction l generalizing kept s with
  | nil => exact of_ch rfl
  | cons w l ih =>
    have htry := tryWrite w s
    rw [Machine.pushGo]
    refine ite (ih _ _) ?_
    split
    next h => exact (h ▸ htry).trans (ih _ _)
    next h => exact (h ▸ htry).trans (ih _ _)

theorem loftGoOn (s : State) : NoIssue s (loftGoOn s) := (foldl fillStep _ s).trans (pushGo _ _ _)

theorem loftWrite (client : Nat) (owner : Option Nat) (poison : Bool) (a : Nat) (bs : List Byte) (s : State) :
    NoIssue s (loftWrite client owner poison a bs s) := by
  refine trans ?_ (loftGoOn _)
  exact of_ch rfl

/-! Scans, SHEAF_LOADs, READBACKs and admissions go on with a block (Table 9-4). -/

theorem scanTake (k : Nat) (x : Scan) (s : State) : NoIssue s (scanTake k x s) := by
  refine trans ?_ (queueRead _ _)
  exact of_lft rfl

theorem scanFree (k : Nat) (s : State) : NoIssue s (scanFree k s) := by
  unfold Machine.scanFree
  extract_lets s1
  split
  · exact of_lft rfl
  · refine trans ?_ (scanTake _ _ _)
    exact of_lft rfl

theorem scanStart (x : Scan) (s : State) : NoIssue s (scanStart x s) := by
  unfold Machine.scanStart
  split
  · exact scanTake _ _ s
  · exact of_lft rfl

theorem scanResult (x : Scan) (s : State) : NoIssue s (scanResult x s) := of_does (does_scanResult x (.refl _ s) rfl)

theorem scanFeed (k cls : Nat) (bs : List Byte) (s : State) : NoIssue s (scanFeed k cls bs s) := by
  unfold Machine.scanFeed
  split
  · exact refl s
  next x _ =>
    extract_lets a x1 n x2 s1
    have hcnt : NoIssue s s1 := of_does (does_cntChk _ _ _ (.refl _ s) rfl)
    refine ite ((scanFree k s).trans (scanResult _ _)) (ite ((hcnt.trans (scanFree k s1)).trans (scanResult _ _)) ?_)
    exact hcnt.trans (scanTake k x2 s1)

theorem loadCheck (x : Load) (s : State) : NoIssue s (loadCheck x s) := by
  have hend (status : Nat) (data : List Byte) : NoIssue s (Machine.complete x.cmd status data (loadDrop x.cmd s)) := by
    refine trans ?_ (complete _ _ _ _)
    exact of_lft rfl
  unfold Machine.loadCheck
  extract_lets len tag sc
  exact ite (hend _ _) (ite (hend _ _) (ite (hend _ _) (ite (hend _ _) (ite (scanResult _ s) (scanStart _ s)))))

theorem loadFeed (id cls : Nat) (bs : List Byte) (s : State) : NoIssue s (loadFeed id cls bs s) := by
  unfold Machine.loadFeed
  split
  · exact refl s
  next x _ =>
    extract_lets y chk s1
    have h1 : NoIssue s s1 := of_lft rfl
    exact ite (h1.trans (loadCheck y s1)) (h1.trans (queueRead _ s1))

theorem readbackFeed (id cls : Nat) (s : State) : NoIssue s (readbackFeed id cls s) := by
  unfold Machine.readbackFeed
  split
  · exact refl s
  next j _ =>
    extract_lets j1
    refine trans (t := { s with readbacks := s.readbacks.map (fun q => if q.cmd = id then j1 else q) }) (of_lft rfl) ?_
    unfold readbackRead
    split
    · exact refl _
    · exact queueRead _ _

theorem endScan (s : State) : NoIssue s (endScan s) := by
  refine trans ?_ (foldl (fun k u => ite (scanFree k u) (refl u)) _ _)
  exact of_lft rfl

theorem writeBins (a : Admission) (out : SheafOut) (s : State) : NoIssue s (writeBins a out s) :=
  ((loftWrite _ _ _ _ _ s).trans (loftWrite _ _ _ _ _ _)).trans (foldl (fun _ u => loftWrite _ _ _ _ _ u) _ _)

theorem admitBinned (a : Admission) (s : State) : NoIssue s (admitBinned a s) := by
  unfold Machine.admitBinned
  extract_lets s1
  refine ite (endScan s) ?_
  split
  · exact endScan s
  · exact (endScan s).trans (writeBins _ _ _)

theorem admitRead (a : Admission) (s : State) : NoIssue s (admitRead a s) := ite (refl s) (queueRead _ s)

theorem putAdm (a : Admission) (s : State) : NoIssue s (putAdm a s) := of_lft rfl

theorem admitFeed (cls : Nat) (bs : List Byte) (s : State) : NoIssue s (admitFeed cls bs s) := by
  unfold Machine.admitFeed
  split
  · exact refl s
  next a0 _ =>
    extract_lets a k s1 b tag
    have h1 : NoIssue s s1 := by
      clear_value k
      dsimp only [s1]
      split
      · split
        · refine trans ?_ (of_does (does_cntChk _ _ _ (.refl _ _) rfl))
          exact of_lft rfl
        · exact refl s
      · exact refl s
    have hput (a : Admission) : NoIssue s (Machine.putAdm a s1) := h1.trans (putAdm a s1)
    exact ite ((hput a).trans (admitRead a _)) (ite (ite ((hput b).trans (scanStart _ _)) ((hput b).trans (admitRead b _)))
      ((hput a).trans (admitBinned a _)))

theorem loseRead (q : LftReq) (s : State) : NoIssue s (loseRead q s) := of_does (does_loseRead q (.refl _ s) rfl)

theorem deliverRead (q : LftReq) (cls : Nat) (bs : List Byte) (s : State) : NoIssue s (deliverRead q cls bs s) := by
  unfold Machine.deliverRead
  split
  · exact ite (loseRead q s) (refl s)
  · exact of_lft rfl
  · exact scanFeed _ _ _ s
  · exact loadFeed _ _ _ s
  · exact readbackFeed _ _ s
  · exact admitFeed _ _ s
  · exact of_ch rfl

theorem noteUe (blk cls client : Nat) (s : State) : NoIssue s (noteUe blk cls client s) := by
  unfold Machine.noteUe
  extract_lets c x s1
  refine trans (t := s1) (lftSet _ id) (trans ?_ (raiseItems _ _ _ _))
  exact of_ch rfl

/-! What goes on when the DRAM goes: reads and admissions end, transfers fail (R355). -/

theorem dropReads (gone : ReadFor → Bool) (s : State) : NoIssue s (dropReads gone s) :=
  foldl (fun _ _ => lftSet _ fun h => by rw [h]; rfl) _ s

theorem endAdmWork (s : State) : NoIssue s (endAdmWork s) := (endScan s).trans (dropReads (fun w => w == .admission) _)

theorem dropWaits (client : Nat) (s : State) : NoIssue s (dropWaits client s) := of_ch rfl

theorem dropAdmission (status : Nat) (s : State) : NoIssue s (dropAdmission status s) := by
  cases hadm : s.pac.adm with
  | none => simpa only [Machine.dropAdmission, hadm] using refl s
  | some a =>
    have hgone : NoIssue s (Machine.endAdmWork { s with pac := { s.pac with adm := none } }) := by
      refine trans ?_ (endAdmWork _)
      exact of_lft rfl
    simp only [Machine.dropAdmission, hadm]
    split
    · exact hgone
    · exact (hgone.trans (dropWaits 3 _)).trans (of_does (does_completeOpt _ _ _ (.refl _ _) rfl))

theorem loseAdmission (s : State) : NoIssue s (loseAdmission s) := by
  unfold Machine.loseAdmission
  split
  · exact ite (of_lft rfl) (dropAdmission 5 s)
  · exact refl s

theorem failTransfers (s : State) : NoIssue s (failTransfers s) := by
  unfold Machine.failTransfers
  extract_lets s1 s2 chk s3 s4 lft
  have h1 : NoIssue s s1 := foldl (fun c u => ite (of_does (does_stopChain _ _ (.refl _ u) rfl)) (refl u)) _ s
  clear_value s1
  have h2 : NoIssue s s2 := by
    refine (h1.trans ?_).trans (foldl (fun j u => complete _ _ _ u) _ _)
    exact of_lft rfl
  clear_value s2
  have h3 : NoIssue s s3 := by
    refine (h2.trans ?_).trans (foldl (fun l u => complete _ _ _ u) _ _)
    exact of_lft rfl
  clear_value s3
  have h4 : NoIssue s s4 := h3.trans (foldl (fun k u => ite ((dropReads _ u).trans (scanFree k _)) (refl u)) _ s3)
  clear_value s4
  refine (h4.trans ?_).trans (dropReads _ _)
  exact of_ch rfl

/-- A read that fails is accounted and returns class CHANNEL. -/
theorem failRequests_step (q : LftReq) (s : State) :
    NoIssue s (Machine.deliverRead q 5 (freeBlock s).1 (Machine.noteUe (q.addr / 64) 5 q.client (freeBlock s).2)) := by
  refine trans ?_ (deliverRead _ _ _ _)
  refine trans ?_ (noteUe _ _ _ _)
  exact of_lft rfl

theorem failRequests (c : Nat) (s : State) : NoIssue s (failRequests c s) :=
  (lftSet c fun _ => rfl).trans (foldl (fun q u => failRequests_step q u) _ _)

end NoIssue

/-! ### Invalidation (R344) -/

theorem tget_filter_key {α : Type} (f : Nat → Bool) (l : Tbl α) (k : Nat) (d : α) :
    tget (l.filter (fun p => f p.1)) k d = if f k then tget l k d else d := by
  induction l with
  | nil => simp [tget]
  | cons p l ih =>
    by_cases hp : f p.1 = true <;> by_cases hk : p.1 = k
    · simp [tget, hk ▸ hp, hk]
    · simp [hp, tget, hk, ih]
    · subst hk
      simp [hp, ih]
    · simp [hp, tget, hk, ih]

theorem write_lftInval {v : W32} (h : writeReaches 0x13C030 s) (hcount : v.toNat % 2 ^ 21 ≠ 0) :
    execLftInval v s = ok (lftInvalOp (regSet s 0x13C030 (v.toNat % 2 ^ 21))) := by
  have hmod : setBit v.toNat 31 % 2 ^ 21 = v.toNat % 2 ^ 21 := setBit_mod_two_pow (by decide) _
  have hmask : setBit v.toNat 31 &&& maskOf 0x13C030 = v.toNat % 2 ^ 21 := (Nat.and_two_pow_sub_one_eq_mod _ 21).trans hmod
  refine congrArg ok ((busWrite_reaches _ _ h (by simp [regShow, showLft, stored, rwInfo])).trans ?_)
  refine writeReg_own (by decide) (by decide) ?_ ?_
  · rw [hmask]
    simpa [outOfRange] using hcount
  · have hown : ownWrite 0x13C030 (setBit v.toNat 31) 0 s = some (invalCtrl (setBit v.toNat 31) s) := by simp [ownWrite]
    rw [hown, invalCtrl, hmod, bitAt_setBit_same]
    rfl

/-- The regions of an invalidation. -/
def invalInside (s : State) (r : Nat) : Bool := decide (regGet s 0x13C02C ≤ r ∧ r < regGet s 0x13C02C + regGet s 0x13C030)

/-- An invalidation is refused where a range of it is held. -/
def invalHeld (s : State) : Bool :=
  (heldRanges s).any (fun q => overlaps q.1 q.2 (regGet s 0x13C02C * 2 ^ 20) (regGet s 0x13C030 * 2 ^ 20))

theorem lftInvalOp_of_held (h : invalHeld s = true) : lftInvalOp s = { s with lft := { s.lft with invalRefused := true } } := if_pos h

theorem lftInvalOp_of_free (h : invalHeld s = false) : (lftInvalOp s).lft.valid = s.lft.valid.filter (fun r => !invalInside s r) ∧
    (lftInvalOp s).lft.mem = s.lft.mem.filter (fun p => !invalInside s (regionOf p.1)) := by
  unfold lftInvalOp
  extract_lets first count inside
  split
  next hheld => exact absurd (h.symm.trans hheld) Bool.false_ne_true
  next => exact ⟨rfl, rfl⟩

theorem lftInvalOp_only (s : State) : changesOnly { lft := true } s (lftInvalOp s) := (does_lftInvalOp (.refl _ s) rfl).only

theorem answers_lftInval {v : W32} (h : writeReaches 0x13C030 s) (hcount : v.toNat % 2 ^ 21 ≠ 0) :
    let first := regGet s 0x13C02C
    let inside (r : Nat) : Bool := decide (first ≤ r ∧ r < first + v.toNat % 2 ^ 21)
    answers (.lftInval v) s fun t =>
      regGet t 0x13C030 = v.toNat % 2 ^ 21 ∧ changesOnly { regs := true, lft := true } s t ∧
      ((heldRanges s).any (fun q => overlaps q.1 q.2 (first * 2 ^ 20) (v.toNat % 2 ^ 21 * 2 ^ 20)) = false →
        t.lft.valid = s.lft.valid.filter (fun r => !inside r) ∧
        (∀ a, memGet t.lft.mem a = if inside (regionOf a) then 0 else memGet s.lft.mem a)) ∧
      ((heldRanges s).any (fun q => overlaps q.1 q.2 (first * 2 ^ 20) (v.toNat % 2 ^ 21 * 2 ^ 20)) = true →
        t.lft = { s.lft with invalRefused := true }) := by
  intro first inside
  have hfirst : regGet (regSet s 0x13C030 (v.toNat % 2 ^ 21)) 0x13C02C = first := regGet_regSet_ne _ _ (by decide)
  have hset : regGet (regSet s 0x13C030 (v.toNat % 2 ^ 21)) 0x13C030 = v.toNat % 2 ^ 21 :=
    (regGet_regSet_same _ _ _).trans (Nat.mod_eq_of_lt (by omega))
  have hinside : invalInside (regSet s 0x13C030 (v.toNat % 2 ^ 21)) = inside := by
    funext r
    rw [invalInside, hfirst, hset]
  have hheld : invalHeld (regSet s 0x13C030 (v.toNat % 2 ^ 21)) =
      (heldRanges s).any (fun q => overlaps q.1 q.2 (first * 2 ^ 20) (v.toNat % 2 ^ 21 * 2 ^ 20)) := by
    rw [invalHeld, hfirst, hset]
    rfl
  have honly := lftInvalOp_only (regSet s 0x13C030 (v.toNat % 2 ^ 21))
  refine ⟨_, write_lftInval h hcount, (regGet_congr (same_regs honly rfl) _).trans hset, ?_, fun hfree => ?_, fun hno => ?_⟩
  · exact only_trans (show changesOnly { regs := true } s (regSet s 0x13C030 (v.toNat % 2 ^ 21)) from rfl) honly
  · obtain ⟨hvalid, hmem⟩ := lftInvalOp_of_free (hheld.trans hfree)
    refine ⟨by rw [hvalid, hinside]; rfl, fun a => ?_⟩
    rw [hmem, memGet, tget_filter_key (fun a => !invalInside _ (regionOf a)), hinside]
    cases inside (regionOf a) <;> rfl
  · rw [lftInvalOp_of_held (hheld.trans hno)]
    rfl

/-! ### The weevil (R352) -/

theorem bitAt_clearBit_of_lt {i j : Nat} (h : j < i) (v : Nat) : bitAt (clearBit v i) j = bitAt v j := by
  have hset := bitAt_setBit_of_lt h v
  rwa [bitAt, setBit, Nat.add_comm, Nat.testBit_two_pow_add_gt h] at hset

theorem and_of_mod_eq {x y m k : Nat} (hm : m < 2 ^ k) (h : x % 2 ^ k = y % 2 ^ k) : x &&& m = y &&& m := by
  have hmod (x : Nat) : x &&& m = x % 2 ^ k &&& m % 2 ^ k := by
    rw [← Nat.and_mod_two_pow, Nat.mod_eq_of_lt (Nat.lt_of_le_of_lt Nat.and_le_right hm)]
  rw [hmod x, hmod y, h]

theorem setBit_and {i : Nat} (h : 8 ≤ i) (v : Nat) : setBit v i &&& 0xF1 = v &&& 0xF1 :=
  and_of_mod_eq (k := 8) (by decide) (setBit_mod_two_pow h v)

theorem clearBit_and {i : Nat} (h : 8 ≤ i) (v : Nat) : clearBit v i &&& 0xF1 = v &&& 0xF1 := by
  refine and_of_mod_eq (k := 8) (by decide) (Eq.trans ?_ (setBit_mod_two_pow h v))
  obtain ⟨n, hn⟩ := Nat.pow_dvd_pow 2 h
  rw [setBit, hn, Nat.add_mul_mod_self_left]

theorem weevilCtrl_only (v x : Nat) (s : State) : changesOnly { regs := true, lft := true } s (weevilCtrl v (regSet s 0x13C080 x)) := rfl

theorem regGet_weevilCtrl (v x : Nat) (s : State) : regGet (weevilCtrl v (regSet s 0x13C080 (x &&& 0xF1))) 0x13C080 = x &&& 0xF1 := by
  refine (regGet_congr rfl _).trans ((regGet_regSet_same _ _ _).trans (Nat.mod_eq_of_lt ?_))
  exact Nat.lt_of_le_of_lt Nat.and_le_right (by decide)

theorem answers_weevil {v : W32} (h : writeReaches 0x13C080 s) :
    (answers (.weevilArm v) s fun t =>
      t.lft = { s.lft with wArmed := true, wFired := s.lft.wFired && !v.toNat.testBit 29 } ∧ regGet t 0x13C080 = v.toNat &&& 0xF1 ∧
      changesOnly { regs := true, lft := true } s t) ∧
    (answers (.weevilDisarm v) s fun t =>
      t.lft = { s.lft with wArmed := false, wFired := s.lft.wFired && !v.toNat.testBit 29 } ∧ regGet t 0x13C080 = v.toNat &&& 0xF1 ∧
      changesOnly { regs := true, lft := true } s t) := by
  refine ⟨⟨_, write_weevilArm v h, ?_, ?_, weevilCtrl_only _ _ _⟩, ⟨_, write_weevilDisarm v h, ?_, ?_, weevilCtrl_only _ _ _⟩⟩
  · have h29 : bitAt (setBit (clearBit v.toNat 30) 31) 29 = v.toNat.testBit 29 :=
      (bitAt_setBit_of_lt (by decide) _).trans (bitAt_clearBit_of_lt (by decide) _)
    have h30 : bitAt (setBit (clearBit v.toNat 30) 31) 30 = false := (bitAt_setBit_of_lt (by decide) _).trans (bitAt_clearBit_same _ _)
    simp only [weevilCtrl, h29, h30, bitAt_setBit_same, if_true, Bool.false_eq_true, if_false]
    rfl
  · rw [regGet_weevilCtrl, setBit_and (by decide), clearBit_and (by decide)]
  · have h29 : bitAt (setBit v.toNat 30) 29 = v.toNat.testBit 29 := bitAt_setBit_of_lt (by decide) _
    simp only [weevilCtrl, h29, bitAt_setBit_same, if_true]
    rfl
  · rw [regGet_weevilCtrl, setBit_and (by decide)]

/-! ### The loss of a channel (R355): what ends -/

/-- After an abort or discard no stripe goes on. -/
theorem abortOrDiscard_stops {st : Stripe} (cause : Nat) (gang event : Bool) (armStatus : Nat)
    (h : (abortOrDiscard cause gang event armStatus s).pac.stripe = some st) : st.state = .stopping := by
  cases hst : s.pac.stripe with
  | none =>
    simp only [abortOrDiscard, hst] at h
    cases h
  | some st0 =>
    by_cases hmoving : st0.state.moving = true
    · obtain ⟨st1, h1, hstop, -⟩ := abortRunning_stops hst hmoving cause true gang
      simp only [abortOrDiscard, hst, hmoving, if_true] at h
      exact Option.some.inj (h1.symm.trans h) ▸ hstop
    · by_cases hstop : st0.state = .stopping
      · simp only [abortOrDiscard, hst, if_neg hmoving, if_pos hstop] at h
        exact Option.some.inj h ▸ hstop
      · have hstanding : st0.state = .arming ∨ st0.state = .armed := by
          cases hs : st0.state <;> simp_all [StripeState.moving]
        rw [abortOrDiscard_of_standing hst hstanding] at h
        cases h

theorem loseAdmission_stripe (s : State) : (loseAdmission s).pac.stripe = s.pac.stripe := by
  unfold loseAdmission
  split
  next a hadm =>
    split
    · rfl
    · rw [dropAdmission_pac hadm]
  · rfl

/-- No READBACK is left. -/
theorem failTransfers_readbacks (s : State) : (failTransfers s).readbacks = [] := by
  unfold failTransfers
  extract_lets s1 s2 chk s3 s4 lft
  clear_value s1
  have h2 : s2.readbacks = [] := same_readbacks (F := { Parts.all with readbacks := false }) (Does.foldl (.refl _ { s1 with readbacks := [] })
    fun j u h => does_complete _ _ _ h rfl).only rfl
  clear_value s2
  have h3 : s3.readbacks = s2.readbacks := same_readbacks (F := { Parts.all with readbacks := false }) (Does.foldl ⟨rfl, bounded_of_watched rfl⟩
    fun j u h => does_complete _ _ _ h rfl).only rfl
  clear_value s3
  have h4 : s4.readbacks = s3.readbacks := same_readbacks (F := { Parts.all with readbacks := false }) (Does.foldl (.refl _ s3)
    fun j u h => .ite (does_scanFree _ (does_dropReads _ h rfl) rfl) h).only rfl
  clear_value s4
  exact (same_readbacks (does_dropReads _ (.refl { lft := true } _) rfl).only rfl).trans (h4.trans (h3.trans h2))

/-! ### The loss of a channel: what is cleared -/

/-- The write queues of every channel are empty. -/
def emptyQueues (s : State) : State :=
  (List.range 12).foldl (fun s c => lftSet s c { lftGet s c with writes := [], batch := 0, inOrder := [] }) s

theorem emptyQueues_noIssue (s : State) : NoIssue s (emptyQueues s) :=
  .foldl (fun c u => .lftSet c (x := { lftGet u c with writes := [], batch := 0, inOrder := [] }) fun h => h) _ s

theorem clearLoft_lft (s : State) : (clearLoft s).lft = { (emptyQueues s).lft with
    mem := [], marks := [], valid := [], raw := [], rawWritten := [], fills := [], waits := [], rpt := [],
    rptOvfSeen := false, wArmed := false, glnPos := 0, lapCe := 0, lapUe := 0, lapSlow := false } := rfl

theorem lftGet_clearLoft (s : State) (k : Nat) : lftGet (clearLoft s) k = lftGet (emptyQueues s) k :=
  lftGet_congr (by rw [clearLoft_lft]) k

/-! ### The loss of a channel: the reads that move -/

theorem coordOf_ch_mem (h : 0 < numCh s) (a : Nat) : (coordOf s a).ch ∈ inService s := by
  have hlt : a / 64 / 4 % max 1 (inService s).length < (inService s).length := by
    rw [Nat.max_eq_right (show 1 ≤ (inService s).length from h)]
    exact Nat.mod_lt _ h
  show (inService s).getD (a / 64 / 4 % max 1 (inService s).length) 0 ∈ inService s
  rw [List.getD_eq_getElem _ _ hlt]
  exact List.getElem_mem hlt

theorem not_mem_inService {c : Nat} (h : (lftGet s c).state ≠ .inService) : c ∉ inService s := fun hc =>
  h (of_decide_eq_true (List.mem_filter.1 hc).2)

theorem queueRead_pop (r : LftReq) (s : State) : SamePop s (queueRead r s) := .lftSet _ rfl

/-- From `s` to `t` reads have entered queues, none that of `c`. -/
structure ReadsElsewhere (c : Nat) (s t : State) : Prop where
  pop : SamePop s t
  same : lftGet t c = lftGet s c
  lft : t.lft = { s.lft with ch := t.lft.ch }

namespace ReadsElsewhere

variable {c : Nat}

theorem refl (s : State) : ReadsElsewhere c s s := ⟨fun _ => rfl, rfl, rfl⟩

theorem trans (h : ReadsElsewhere c s t) (g : ReadsElsewhere c t u) : ReadsElsewhere c s u :=
  ⟨fun k => (g.pop k).trans (h.pop k), g.same.trans h.same, g.lft.trans (by rw [h.lft])⟩

theorem of_lft (h : t.lft = s.lft) : ReadsElsewhere c s t := ⟨.of_ch (by rw [h]), lftGet_congr (by rw [h]) c, by rw [h]⟩

theorem queueRead (hout : (lftGet s c).state ≠ .inService) (hnum : 0 < numCh s) (r : LftReq) : ReadsElsewhere c s (queueRead r s) :=
  ⟨queueRead_pop r s, lftGet_lftSet_ne _ _ fun h => not_mem_inService hout (h ▸ coordOf_ch_mem hnum r.addr), rfl⟩

theorem queueReads (hout : (lftGet s c).state ≠ .inService) (hnum : 0 < numCh s) (l : List LftReq) :
    ReadsElsewhere c s (l.foldl (fun s q => Machine.queueRead q s) s) := by
  induction l generalizing s with
  | nil => exact refl s
  | cons r l ih =>
    have hpop := queueRead_pop r s
    exact (queueRead hout hnum r).trans (ih (by rwa [hpop.state]) (by rwa [hpop.numCh]))

end ReadsElsewhere

/-- The reads of a channel out of service move to the channels left. -/
theorem moveScans_elsewhere {c : Nat} (hout : (lftGet s c).state ≠ .inService) :
    ReadsElsewhere c (lftSet s c { lftGet s c with reads := [] }) (moveScans c s) := by
  have hpop : SamePop s (lftSet s c { lftGet s c with reads := [] }) := .lftSet _ rfl
  unfold moveScans
  extract_lets x s1 chk
  split
  next hnum => exact .queueReads (by rwa [hpop.state]) (by rwa [hpop.numCh]) _
  next =>
    exact .of_lft (same_lft (F := { Parts.all with lft := false }) (Does.foldl ⟨rfl, bounded_of_watched rfl⟩
      fun j u h => does_complete _ _ _ h rfl).only rfl)

/-! ### The loss of a channel (R355): the whole of it -/

/-- A channel without requests. -/
def LftCh.empty (x : LftCh) : LftCh := { x with reads := [], issued := [], writes := [], batch := 0 }

/-- Everything that waits for the loft has failed (steps 1 to 4). -/
def allFailed (c : Nat) (s : State) : State := failTransfers (loseAdmission (abortOrDiscard 4 true true 0x43 (failRequests c s)))

/-- The channel has left service, and what it held is gone (steps 5 and 6). -/
def channelGone (c cause : Nat) (s : State) : State := channelOut c cause (clearLoft (allFailed c s))

theorem retireChannel_of_inService {c : Nat} (h : (lftGet s c).state = .inService) (cause : Nat) :
    retireChannel c cause s = raiseItems 0x1302 4 [(1, c), (1, cause), (4, loftCap (channelGone c cause s))]
      (moveScans c (channelGone c cause s)) := if_neg (not_not.2 h)

theorem allFailed_noIssue (c : Nat) (s : State) : NoIssue (lftSet s c (lftGet s c).empty) (allFailed c s) := by
  have hfail : NoIssue (lftSet s c (lftGet s c).empty) (failRequests c s) := .foldl (fun q u => NoIssue.failRequests_step q u) _ _
  have habort : NoIssue (failRequests c s) (abortOrDiscard 4 true true 0x43 (failRequests c s)) :=
    .of_does (does_abortOrDiscard _ _ _ _ (.refl _ _) rfl)
  exact ((hfail.trans habort).trans (.loseAdmission _)).trans (.failTransfers _)

/-- A stripe that is left is stopping. -/
theorem allFailed_stops {c : Nat} {st : Stripe} (h : (allFailed c s).pac.stripe = some st) : st.state = .stopping := by
  have hpac : (allFailed c s).pac = (loseAdmission (abortOrDiscard 4 true true 0x43 (failRequests c s))).pac :=
    same_pac (does_failTransfers (.refl { Parts.all with pac := false } _) rfl).only rfl
  rw [hpac, loseAdmission_stripe] at h
  exact abortOrDiscard_stops _ _ _ _ h

theorem channelGone_only (c cause : Nat) (s : State) : changesOnly { lft := true } (allFailed c s) (channelGone c cause s) :=
  (does_channelOut _ _ (does_clearLoft (.refl _ _) rfl) rfl).only

theorem moveScans_only (c : Nat) (s : State) :
    changesOnly { outs := true, hst := true, chk := true, lft := true, obs := true } s (moveScans c s) := (does_moveScans _ (.refl _ s) rfl).only

/-- A channel out of service keeps its requests. -/
def LftCh.retired (cause : Nat) (x : LftCh) : LftCh :=
  { x with state := .retired, cause := cause, rows := [], preds := [], inOrder := [], owed := 0, retryRun := 0 }

theorem lftGet_channelOut (c cause : Nat) (s : State) : lftGet (channelOut c cause s) c = (lftGet s c).retired cause := by
  have hset : lftGet (channelOut c cause s) c = lftGet (lftSet s c ((lftGet s c).retired cause)) c := lftGet_congr rfl c
  rw [hset, lftGet_lftSet_same]

/-- Of the loft only the population and whether it is ready change. -/
theorem channelOut_lft (c cause : Nat) (s : State) : (channelOut c cause s).lft = { s.lft with
    ch := (channelOut c cause s).lft.ch, ready := s.lft.ready && decide (1 ≤ numCh (channelOut c cause s)) } := rfl

/-- The reads of a channel out of service have moved, and its loss is reported. -/
theorem moved_reported {c : Nat} (hout : (lftGet u c).state ≠ .inService) (l : List (Nat × Nat)) :
    lftGet (raiseItems 0x1302 4 l (moveScans c u)) c = { lftGet u c with reads := [] } ∧
    (raiseItems 0x1302 4 l (moveScans c u)).lft = { u.lft with ch := (raiseItems 0x1302 4 l (moveScans c u)).lft.ch } ∧
    numCh (raiseItems 0x1302 4 l (moveScans c u)) = numCh u := by
  have hmoved := moveScans_elsewhere hout
  have hset : SamePop u (lftSet u c { lftGet u c with reads := [] }) := .lftSet _ rfl
  have hpop : SamePop (moveScans c u) (raiseItems 0x1302 4 l (moveScans c u)) := .of_ch (by rw [raiseItems_lft])
  refine ⟨?_, ?_, ?_⟩
  · rw [lftGet_raiseItems, hmoved.same, lftGet_lftSet_same]
  · rw [raiseItems_lft, hmoved.lft]
    rfl
  · rw [hpop.numCh, hmoved.pop.numCh, hset.numCh]

/-- What the loss of a channel leaves (R355). -/
def ChannelLost (c cause : Nat) (s t : State) : Prop :=
  (lftGet t c).state = .retired ∧ (lftGet t c).cause = cause ∧ (lftGet t c).reads = [] ∧ (lftGet t c).issued = [] ∧
  t.lft.valid = [] ∧ t.lft.fills = [] ∧ (∀ a, memGet t.lft.mem a = 0) ∧ t.lft.wArmed = false ∧
  t.lft.ready = (s.lft.ready && decide (1 ≤ numCh t)) ∧
  t.readbacks = [] ∧ t.glb.faultCode = 0x1302 ∧ t.glb.faultClass = 4 ∧
  (∀ st, t.pac.stripe = some st → st.state = .stopping) ∧
  changesOnly { Parts.ending with chains := true, chk := true, lft := true, readbacks := true } s t

theorem retireChannel_lost {c : Nat} (hstate : (lftGet s c).state = .inService) (cause : Nat) :
    ChannelLost c cause s (retireChannel c cause s) := by
  have honly : changesOnly { Parts.ending with chains := true, chk := true, lft := true, readbacks := true } s (retireChannel c cause s) :=
    (does_retireChannel c cause (.refl _ s) rfl).only
  rw [retireChannel_of_inService hstate] at honly ⊢
  have hnoIssue := (allFailed_noIssue c s).trans (emptyQueues_noIssue _)
  have hgone : lftGet (channelGone c cause s) c = (lftGet (emptyQueues (allFailed c s)) c).retired cause := by
    rw [channelGone, lftGet_channelOut, lftGet_clearLoft]
  have hout : (lftGet (channelGone c cause s) c).state ≠ .inService := by rw [hgone]; exact LftChState.noConfusion
  have hempty : (lftGet (lftSet s c (lftGet s c).empty) c).issued = [] := by
    rw [lftGet_lftSet_same]
    rfl
  have hissued : (lftGet (emptyQueues (allFailed c s)) c).issued = [] := hnoIssue.issued c hempty
  obtain ⟨hch, hlft, hnum⟩ := moved_reported hout [(1, c), (1, cause), (4, loftCap (channelGone c cause s))]
  have hclear : (channelGone c cause s).lft = { (clearLoft (allFailed c s)).lft with
      ch := (channelGone c cause s).lft.ch, ready := (clearLoft (allFailed c s)).lft.ready && decide (1 ≤ numCh (channelGone c cause s)) } :=
    channelOut_lft c cause (clearLoft (allFailed c s))
  rw [clearLoft_lft] at hclear
  obtain ⟨-, hcode, -⟩ := raiseItems_reported 0x1302 4 [(1, c), (1, cause), (4, loftCap (channelGone c cause s))]
    (moveScans c (channelGone c cause s))
  refine ⟨?_, ?_, ?_, ?_, ?_, ?_, fun a => ?_, ?_, ?_, ?_, (hcode (le_refl 4)).1, (hcode (le_refl 4)).2, fun st hst => ?_, honly⟩
  · rw [hch, hgone]
    rfl
  · rw [hch, hgone]
    rfl
  · rw [hch]
  · rw [hch, hgone]
    simpa only [LftCh.retired] using hissued
  · rw [hlft, hclear]
  · rw [hlft, hclear]
  · rw [hlft, hclear]
    rfl
  · rw [hlft, hclear]
  · rw [hlft, hclear, hnum, hnoIssue.ready]
    rfl
  · rw [same_readbacks (raiseItems_only _ _ _ _) rfl, same_readbacks (moveScans_only _ _) rfl,
      same_readbacks (channelGone_only _ _ _) rfl]
    exact failTransfers_readbacks _
  · rw [raiseItems_pac, same_pac (moveScans_only _ _) rfl, same_pac (channelGone_only _ _ _) rfl] at hst
    exact allFailed_stops hst

/-! ### Alerts (R354; log 116) -/

theorem exec_loftAlert {c : Fin 12} (hstate : (lftGet s c).state = .inService) (htrained : s.lft.trained = true) {writeCrc : Bool}
    (hcrc : writeCrc = true → bitAt (regGet s 0x13C000) 0 = true) (again : Bool) :
    exec (.loftAlert ⟨c, writeCrc, again⟩) s = .next (lftSet s c { lftGet s c with
      retry := sat32 ((lftGet s c).retry + 1), retryRun := if again then min 3 ((lftGet s c).retryRun + 1) else 1 }) := by
  refine if_pos ⟨?_, ?_⟩
  · simp [chUp, htrained, hstate]
  · rintro ⟨h, hno⟩
    exact hno (hcrc h)

theorem exec_loftAlert_ignored {c : Fin 12} {writeCrc : Bool} (hwrite : writeCrc = true) (hcrc : bitAt (regGet s 0x13C000) 0 = false)
    (again : Bool) : exec (.loftAlert ⟨c, writeCrc, again⟩) s = .next s :=
  if_neg fun h => h.2 ⟨hwrite, by simp [hcrc]⟩

/-- Settles O50: each small unit is one register write or one update, and a lost channel leaves an empty loft. -/
theorem loftUnits : Obligations.LoftUnits := by
  intro s
  refine ⟨fun v h hcount => answers_lftInval h hcount, fun h => ⟨_, write_lftRptClear h, rfl⟩, fun v h => answers_weevil h,
    fun c hstate => ⟨fun writeCrc again => ⟨fun htrained hcrc => ⟨_, exec_loftAlert hstate htrained hcrc again, rfl⟩,
      fun hwrite hcrc => exec_loftAlert_ignored hwrite hcrc again⟩, fun i cause hcase => ?_, fun hrun => ?_⟩⟩
  · have hlost := retireChannel_lost hstate cause
    rcases hcase with ⟨rfl, hreach, rfl⟩ | ⟨rfl, rfl⟩ | ⟨rfl, hrun, rfl⟩
    · exact ⟨_, write_lftRetire c hreach, hlost⟩
    · exact ⟨_, rfl, hlost⟩
    · exact ⟨_, if_pos hrun, hlost⟩
  · exact if_neg (by omega)

end Sys2Proof.Machine
end

section
/-! PROOFS. The channel scheduler of the loft and its timers (R320 to R324, R327 to R331), and O51. -/

-- One theorem at a time, as under Laws/: the package as one text takes too much memory in many threads.
set_option Elab.async false

namespace Sys2Proof.Machine

variable {s t u : State} {c : Nat}

/-! ### What an access leaves alone -/

/-- From `s` to `t` the waiting writes, the fill engines and the chains stand. -/
structure SameWaiting (s t : State) : Prop where
  waits : t.lft.waits = s.lft.waits
  fills : t.lft.fills = s.lft.fills
  chains : t.chains = s.chains

namespace SameWaiting

theorem refl (s : State) : SameWaiting s s := ⟨rfl, rfl, rfl⟩

theorem trans (h : SameWaiting s t) (g : SameWaiting t u) : SameWaiting s u :=
  ⟨g.waits.trans h.waits, g.fills.trans h.fills, g.chains.trans h.chains⟩

theorem lftSet (c : Nat) (x : LftCh) (s : State) : SameWaiting s (lftSet s c x) := ⟨rfl, rfl, rfl⟩

theorem cntLft (ev : Nat) (v : Option Nat) (n : Nat) (s : State) : SameWaiting s (cntLft ev v n s) :=
  ⟨by rw [cntLft_lft], by rw [cntLft_lft], same_chains (cntLft_only ev v n s) rfl⟩

theorem quiet (h : SameWaiting s t) (hs : loftQuiet s) : loftQuiet t := by
  obtain ⟨hwaits, hfills, hlanded⟩ := hs
  refine ⟨h.waits.trans hwaits, h.fills.trans hfills, fun k => ?_⟩
  rw [chainGet, h.chains]
  exact hlanded k

end SameWaiting

/-! ### One column access (R323, R324) -/

theorem accessRow_only (c : Nat) (r : LftReq) (s : State) : changesOnly { free := true, lft := true, obs := true } s (accessRow c r s) :=
  (does_accessRow c r (.refl _ s) rfl).only

/-- A column access changes the open rows, the counters of the page policy and the neighbour refreshes of its channel. -/
theorem accessRow_lft (c : Nat) (r : LftReq) (s : State) : ∃ rows preds nbr,
    (accessRow c r s).lft = (lftSet s c { lftGet s c with rows := rows, preds := preds, nbr := nbr }).lft ∧
    (bitAt (regGet s 0x13C014) 31 = false →
      (rowHit s (lftGet s c) r = true ∨ (Config.lfsrDraw s.free).toNat % 2 ^ bits (regGet s 0x13C010) 4 0 ≠ 0) →
      tfind rows (bankKey (coordOf s r.addr)) = some (coordOf s r.addr).row) := by
  unfold accessRow
  extract_lets x d k pred hit ctr ctr' nbrK strike rows1 queued close s1
  refine ⟨if close then tdel rows1 k else rows1, if bitAt pred 31 then tset x.preds k ctr' 0 else x.preds,
    if strike then wrap32 (x.nbr + rowsNear x.density d.row) else x.nbr, ?_, fun hpred hopen => ?_⟩
  · split
    · rfl
    · rw [cntLft_lft]
      rfl
  · have hstrike : ¬ strike := by
      rintro ⟨hmiss, hdraw⟩
      rcases hopen with h | h
      · exact hmiss h
      · exact h hdraw
    have hclose : close = false := by simp [close, pred, hpred, hstrike]
    rw [if_neg (by simp [hclose])]
    exact tfind_tput_same _ _ _

theorem accessRow_waiting (c : Nat) (r : LftReq) (s : State) : SameWaiting s (accessRow c r s) := by
  obtain ⟨rows, preds, nbr, hlft, -⟩ := accessRow_lft c r s
  exact ⟨by rw [hlft]; rfl, by rw [hlft]; rfl, same_chains (accessRow_only c r s) rfl⟩

theorem accessRow_mem (c : Nat) (r : LftReq) (s : State) : (accessRow c r s).lft.mem = s.lft.mem := by
  obtain ⟨rows, preds, nbr, hlft, -⟩ := accessRow_lft c r s
  rw [hlft]
  rfl

theorem accessRow_wArmed (c : Nat) (r : LftReq) (s : State) : (accessRow c r s).lft.wArmed = s.lft.wArmed := by
  obtain ⟨rows, preds, nbr, hlft, -⟩ := accessRow_lft c r s
  rw [hlft]
  rfl

/-- The channel behind a column access. -/
theorem lftGet_accessRow (c : Nat) (r : LftReq) (s : State) : ∃ rows preds nbr,
    lftGet (accessRow c r s) c = { lftGet s c with rows := rows, preds := preds, nbr := nbr } ∧
    (bitAt (regGet s 0x13C014) 31 = false →
      (rowHit s (lftGet s c) r = true ∨ (Config.lfsrDraw s.free).toNat % 2 ^ bits (regGet s 0x13C010) 4 0 ≠ 0) →
      tfind rows (bankKey (coordOf s r.addr)) = some (coordOf s r.addr).row) := by
  obtain ⟨rows, preds, nbr, hlft, hopen⟩ := accessRow_lft c r s
  exact ⟨rows, preds, nbr, (lftGet_congr (congrArg Lft.ch hlft) c).trans (lftGet_lftSet_same _ _ _), hopen⟩

/-! ### An issued read (R320, R341) -/

/-- A read with what the DRAM holds at its issue. -/
def issuedAs (s : State) (r : LftReq) : LftReq :=
  { r with data := if blockLive s (r.addr / 64) then (rawBlock s (r.addr / 64)).1 else [],
           mark := if blockLive s (r.addr / 64) then (rawBlock s (r.addr / 64)).2 else {}, dry := !blockLive s (r.addr / 64) }

/-- The channel whose read `r` has been issued. -/
def LftCh.readIssued (x : LftCh) (s : State) (r : LftReq) : LftCh :=
  { x with reads := eraseReq x.reads r, retryRun := 0, issued := x.issued ++ [issuedAs s r] }

/-- The state between the queue and the DRAM. -/
def readLeaves (c : Nat) (r : LftReq) (s : State) : State := lftSet s c ((lftGet s c).readIssued s r)

theorem issueRead_eq (c : Nat) (r : LftReq) (s : State) : issueRead c r s =
    cntLft (rankNow s r) (some c) 1 (if blockLive s (r.addr / 64) then accessRow c r (readLeaves c r s) else readLeaves c r s) := rfl

theorem issueRead_waiting (c : Nat) (r : LftReq) (s : State) : SameWaiting s (issueRead c r s) := by
  have hleaves : SameWaiting s (readLeaves c r s) := .lftSet _ _ s
  rw [issueRead_eq]
  split
  · exact (hleaves.trans (accessRow_waiting _ _ _)).trans (.cntLft _ _ _ _)
  · exact hleaves.trans (.cntLft _ _ _ _)

theorem issueRead_mem (c : Nat) (r : LftReq) (s : State) : (issueRead c r s).lft.mem = s.lft.mem := by
  rw [issueRead_eq, cntLft_lft]
  split
  · rw [accessRow_mem]
    rfl
  · rfl

/-- The channel behind an issued read: an access opens its row. -/
theorem lftGet_issueRead (c : Nat) (r : LftReq) (s : State) : ∃ rows preds nbr,
    lftGet (issueRead c r s) c = { (lftGet s c).readIssued s r with rows := rows, preds := preds, nbr := nbr } ∧
    (blockLive s (r.addr / 64) = false → rows = (lftGet s c).rows) ∧
    (blockLive s (r.addr / 64) = true → bitAt (regGet s 0x13C014) 31 = false →
      (rowHit s (lftGet s c) r = true ∨ (Config.lfsrDraw s.free).toNat % 2 ^ bits (regGet s 0x13C010) 4 0 ≠ 0) →
      tfind rows (bankKey (coordOf s r.addr)) = some (coordOf s r.addr).row) := by
  have hpop : SamePop s (readLeaves c r s) := .lftSet _ rfl
  have hchannel : lftGet (readLeaves c r s) c = (lftGet s c).readIssued s r := lftGet_lftSet_same _ _ _
  rw [issueRead_eq, lftGet_cntLft]
  by_cases hlive : blockLive s (r.addr / 64) = true
  · obtain ⟨rows, preds, nbr, hget, hopen⟩ := lftGet_accessRow c r (readLeaves c r s)
    rw [if_pos hlive]
    refine ⟨rows, preds, nbr, by rw [hget, hchannel], fun h => ?_, fun _ hpred hhit => ?_⟩
    · rw [h] at hlive
      cases hlive
    · rw [← hpop.coordOf]
      refine hopen hpred ?_
      rw [hchannel, rowHit, hpop.coordOf]
      exact hhit
  · rw [if_neg hlive]
    exact ⟨_, _, _, hchannel, fun _ => rfl, fun h => absurd h hlive⟩

/-! ### The pick of a class (R321) -/

theorem pickReq_eq_none {x : LftCh} {l : List LftReq} (h : pickReq s x l = none) : l = [] := by
  unfold pickReq at h
  split at h
  · cases h
  · exact List.head?_eq_none_iff.1 h

theorem pickReq_mem {x : LftCh} {l : List LftReq} {r : LftReq} (h : pickReq s x l = some r) : r ∈ l := by
  unfold pickReq at h
  split at h
  next hfind => exact Option.some.inj h ▸ List.mem_of_find?_eq_some hfind
  next => exact List.mem_of_mem_head? h

/-- A row hit goes before an older request. -/
theorem pickReq_hit {x : LftCh} {l : List LftReq} {r q : LftReq} (h : pickReq s x l = some r) (hq : q ∈ l) (hhit : rowHit s x q = true) :
    rowHit s x r = true := by
  unfold pickReq at h
  split at h
  next hfind => exact Option.some.inj h ▸ List.find?_some hfind
  next hfind => exact absurd hhit (List.find?_eq_none.1 hfind q hq)

/-- The reads of a class. -/
def classReads (s : State) (x : LftCh) (k : Nat) : List LftReq := x.reads.filter (fun r => rankNow s r == k)

theorem mem_classReads {x : LftCh} {k : Nat} {q : LftReq} : q ∈ classReads s x k ↔ q ∈ x.reads ∧ rankNow s q = k := by
  simp [classReads]

/-- The best class that has a read gives its pick. -/
theorem bestClass {x : LftCh} {ks : List Nat} (hks : ks.Pairwise (· < ·)) (h : ∃ q ∈ x.reads, rankNow s q ∈ ks) :
    ∃ r k, (ks.filterMap fun k => pickReq s x (classReads s x k)).head? = some r ∧ k ∈ ks ∧ pickReq s x (classReads s x k) = some r ∧
      ∀ q ∈ x.reads, rankNow s q ∈ ks → k ≤ rankNow s q := by
  induction ks with
  | nil =>
    obtain ⟨q, -, hq⟩ := h
    cases hq
  | cons k ks ih =>
    obtain ⟨hk, hrest⟩ := List.pairwise_cons.1 hks
    cases hpick : pickReq s x (classReads s x k) with
    | some r =>
      refine ⟨r, k, by simp only [List.filterMap_cons, hpick, List.head?_cons], List.mem_cons_self, hpick, fun q _ hq => ?_⟩
      rcases List.mem_cons.1 hq with h | h
      · exact h.ge
      · exact (hk _ h).le
    | none =>
      have hnone (q : LftReq) (hq : q ∈ x.reads) (hmem : rankNow s q ∈ k :: ks) : rankNow s q ∈ ks := by
        rcases List.mem_cons.1 hmem with h | h
        · have hin := mem_classReads.2 ⟨hq, h⟩
          rw [pickReq_eq_none hpick] at hin
          cases hin
        · exact h
      obtain ⟨q, hq, hmem⟩ := h
      obtain ⟨r, j, hhead, hj, hr, hbest⟩ := ih hrest ⟨q, hq, hnone q hq hmem⟩
      exact ⟨r, j, by simpa only [List.filterMap_cons, hpick] using hhead, List.mem_cons_of_mem _ hj, hr,
        fun q hq hmem => hbest q hq (hnone q hq hmem)⟩

/-- What the scheduler picks of the real-time and host reads. -/
structure BestRead (s : State) (x : LftCh) (r : LftReq) : Prop where
  mem : r ∈ x.reads
  pos : 1 ≤ rankNow s r
  le : rankNow s r ≤ 3
  best : ∀ q ∈ x.reads, 1 ≤ rankNow s q → rankNow s r ≤ rankNow s q
  hit : ∀ q ∈ x.reads, rankNow s q = rankNow s r → rowHit s x q = true → rowHit s x r = true

/-- With no batch under way the best read goes. -/
theorem issueNext_of_read (hbatch : (lftGet s c).batch = 0) (h : ∃ q ∈ (lftGet s c).reads, 1 ≤ rankNow s q ∧ rankNow s q ≤ 3) :
    ∃ r, BestRead s (lftGet s c) r ∧ issueNext c s = issueFor c r s := by
  have hclass (n : Nat) : n ∈ [1, 2, 3] ↔ 1 ≤ n ∧ n ≤ 3 := by
    simp only [List.mem_cons, List.not_mem_nil, or_false]
    omega
  obtain ⟨q, hq, hrank⟩ := h
  obtain ⟨r, k, hhead, hk, hpick, hbest⟩ := bestClass (ks := [1, 2, 3]) (by decide) ⟨q, hq, (hclass _).2 hrank⟩
  obtain ⟨hr, rfl⟩ := mem_classReads.1 (pickReq_mem hpick)
  obtain ⟨hpos, hle⟩ := (hclass _).1 hk
  refine ⟨r, ⟨hr, hpos, hle, fun q hq h1 => ?_, fun q hq heq => pickReq_hit hpick (mem_classReads.2 ⟨hq, heq⟩)⟩, ?_⟩
  · by_cases h3 : rankNow s q ≤ 3
    · exact hbest q hq ((hclass _).2 ⟨h1, h3⟩)
    · omega
  · unfold issueNext
    extract_lets x wr ranked
    rw [if_neg (show ¬ x.batch > 0 from hbatch.not_gt)]
    have hranked : ranked.head? = some r := hhead
    rw [hranked]

theorem inOrderFor_of_nil {x : LftCh} (h : x.inOrder = []) (r : LftReq) : inOrderFor s x r = r := by
  simp [inOrderFor, h, thas]

theorem issueFor_read {r : LftReq} (horder : (lftGet s c).inOrder = []) (hr : r ∈ (lftGet s c).reads) : issueFor c r s = issueRead c r s := by
  rw [issueFor, inOrderFor_of_nil horder]
  exact if_pos (by simpa using hr)

/-! ### An issued write (R321, R322, R340) -/

theorem putBlock_only (w : LftReq) (s : State) : changesOnly { Parts.events with lft := true } s (putBlock w s) :=
  (does_putBlock w (.refl _ s) rfl).only

/-- Of the queues of the loft, an issued write that reaches the DRAM changes none. -/
theorem putBlock_kept (w : LftReq) (s : State) :
    (putBlock w s).lft.ch = s.lft.ch ∧ (putBlock w s).lft.waits = s.lft.waits ∧ (putBlock w s).lft.fills = s.lft.fills := by
  unfold putBlock
  extract_lets blk hit m out l s1 s2
  have h2 : s2.lft.ch = s.lft.ch ∧ s2.lft.waits = s.lft.waits ∧ s2.lft.fills = s.lft.fills := by
    dsimp only [s2]
    split <;> exact ⟨rfl, rfl, rfl⟩
  split
  · rw [raiseItems_lft]
    exact h2
  · exact h2

theorem putBlock_waiting (w : LftReq) (s : State) : SameWaiting s (putBlock w s) := by
  obtain ⟨-, hwaits, hfills⟩ := putBlock_kept w s
  exact ⟨hwaits, hfills, same_chains (putBlock_only w s) rfl⟩

/-- The channel whose write `w` has been issued. -/
def LftCh.writeIssued (x : LftCh) (s : State) (w : LftReq) : LftCh :=
  { x with writes := eraseReq x.writes w, retryRun := 0,
           inOrder := if tfind x.inOrder (bankKey (coordOf s w.addr)) = some w.seq then tdel x.inOrder (bankKey (coordOf s w.addr)) else x.inOrder }

/-- The state between the queue and the DRAM. -/
def writeLeaves (c : Nat) (w : LftReq) (s : State) : State := lftSet s c ((lftGet s c).writeIssued s w)

/-- An issued write without the place of its fill engine. -/
def writePut (c : Nat) (w : LftReq) (s : State) : State :=
  putBlock w (cntLft (rankNow s w) (some c) 1 (accessRow c w (writeLeaves c w s)))

theorem writePut_waiting (c : Nat) (w : LftReq) (s : State) : SameWaiting s (writePut c w s) :=
  ((SameWaiting.lftSet _ _ s).trans (accessRow_waiting _ _ _)).trans ((SameWaiting.cntLft _ _ _ _).trans (putBlock_waiting _ _))

theorem issueWrite_of_no_fills (hfills : s.lft.fills = []) (w : LftReq) : issueWrite c w s = writePut c w s := by
  unfold issueWrite
  extract_lets x k s1 s2
  have hnone : fillOf s2 (regionOf w.addr) = none := fillOf_of_none ((writePut_waiting c w s).fills.trans hfills) _
  rw [hnone]
  exact ite_self _

theorem lftGet_writePut (c : Nat) (w : LftReq) (s : State) : ∃ rows preds nbr,
    lftGet (writePut c w s) c = { (lftGet s c).writeIssued s w with rows := rows, preds := preds, nbr := nbr } := by
  obtain ⟨rows, preds, nbr, hget, -⟩ := lftGet_accessRow c w (writeLeaves c w s)
  have hleaves : lftGet (writeLeaves c w s) c = (lftGet s c).writeIssued s w := lftGet_lftSet_same _ _ _
  refine ⟨rows, preds, nbr, ?_⟩
  rw [writePut, lftGet_congr (putBlock_kept _ _).1, lftGet_cntLft, hget, hleaves]

/-- With the weevil disarmed the bytes of an issued write reach the DRAM. -/
theorem writePut_mem (harmed : s.lft.wArmed = false) (w : LftReq) :
    (writePut c w s).lft.mem = memWrite s.lft.mem (64 * (w.addr / 64)) w.data := by
  have hmiss : weevilHits (cntLft (rankNow s w) (some c) 1 (accessRow c w (writeLeaves c w s))) (w.addr / 64) = false := by
    rw [weevilHits, cntLft_lft, accessRow_wArmed, show (writeLeaves c w s).lft.wArmed = false from harmed, Bool.false_and]
  rw [writePut, putBlock_mem hmiss, cntLft_lft, accessRow_mem]
  rfl

/-- The writes that a batch may issue. -/
def batchWrites (s : State) (x : LftCh) : List LftReq := x.writes.filter (fun w => rankNow s w == 4 && writeMay s x w)

theorem mem_batchWrites {x : LftCh} {w : LftReq} : w ∈ batchWrites s x ↔ w ∈ x.writes ∧ rankNow s w = 4 ∧ writeMay s x w = true := by
  simp [batchWrites]

/-- A batch under way issues the next of its writes. -/
theorem issueNext_of_batch (hbatch : 0 < (lftGet s c).batch)
    (h : ∃ w ∈ (lftGet s c).writes, rankNow s w = 4 ∧ writeMay s (lftGet s c) w = true) :
    ∃ w, pickReq s (lftGet s c) (batchWrites s (lftGet s c)) = some w ∧
      issueNext c s = issueWrite c w (lftSet s c { lftGet s c with batch := (lftGet s c).batch - 1 }) := by
  cases hpick : pickReq s (lftGet s c) (batchWrites s (lftGet s c)) with
  | none =>
    obtain ⟨w, hw, hmay⟩ := h
    have hin := mem_batchWrites.2 ⟨hw, hmay⟩
    rw [pickReq_eq_none hpick] at hin
    cases hin
  | some w =>
    refine ⟨w, rfl, ?_⟩
    unfold issueNext
    extract_lets x wr ranked
    have hwr : pickReq s x wr = some w := hpick
    rw [if_pos hbatch, hwr]

/-- An in-order bank serves its oldest request first (R322). -/
theorem issueFor_inOrder {r w : LftReq} (hreads : (lftGet s c).reads = [r]) (hwrites : (lftGet s c).writes = [w]) (hseq : w.seq < r.seq)
    (hbank : bankKey (coordOf s w.addr) = bankKey (coordOf s r.addr))
    (horder : (lftGet s c).inOrder = [(bankKey (coordOf s r.addr), w.seq)]) : issueFor c r s = issueWrite c w s := by
  have hfor : inOrderFor s (lftGet s c) r = w := by
    simp [inOrderFor, horder, thas, oldestIn, hreads, hwrites, hbank, hseq]
  have hne : w ≠ r := fun h => by rw [h] at hseq; exact lt_irrefl _ hseq
  rw [issueFor, hfor, hreads]
  exact if_neg (by simpa using hne)

/-! ### Refresh (R327 to R330) -/

section InService

variable (hstate : (lftGet s c).state = .inService)
include hstate

theorem chUp_of (htrained : s.lft.trained = true) : chUp s c = true := by simp [chUp, htrained, hstate]

theorem refreshTick_of_idle (h : rtPending (lftGet s c) = false) : refreshTick c s =
    cntLft 7 (some c) ((lftGet s c).owed + 1) (lftSet s c { lftGet s c with owed := 0, rows := [] }) := by
  refine (if_neg (not_not.2 hstate)).trans (if_pos ?_)
  simp [h]

theorem refreshTick_of_busy (h : rtPending (lftGet s c) = true) : refreshTick c s =
    if (lftGet s c).owed < 4 then lftSet s c { lftGet s c with owed := (lftGet s c).owed + 1 }
    else cntLft 7 (some c) 1 (lftSet s c { lftGet s c with forced := min 65535 ((lftGet s c).forced + 1), rows := [] }) := by
  refine (if_neg (not_not.2 hstate)).trans (if_neg ?_)
  simp [h]

end InService

theorem rtPending_eq_true {x : LftCh} : rtPending x = true ↔ ∃ q ∈ x.reads ++ x.issued, q.rank ≤ 2 := by
  simp only [rtPending, List.any_eq_true, decide_eq_true_eq]

theorem rtPending_eq_false {x : LftCh} (h : ∀ q ∈ x.reads ++ x.issued, 2 < q.rank) : rtPending x = false := by
  rw [Bool.eq_false_iff, Ne, rtPending_eq_true]
  rintro ⟨q, hq, hrank⟩
  exact absurd (h q hq) (by omega)

/-- A refresh that is counted sets its channel, and changes no other. -/
theorem counted_channel (ev n : Nat) (x : LftCh) (s : State) :
    lftGet (cntLft ev (some c) n (lftSet s c x)) c = x ∧ (∀ k, k ≠ c → lftGet (cntLft ev (some c) n (lftSet s c x)) k = lftGet s k) ∧
    changesOnly { lft := true, obs := true } s (cntLft ev (some c) n (lftSet s c x)) := by
  refine ⟨by rw [lftGet_cntLft, lftGet_lftSet_same], fun k hk => by rw [lftGet_cntLft, lftGet_lftSet_ne _ _ hk], ?_⟩
  exact only_trans (lftSet_only s c x) (cntLft_only _ _ _ _)

/-! ### The refresh rate (R328, R331) -/

/-- A change of the rate is reported; what the sensors have read stands. -/
theorem setRate2x_of_ne {on : Bool} (h : (lftGet s c).x2 ≠ on) :
    (lftGet (setRate2x c on s) c).x2 = on ∧ (lftGet (setRate2x c on s) c).sensors = (lftGet s c).sensors ∧
    reported 0x1307 0 s (setRate2x c on s) := by
  unfold setRate2x
  extract_lets x extra s1
  rw [if_neg h]
  refine ⟨?_, ?_, ?_⟩
  · rw [lftGet_raiseItems, lftGet_cntLft, lftGet_lftSet_same]
  · rw [lftGet_raiseItems, lftGet_cntLft, lftGet_lftSet_same]
  · exact reported_between (B := {}) (only_trans (F := { lft := true, obs := true }) (lftSet_only s c _) (cntLft_only _ _ _ _)) rfl

theorem setRate2x_of_eq {on : Bool} (h : (lftGet s c).x2 = on) : setRate2x c on s = s := if_pos h

theorem rateTick_of_hot (h : sensorsBelow (lftGet s c) (85 * 16) = false) : rateTick c s = setRate2x c true s :=
  if_pos (.inr (by rw [h]; exact Bool.false_ne_true))

theorem rateTick_of_cool (hforce : bitAt (regGet s 0x13C000) 8 = false) (h : sensorsBelow (lftGet s c) (85 * 16) = true) :
    rateTick c s = if (lftGet s c).x2 ∧ (lftGet s c).coolMs ≥ 100 then setRate2x c false s else s :=
  if_neg fun hhot => by
    rcases hhot with hhot | hhot
    · exact absurd (hforce.symm.trans hhot) Bool.false_ne_true
    · exact hhot h

/-! ### One sensor of one DIMM (R328) -/

/-- The channel with the reading of its sensor. -/
def LftCh.sensed (x : LftCh) (q : Sensor) : LftCh := { x with sensors := tput x.sensors 0 q }

/-- The sensor of a channel after a reading. -/
def Sensor.heard (q : Sensor) (v : BitVec 16) : Sensor :=
  { temp := v, miss := 0, hot := if v.toInt > 95 * 16 then true else if v.toInt ≤ 93 * 16 then false else q.hot }

/-- The channel after a reading of its sensor. -/
def LftCh.heard (x : LftCh) (v : BitVec 16) : LftCh :=
  { x with overtemp := x.overtemp || (decide (v.toInt > 95 * 16) && !(tget x.sensors 0 {}).hot) }.sensed ((tget x.sensors 0 {}).heard v)

section Sensed

variable (hdimms : (lftGet s c).dimms = 1)
include hdimms

theorem sensorRead_absent (n : Nat) (v : Option (BitVec 16)) : sensorRead c 1 n v s = s := if_pos (by rw [hdimms])

theorem sensorRead_of_missed : sensorRead c 0 0 none s =
    (let q := tget (lftGet s c).sensors 0 {}
     let s1 := lftSet s c ({ lftGet s c with sensorFail := (lftGet s c).sensorFail || decide (q.miss + 1 = 3) }.sensed
       { q with miss := min 3 (q.miss + 1) })
     if q.miss + 1 = 3 then raiseItems 0x1309 1 [(1, c), (1, 0)] s1 else s1) := if_neg (by rw [hdimms]; omega)

theorem sensorRead_of_heard (v : BitVec 16) : sensorRead c 0 0 (some v) s =
    if v.toInt > 95 * 16 ∧ ¬ (tget (lftGet s c).sensors 0 {}).hot then
      raiseItems 0x1308 4 [(1, c), (1, 0), (2, v.toNat)] (lftSet s c ((lftGet s c).heard v))
    else lftSet s c ((lftGet s c).heard v) := by
  refine (if_neg (by rw [hdimms]; omega)).trans ?_
  simp only [LftCh.heard, Sensor.heard, decide_eq_true_eq]
  rfl

end Sensed

/-- The count of cool milliseconds goes on, or begins again. -/
def LftCh.cooled (x : LftCh) : LftCh := { x with coolMs := if sensorsBelow x (83 * 16) then min 100 (x.coolMs + 1) else 0 }

/-- The millisecond reading is over. -/
def coolTick (c : Nat) (s : State) : State := lftSet s c (lftGet s c).cooled

theorem lftGet_coolTick (c : Nat) (s : State) : lftGet (coolTick c s) c = (lftGet s c).cooled := lftGet_lftSet_same _ _ _

/-- With one DIMM, one sensor is read. -/
theorem tempTick_of_one (hstate : (lftGet s c).state = .inService) (d : Option (BitVec 16)) (t1 : List (Option (BitVec 16)))
    (hdimms : (lftGet (sensorRead c 0 0 d s) c).dimms = 1) : tempTick c [d] t1 s = rateTick c (coolTick c (sensorRead c 0 0 d s)) := by
  have hone : [d].zipIdx.foldl (fun s p => sensorRead c 0 p.2 p.1 s) s = sensorRead c 0 0 d s := rfl
  have hstill : t1.zipIdx.foldl (fun s p => sensorRead c 1 p.2 p.1 s) (sensorRead c 0 0 d s) = sensorRead c 0 0 d s :=
    foldl_of_still fun p _ => sensorRead_absent hdimms p.2 p.1
  unfold tempTick
  rw [if_neg (not_not.2 hstate), hone, hstill]
  rfl

/-- The one sensor is all that the thresholds see. -/
theorem sensorsBelow_sensed {x : LftCh} (hlen : x.sensors.length ≤ 1) (hkey : ∀ p ∈ x.sensors, p.1 = 0) (q : Sensor) (lim : Int) :
    sensorsBelow (x.sensed q) lim = (decide (q.miss < 3) && decide (q.temp.toInt ≤ lim)) := by
  have hput : tput x.sensors 0 q = [(0, q)] := by
    rcases hl : x.sensors with _ | ⟨⟨k, q0⟩, _ | ⟨p, l⟩⟩
    · rfl
    · rw [hl] at hkey
      obtain rfl : k = 0 := hkey (k, q0) List.mem_cons_self
      rfl
    · rw [hl] at hlen
      simp at hlen
  simp [sensorsBelow, LftCh.sensed, hput]

theorem coolTick_only (c : Nat) (s : State) : changesOnly { lft := true } s (coolTick c s) := rfl

section Thresholds

variable (hstate : (lftGet s c).state = .inService) (hdimms : (lftGet s c).dimms = 1) (hlen : (lftGet s c).sensors.length ≤ 1)
  (hkey : ∀ p ∈ (lftGet s c).sensors, p.1 = 0)
include hdimms

/-- The channel behind a reading. -/
theorem lftGet_sensorRead_heard (v : BitVec 16) : lftGet (sensorRead c 0 0 (some v) s) c = (lftGet s c).heard v := by
  rw [sensorRead_of_heard hdimms]
  split
  · rw [lftGet_raiseItems, lftGet_lftSet_same]
  · rw [lftGet_lftSet_same]

include hstate hlen hkey

/-- The reading ends with the refresh rate as the thresholds ask. -/
theorem tempTick_of_heard (v : BitVec 16) (t1 : List (Option (BitVec 16))) : ∃ y,
    tempTick c [some v] t1 s = rateTick c (coolTick c (sensorRead c 0 0 (some v) s)) ∧
    lftGet (coolTick c (sensorRead c 0 0 (some v) s)) c = y ∧ tget y.sensors 0 {} = (tget (lftGet s c).sensors 0 {}).heard v ∧
    y.x2 = (lftGet s c).x2 ∧
    y.overtemp = ((lftGet s c).overtemp || (decide (v.toInt > 95 * 16) && !(tget (lftGet s c).sensors 0 {}).hot)) ∧
    y.coolMs = (if v.toInt ≤ 83 * 16 then min 100 ((lftGet s c).coolMs + 1) else 0) ∧
    sensorsBelow y (85 * 16) = decide (v.toInt ≤ 85 * 16) := by
  have hget := lftGet_sensorRead_heard hdimms v
  have hbelow (lim : Int) : sensorsBelow ((lftGet s c).heard v) lim = decide (v.toInt ≤ lim) :=
    (sensorsBelow_sensed hlen hkey _ lim).trans (Bool.true_and _)
  have hms : ((lftGet s c).heard v).cooled.coolMs = if v.toInt ≤ 83 * 16 then min 100 ((lftGet s c).coolMs + 1) else 0 := by
    rw [LftCh.cooled, hbelow]
    simp only [decide_eq_true_eq]
    rfl
  exact ⟨((lftGet s c).heard v).cooled, tempTick_of_one hstate _ _ (by rw [hget]; exact hdimms), (lftGet_coolTick _ _).trans (by rw [hget]),
    tget_tput_same _ _ _ _, rfl, rfl, hms, hbelow _⟩

/-- A warm sensor doubles the rate. -/
theorem tempTick_of_warm {v : BitVec 16} (hnot : v.toInt ≤ 95 * 16) (hwarm : 85 * 16 < v.toInt) (hx2 : (lftGet s c).x2 = false)
    (t1 : List (Option (BitVec 16))) :
    tget (lftGet (tempTick c [some v] t1 s) c).sensors 0 {} = (tget (lftGet s c).sensors 0 {}).heard v ∧
    (lftGet (tempTick c [some v] t1 s) c).x2 = true ∧ reported 0x1307 0 s (tempTick c [some v] t1 s) := by
  obtain ⟨y, heq, hy, hsensor, hyx2, -, -, hbelow⟩ := tempTick_of_heard hstate hdimms hlen hkey v t1
  have hread : changesOnly { lft := true } s (coolTick c (sensorRead c 0 0 (some v) s)) := by
    rw [sensorRead_of_heard hdimms, if_neg fun h => absurd h.1 (by omega)]
    rfl
  have hhot : sensorsBelow (lftGet (coolTick c (sensorRead c 0 0 (some v) s)) c) (85 * 16) = false := by
    rw [hy, hbelow]
    exact decide_eq_false (by omega)
  obtain ⟨hon, hsensors, hreported⟩ := setRate2x_of_ne (c := c) (on := true) (s := coolTick c (sensorRead c 0 0 (some v) s))
    (by rw [hy, hyx2, hx2]; exact Bool.false_ne_true)
  rw [heq, rateTick_of_hot hhot]
  exact ⟨by rw [hsensors, hy, hsensor], hon, reported_after hreported (same_glb hread rfl) (same_slo hread rfl) (same_tim hread rfl)⟩

/-- A sensor that gets hot is reported. -/
theorem tempTick_of_hot {v : BitVec 16} (hot : 95 * 16 < v.toInt) (hx2 : (lftGet s c).x2 = true)
    (hfirst : (tget (lftGet s c).sensors 0 {}).hot = false) (t1 : List (Option (BitVec 16))) :
    tget (lftGet (tempTick c [some v] t1 s) c).sensors 0 {} = (tget (lftGet s c).sensors 0 {}).heard v ∧
    (lftGet (tempTick c [some v] t1 s) c).overtemp = true ∧ (lftGet (tempTick c [some v] t1 s) c).x2 = true ∧
    reported 0x1308 4 s (tempTick c [some v] t1 s) := by
  obtain ⟨y, heq, hy, hsensor, hyx2, hover, -, hbelow⟩ := tempTick_of_heard hstate hdimms hlen hkey v t1
  have hreported : reported 0x1308 4 s (coolTick c (sensorRead c 0 0 (some v) s)) := by
    rw [sensorRead_of_heard hdimms, if_pos ⟨hot, by rw [hfirst]; exact Bool.false_ne_true⟩]
    exact reported_between (lftSet_only s c _) (coolTick_only c _)
  have hhot : sensorsBelow (lftGet (coolTick c (sensorRead c 0 0 (some v) s)) c) (85 * 16) = false := by
    rw [hy, hbelow]
    exact decide_eq_false (by omega)
  rw [heq, rateTick_of_hot hhot, setRate2x_of_eq (by rw [hy, hyx2, hx2]), hy]
  refine ⟨hsensor, ?_, hyx2.trans hx2, hreported⟩
  rw [hover, hfirst, decide_eq_true hot, Bool.not_false, Bool.and_self, Bool.or_true]

/-- A cool sensor ends the doubled rate after 100 ms. -/
theorem tempTick_of_cool {v : BitVec 16} (hcool : v.toInt ≤ 83 * 16) (hforce : bitAt (regGet s 0x13C000) 8 = false)
    (hx2 : (lftGet s c).x2 = true) (t1 : List (Option (BitVec 16))) :
    tget (lftGet (tempTick c [some v] t1 s) c).sensors 0 {} = (tget (lftGet s c).sensors 0 {}).heard v ∧
    ((lftGet s c).coolMs + 1 < 100 →
      (lftGet (tempTick c [some v] t1 s) c).coolMs = (lftGet s c).coolMs + 1 ∧ (lftGet (tempTick c [some v] t1 s) c).x2 = true) ∧
    (100 ≤ (lftGet s c).coolMs + 1 →
      (lftGet (tempTick c [some v] t1 s) c).x2 = false ∧ reported 0x1307 0 s (tempTick c [some v] t1 s)) := by
  obtain ⟨y, heq, hy, hsensor, hyx2, -, hms, hbelow⟩ := tempTick_of_heard hstate hdimms hlen hkey v t1
  have hread : changesOnly { lft := true } s (coolTick c (sensorRead c 0 0 (some v) s)) := by
    rw [sensorRead_of_heard hdimms, if_neg fun h => absurd h.1 (by omega)]
    rfl
  have hforce' : bitAt (regGet (coolTick c (sensorRead c 0 0 (some v) s)) 0x13C000) 8 = false := by
    rwa [regGet_congr (same_regs hread rfl)]
  have hcool' : sensorsBelow (lftGet (coolTick c (sensorRead c 0 0 (some v) s)) c) (85 * 16) = true := by
    rw [hy, hbelow]
    exact decide_eq_true (by omega)
  rw [if_pos hcool] at hms
  rw [heq, rateTick_of_cool hforce' hcool', hy, hyx2, hx2, hms]
  by_cases hlong : 100 ≤ (lftGet s c).coolMs + 1
  · obtain ⟨hon, hsensors, hreported⟩ := setRate2x_of_ne (c := c) (on := false) (s := coolTick c (sensorRead c 0 0 (some v) s))
      (by rw [hy, hyx2, hx2]; exact Bool.noConfusion)
    rw [if_pos ⟨rfl, by omega⟩]
    exact ⟨by rw [hsensors, hy, hsensor], fun h => absurd h (by omega),
      fun _ => ⟨hon, reported_after hreported (same_glb hread rfl) (same_slo hread rfl) (same_tim hread rfl)⟩⟩
  · rw [if_neg fun h => hlong (by omega), hy]
    exact ⟨hsensor, fun _ => ⟨hms.trans (by omega), hyx2.trans hx2⟩, fun h => absurd h hlong⟩

/-- The third failed read in a row is reported, and counts as hot. -/
theorem tempTick_of_failed (hmiss : (tget (lftGet s c).sensors 0 {}).miss = 2) (hx2 : (lftGet s c).x2 = true)
    (t1 : List (Option (BitVec 16))) :
    (tget (lftGet (tempTick c [none] t1 s) c).sensors 0 {}).miss = 3 ∧ (lftGet (tempTick c [none] t1 s) c).sensorFail = true ∧
    (lftGet (tempTick c [none] t1 s) c).x2 = true ∧ reported 0x1309 1 s (tempTick c [none] t1 s) := by
  have hread := sensorRead_of_missed hdimms
  simp only [hmiss, decide_true, Bool.or_true, if_true] at hread
  have hget : lftGet (sensorRead c 0 0 none s) c =
      LftCh.sensed { lftGet s c with sensorFail := true } { tget (lftGet s c).sensors 0 {} with miss := 3 } := by
    rw [hread, lftGet_raiseItems, lftGet_lftSet_same]
    rfl
  have hbelow (lim : Int) : sensorsBelow (lftGet (sensorRead c 0 0 none s) c) lim = false := by
    rw [hget]
    exact (sensorsBelow_sensed hlen hkey _ lim).trans (Bool.false_and _)
  have hy := lftGet_coolTick c (sensorRead c 0 0 none s)
  have hreported : reported 0x1309 1 s (coolTick c (sensorRead c 0 0 none s)) := by
    rw [hread]
    exact reported_between (lftSet_only s c _) (coolTick_only c _)
  rw [tempTick_of_one hstate _ _ (by rw [hget]; exact hdimms), rateTick_of_hot (by rw [hy]; exact hbelow _),
    setRate2x_of_eq (by rw [hy, hget]; exact hx2), hy, hget]
  exact ⟨congrArg Sensor.miss (tget_tput_same _ _ _ _), rfl, hx2, hreported⟩

end Thresholds

/-! ### One issue of the scheduler, with nothing to carry on with -/

/-- The best read goes, with what the DRAM holds. -/
theorem loftFlow_issueNext_read (hquiet : loftQuiet s) (hbatch : (lftGet s c).batch = 0) (horder : (lftGet s c).inOrder = [])
    (h : ∃ q ∈ (lftGet s c).reads, 1 ≤ rankNow s q ∧ rankNow s q ≤ 3) :
    ∃ r, BestRead s (lftGet s c) r ∧ loftFlow (issueNext c s) = issueRead c r s := by
  obtain ⟨r, hbest, hnext⟩ := issueNext_of_read hbatch h
  refine ⟨r, hbest, ?_⟩
  rw [hnext, issueFor_read horder hbest.mem, loftFlow_of_quiet ((issueRead_waiting c r s).quiet hquiet)]

/-- A write of the batch goes. -/
theorem loftFlow_issueNext_batch (hquiet : loftQuiet s) (hbatch : 0 < (lftGet s c).batch)
    (h : ∃ w ∈ (lftGet s c).writes, rankNow s w = 4 ∧ writeMay s (lftGet s c) w = true) :
    ∃ w, pickReq s (lftGet s c) (batchWrites s (lftGet s c)) = some w ∧
      loftFlow (issueNext c s) = writePut c w (lftSet s c { lftGet s c with batch := (lftGet s c).batch - 1 }) := by
  obtain ⟨w, hpick, hnext⟩ := issueNext_of_batch hbatch h
  have hquiet' : loftQuiet (lftSet s c { lftGet s c with batch := (lftGet s c).batch - 1 }) := (SameWaiting.lftSet _ _ s).quiet hquiet
  refine ⟨w, hpick, ?_⟩
  rw [hnext, issueWrite_of_no_fills hquiet'.2.1, loftFlow_of_quiet ((writePut_waiting _ _ _).quiet hquiet')]

/-- A write of a batch leaves its queue, and the reads of its channel as they were. -/
theorem writePut_of_batch (w : LftReq) :
    let s1 := lftSet s c { lftGet s c with batch := (lftGet s c).batch - 1 }
    (lftGet (writePut c w s1) c).reads = (lftGet s c).reads ∧ (lftGet (writePut c w s1) c).batch = (lftGet s c).batch - 1 ∧
    (lftGet (writePut c w s1) c).writes = (lftGet s c).writes.filter (fun q => q.seq != w.seq) ∧
    (s.lft.wArmed = false → (writePut c w s1).lft.mem = memWrite s.lft.mem (64 * (w.addr / 64)) w.data) := by
  intro s1
  have hget1 : lftGet s1 c = { lftGet s c with batch := (lftGet s c).batch - 1 } := lftGet_lftSet_same _ _ _
  obtain ⟨rows, preds, nbr, hget⟩ := lftGet_writePut c w s1
  rw [hget, hget1]
  exact ⟨rfl, rfl, rfl, writePut_mem (s := s1) (w := w)⟩

/-- The write that an in-order bank waits for goes before its read. -/
theorem loftFlow_issueNext_inOrder {r w : LftReq} (hquiet : loftQuiet s) (hbatch : (lftGet s c).batch = 0) (hreads : (lftGet s c).reads = [r])
    (hwrites : (lftGet s c).writes = [w]) (hpos : 1 ≤ rankNow s r) (hle : rankNow s r ≤ 3) (hseq : w.seq < r.seq)
    (hbank : bankKey (coordOf s w.addr) = bankKey (coordOf s r.addr))
    (horder : (lftGet s c).inOrder = [(bankKey (coordOf s r.addr), w.seq)]) : loftFlow (issueNext c s) = writePut c w s := by
  obtain ⟨r', hbest, hnext⟩ := issueNext_of_read hbatch ⟨r, by rw [hreads]; exact List.mem_singleton_self r, hpos, hle⟩
  have hr : r' = r := by
    have hmem := hbest.mem
    rwa [hreads, List.mem_singleton] at hmem
  rw [hnext, hr, issueFor_inOrder hreads hwrites hseq hbank horder, issueWrite_of_no_fills hquiet.2.1,
    loftFlow_of_quiet ((writePut_waiting _ _ _).quiet hquiet)]

theorem startBatch_of {n : Nat} (hn : n = ((lftGet s c).writes.filter (fun w => rankNow s w == 4)).length) (hbatch : (lftGet s c).batch = 0)
    (hpos : 0 < n) (h : (∀ q ∈ (lftGet s c).reads, 3 < rankNow s q) ∨ 56 ≤ (lftGet s c).writes.length) :
    startBatch c s = lftSet s c { lftGet s c with batch := min 16 n } := by
  subst hn
  refine if_pos ⟨hbatch, hpos, h.imp (fun hidle => ?_) id⟩
  simpa using hidle

/-- A reading of the one sensor of a channel, at each threshold. -/
theorem answers_dimmTempRead {c : Fin 12} (hstate : (lftGet s c).state = .inService) (hup : chUp s c = true)
    (hdimms : (lftGet s c).dimms = 1) (hlen : (lftGet s c).sensors.length ≤ 1) (hkey : ∀ p ∈ (lftGet s c).sensors, p.1 = 0)
    (v : BitVec 16) (t1 : List (Option (BitVec 16))) :
    let x := lftGet s c
    let q := tget x.sensors 0 {}
    let reads (d : Option (BitVec 16)) (P : State → Sensor → Prop) : Prop := answers (.dimmTempRead c [d] t1) s fun t =>
      changesOnly { Parts.events with lft := true } s t ∧ P t (tget (lftGet t c).sensors 0 {})
    (v.toInt ≤ 95 * 16 → 85 * 16 < v.toInt → x.x2 = false → reads (some v) fun t p =>
      p.temp = v ∧ p.miss = 0 ∧ (lftGet t c).x2 = true ∧ reported 0x1307 0 s t) ∧
    (95 * 16 < v.toInt → x.x2 = true → q.hot = false → reads (some v) fun t p =>
      p.temp = v ∧ p.hot = true ∧ (lftGet t c).overtemp = true ∧ (lftGet t c).x2 = true ∧ reported 0x1308 4 s t) ∧
    (v.toInt ≤ 83 * 16 → bitAt (regGet s 0x13C000) 8 = false → x.x2 = true → reads (some v) fun t p =>
      p.temp = v ∧ (x.coolMs + 1 < 100 → (lftGet t c).coolMs = x.coolMs + 1 ∧ (lftGet t c).x2 = true) ∧
      (100 ≤ x.coolMs + 1 → (lftGet t c).x2 = false ∧ reported 0x1307 0 s t)) ∧
    (q.miss = 2 → x.x2 = true → reads none fun t p =>
      p.miss = 3 ∧ (lftGet t c).sensorFail = true ∧ (lftGet t c).x2 = true ∧ reported 0x1309 1 s t) := by
  intro x q reads
  have htemp (d : Option (BitVec 16)) : exec (.dimmTempRead c [d] t1) s = .next (tempTick c [d] t1 s) := if_pos hup
  have honly (d : Option (BitVec 16)) : changesOnly { Parts.events with lft := true } s (tempTick c [d] t1 s) :=
    (does_execDimmTempRead c [d] t1 (.refl _ s) rfl _ (htemp d)).only
  refine ⟨fun hnot hwarm hx2 => ⟨_, htemp _, honly _, ?_⟩, fun hhot hx2 hfirst => ⟨_, htemp _, honly _, ?_⟩,
    fun hcool hforce hx2 => ⟨_, htemp _, honly _, ?_⟩, fun hmiss hx2 => ⟨_, htemp _, honly _, ?_⟩⟩
  · obtain ⟨hsensor, hon, hreported⟩ := tempTick_of_warm hstate hdimms hlen hkey hnot hwarm hx2 t1
    rw [hsensor]
    exact ⟨rfl, rfl, hon, hreported⟩
  · obtain ⟨hsensor, hover, hon, hreported⟩ := tempTick_of_hot hstate hdimms hlen hkey hhot hx2 hfirst t1
    rw [hsensor]
    exact ⟨rfl, if_pos hhot, hover, hon, hreported⟩
  · obtain ⟨hsensor, hlater, hnow⟩ := tempTick_of_cool hstate hdimms hlen hkey hcool hforce hx2 t1
    rw [hsensor]
    exact ⟨rfl, hlater, hnow⟩
  · exact tempTick_of_failed hstate hdimms hlen hkey hmiss hx2 t1

/-- Settles O51: the scheduler issues the pick of the best class, and each timer is one update of its channel. -/
theorem loftScheduling : Obligations.LoftScheduling := by
  intro s c x issues rowOf
  refine ⟨fun htrained hstate => ?_, fun bank hpred htimer => ⟨_, if_pos ⟨hpred, htimer⟩, rfl⟩⟩
  have hup : chUp s c = true := chUp_of hstate htrained
  have hissue : exec (.loftRequestIssue c) s = .next (loftFlow (issueNext c s)) := if_pos hup
  have hissues {P : State → Prop} (h : P (loftFlow (issueNext c s))) : issues P :=
    ⟨_, hissue, (does_execLoftRequestIssue c (.refl _ s) rfl _ hissue).only, h⟩
  refine ⟨hissues trivial, fun hquiet hbatch horder hread => hissues ?_, fun hquiet hbatch hwrite => hissues ?_,
    fun r w hquiet hbatch hreads hwrites hpos hle hseq hbank horder => hissues ?_,
    fun n hn hbatch hpos hwhen => ⟨_, if_pos hup, startBatch_of hn hbatch hpos hwhen⟩, fun hidle => ?_, fun hbusy howed => ?_,
    fun hbusy howed => ?_, fun hdimms hlen hkey v t1 => ?_⟩
  · obtain ⟨r, hbest, hflow⟩ := loftFlow_issueNext_read hquiet hbatch horder hread
    obtain ⟨rows, preds, nbr, hget, hdry, hopen⟩ := lftGet_issueRead c r s
    rw [hflow]
    refine ⟨r, hbest.mem, ⟨issuedAs s r, by rw [hget]; rfl, rfl, rfl, rfl, fun hlive => ⟨if_pos hlive, if_pos hlive⟩⟩, by rw [hget]; rfl,
      by rw [hget]; rfl, issueRead_mem _ _ _, hbest.pos, hbest.le, hbest.best, hbest.hit, fun hlive => by rw [hget]; exact hdry hlive,
      fun hlive hpred hhit => ?_⟩
    show tfind (lftGet (issueRead c r s) c).rows (bankKey (coordOf s r.addr)) = _
    rw [hget]
    exact hopen hlive hpred hhit
  · obtain ⟨w, hpick, hflow⟩ := loftFlow_issueNext_batch hquiet hbatch hwrite
    obtain ⟨hreads, hbatch1, hwrites, hmem1⟩ := writePut_of_batch (s := s) (c := c) w
    obtain ⟨hmem, hrank, hmay⟩ := mem_batchWrites.1 (pickReq_mem hpick)
    rw [hflow]
    exact ⟨hreads, hbatch1, w, hmem, hrank, hmay, hwrites, hmem1,
      fun q hq hqrank hqmay => pickReq_hit hpick (mem_batchWrites.2 ⟨hq, hqrank, hqmay⟩)⟩
  · obtain ⟨rows, preds, nbr, hget⟩ := lftGet_writePut c w s
    rw [loftFlow_issueNext_inOrder hquiet hbatch hreads hwrites hpos hle hseq hbank horder, hget]
    refine ⟨hreads, rfl, ?_, ?_⟩
    · show eraseReq x.writes w = []
      simp [eraseReq, hwrites]
    · show (if tfind x.inOrder (bankKey (coordOf s w.addr)) = some w.seq then tdel x.inOrder (bankKey (coordOf s w.addr)) else x.inOrder) = []
      simp [horder, hbank, tfind, tdel]
  · refine ⟨_, if_pos hup, ?_⟩
    rw [refreshTick_of_idle hstate (rtPending_eq_false hidle)]
    exact counted_channel _ _ _ _
  · refine ⟨_, if_pos hup, ?_⟩
    rw [refreshTick_of_busy hstate (rtPending_eq_true.2 hbusy), if_pos howed]
  · refine ⟨_, if_pos hup, ?_⟩
    rw [refreshTick_of_busy hstate (rtPending_eq_true.2 hbusy), if_neg (not_lt.2 howed)]
    exact counted_channel _ _ _ _
  · exact answers_dimmTempRead hstate hup hdimms hlen hkey v t1

end Sys2Proof.Machine
end

section
/-! PROOFS. The fill engines (R342, R343): the first write to an invalid region, the steps of an engine, and its end. -/

-- One theorem at a time, as under Laws/: the package as one text takes too much memory in many threads.
set_option Elab.async false

namespace Sys2Proof.Machine

variable {s t u : State}

/-! ### What goes on keeps what the DRAM holds -/

namespace NoIssue

theorem hostLoftWrite (c : Nat) (poison : Bool) (a : Nat) (bs : List Byte) (s : State) : NoIssue s (hostLoftWrite c poison a bs s) := by
  unfold Machine.hostLoftWrite
  extract_lets s1
  have h1 : NoIssue s s1 := loftWrite _ _ _ _ _ s
  clear_value s1
  split
  · exact h1
  · exact h1.trans (ite (of_lft rfl) (refl s1))

theorem storeCrc (c : Nat) (d : Desc) (s : State) : NoIssue s (storeCrc c d s) := by
  unfold Machine.storeCrc
  extract_lets x a crc dst s1
  have h1 : NoIssue s s1 := of_lft rfl
  exact ite (ite (h1.trans (hostLoftWrite _ _ _ _ s1)) (h1.trans (of_does (does_writeHost _ _ (.refl _ s1) rfl)))) (refl s)

theorem burstDone (c n : Nat) (d : Desc) (s : State) : NoIssue s (burstDone c n d s) := by
  unfold Machine.burstDone
  extract_lets x atEnd s1
  have h1 : NoIssue s s1 := of_does (does_cntHst _ _ _ (does_chainSet _ _ (.refl _ s) rfl) rfl)
  exact ite (h1.trans (of_does (does_withdrawChain c (.refl _ s1) rfl))) (h1.trans (storeCrc c d s1))

theorem landBursts (s : State) : NoIssue s (landBursts s) := by
  refine foldl (fun c u => ?_) _ s
  extract_lets x
  split
  · exact ite (burstDone _ _ _ u) (refl u)
  · exact refl u

theorem loftFlow (s : State) : NoIssue s (loftFlow s) := (loftGoOn s).trans (landBursts _)

end NoIssue

/-! ### The first write to an invalid region (R342) -/

theorem thas_of_tfind {α : Type} {l : Tbl α} {k : Nat} {v : α} (h : tfind l k = some v) : thas l k = true := by
  induction l with
  | nil => cases h
  | cons p l ih =>
    rw [thas, List.any_cons, Bool.or_eq_true]
    by_cases hk : p.1 = k
    · exact .inl (by simp [hk])
    · rw [tfind, if_neg hk] at h
      exact .inr (ih h)

/-- With every engine at work a write to another region waits on. -/
theorem loftGoOn_of_busy {w : WaitWrite} (hwaits : s.lft.waits = [w]) (hvalid : regionOf w.addr ∉ s.lft.valid)
    (hnone : fillOf s (regionOf w.addr) = none) (hbusy : ∀ e, e < 8 → ∃ f, tfind s.lft.fills e = some f ∧ f.busy = true) :
    loftGoOn s = s := by
  have hsteps : fillSteps s = s := fillSteps_of_still fun e he => by
    obtain ⟨f, hf, hb⟩ := hbusy e he
    exact fillStep_of_busy hf hb
  have hfree : (List.range 8).find? (fun e => !thas s.lft.fills e) = none := by
    refine List.find?_eq_none.2 fun e he => ?_
    obtain ⟨f, hf, -⟩ := hbusy e (List.mem_range.1 he)
    simp [thas_of_tfind hf]
  have hserve : serveRegion (regionOf w.addr) s = none := by
    rw [serveRegion_of_not_valid hvalid hnone, hfree]
    rfl
  rw [loftGoOn_eq, hsteps]
  exact pushWaits_of_stays hwaits (tryWrite_of_not_served hserve)

/-- The first write to an invalid region enters behind a new fill engine, which it covers. -/
theorem loftGoOn_of_first {w : WaitWrite} (hwaits : s.lft.waits = [w]) (hfills : s.lft.fills = []) (hvalid : regionOf w.addr ∉ s.lft.valid)
    (hreading : w.reading = false) (halign : w.addr % 64 = 0) (hlen : w.bytes.length = 64) (hpart : w.part = false) (hpoison : w.poison = false)
    (hroom : writeRoom s (w.addr / 64) = true) :
    loftGoOn s = withWaits [] (enterWrite w.client (w.addr / 64) w.bytes false
      (withFills [(0, { region := regionOf w.addr, mask := [w.addr / 64] })] s)) := by
  have hserve : serveRegion (regionOf w.addr) s = some (withFills [(0, { region := regionOf w.addr, mask := [] })] s) := by
    rw [serveRegion_of_not_valid hvalid (fillOf_of_none hfills _), hfills]
    rfl
  have hfill : fillOf (withFills [(0, { region := regionOf w.addr, mask := [] })] s) (w.addr / 64 / 16384) =
      some (0, { region := regionOf w.addr, mask := [] }) := by
    rw [regionOf_eq_div]
    simp [fillOf]
  have htry := tryWrite_of_served hserve rfl hreading halign hlen hpoison hroom
  rw [coverBlock_of_some hfill, hpart] at htry
  rw [loftGoOn_eq, fillSteps_of_none hfills]
  exact pushWaits_of_enters hwaits htry

/-! ### One step of one engine (R342) -/

/-- The next block of an engine is the highest one below that no write has covered. -/
theorem fillFree_spec {f : FillEng} {k n : Nat} (h : fillFree f k = some n) :
    n < k ∧ f.region * 16384 + n ∉ f.mask ∧ ∀ m, n < m → m < k → f.region * 16384 + m ∈ f.mask := by
  induction k with
  | zero => cases h
  | succ k ih =>
    rw [fillFree] at h
    split at h
    next hin =>
      obtain ⟨hlt, hfree, hcovered⟩ := ih h
      refine ⟨by omega, hfree, fun m hnm hm => ?_⟩
      by_cases hmk : m = k
      · rw [hmk]
        simpa using hin
      · exact hcovered m hnm (by omega)
    next hout =>
      obtain rfl := Option.some.inj h
      exact ⟨by omega, by simpa using hout, fun m hnm hm => absurd hm (by omega)⟩

theorem fillStep_of_free {e n : Nat} {f : FillEng} (h : tfind s.lft.fills e = some f) (hbusy : f.busy = false)
    (hfree : fillFree f f.next = some n) (hroom : writeRoom s (f.region * 16384 + n) = true) :
    fillStep e s = enterWrite 6 (f.region * 16384 + n) (List.replicate 64 0) false
      (withFills (tput s.lft.fills e { f with next := n, busy := true }) s) := by
  simp only [fillStep, h, hbusy, hfree, hroom, if_true, Bool.false_eq_true, if_false]
  rfl

/-- One active element makes the whole fold. -/
theorem foldl_of_one {f : State → Nat → State} {e : Nat} {l : List Nat} (he : e ∈ l) (hs : ∀ x, x ≠ e → f s x = s)
    (ht : ∀ x, f (f s e) x = f s e) : l.foldl f s = f s e := by
  induction l with
  | nil => cases he
  | cons x l ih =>
    rw [List.foldl_cons]
    by_cases hx : x = e
    · rw [hx]
      exact foldl_of_still fun y _ => ht y
    · rw [hs x hx]
      exact ih ((List.mem_cons.1 he).resolve_left (Ne.symm hx))

theorem tfind_singleton_ne {α : Type} {k j : Nat} {v : α} (h : j ≠ k) : tfind [(k, v)] j = none := if_neg (Ne.symm h)

theorem tfind_singleton {α : Type} (k : Nat) (v : α) : tfind [(k, v)] k = some v := if_pos rfl

theorem tput_singleton {α : Type} (k : Nat) (v w : α) : tput [(k, v)] k w = [(k, w)] := by simp [tput]

/-- The one engine issues its next zero write. -/
theorem loftGoOn_of_engine {e : Fin 8} {f : FillEng} {n : Nat} (hwaits : s.lft.waits = []) (hfills : s.lft.fills = [(e.val, f)])
    (hbusy : f.busy = false) (hfree : fillFree f f.next = some n) (hroom : writeRoom s (f.region * 16384 + n) = true) :
    loftGoOn s = enterWrite 6 (f.region * 16384 + n) (List.replicate 64 0) false (withFills [(e.val, { f with next := n, busy := true })] s) := by
  have hstep := fillStep_of_free (by rw [hfills]; exact tfind_singleton _ _) hbusy hfree hroom
  rw [hfills, tput_singleton] at hstep
  have hsteps : fillSteps s = fillStep e.val s := by
    refine foldl_of_one (List.mem_range.2 e.isLt) (fun x hx => fillStep_of_none ?_) fun x => ?_
    · rw [hfills, tfind_singleton_ne hx]
    · rw [hstep]
      by_cases hx : x = e.val
      · exact fillStep_of_busy (f := { f with next := n, busy := true }) (hx ▸ tfind_singleton _ _) rfl
      · exact fillStep_of_none (tfind_singleton_ne hx)
  rw [loftGoOn_eq, hsteps, hstep]
  exact pushWaits_of_none hwaits

/-! ### An engine that is done (R342) -/

/-- The region of a finished engine is valid, and the engine free. -/
def regionFilled (e : Nat) (f : FillEng) (s : State) : State :=
  { s with lft := { s.lft with valid := natInsert f.region s.lft.valid, fills := tdel s.lft.fills e } }

theorem fillRegion_of_done {e : Nat} {f : FillEng} (h : tfind s.lft.fills e = some f) (hnext : f.next = 0) (hbusy : f.busy = false) :
    fillRegion e s = regionFilled e f s := by
  simp only [fillRegion, h, hnext, hbusy, Bool.false_eq_true, not_false_eq_true, and_self, if_true]
  rfl

theorem fillRegion_of_working {e : Nat} {f : FillEng} (h : tfind s.lft.fills e = some f) (hwork : f.next ≠ 0 ∨ f.busy = true) :
    fillRegion e s = s := by
  simp only [fillRegion, h]
  refine if_neg ?_
  rintro ⟨hnext, hbusy⟩
  exact hwork.elim (fun hne => hne hnext) hbusy

theorem mem_natInsert_of_mem {x k : Nat} {l : List Nat} (h : x ∈ l) : x ∈ natInsert k l := by
  induction l with
  | nil => cases h
  | cons j l ih =>
    rw [natInsert]
    split
    · exact List.mem_cons_of_mem _ h
    · split
      · exact h
      · rcases List.mem_cons.1 h with hx | hx
        · exact hx ▸ List.mem_cons_self
        · exact List.mem_cons_of_mem _ (ih hx)

theorem tfind_tdel_same {α : Type} (l : Tbl α) (k : Nat) : tfind (tdel l k) k = none := by
  induction l with
  | nil => rfl
  | cons p l ih =>
    by_cases hp : p.1 = k
    · simpa [tdel, hp] using ih
    · simpa [tdel, hp, tfind] using ih

/-- A step of an engine leaves the waiting writes and the chains, and changes no other engine. -/
theorem fillStep_kept (e : Nat) (s : State) : (fillStep e s).lft.waits = s.lft.waits ∧ (fillStep e s).chains = s.chains ∧
    ((fillStep e s).lft.fills = s.lft.fills ∨ ∃ g, (fillStep e s).lft.fills = tput s.lft.fills e g) := by
  unfold fillStep
  split
  · exact ⟨rfl, rfl, .inl rfl⟩
  · split
    · exact ⟨rfl, rfl, .inl rfl⟩
    · split
      · exact ⟨rfl, rfl, .inr ⟨_, rfl⟩⟩
      · extract_lets blk
        split
        · exact ⟨rfl, rfl, .inr ⟨_, rfl⟩⟩
        · exact ⟨rfl, rfl, .inl rfl⟩

/-- No step of an engine puts another to work. -/
theorem fillStep_free {e k : Nat} (h : tfind s.lft.fills k = none) : tfind (fillStep e s).lft.fills k = none := by
  by_cases hk : k = e
  · rw [← hk, fillStep_of_none h, h]
  · obtain ⟨-, -, hsame | ⟨g, hput⟩⟩ := fillStep_kept e s
    · rw [hsame, h]
    · rw [hput, tfind_tput_ne _ _ hk, h]

theorem fillSteps_free {k : Nat} (h : tfind s.lft.fills k = none) : tfind (fillSteps s).lft.fills k = none := by
  unfold fillSteps
  generalize List.range 8 = l
  induction l generalizing s with
  | nil => exact h
  | cons e l ih => exact ih (fillStep_free h)

theorem fillSteps_waiting (s : State) : (fillSteps s).lft.waits = s.lft.waits ∧ (fillSteps s).chains = s.chains := by
  unfold fillSteps
  generalize List.range 8 = l
  induction l generalizing s with
  | nil => exact ⟨rfl, rfl⟩
  | cons e l ih =>
    obtain ⟨hwaits, hchains, -⟩ := fillStep_kept e s
    obtain ⟨hwaits', hchains'⟩ := ih (fillStep e s)
    exact ⟨hwaits'.trans hwaits, hchains'.trans hchains⟩

/-- With nothing that waits, an engine that is free stays so. -/
theorem loftFlow_free {k : Nat} (hwaits : s.lft.waits = []) (hlanded : ∀ c, (chainGet s c).landed = false)
    (h : tfind s.lft.fills k = none) : tfind (loftFlow s).lft.fills k = none := by
  obtain ⟨hsame, hchains⟩ := fillSteps_waiting s
  have hland (c : Nat) : (chainGet (fillSteps s) c).landed = false := by
    rw [chainGet, hchains]
    exact hlanded c
  rw [loftFlow, loftGoOn_eq, pushWaits_of_none (hsame.trans hwaits), landBursts_of_none hland]
  exact fillSteps_free h

theorem answers_fillEngineDone {e : Fin 8} {f : FillEng} (h : tfind s.lft.fills e = some f) :
    (f.next = 0 → f.busy = false → answers (.fillEngineDone e) s fun t =>
      f.region ∈ t.lft.valid ∧ (∀ r, r ∈ s.lft.valid → r ∈ t.lft.valid) ∧
      (s.lft.waits = [] → (∀ c, (chainGet s c).landed = false) → tfind t.lft.fills e = none) ∧
      t.lft.mem = s.lft.mem ∧ changesOnly { Parts.events with chains := true, pac := true, lft := true } s t) ∧
    (f.next ≠ 0 ∨ f.busy = true → answers (.fillEngineDone e) s fun t => t.lft.valid = s.lft.valid) := by
  have honly : changesOnly { Parts.events with chains := true, pac := true, lft := true } s (loftFlow (fillRegion e s)) :=
    (does_execFillEngineDone e (.refl _ s) rfl _ rfl).only
  have hkept := NoIssue.loftFlow (fillRegion e s)
  refine ⟨fun hnext hbusy => ⟨_, rfl, ?_⟩, fun hwork => ⟨_, rfl, ?_⟩⟩
  · rw [fillRegion_of_done h hnext hbusy] at hkept honly ⊢
    rw [hkept.valid, hkept.mem]
    exact ⟨mem_natInsert_self _ _, fun r => mem_natInsert_of_mem,
      fun hwaits hlanded => loftFlow_free (s := regionFilled e f s) hwaits hlanded (tfind_tdel_same _ _), rfl, honly⟩
  · rw [fillRegion_of_working h hwork] at hkept ⊢
    exact hkept.valid

end Sys2Proof.Machine
end

section
/-! PROOFS. The reads of the loft that return (R337 to R339, R341, R345). -/

-- One theorem at a time, as under Laws/: the package as one text takes too much memory in many threads.
set_option Elab.async false

namespace Sys2Proof.Machine

variable {s t u : State}

/-! ### A clean block (R334, R337) -/

theorem xorBytes_zero (bs : List Byte) : xorBytes bs 0 = bs := by
  simp [xorBytes, Nat.zero_div]

/-- No error on the way. -/
def NoError (e : DramErr) : Prop := e.data = 0 ∧ e.check = 0 ∧ e.addr = false

theorem struck_clean {e : DramErr} (h : NoError e) (raw : List Byte) : struck raw {} e = (raw, {}) := by
  obtain ⟨hdata, hcheck, haddr⟩ := h
  have hzero (n : Nat) : (0 : BitVec n).toNat = 0 := Nat.zero_mod _
  simp only [struck, hdata, hcheck, haddr, hzero, xorBytes_zero, Nat.xor_zero, Bool.false_eq_true, if_false]

theorem strikeBlock_clean {e : DramErr} (h : NoError e) (blk : Nat) (s : State) : strikeBlock blk e s = s := if_pos ⟨h.1, h.2.1⟩

theorem cls_clean : Mark.cls {} = 0 := by
  simp [Mark.cls, Mark.devices, bits]

theorem decodeBlock_clean (client blk : Nat) (raw : List Byte) (stale : Bool) (s : State) :
    decodeBlock client blk raw {} stale s = (0, raw, noteClean blk s) := if_pos cls_clean

theorem decodeBlock_of_ue {m : Mark} (h : 2 ≤ m.cls) (client blk : Nat) (raw : List Byte) (stale : Bool) (s : State) :
    decodeBlock client blk raw m stale s = (m.cls, raw, noteUe blk m.cls client s) :=
  (if_neg (by omega)).trans (if_neg (by omega))

/-- A clean read at most frees an entry of the repeat table (R350). -/
theorem noteClean_eq (blk : Nat) (s : State) : ∃ l, noteClean blk s = { s with lft := { s.lft with rpt := l } } := by
  unfold noteClean
  split
  · split
    · exact ⟨_, rfl⟩
    · exact ⟨s.lft.rpt, rfl⟩
  · exact ⟨s.lft.rpt, rfl⟩

theorem finishRead_clean {q : LftReq} {e : DramErr} (h : NoError e) (hdry : q.dry = false) (hmark : q.mark = {}) (s : State) :
    finishRead q e s = deliverRead q 0 q.data (noteClean (q.addr / 64) s) := by
  simp only [finishRead, hdry, hmark, struck_clean h, strikeBlock_clean h, ite_self, decodeBlock_clean, Bool.false_eq_true, if_false]

theorem finishRead_of_ue {q : LftReq} {e : DramErr} (hdry : q.dry = false) (hstale : q.stale = false)
    (hcls : 2 ≤ (struck q.data q.mark e).2.cls) (s : State) :
    finishRead q e s = deliverRead q (struck q.data q.mark e).2.cls (struck q.data q.mark e).1
      (noteUe (q.addr / 64) (struck q.data q.mark e).2.cls q.client (strikeBlock (q.addr / 64) e s)) := by
  simp only [finishRead, hdry, hstale, decodeBlock_of_ue hcls, Bool.false_eq_true, if_false]

theorem payOwed_of_none {c : Nat} (h : (lftGet s c).owed = 0) : payOwed c s = s := if_neg (by rintro ⟨-, howed, -⟩; omega)

theorem deliverRead_realTime {q : LftReq} (hwho : q.who = .realTime) (cls : Nat) (bs : List Byte) (s : State) :
    deliverRead q cls bs s = if cls ≥ 2 then loseRead q s else s := by simp only [deliverRead, hwho]

theorem deliverRead_chain {q : LftReq} {k : Nat} (hwho : q.who = .chain k) (cls : Nat) (bs : List Byte) (s : State) :
    deliverRead q cls bs s = chainSet s k { chainGet s k with got := tput (chainGet s k).got (q.addr / 64) (cls, bs) } := by
  simp only [deliverRead, hwho]

theorem deliverRead_partial {q : LftReq} (hwho : q.who = .partial_) (cls : Nat) (bs : List Byte) (s : State) :
    deliverRead q cls bs s = withWaits (mergeRead (q.addr / 64) cls bs s.lft.waits) s := by
  simp only [deliverRead, hwho]
  rfl

/-! ### The oldest issued read returns -/

/-- The oldest issued read has left its channel, with `r` behind it. -/
def readReturned (c : Nat) (r : List LftReq) (s : State) : State := lftSet s c { lftGet s c with issued := r, retryRun := 0 }

theorem lftGet_readReturned (c : Nat) (r : List LftReq) (s : State) :
    lftGet (readReturned c r s) c = { lftGet s c with issued := r, retryRun := 0 } := lftGet_lftSet_same _ _ _

theorem readReturned_pop (c : Nat) (r : List LftReq) (s : State) : SamePop s (readReturned c r s) := .lftSet _ rfl

theorem readReturned_waiting (c : Nat) (r : List LftReq) (s : State) : SameWaiting s (readReturned c r s) := .lftSet _ _ s

/-- No other queue changes. -/
theorem writes_readReturned (c k : Nat) (r : List LftReq) (s : State) : (lftGet (readReturned c r s) k).writes = (lftGet s k).writes := by
  by_cases hk : k = c
  · rw [hk, lftGet_readReturned]
  · rw [readReturned, lftGet_lftSet_ne _ _ hk]

section Returns

variable {c : Fin 12} {q : LftReq} {r : List LftReq} (hissued : (lftGet s c).issued = q :: r) (hdry : q.dry = false)
include hissued

theorem exec_loftReadComplete (err : DramErr) : exec (.loftReadComplete c err false) s =
    .next (loftFlow (payOwed c (finishRead q err (readReturned c r s)))) := by
  show execLoftReadComplete c err false s = _
  simp only [execLoftReadComplete, hissued, Bool.false_eq_true, false_and, if_false]
  rfl

include hdry

theorem exec_loftReadComplete_mapErr (err : DramErr) : exec (.loftReadComplete c err true) s =
    .next (loftFlow (payOwed c (finishRead q err (loseMapWord (regionOf q.addr / 64) (readReturned c r s))))) := by
  show execLoftReadComplete c err true s = _
  simp only [execLoftReadComplete, hissued, hdry, Bool.false_eq_true, and_false, if_false, if_true]
  rfl

variable (howed : (lftGet s c).owed = 0) {err : DramErr} (hmark : q.mark = {}) (hclean : NoError err)
include howed hmark hclean

/-- A good real-time read only leaves its queue. -/
theorem answers_goodRead (hquiet : loftQuiet s) (hwho : q.who = .realTime) : answers (.loftReadComplete c err false) s fun t =>
    (lftGet t c).issued = r ∧ (lftGet t c).retryRun = 0 ∧ t.lft.mem = s.lft.mem ∧ t.lft.ueCount = s.lft.ueCount ∧
    changesOnly { lft := true } s t := by
  refine ⟨_, exec_loftReadComplete hissued err, ?_⟩
  obtain ⟨l, hnote⟩ := noteClean_eq (q.addr / 64) (readReturned c r s)
  have hget : lftGet (noteClean (q.addr / 64) (readReturned c r s)) c = { lftGet s c with issued := r, retryRun := 0 } := by
    rw [hnote]
    exact lftGet_readReturned c r s
  have hquiet' : loftQuiet (noteClean (q.addr / 64) (readReturned c r s)) := by
    rw [hnote]
    exact (readReturned_waiting c r s).quiet hquiet
  rw [finishRead_clean hclean hdry hmark, deliverRead_realTime hwho, if_neg (by decide), payOwed_of_none (by rw [hget]; exact howed),
    loftFlow_of_quiet hquiet', hget, hnote]
  exact ⟨rfl, rfl, rfl, rfl, rfl⟩

/-- A good read for a chain goes to the chain. -/
theorem answers_chainRead {k : Nat} (hquiet : loftQuiet s) (hwho : q.who = .chain k) : answers (.loftReadComplete c err false) s fun t =>
    (chainGet t k).got = tput (chainGet s k).got (q.addr / 64) (0, q.data) ∧ (lftGet t c).issued = r ∧
    changesOnly { chains := true, lft := true } s t := by
  refine ⟨_, exec_loftReadComplete hissued err, ?_⟩
  obtain ⟨l, hnote⟩ := noteClean_eq (q.addr / 64) (readReturned c r s)
  rw [finishRead_clean hclean hdry hmark, deliverRead_chain hwho, hnote]
  generalize hu : chainSet { readReturned c r s with lft := { (readReturned c r s).lft with rpt := l } } k _ = u
  have hget : lftGet u c = { lftGet s c with issued := r, retryRun := 0 } := by
    rw [← hu]
    exact lftGet_readReturned c r s
  have hquiet' : loftQuiet u := by
    obtain ⟨hwaits, hfills, hlanded⟩ := hquiet
    rw [← hu]
    refine ⟨hwaits, hfills, fun j => ?_⟩
    by_cases hj : j = k
    · rw [hj, chainGet_chainSet_same]
      exact hlanded k
    · rw [chainGet_chainSet_ne _ _ hj]
      exact hlanded j
  rw [payOwed_of_none (by rw [hget]; exact howed), loftFlow_of_quiet hquiet', hget]
  refine ⟨?_, rfl, by rw [← hu]; rfl⟩
  rw [← hu, chainGet_chainSet_same]
  rfl

end Returns

/-! ### A map word is lost (R345) -/

theorem mem_foldl_natInsert {x : Nat} {l v : List Nat} (h : x ∈ l ∨ x ∈ v) : x ∈ l.foldl (fun v k => natInsert k v) v := by
  induction l generalizing v with
  | nil => exact h.resolve_left List.not_mem_nil
  | cons k l ih =>
    refine ih ?_
    rcases h with h | h
    · rcases List.mem_cons.1 h with rfl | h
      · exact .inr (mem_natInsert_self _ _)
      · exact .inl h
    · exact .inr (mem_natInsert_of_mem h)

/-- The loft with map word `w` lost, before its report. -/
theorem loseMapWord_lft (w : Nat) (s : State) : (loseMapWord w s).lft.ch = s.lft.ch ∧ (loseMapWord w s).lft.waits = s.lft.waits ∧
    (loseMapWord w s).lft.fills = s.lft.fills.filter (fun p => p.2.region / 64 != w) ∧ (loseMapWord w s).lft.mapUe = true ∧
    (loseMapWord w s).lft.valid = ((List.range 64).map (fun i => 64 * w + i)).foldl (fun v r => natInsert r v) s.lft.valid := by
  simp only [loseMapWord, raiseItems_lft, and_self]

theorem loseMapWord_valid {w x : Nat} (h : x / 64 = w) (s : State) : x ∈ (loseMapWord w s).lft.valid := by
  obtain ⟨-, -, -, -, hvalid⟩ := loseMapWord_lft w s
  rw [hvalid]
  exact mem_foldl_natInsert (.inl (List.mem_map.2 ⟨x % 64, List.mem_range.2 (by omega), by omega⟩))

theorem loseMapWord_quiet (w : Nat) (hs : loftQuiet s) : loftQuiet (loseMapWord w s) := by
  obtain ⟨hwaits, hfills, hlanded⟩ := hs
  obtain ⟨-, hwaits', hfills', -, -⟩ := loseMapWord_lft w s
  have honly : changesOnly { Parts.events with lft := true } s (loseMapWord w s) := (does_loseMapWord w (.refl _ s) rfl).only
  refine ⟨hwaits'.trans hwaits, by rw [hfills', hfills]; rfl, fun k => ?_⟩
  rw [chainGet, same_chains honly rfl]
  exact hlanded k

/-! ### A partial write gets its block (R339) -/

theorem mergePart_length {old : List Byte} {o : Nat} {bs : List Byte} (hold : old.length = 64) (h : o + bs.length ≤ 64) :
    (mergePart old o bs).length = 64 := by
  simp only [mergePart, List.length_append, List.length_take, List.length_drop, hold]
  omega

/-- The write that waited for its block, with the block. -/
def WaitWrite.merged (w : WaitWrite) (blk : Nat) (bs : List Byte) : WaitWrite :=
  { w with addr := 64 * blk, bytes := mergePart bs (w.addr % 64) w.bytes, reading := false, part := true }

theorem mergeRead_one {w : WaitWrite} {blk : Nat} (hreading : w.reading = true) (hblk : w.addr / 64 = blk) (bs : List Byte) :
    mergeRead blk 0 bs [w] = [w.merged blk bs] := by
  simp [mergeRead, hreading, hblk, WaitWrite.merged]

/-- The block has returned, and with it the write goes on. -/
theorem loftFlow_of_merged {w : WaitWrite} {blk : Nat} {bs : List Byte} (hwaits : s.lft.waits = [w.merged blk bs]) (hfills : s.lft.fills = [])
    (hlanded : ∀ k, (chainGet s k).landed = false) (hblk : w.addr / 64 = blk) (hfit : w.addr % 64 + w.bytes.length ≤ 64)
    (hlen : bs.length = 64) (hpoison : w.poison = false) (hvalid : regionOf w.addr ∈ s.lft.valid) (hroom : writeRoom s blk = true) :
    loftFlow s = withWaits [] (enterWrite 2 blk (mergePart bs (w.addr % 64) w.bytes) false s) := by
  have hdiv : 64 * blk / 64 = blk := by omega
  have hvalid' : regionOf (64 * blk) ∈ s.lft.valid := by rwa [← regionOf_eq_div, hdiv, ← hblk, regionOf_eq_div]
  have hgo : loftGoOn s = withWaits [] (enterWrite 2 (64 * blk / 64) (mergePart bs (w.addr % 64) w.bytes) false s) :=
    loftGoOn_of_block (w := w.merged blk bs) hwaits hvalid' hfills rfl (Nat.mul_mod_right 64 _) (mergePart_length hlen hfit) hpoison
      (by show writeRoom s (64 * blk / 64) = true; rwa [hdiv])
  rw [hdiv] at hgo
  rw [loftFlow, hgo]
  exact landBursts_of_none hlanded

/-- The state once a block has returned for the waiting writes `ws`, with `l` the repeat table. -/
def partReturned (c : Nat) (r : List LftReq) (ws : List WaitWrite) (l : Tbl Rpt) (s : State) : State :=
  withWaits ws { readReturned c r s with lft := { (readReturned c r s).lft with rpt := l } }

theorem partReturned_pop (c : Nat) (r : List LftReq) (ws : List WaitWrite) (l : Tbl Rpt) (s : State) : SamePop s (partReturned c r ws l s) :=
  readReturned_pop c r s

theorem writes_partReturned (c : Nat) (r : List LftReq) (ws : List WaitWrite) (l : Tbl Rpt) (s : State) (k : Nat) :
    (lftGet (partReturned c r ws l s) k).writes = (lftGet s k).writes := writes_readReturned c k r s

/-! ### A block that cannot be corrected (R337, R338) -/

theorem strikeBlock_kept (blk : Nat) (e : DramErr) (s : State) : SameWaiting s (strikeBlock blk e s) ∧
    (strikeBlock blk e s).lft.ch = s.lft.ch ∧ (strikeBlock blk e s).lft.ueCount = s.lft.ueCount ∧
    changesOnly { lft := true } s (strikeBlock blk e s) := by
  unfold strikeBlock
  split
  · exact ⟨.refl s, rfl, rfl, rfl⟩
  · exact ⟨⟨rfl, rfl, rfl⟩, rfl, rfl, rfl⟩

/-- A block that cannot be corrected is counted, and its address stands. -/
def ueCounted (blk cls client : Nat) (s : State) : State :=
  let c := (coordOf s (64 * blk)).ch
  let s1 := lftSet s c { lftGet s c with ue := sat32 ((lftGet s c).ue + 1) }
  { s1 with lft := { s1.lft with
      ueCount := sat32 (s1.lft.ueCount + 1), lapUe := s1.lft.lapUe + 1, errAddr := 64 * blk,
      errInfo := cls * 2 ^ 29 + client * 2 ^ 25 + c * 2 ^ 17 } }

theorem noteUe_eq (blk cls client : Nat) (s : State) :
    noteUe blk cls client s = raiseItems 0x1303 4 [(8, 64 * blk), (1, cls), (1, client)] (ueCounted blk cls client s) := rfl

theorem ueCounted_only (blk cls client : Nat) (s : State) : changesOnly { lft := true } s (ueCounted blk cls client s) := rfl

theorem ueCounted_ch (blk cls client : Nat) (s : State) (k : Nat) : (lftGet (ueCounted blk cls client s) k).pop = (lftGet s k).pop ∧
    (lftGet (ueCounted blk cls client s) k).issued = (lftGet s k).issued ∧
    (lftGet (ueCounted blk cls client s) k).owed = (lftGet s k).owed := by
  have hget : lftGet (ueCounted blk cls client s) k = lftGet (lftSet s (coordOf s (64 * blk)).ch
      { lftGet s (coordOf s (64 * blk)).ch with ue := sat32 ((lftGet s (coordOf s (64 * blk)).ch).ue + 1) }) k := lftGet_congr rfl k
  rw [hget]
  by_cases hk : k = (coordOf s (64 * blk)).ch
  · rw [hk, lftGet_lftSet_same]
    exact ⟨rfl, rfl, rfl⟩
  · rw [lftGet_lftSet_ne _ _ hk]
    exact ⟨rfl, rfl, rfl⟩

theorem noteUe_waiting (blk cls client : Nat) (s : State) : SameWaiting s (noteUe blk cls client s) := by
  have honly : changesOnly { Parts.events with lft := true } s (noteUe blk cls client s) := (does_noteUe _ _ _ (.refl _ s) rfl).only
  refine ⟨?_, ?_, same_chains honly rfl⟩
  · rw [noteUe_eq, raiseItems_lft]
    rfl
  · rw [noteUe_eq, raiseItems_lft]
    rfl

theorem noteUe_kept (blk cls client : Nat) (s : State) : SamePop s (noteUe blk cls client s) ∧
    (∀ k, (lftGet (noteUe blk cls client s) k).issued = (lftGet s k).issued ∧ (lftGet (noteUe blk cls client s) k).owed = (lftGet s k).owed) ∧
    (noteUe blk cls client s).lft.ueCount = sat32 (s.lft.ueCount + 1) ∧ (noteUe blk cls client s).lft.errAddr = 64 * blk ∧
    (noteUe blk cls client s).pac = s.pac ∧ reported 0x1303 4 s (noteUe blk cls client s) := by
  rw [noteUe_eq, raiseItems_lft, raiseItems_pac]
  refine ⟨fun k => ?_, fun k => ?_, rfl, rfl, rfl, reported_between (B := {}) (ueCounted_only _ _ _ _) rfl⟩
  · rw [lftGet_raiseItems]
    exact (ueCounted_ch _ _ _ _ k).1
  · rw [lftGet_raiseItems]
    exact (ueCounted_ch _ _ _ _ k).2

theorem addLoss_mem {st : Stripe} (hst : s.pac.stripe = some st) (m : MkRec) :
    ∃ st', (addLoss m s).pac.stripe = some st' ∧ m ∈ st'.lostTiles := by
  unfold addLoss
  split
  next h => cases h.symm.trans hst
  next st0 hst0 =>
    obtain rfl : st = st0 := Option.some.inj (hst.symm.trans hst0)
    split
    next hin => exact ⟨st, hst, by simpa using hin⟩
    · extract_lets j late s1
      have h1 : s1.pac.stripe = some { st with lostTiles := st.lostTiles ++ [m] } := setStripe_stripe _ _
      split
      · obtain ⟨n, hn⟩ := (raiseStripeLoss_raises m s1).some_stripe h1
        exact ⟨_, hn, List.mem_append_right _ (List.mem_singleton_self m)⟩
      · exact ⟨_, h1, List.mem_append_right _ (List.mem_singleton_self m)⟩

theorem loseRead_of_none (hst : s.pac.stripe = none) (q : LftReq) : loseRead q s = s := by simp only [loseRead, hst]

/-- The loss of a row of a tile-pass stands with the stripe (R338). -/
theorem loseRead_mem {st : Stripe} {q : LftReq} (hst : s.pac.stripe = some st) (hrank : q.rank = 1) :
    ∃ st', (loseRead q s).pac.stripe = some st' ∧
      lossTile 5 (coordOf s q.addr).ch q.pass (8 * q.group) (min (8 * q.group + 7) (st.slotEnd - 1)) q.tile ∈ st'.lostTiles := by
  have heq : loseRead q s =
      addLoss (lossTile 5 (coordOf s q.addr).ch q.pass (8 * q.group) (min (8 * q.group + 7) (st.slotEnd - 1)) q.tile) s := by
    simp only [loseRead, hst, hrank, if_true]
  rw [heq]
  exact addLoss_mem hst _

section Returns

variable {c : Fin 12} {q : LftReq} {r : List LftReq} (hissued : (lftGet s c).issued = q :: r) (hdry : q.dry = false)
  (howed : (lftGet s c).owed = 0) {err : DramErr}
include hissued hdry howed

section Good

variable (hmark : q.mark = {}) (hclean : NoError err)
include hmark hclean

/-- With its map word lost a good read returns all the same. -/
theorem answers_mapWordRead (hquiet : loftQuiet s) (hwho : q.who = .realTime) : answers (.loftReadComplete c err true) s fun t =>
    t.lft.mapUe = true ∧ (∀ x, x / 64 = regionOf q.addr / 64 → x ∈ t.lft.valid) ∧ (lftGet t c).issued = r := by
  refine ⟨_, exec_loftReadComplete_mapErr hissued hdry err, ?_⟩
  have hquiet' := loseMapWord_quiet (regionOf q.addr / 64) ((readReturned_waiting c r s).quiet hquiet)
  obtain ⟨hch, -, -, hmap, -⟩ := loseMapWord_lft (regionOf q.addr / 64) (readReturned c r s)
  have hvalid (x : Nat) (hx : x / 64 = regionOf q.addr / 64) := loseMapWord_valid hx (readReturned c r s)
  rw [finishRead_clean hclean hdry hmark, deliverRead_realTime hwho, if_neg (by decide)]
  have hget : lftGet (loseMapWord (regionOf q.addr / 64) (readReturned c r s)) c = { lftGet s c with issued := r, retryRun := 0 } :=
    (lftGet_congr hch c).trans (lftGet_readReturned c r s)
  generalize loseMapWord (regionOf q.addr / 64) (readReturned c r s) = u at hquiet' hmap hvalid hget ⊢
  obtain ⟨l, hnote⟩ := noteClean_eq (q.addr / 64) u
  have hget' : lftGet (noteClean (q.addr / 64) u) c = { lftGet s c with issued := r, retryRun := 0 } := by
    rw [hnote]
    exact hget
  have hquiet'' : loftQuiet (noteClean (q.addr / 64) u) := by
    rw [hnote]
    exact hquiet'
  rw [payOwed_of_none (by rw [hget']; exact howed), loftFlow_of_quiet hquiet'']
  refine ⟨?_, fun x hx => ?_, by rw [hget']⟩
  · rw [hnote]
    exact hmap
  · rw [hnote]
    exact hvalid x hx

/-- The merged block enters its write queue. -/
theorem answers_partialRead {w : WaitWrite} (hwaits : s.lft.waits = [w]) (hfills : s.lft.fills = [])
    (hlanded : ∀ k, (chainGet s k).landed = false) (hwho : q.who = .partial_) (hreading : w.reading = true)
    (hblk : w.addr / 64 = q.addr / 64) (hfit : w.addr % 64 + w.bytes.length ≤ 64) (hlen : q.data.length = 64) (hpoison : w.poison = false)
    (hvalid : regionOf w.addr ∈ s.lft.valid) (hroom : writeRoom s (q.addr / 64) = true) :
    answers (.loftReadComplete c err false) s fun t =>
      let ch := (coordOf s w.addr).ch
      t.lft.waits = [] ∧ (∃ p, (lftGet t ch).writes = (lftGet s ch).writes ++ [p] ∧ p.addr = 64 * (q.addr / 64) ∧ p.client = 2 ∧
        p.data = mergePart q.data (w.addr % 64) w.bytes) ∧ changesOnly { lft := true } s t := by
  refine ⟨_, exec_loftReadComplete hissued err, ?_⟩
  obtain ⟨l, hnote⟩ := noteClean_eq (q.addr / 64) (readReturned c r s)
  have hdeliver : finishRead q err (readReturned c r s) = partReturned c r [w.merged (q.addr / 64) q.data] l s := by
    rw [finishRead_clean hclean hdry hmark, deliverRead_partial hwho, hnote]
    refine congrArg (withWaits · _) ?_
    show mergeRead (q.addr / 64) 0 q.data s.lft.waits = _
    rw [hwaits, mergeRead_one hreading hblk]
  have hpop := partReturned_pop c r [w.merged (q.addr / 64) q.data] l s
  have hwrites := writes_partReturned c r [w.merged (q.addr / 64) q.data] l s
  have hget : lftGet (partReturned c r [w.merged (q.addr / 64) q.data] l s) c = { lftGet s c with issued := r, retryRun := 0 } :=
    lftGet_readReturned c r s
  have hroom' : writeRoom (partReturned c r [w.merged (q.addr / 64) q.data] l s) (q.addr / 64) = true := by
    rw [writeRoom, hpop.coordOf, hwrites]
    exact hroom
  have hflow := loftFlow_of_merged (s := partReturned c r [w.merged (q.addr / 64) q.data] l s) rfl hfills hlanded hblk hfit hlen hpoison hvalid hroom'
  have honly : changesOnly { lft := true } s (partReturned c r [w.merged (q.addr / 64) q.data] l s) := rfl
  generalize partReturned c r [w.merged (q.addr / 64) q.data] l s = u at hdeliver hpop hwrites hget hflow honly
  have hch : (coordOf s w.addr).ch = (coordOf u (64 * (q.addr / 64))).ch := by rw [hpop.coordOf, ← hblk, coordOf_block]
  have hentered := enterWrite_writes (s := u) 2 (q.addr / 64) (mergePart q.data (w.addr % 64) w.bytes) false
  rw [← hch, hwrites] at hentered
  rw [hdeliver, payOwed_of_none (by rw [hget]; exact howed), hflow]
  refine ⟨rfl, ⟨writeReq 2 (q.addr / 64) (mergePart q.data (w.addr % 64) w.bytes) false u, ?_, rfl, rfl, rfl⟩,
    only_trans honly (B := { lft := true }) rfl⟩
  rw [lftGet_withWaits, hentered]

end Good

/-- A real-time read that cannot be corrected is counted, and loses its tile-pass. -/
theorem answers_lostRead (hstale : q.stale = false) (hcls : 2 ≤ (struck q.data q.mark err).2.cls) (hwho : q.who = .realTime)
    (hquiet : loftQuiet s) : answers (.loftReadComplete c err false) s fun t =>
      t.lft.ueCount = sat32 (s.lft.ueCount + 1) ∧ t.lft.errAddr = 64 * (q.addr / 64) ∧ (lftGet t c).issued = r ∧
      (s.pac.stripe = none → reported 0x1303 4 s t) ∧
      (∀ st, s.pac.stripe = some st → q.rank = 1 → ∃ st', t.pac.stripe = some st' ∧
        lossTile 5 (coordOf s q.addr).ch q.pass (8 * q.group) (min (8 * q.group + 7) (st.slotEnd - 1)) q.tile ∈ st'.lostTiles) := by
  refine ⟨_, exec_loftReadComplete hissued err, ?_⟩
  rw [finishRead_of_ue hdry hstale hcls, deliverRead_realTime hwho, if_pos hcls]
  obtain ⟨hwaitS, hchS, hueS, honlyS⟩ := strikeBlock_kept (q.addr / 64) err (readReturned c r s)
  have hpopS : SamePop s (strikeBlock (q.addr / 64) err (readReturned c r s)) := fun k =>
    (SamePop.of_ch hchS k).trans (readReturned_pop c r s k)
  have hgetS : lftGet (strikeBlock (q.addr / 64) err (readReturned c r s)) c = { lftGet s c with issued := r, retryRun := 0 } :=
    (lftGet_congr hchS c).trans (lftGet_readReturned c r s)
  have honly : changesOnly { lft := true } s (strikeBlock (q.addr / 64) err (readReturned c r s)) :=
    only_trans (lftSet_only s c _) honlyS
  have hwait := (readReturned_waiting c r s).trans hwaitS
  generalize strikeBlock (q.addr / 64) err (readReturned c r s) = u at hpopS hgetS honly hwait hueS ⊢
  have hwaitU := noteUe_waiting (q.addr / 64) (struck q.data q.mark err).2.cls q.client u
  obtain ⟨hpopU, hgetU, hueU, haddrU, hpacU, hreportedU⟩ := noteUe_kept (q.addr / 64) (struck q.data q.mark err).2.cls q.client u
  have hpop : SamePop s (noteUe (q.addr / 64) (struck q.data q.mark err).2.cls q.client u) := fun k => (hpopU k).trans (hpopS k)
  have hreported := reported_after hreportedU (same_glb honly rfl) (same_slo honly rfl) (same_tim honly rfl)
  have hpac := hpacU.trans (same_pac honly rfl)
  have hwait' := hwait.trans hwaitU
  obtain ⟨hissuedU, howedU⟩ := hgetU c
  rw [hgetS] at hissuedU howedU
  rw [hueS] at hueU
  generalize noteUe (q.addr / 64) (struck q.data q.mark err).2.cls q.client u = v at *
  have hlose : changesOnly { Parts.events with pac := true, store := true } v (loseRead q v) := (does_loseRead q (.refl _ v) rfl).only
  have hlft := same_lft hlose rfl
  have hget : lftGet (loseRead q v) c = lftGet v c := lftGet_congr (by rw [hlft]) c
  have hwaitL : SameWaiting v (loseRead q v) := ⟨by rw [hlft], by rw [hlft], same_chains hlose rfl⟩
  rw [payOwed_of_none (by rw [hget, howedU]; exact howed), loftFlow_of_quiet ((hwait'.trans hwaitL).quiet hquiet), hget, hlft]
  refine ⟨hueU, haddrU, hissuedU, fun hst => ?_, fun st hst hrank => ?_⟩
  · rw [loseRead_of_none (by rw [hpac, hst])]
    exact hreported
  · rw [← hpop.coordOf]
    exact loseRead_mem (by rw [hpac, hst]) hrank

end Returns

end Sys2Proof.Machine
end

section
/-! PROOFS. The gleaner (R346, R347), and O52. -/

-- One theorem at a time, as under Laws/: the package as one text takes too much memory in many threads.
set_option Elab.async false

namespace Sys2Proof.Machine

variable {s t u : State}

/-! ### The gleaner (R346, R347) -/

theorem gleanNext_congr (hvalid : t.lft.valid = s.lft.valid) (hfills : t.lft.fills = s.lft.fills) (a : Nat) :
    gleanNext t a = gleanNext s a := by
  simp only [gleanNext, hvalid, hfills]

/-- The lap has ended in `ms`, and is reported. -/
def Lapped (ms : W32) (s t : State) : Prop :=
  t.lft.glnPos = 0 ∧ t.lft.glnLap = ms.toNat ∧ t.lft.glnLaps = wrap32 (s.lft.glnLaps + 1) ∧ t.lft.lapSlow = false ∧ reported 0x130B 0 s t

/-- The loft with its lap over. -/
def lapOver (ms : Nat) (s : State) : State :=
  { s with lft := { s.lft with glnLap := ms, glnLaps := wrap32 (s.lft.glnLaps + 1), lapCe := 0, lapUe := 0, lapSlow := false, glnPos := 0 } }

theorem lapOver_only (ms : Nat) (s : State) : changesOnly { lft := true } s (lapOver ms s) := rfl

theorem lapEnd_eq (ms : Nat) (s : State) :
    lapEnd ms s = raiseItems 0x130B 0 [(4, ms), (4, s.lft.lapCe), (4, s.lft.lapUe)] (lapOver ms s) := rfl

theorem lapEnd_only (ms : Nat) (s : State) : changesOnly { Parts.events with lft := true } s (lapEnd ms s) := (does_lapEnd ms (.refl _ s) rfl).only

theorem lapEnd_mem (ms : Nat) (s : State) : (lapEnd ms s).lft.mem = s.lft.mem := by
  rw [lapEnd_eq, raiseItems_lft]
  rfl

theorem lapEnd_lapped (ms : W32) {A : Parts} (h : changesOnly A s u) (hlaps : u.lft.glnLaps = s.lft.glnLaps)
    (hA : A.glb = false ∧ A.slo = false ∧ A.tim = false := by exact ⟨rfl, rfl, rfl⟩) : Lapped ms s (lapEnd ms.toNat u) := by
  have hreported : reported 0x130B 0 u (lapEnd ms.toNat u) := by
    rw [lapEnd_eq]
    exact reported_between (B := {}) (lapOver_only _ _) rfl
  refine ⟨?_, ?_, ?_, ?_, reported_after hreported (same_glb h hA.1) (same_slo h hA.2.1) (same_tim h hA.2.2)⟩
  · rw [lapEnd_eq, raiseItems_lft]
    rfl
  · rw [lapEnd_eq, raiseItems_lft]
    rfl
  · rw [lapEnd_eq, raiseItems_lft, ← hlaps]
    rfl
  · rw [lapEnd_eq, raiseItems_lft]
    rfl

/-- The state behind a clean gleaner read of the block at `a`. -/
def gleaned (c a : Nat) (s : State) : State :=
  noteClean (a / 64) (cntLft 5 (some c) 1 (accessRow c { rank := 5, client := 5, addr := a } s))

theorem gleaned_only (c a : Nat) (s : State) : changesOnly { free := true, lft := true, obs := true } s (gleaned c a s) :=
  (does_noteClean _ (does_cntLft _ _ _ (does_accessRow c _ (.refl _ s) rfl) rfl) rfl).only

theorem gleaned_kept (c a : Nat) (s : State) : (gleaned c a s).lft.mem = s.lft.mem ∧ (gleaned c a s).lft.valid = s.lft.valid ∧
    (gleaned c a s).lft.fills = s.lft.fills ∧ (gleaned c a s).lft.glnLaps = s.lft.glnLaps := by
  obtain ⟨l, hnote⟩ := noteClean_eq (a / 64) (cntLft 5 (some c) 1 (accessRow c { rank := 5, client := 5, addr := a } s))
  obtain ⟨rows, preds, nbr, haccess, -⟩ := accessRow_lft c { rank := 5, client := 5, addr := a } s
  rw [gleaned, hnote]
  dsimp only
  rw [cntLft_lft, haccess]
  exact ⟨rfl, rfl, rfl, rfl⟩

theorem rawBlock_plain (hmarks : s.lft.marks = []) (hraw : s.lft.raw = []) (blk : Nat) : (rawBlock s blk).2 = {} := by
  simp [rawBlock, hraw, hmarks, tget]

/-- The gleaner steps to the next block, or ends its lap. -/
def gleanStep (ms a : Nat) (s : State) : State := match gleanNext s (a + 64) with
  | some b => { s with lft := { s.lft with glnPos := b } }
  | none => lapEnd ms s

/-- The lap is late. -/
def lapLate (s : State) : State := { s with lft := { s.lft with lapSlow := true } }

theorem lapLate_only (s : State) : changesOnly { lft := true } s (lapLate s) := rfl

section Gleans

variable (hon : bitAt (regGet s 0x13C040) 16 = true) (htrained : s.lft.trained = true)
include hon htrained

theorem exec_gleanerRead {err : DramErr} (hclean : NoError err) {a : Nat} (hnext : gleanNext s s.lft.glnPos = some a)
    (hup : chUp s (coordOf s a).ch = true) (hreads : (lftGet s (coordOf s a).ch).reads = []) (hwrites : (lftGet s (coordOf s a).ch).writes = [])
    (hmarks : s.lft.marks = []) (hraw : s.lft.raw = []) (ms : W32) :
    exec (.gleanerRead err ms) s = .next (gleanStep ms.toNat a (gleaned (coordOf s a).ch a s)) := by
  show execGleanerRead err ms s = _
  simp only [execGleanerRead, hon, htrained, hnext, hup, hreads, hwrites, List.isEmpty_nil, not_true_eq_false, or_self, if_false,
    rawBlock_plain hmarks hraw, struck_clean hclean, strikeBlock_clean hclean, decodeBlock_clean]
  unfold gleanStep gleaned
  cases gleanNext (noteClean (a / 64) (cntLft 5 (some (coordOf s a).ch) 1
    (accessRow (coordOf s a).ch { rank := 5, client := 5, addr := a } s))) (a + 64) <;> rfl

theorem exec_gleanerRead_lapped (err : DramErr) (ms : W32) (hnext : gleanNext s s.lft.glnPos = none) (hpos : s.lft.glnPos ≠ 0) :
    exec (.gleanerRead err ms) s = .next (lapEnd ms.toNat s) := by
  show execGleanerRead err ms s = _
  simp only [execGleanerRead, hon, htrained, hnext, hpos, not_true_eq_false, or_self, if_false]
  rfl

theorem exec_gleanerLapSlow {secs : W32} (hslow : s.lft.lapSlow = false) (hsecs : regGet s 0x13C054 < secs.toNat) :
    exec (.gleanerLapSlow secs) s = .next (raiseItems 0x130C 1 [(4, secs.toNat)] (lapLate s)) :=
  if_pos ⟨hon, htrained, by simp [hslow], hsecs⟩

/-- The gleaner goes from block to block. -/
theorem answers_gleanerRead {err : DramErr} (hclean : NoError err) {a : Nat} (hnext : gleanNext s s.lft.glnPos = some a)
    (hup : chUp s (coordOf s a).ch = true) (hreads : (lftGet s (coordOf s a).ch).reads = []) (hwrites : (lftGet s (coordOf s a).ch).writes = [])
    (hmarks : s.lft.marks = []) (hraw : s.lft.raw = []) (ms : W32) : answers (.gleanerRead err ms) s fun t =>
      changesOnly { Parts.events with free := true, lft := true } s t ∧ t.lft.mem = s.lft.mem ∧
      (∀ b, gleanNext s (a + 64) = some b → t.lft.glnPos = b ∧ t.lft.glnLaps = s.lft.glnLaps) ∧
      (gleanNext s (a + 64) = none → Lapped ms s t) := by
  have hexec := exec_gleanerRead hon htrained hclean hnext hup hreads hwrites hmarks hraw ms
  have honly := gleaned_only (coordOf s a).ch a s
  obtain ⟨hmem, hvalid, hfills, hlaps⟩ := gleaned_kept (coordOf s a).ch a s
  refine ⟨_, hexec, (does_execGleanerRead err ms (.refl _ s) rfl _ hexec).only, ?_⟩
  generalize gleaned (coordOf s a).ch a s = u at honly hmem hvalid hfills hlaps
  rw [gleanStep, gleanNext_congr hvalid hfills]
  cases gleanNext s (a + 64) with
  | some b => exact ⟨hmem, fun b' hb => ⟨Option.some.inj hb, hlaps⟩, fun h => (by cases h)⟩
  | none => exact ⟨(lapEnd_mem _ _).trans hmem, fun b' hb => (by cases hb), fun _ => lapEnd_lapped ms honly hlaps⟩

end Gleans

/-! ### All of it -/

/-- The first write to an invalid region takes an engine. -/
theorem answers_firstWrite {w : WaitWrite} (hwaits : s.lft.waits = [w]) (hlanded : ∀ c, (chainGet s c).landed = false)
    (hreading : w.reading = false) (halign : w.addr % 64 = 0) (hlen : w.bytes.length = 64) (hpart : w.part = false) (hpoison : w.poison = false)
    (hvalid : regionOf w.addr ∉ s.lft.valid) (hfills : s.lft.fills = []) (hroom : writeRoom s (w.addr / 64) = true) :
    answers .fillEngineStart s fun t =>
      t.lft.fills = [(0, { region := regionOf w.addr, mask := [w.addr / 64] })] ∧ t.lft.waits = [] ∧ t.lft.mem = s.lft.mem ∧
      (∃ q, (lftGet t (coordOf s w.addr).ch).writes = (lftGet s (coordOf s w.addr).ch).writes ++ [q] ∧ q.addr = w.addr ∧ q.data = w.bytes ∧
        q.client = w.client) ∧ changesOnly { lft := true } s t := by
  have hgo := loftGoOn_of_first hwaits hfills hvalid hreading halign hlen hpart hpoison hroom
  have hblk : 64 * (w.addr / 64) = w.addr := by omega
  generalize hu : withFills [(0, { region := regionOf w.addr, mask := [w.addr / 64] })] s = u at hgo
  have hflow : loftFlow s = withWaits [] (enterWrite w.client (w.addr / 64) w.bytes false u) := by
    rw [loftFlow, hgo]
    exact landBursts_of_none (by rw [← hu]; exact hlanded)
  refine ⟨_, congrArg Host.Outcome.next hflow, by rw [← hu]; rfl, rfl, by rw [← hu]; rfl,
    ⟨writeReq w.client (w.addr / 64) w.bytes false u, ?_, hblk, rfl, rfl⟩, by rw [← hu]; rfl⟩
  have hentered := enterWrite_writes (s := u) w.client (w.addr / 64) w.bytes false
  have hpop : SamePop s u := by
    rw [← hu]
    exact fun _ => rfl
  have hget (k : Nat) : lftGet u k = lftGet s k := by
    rw [← hu]
    rfl
  rw [hblk, hpop.coordOf, hget] at hentered
  rw [lftGet_withWaits, hentered]

/-- An engine issues its next zero write. -/
theorem answers_engineStep {e : Fin 8} {f : FillEng} {n : Nat} (hwaits : s.lft.waits = []) (hlanded : ∀ c, (chainGet s c).landed = false)
    (hfills : s.lft.fills = [(e.val, f)]) (hbusy : f.busy = false) (hfree : fillFree f f.next = some n)
    (hroom : writeRoom s (f.region * 16384 + n) = true) : answers .fillEngineStart s fun t =>
      let blk := f.region * 16384 + n
      let ch := (coordOf s (64 * blk)).ch
      n < f.next ∧ blk ∉ f.mask ∧ (∀ m, n < m → m < f.next → f.region * 16384 + m ∈ f.mask) ∧
      t.lft.fills = [(e.val, { f with next := n, busy := true })] ∧
      (∃ q, (lftGet t ch).writes = (lftGet s ch).writes ++ [q] ∧ q.addr = 64 * blk ∧ q.data = List.replicate 64 0) ∧
      changesOnly { lft := true } s t := by
  have hgo := loftGoOn_of_engine hwaits hfills hbusy hfree hroom
  generalize hu : withFills [(e.val, { f with next := n, busy := true })] s = u at hgo
  have hflow : loftFlow s = enterWrite 6 (f.region * 16384 + n) (List.replicate 64 0) false u := by
    rw [loftFlow, hgo]
    exact landBursts_of_none (by rw [← hu]; exact hlanded)
  obtain ⟨hlt, hout, hcovered⟩ := fillFree_spec hfree
  refine ⟨_, congrArg Host.Outcome.next hflow, hlt, hout, hcovered, by rw [← hu]; rfl,
    ⟨writeReq 6 (f.region * 16384 + n) (List.replicate 64 0) false u, ?_, rfl, rfl⟩, by rw [← hu]; rfl⟩
  have hentered := enterWrite_writes (s := u) 6 (f.region * 16384 + n) (List.replicate 64 0) false
  have hpop : SamePop s u := by
    rw [← hu]
    exact fun _ => rfl
  have hget (k : Nat) : lftGet u k = lftGet s k := by
    rw [← hu]
    rfl
  rw [hpop.coordOf, hget] at hentered
  exact hentered

/-- Settles O52: the flow of writes through the fill engines, the return of one read, and the steps of the gleaner. -/
theorem loftFillsAndGleaner : Obligations.LoftFillsAndGleaner := by
  intro s
  refine ⟨fun w hwaits hlanded hreading halign hlen hpart hpoison hvalid => ⟨fun hfills hroom => ?_, fun hnone hbusy => ?_⟩,
    fun e f n hwaits hlanded hfills hbusy hfree hroom => answers_engineStep hwaits hlanded hfills hbusy hfree hroom,
    fun e f h => answers_fillEngineDone h, fun c q r err hissued howed hdry => ⟨fun hmark hdata hcheck haddr => ?_, fun hstale hcls hwho hquiet =>
      answers_lostRead hissued hdry howed hstale hcls hwho hquiet⟩, fun err ms hon htrained => ⟨?_, fun hnext hpos => ?_⟩,
    fun secs hon htrained hslow hsecs => ?_⟩
  · exact answers_firstWrite hwaits hlanded hreading halign hlen hpart hpoison hvalid hfills hroom
  · refine congrArg Host.Outcome.next ?_
    rw [loftFlow, loftGoOn_of_busy hwaits hvalid hnone hbusy, landBursts_of_none hlanded]
  · have hclean : NoError err := ⟨hdata, hcheck, haddr⟩
    exact ⟨fun hquiet hwho => answers_goodRead hissued hdry howed hmark hclean hquiet hwho,
      fun hquiet hwho => answers_mapWordRead hissued hdry howed hmark hclean hquiet hwho,
      fun k hquiet hwho => answers_chainRead hissued hdry howed hmark hclean hquiet hwho,
      fun w hwaits hfills hlanded hwho hreading hblk _ hfit hlen hpoison hvalid hroom =>
        answers_partialRead hissued hdry howed hmark hclean hwaits hfills hlanded hwho hreading hblk hfit hlen hpoison hvalid hroom⟩
  · intro a hnext hup hreads hwrites hdata hcheck haddr hmarks hraw
    exact answers_gleanerRead hon htrained ⟨hdata, hcheck, haddr⟩ hnext hup hreads hwrites hmarks hraw ms
  · exact ⟨_, exec_gleanerRead_lapped hon htrained err ms hnext hpos, lapEnd_lapped ms (A := {}) rfl rfl, lapEnd_only _ _⟩
  · exact ⟨_, exec_gleanerLapSlow hon htrained hslow hsecs, raiseItems_lft _ _ _ _, reported_between (B := {}) (lapLate_only s) rfl,
      only_trans (lapLate_only s) (raiseItems_only _ _ _ _)⟩

end Sys2Proof.Machine
end

section
/-! PROOFS. The completion and event ring (R370 to R379): what signalling a vector, writing and holding an entry leave of the host block, and
O11, O12 and O13. -/

-- One theorem at a time, as under Laws/: the package as one text takes too much memory in many threads.
set_option Elab.async false

namespace Sys2Proof.Machine

variable {s t : State}

/-! ### Vectors (R378, R379) -/

theorem vecOpen_congr (h : t.hst = s.hst) (v : Nat) : vecOpen t v = vecOpen s v := by simp only [vecOpen, linkLive, h]

theorem signal_of_open {v : Nat} (h : vecOpen s v = true) : signal v s = emit (.msix v) s := if_pos h

theorem signal_of_shut {v : Nat} (h : vecOpen s v = false) : v ∈ (signal v s).hst.pba ∧ (signal v s).outs = s.outs := by
  rw [signal, if_neg (by simp [h])]
  split
  next hv => exact ⟨hv, rfl⟩
  next => exact ⟨List.mem_cons_self, rfl⟩

theorem signal_only (v : Nat) (s : State) : changesOnly { outs := true, hst := true } s (signal v s) := (does_signal v (.refl _ s) rfl).only

/-! ### An entry is written (R371, R374) -/

/-- The requests that write an entry at the tail, the later one first. -/
def entryWrites (e : Entry) (s : State) : List Output :=
  let base := regPair s 0x10014 0x10018 + 64 * s.hst.tail
  if bitAt (regGet s 0x10000) 1 then
    [.hostWrite base ((entryBytes s e).take 4), .hostWrite (base + 4) ((entryBytes s e).drop 4)]
  else [.hostWrite base (entryBytes s e)]

/-- The host block with the ring's tail one place on. -/
def tailOn (s : State) : Hst :=
  { s.hst with
    tail := (s.hst.tail + 1) % cplSize s, seq := wrap32 (s.hst.seq + 1),
    cyclePhase := if (s.hst.tail + 1) % cplSize s = 0 then !s.hst.cyclePhase else s.hst.cyclePhase }

/-- The entry has been written; whether vector 0 is signalled is still to come. -/
def entryWritten (e : Entry) (s : State) : State :=
  cntHst 2 none 1 { s with
    outs := entryWrites e s ++ s.outs,
    hst := { tailOn s with modCount := if s.hst.modCount + 1 ≥ max 1 (bits (regGet s 0x1002C) 23 16) then 0 else s.hst.modCount + 1 } }

theorem writeEntry_eq (e : Entry) (s : State) : writeEntry e s =
    if s.hst.modCount + 1 ≥ max 1 (bits (regGet s 0x1002C) 23 16) then signal 0 (entryWritten e s) else entryWritten e s := by
  unfold writeEntry entryWritten entryWrites
  cases bitAt (regGet s 0x10000) 1 <;> rfl

/-- Writing an entry moves the tail on and signals vector 0, or counts towards it. -/
theorem writeEntry_writes (e : Entry) (s : State) :
    (∃ n p, (writeEntry e s).hst = { tailOn s with modCount := n, pba := p }) ∧
    ((writeEntry e s).outs = entryWrites e s ++ s.outs ∨ (writeEntry e s).outs = .msix 0 :: (entryWrites e s ++ s.outs)) := by
  obtain ⟨n, hhst⟩ : ∃ n, (entryWritten e s).hst = { tailOn s with modCount := n } := ⟨_, cntHst_hst _ _ _ _⟩
  have houts : (entryWritten e s).outs = entryWrites e s ++ s.outs := cntHst_outs _ _ _ _
  rw [writeEntry_eq]
  split
  · obtain ⟨p, hp⟩ := signal_hst 0 (entryWritten e s)
    exact ⟨⟨n, p, by rw [hp, hhst]⟩, houts ▸ signal_outs 0 _⟩
  · exact ⟨⟨n, s.hst.pba, hhst⟩, .inl houts⟩

/-! ### An entry is held (R375) -/

/-- Vector 18 is signalled, once while entries are held. -/
def holdSignal (s : State) : State := if s.hst.held18 then s else signal 18 { s with hst := { s.hst with held18 := true } }

/-- One more INFO or WARN event is dropped. -/
def dropMinor (s : State) : State :=
  { s with hst := { s.hst with dropRc := sat32 (s.hst.dropRc + 1), dropSince := s.hst.dropSince + 1, evDrop := true } }

/-- One more entry is lost. -/
def loseEntry (s : State) : State :=
  { s with hst := { s.hst with lostRc := sat32 (s.hst.lostRc + 1), lostSince := s.hst.lostSince + 1, evLost := true } }

/-- The held entries with one more behind them. -/
def addHeld (e : Entry) (s : State) : State := { s with hst := { s.hst with hold := s.hst.hold ++ [e] } }

theorem holdEntry_eq (e : Entry) (s : State) : holdEntry e s =
    if e.minor ∧ (s.hst.hold.filter Entry.minor).length ≥ 256 then holdSignal (dropMinor s)
    else if s.hst.hold.length ≥ 1024 then holdSignal (loseEntry s)
    else holdSignal (cntHst 3 none 1 (addHeld e s)) := rfl

/-- From `s` to `t` the host block comes to `h`, with vector 18 signalled where it was not before. -/
structure Held (h : Hst) (s t : State) : Prop where
  hst : ∃ p, t.hst = { h with held18 := true, pba := p }
  quiet : s.hst.held18 = true → t.outs = s.outs ∧ t.hst.pba = s.hst.pba

theorem Held.held18 {h : Hst} (g : Held h s t) : t.hst.held18 = true := by
  obtain ⟨p, hp⟩ := g.hst
  rw [hp]

/-- What the host block holds beside vector 18 is what it came to. -/
theorem Held.kept {h : Hst} (g : Held h s t) :
    t.hst.hold = h.hold ∧ t.hst.dropRc = h.dropRc ∧ t.hst.lostRc = h.lostRc ∧ t.hst.evDrop = h.evDrop ∧ t.hst.evLost = h.evLost := by
  obtain ⟨p, hp⟩ := g.hst
  rw [hp]
  exact ⟨rfl, rfl, rfl, rfl, rfl⟩

theorem holdSignal_held {u : State} (houts : u.outs = s.outs) (hheld : u.hst.held18 = s.hst.held18) (hpba : u.hst.pba = s.hst.pba) :
    Held u.hst s (holdSignal u) := by
  unfold holdSignal
  split
  next h => exact ⟨⟨u.hst.pba, by rw [← h]⟩, fun _ => ⟨houts, hpba⟩⟩
  next h =>
    obtain ⟨p, hp⟩ := signal_hst 18 { u with hst := { u.hst with held18 := true } }
    exact ⟨⟨p, hp⟩, fun hs => absurd (hheld.trans hs) h⟩

section HoldEntry

variable {e : Entry}

/-- A minor event that finds its places taken is dropped. -/
theorem holdEntry_drops (h : e.minor = true ∧ 256 ≤ (s.hst.hold.filter Entry.minor).length) :
    Held (dropMinor s).hst s (holdEntry e s) := by
  rw [holdEntry_eq, if_pos h]
  exact holdSignal_held rfl rfl rfl

/-- Any other entry that finds the queue full is lost. -/
theorem holdEntry_loses (h : ¬ (e.minor = true ∧ 256 ≤ (s.hst.hold.filter Entry.minor).length)) (hfull : 1024 ≤ s.hst.hold.length) :
    Held (loseEntry s).hst s (holdEntry e s) := by
  rw [holdEntry_eq, if_neg h, if_pos hfull]
  exact holdSignal_held rfl rfl rfl

/-- An entry that finds a place is held behind the others. -/
theorem holdEntry_holds (h : ¬ (e.minor = true ∧ 256 ≤ (s.hst.hold.filter Entry.minor).length)) (hroom : s.hst.hold.length < 1024) :
    Held (addHeld e s).hst s (holdEntry e s) := by
  rw [holdEntry_eq, if_neg h, if_neg (by omega)]
  have hheld := holdSignal_held (s := s) (u := cntHst 3 none 1 (addHeld e s))
    (by rw [cntHst_outs]; rfl) (by rw [cntHst_hst]; rfl) (by rw [cntHst_hst]; rfl)
  rwa [cntHst_hst] at hheld

end HoldEntry

theorem holdEntry_only (e : Entry) (s : State) : changesOnly { outs := true, hst := true, obs := true } s (holdEntry e s) :=
  (does_holdEntry e (.refl _ s) rfl).only

/-- Settles O12: each of the three outcomes of holding an entry is one update of the host block beside vector 18. -/
theorem holdQueueCaps : Obligations.HoldQueueCaps := by
  intro e s
  have hcases : (∃ h, Held h s (holdEntry e s)) := by
    by_cases h : e.minor = true ∧ 256 ≤ (s.hst.hold.filter Entry.minor).length
    · exact ⟨_, holdEntry_drops h⟩
    · rcases Nat.lt_or_ge s.hst.hold.length 1024 with hroom | hfull
      · exact ⟨_, holdEntry_holds h hroom⟩
      · exact ⟨_, holdEntry_loses h hfull⟩
  obtain ⟨_, hheld⟩ := hcases
  refine ⟨hheld.held18, holdEntry_only e s, fun hminor hplaces => ?_, fun h hfull => ?_, fun h hroom => ?_, hheld.quiet⟩
  · obtain ⟨hhold, hdrop, hlost, hevDrop, -⟩ := (holdEntry_drops ⟨hminor, hplaces⟩).kept
    exact ⟨hhold, hdrop, hevDrop, hlost⟩
  · obtain ⟨hhold, hdrop, hlost, -, hevLost⟩ := (holdEntry_loses h hfull).kept
    exact ⟨hhold, hlost, hevLost, hdrop⟩
  · obtain ⟨hhold, hdrop, hlost, -, -⟩ := (holdEntry_holds h hroom).kept
    exact ⟨hhold, hdrop, hlost⟩

/-! ### A command completes (R370, R371) -/

/-- The state with command `id` out of flight. -/
def retired (id : Nat) (s : State) : State := { s with hst := { s.hst with inflight := s.hst.inflight.filter (fun d => d.id != id) } }

theorem complete_eq {id : Nat} {c : Cmd} (h : cmdFind s id = some c) (st : Nat) (data : List Byte) :
    complete id st data s = pushEntry (completionEntry c st data s) (retired id s) := by
  simp only [complete, h]
  rfl

theorem complete_only (id st : Nat) (data : List Byte) (s : State) :
    changesOnly { outs := true, hst := true, obs := true } s (complete id st data s) := only_complete id st data rfl

theorem pushEntry_of_open (hnone : s.hst.hold = []) (hopen : ringOpen s = true) (e : Entry) : pushEntry e s = writeEntry e s :=
  if_pos ⟨by rw [hnone]; rfl, hopen⟩

theorem pushEntry_of_shut (hshut : ringOpen s = false) (e : Entry) : pushEntry e s = holdEntry e s :=
  if_neg fun h => by simp [hshut] at h

/-- Settles O11: a completion is the entry's way into the ring or the hold queue, from the state without its command. -/
theorem Ring.completionEntry : Obligations.CompletionEntry := by
  intro id st data s c hc
  refine ⟨cmdFind_complete id st data s, complete_only id st data s, fun hnone hopen => ?_, fun hshut hroom => ?_⟩
  · rw [complete_eq hc, pushEntry_of_open (s := retired id s) hnone hopen]
    obtain ⟨⟨n, p, hhst⟩, houts⟩ := writeEntry_writes (Machine.completionEntry c st data s) (retired id s)
    rw [hhst]
    exact ⟨houts, rfl, rfl, rfl⟩
  · rw [complete_eq hc, pushEntry_of_shut (s := retired id s) hshut]
    have hheld := holdEntry_holds (s := retired id s) (e := Machine.completionEntry c st data s) (fun h => Bool.false_ne_true h.1) hroom
    exact ⟨hheld.kept.1, hheld.held18⟩

/-! ### The hold queue drains, moderation and unmasking (R375, R379) -/

theorem drainHold_of_none (h : s.hst.hold = []) (n : Nat) : drainHold n s = s := by
  cases n with
  | zero => rfl
  | succ n => simp only [drainHold, h]

theorem drainHold_one {e : Entry} (h : s.hst.hold = [e]) (hopen : ringOpen s = true) (n : Nat) :
    drainHold (n + 1) s = writeEntry e { s with hst := { s.hst with hold := [] } } := by
  have hhst := (writeEntry_writes e { s with hst := { s.hst with hold := [] } }).1
  obtain ⟨m, p, hhst⟩ := hhst
  simp only [drainHold, h, hopen, if_true]
  exact drainHold_of_none (by rw [hhst]; rfl) n

/-- With nothing dropped or lost, an empty hold queue ends the signal alone. -/
theorem overflowReport_of_none_missed (h : s.hst.hold = []) (hmissed : s.hst.dropSince + s.hst.lostSince = 0) :
    overflowReport s = { s with hst := { s.hst with held18 := false } } := by
  simp only [overflowReport, h, List.isEmpty_nil, if_true]
  exact if_neg (by omega)

theorem exec_holdQueueDrain_of_shut (hshut : ringOpen s = false) : exec .holdQueueDrain s = .next s := by
  show execHoldQueueDrain s = _
  simp only [execHoldQueueDrain, hshut, Bool.false_eq_true, if_false]
  split <;> rfl

theorem answers_holdQueueDrain_one {e : Entry} (h : s.hst.hold = [e]) (hopen : ringOpen s = true)
    (hmissed : s.hst.dropSince + s.hst.lostSince = 0) : answers .holdQueueDrain s fun t =>
      t.hst.hold = [] ∧ t.hst.held18 = false ∧ t.hst.tail = (s.hst.tail + 1) % cplSize s ∧
      t.hst.seq = wrap32 (s.hst.seq + 1) ∧ changesOnly Parts.events s t := by
  obtain ⟨⟨n, p, hhst⟩, -⟩ := writeEntry_writes e { s with hst := { s.hst with hold := [] } }
  have hexec : exec .holdQueueDrain s = .next (overflowReport (drainHold 1024 s)) := by
    show execHoldQueueDrain s = _
    simp only [execHoldQueueDrain, h, List.isEmpty_cons, Bool.false_eq_true, if_false, hopen, if_true]
    rfl
  refine ⟨_, hexec, ?_⟩
  have honly : changesOnly Parts.events s (overflowReport (drainHold 1024 s)) :=
    (does_overflowReport (does_drainHold 1024 (.refl _ s) rfl) rfl).only
  rw [drainHold_one h hopen, overflowReport_of_none_missed (by rw [hhst]; rfl) (by rw [hhst]; exact hmissed)] at honly ⊢
  refine ⟨?_, rfl, ?_, ?_, honly⟩
  · show (writeEntry e _).hst.hold = _
    rw [hhst]
    rfl
  · show (writeEntry e _).hst.tail = _
    rw [hhst]
    rfl
  · show (writeEntry e _).hst.seq = _
    rw [hhst]
    rfl

/-- The host block with no completion counted towards vector 0. -/
def modCleared (s : State) : State := { s with hst := { s.hst with modCount := 0 } }

theorem answers_msixModerationTimer (hon : regGet s 0x1002C % 65536 ≠ 0) (hcount : 0 < s.hst.modCount) :
    answers .msixModerationTimer s fun t =>
      t.hst.modCount = 0 ∧ (vecOpen s 0 = true → t.outs = .msix 0 :: s.outs) ∧
      (vecOpen s 0 = false → 0 ∈ t.hst.pba ∧ t.outs = s.outs) ∧ changesOnly { outs := true, hst := true } s t := by
  have hexec : exec .msixModerationTimer s = .next (signal 0 (modCleared s)) := if_pos ⟨hon, hcount⟩
  have hvec : vecOpen (modCleared s) 0 = vecOpen s 0 := rfl
  refine ⟨_, hexec, ?_, fun h => ?_, fun h => ?_, ?_⟩
  · obtain ⟨p, hp⟩ := signal_hst 0 (modCleared s)
    rw [hp]
    rfl
  · rw [signal_of_open (hvec.trans h)]
    rfl
  · exact signal_of_shut (hvec.trans h)
  · exact only_trans (A := { hst := true }) rfl (signal_only 0 (modCleared s))

/-- The vector leaves the list of the masked. -/
def unmask (vec : Nat) (s : State) : State := { s with hst := { s.hst with unmasked := natInsert vec s.hst.unmasked } }

/-- The pending message of a vector goes out. -/
def sendVector (vec : Nat) (s : State) : State := emit (.msix vec) { s with hst := { s.hst with pba := s.hst.pba.filter (fun i => i != vec) } }

theorem exec_msixVectorUnmask {vec : Fin 64} (hmasked : vec.val ∉ s.hst.unmasked) (v : W32) : exec (.msixVectorUnmask vec v) s =
    .next (if vec.val ∈ s.hst.pba ∧ vecOpen (unmask vec s) vec = true then sendVector vec (unmask vec s) else unmask vec s) := by
  have hvec := vec.isLt
  have hoff : ¬ 16 * vec.val + 12 ≥ 0x400 := by omega
  have hentry : (16 * vec.val + 12) % 16 = 12 ∧ (16 * vec.val + 12) / 16 = vec.val := by omega
  show ok (bar2Dword (16 * vec.val + 12) (clearBit v.toNat 0) s) = _
  simp only [bar2Dword, if_neg hoff, hentry, if_true, vectorCtrl, bitAt_clearBit_same, Bool.false_eq_true, if_false, if_neg hmasked]
  rfl

theorem vecOpen_unmask (vec : Nat) (s : State) : vecOpen (unmask vec s) vec = (linkLive s && s.hst.msixEn && !s.hst.msixMask) := by
  have hmem : (natInsert vec s.hst.unmasked).contains vec = true := List.contains_iff_mem.2 (mem_natInsert_self _ _)
  show (linkLive s && s.hst.msixEn && !s.hst.msixMask && (natInsert vec s.hst.unmasked).contains vec) = _
  rw [hmem, Bool.and_true]

theorem answers_msixVectorUnmask {vec : Fin 64} (hmasked : vec.val ∉ s.hst.unmasked) (v : W32) : answers (.msixVectorUnmask vec v) s fun t =>
    let mayGo : Bool := linkLive s && s.hst.msixEn && !s.hst.msixMask
    vec.val ∈ t.hst.unmasked ∧ (mayGo = true → vec.val ∉ t.hst.pba) ∧ (mayGo = false → t.hst.pba = s.hst.pba) ∧
    t.outs = (if mayGo && s.hst.pba.contains vec.val then .msix vec.val :: s.outs else s.outs) ∧
    changesOnly { outs := true, hst := true } s t := by
  refine ⟨_, exec_msixVectorUnmask hmasked v, ?_⟩
  rw [vecOpen_unmask]
  generalize (linkLive s && s.hst.msixEn && !s.hst.msixMask) = mayGo
  have hin : vec.val ∈ natInsert vec.val s.hst.unmasked := mem_natInsert_self _ _
  split
  next h =>
    obtain ⟨hpending, hgo⟩ := h
    refine ⟨hin, fun _ => by simp [sendVector], fun hno => absurd hgo (by simp [hno]), ?_, rfl⟩
    simp only [hgo, List.contains_iff_mem.2 hpending, Bool.and_true, if_true]
    rfl
  next h =>
    refine ⟨hin, fun hgo hpending => h ⟨hpending, hgo⟩, fun _ => rfl, ?_, rfl⟩
    exact (if_neg fun hb => h (by simpa [and_comm] using hb)).symm

/-- Settles O13: the queue drains in one write, the timer is one signal, and an unmasked vector sends what is pending. -/
theorem ringRows : Obligations.RingRows := fun _ =>
  ⟨exec_holdQueueDrain_of_shut, fun _ => answers_holdQueueDrain_one, answers_msixModerationTimer, fun _ v hmasked => answers_msixVectorUnmask hmasked v⟩

end Sys2Proof.Machine
end

section
/-! PROOFS. The PCIe link and the reset of the host interface (R363, R467, R506), and O14. -/

-- One theorem at a time, as under Laws/: the package as one text takes too much memory in many threads.
set_option Elab.async false

namespace Sys2Proof.Machine

variable {s t : State}

/-! ### The link comes up (R467) -/

theorem foldl_emit_only (f : Nat → Output) (l : List Nat) (s : State) :
    changesOnly { outs := true } s (l.foldl (fun u v => emit (f v) u) s) :=
  (Does.foldl (F := { outs := true }) (.refl _ s) fun _ _ h => does_emit _ h rfl).only

/-- The host block with its link up and the configuration that the root complex has written. -/
def linkedHst (rate : Fin 6) (width : Fin 17) (mps : Fin 8) (conf : PcieConf) (h : Hst) : Hst :=
  { h with linkUp := true, rate := rate, width := width, mps := mps, mrrs := conf.mrrs,
           bar0 := conf.bar0.toNat / 2 ^ 24 * 2 ^ 24, bar2Base := conf.bar2.toNat / 8192 * 8192,
           msixEn := conf.msixEn, msixMask := conf.msixMask, d3hot := conf.d3hot }

/-- The pending vectors that may not go yet, in the host block `h`. -/
def stillPending (h : Hst) (s : State) : List Nat := h.pba.filter (fun v => !vecOpen { s with hst := h } v)

/-- The pending messages that host block `h` lets out leave it. -/
def releasePending (h : Hst) (s : State) : State :=
  (h.pba.filter (vecOpen { s with hst := h })).foldl (fun u v => emit (.msix v) u) { s with hst := { h with pba := stillPending h s } }

theorem exec_pcieLinkUp (hperst : s.pins.perstN = true) (hrst : s.pins.sysRstN = true) (rate : Fin 6) (width : Fin 17) (mps : Fin 8)
    (conf : PcieConf) : exec (.pcieLinkUp rate width mps conf) s = .next (releasePending (linkedHst rate width mps conf s.hst) s) :=
  if_pos ⟨hperst, hrst⟩

theorem releasePending_hst (h : Hst) (s : State) : (releasePending h s).hst = { h with pba := stillPending h s } :=
  same_hst (foldl_emit_only _ _ _) rfl

theorem releasePending_only (h : Hst) (s : State) : changesOnly { outs := true, hst := true } s (releasePending h s) :=
  only_trans (A := { hst := true }) (B := { outs := true }) (u := { s with hst := { h with pba := stillPending h s } }) rfl (foldl_emit_only _ _ _)

theorem releasePending_outs_of_none {h : Hst} (hnone : h.pba = []) (s : State) : (releasePending h s).outs = s.outs := by
  simp only [releasePending, hnone, List.filter_nil, List.foldl_nil]

/-- What stays pending may not go. -/
theorem vecOpen_of_stillPending {h : Hst} {v : Nat} (hv : v ∈ stillPending h s) : vecOpen (releasePending h s) v = false := by
  have hshut : vecOpen { s with hst := h } v = false := by simpa [stillPending] using (List.mem_filter.1 hv).2
  rw [← hshut]
  simp only [vecOpen, linkLive, releasePending_hst]

theorem answers_pcieLinkUp (hperst : s.pins.perstN = true) (hrst : s.pins.sysRstN = true) (rate : Fin 6) (width : Fin 17) (mps : Fin 8)
    (conf : PcieConf) : answers (.pcieLinkUp rate width mps conf) s fun t =>
      t.hst.linkUp = true ∧ t.hst.rate = rate ∧ t.hst.width = width ∧ t.hst.mps = mps ∧ t.hst.mrrs = conf.mrrs ∧
      t.hst.msixEn = conf.msixEn ∧ t.hst.msixMask = conf.msixMask ∧ t.hst.d3hot = conf.d3hot ∧
      t.hst.bar0 = conf.bar0.toNat / 2 ^ 24 * 2 ^ 24 ∧ t.hst.bar2Base = conf.bar2.toNat / 8192 * 8192 ∧
      (s.hst.pba = [] → t.outs = s.outs ∧ t.hst.pba = []) ∧ (∀ v ∈ t.hst.pba, vecOpen t v = false) ∧
      t.hst.head = s.hst.head ∧ t.hst.tail = s.hst.tail ∧ t.hst.hold = s.hst.hold ∧ t.hst.inflight = s.hst.inflight ∧
      changesOnly { outs := true, hst := true } s t := by
  refine ⟨_, exec_pcieLinkUp hperst hrst rate width mps conf, ?_⟩
  have hshut (v : Nat) : v ∈ (releasePending (linkedHst rate width mps conf s.hst) s).hst.pba →
      vecOpen (releasePending (linkedHst rate width mps conf s.hst) s) v = false := by
    rw [releasePending_hst]
    exact vecOpen_of_stillPending
  refine ⟨?_, ?_, ?_, ?_, ?_, ?_, ?_, ?_, ?_, ?_,
    fun hnone => ⟨releasePending_outs_of_none (h := linkedHst rate width mps conf s.hst) hnone s, ?_⟩, hshut, ?_, ?_, ?_, ?_,
    releasePending_only _ s⟩
  all_goals rw [releasePending_hst]
  case refine_11 => simp only [stillPending, linkedHst, hnone, List.filter_nil]
  all_goals rfl

/-! ### The reset of the host interface (R506) -/

theorem tget_filter_dropped {α : Type} {p : Nat × α → Bool} {k : Nat} (hk : ∀ v, p (k, v) = false) (l : Tbl α) (d : α) :
    tget (l.filter p) k d = d := by
  induction l with
  | nil => rfl
  | cons q l ih =>
    obtain ⟨i, v⟩ := q
    rw [List.filter_cons]
    split
    next hq =>
      have hne : i ≠ k := fun h => by rw [h, hk] at hq; cases hq
      rw [tget, if_neg hne, ih]
    next => exact ih

/-- The reset value of a register, if it is one, fits its 32 bits. -/
def ResetFits (q : Option (Nat × Nat)) : Prop := (q.map Prod.snd).getD 0 < 2 ^ 32

theorem ResetFits.ite {c : Prop} [Decidable c] {a b : Option (Nat × Nat)} (ha : ResetFits a) (hb : ResetFits b) :
    ResetFits (if c then a else b) := by
  split <;> assumption

/-- The reset values of HST fit their registers. -/
theorem resetFits_host {off : Nat} (h : off / 65536 = 1) : ResetFits (rwInfo off) := by
  unfold rwInfo
  extract_lets blk o
  have hblk : blk = 1 := h
  clear_value blk o
  rw [if_neg (by omega : ¬ blk = 0), if_pos hblk]
  repeat' with_reducible apply ResetFits.ite
  all_goals
    unfold ResetFits
    decide

theorem rwReset_host_lt {off : Nat} (h : off / 65536 = 1) : rwReset off < 2 ^ 32 := by
  have hfits := resetFits_host h
  unfold rwReset
  revert hfits
  cases rwInfo off <;> exact id

/-- A host reset returns the registers of HST to reset. -/
theorem regGet_hostFresh {off : Nat} (h : off / 65536 = 1) : regGet (hostFresh s) off = rwReset off := by
  have hget : tget (hostFresh s).regs off (BitVec.ofNat 32 (rwReset off)) = BitVec.ofNat 32 (rwReset off) :=
    tget_filter_dropped (fun v => by simp [h]) _ _
  rw [regGet, hget, BitVec.toNat_ofNat, Nat.mod_eq_of_lt (rwReset_host_lt h)]

/-- A host reset is the fresh host block, and the completion of each SHEAF_LOAD whose chain ends. -/
theorem hostReset_kept (s : State) : hostKept (hostReset s).hst = hostKept (hostFresh s).hst := by
  have hfold (f : Nat × Nat → List Byte) (l : List (Nat × Nat)) (u : State) :
      hostKept (l.foldl (fun t p => complete p.2 0x41 (f p) t) u).hst = hostKept u.hst := by
    induction l generalizing u with
    | nil => rfl
    | cons p l ih => exact (ih _).trans (complete_kept _ _ _ _)
  exact (hfold (fun p => sheafResult (chainGet s p.1) 0 0 0 0x16) _ _).trans
    (congrArg hostKept (same_hst (does_dropReads forChain (.refl { lft := true } _) rfl).only rfl))

/-- The completions leave the parts that are reset as they are. -/
theorem hostReset_after_fresh (s : State) :
    changesOnly { outs := true, hst := true, lft := true, obs := true } (hostFresh s) (hostReset s) :=
  (Does.foldl (does_dropReads _ (.refl _ _) rfl) fun _ _ h => does_complete _ _ _ h rfl).only

theorem hostReset_only (s : State) : changesOnly
    { outs := true, regs := true, latch := true, halves := true, hst := true, chains := true, lft := true, obs := true } s (hostReset s) :=
  (does_hostReset (.refl _ s) rfl).only

/-- The link after a reset: down, or with its max payload size. -/
def linkAfter (down : Bool) (mps : Nat) (h : Hst) : Hst := if down then { h with linkUp := false, rate := 0, width := 0 } else { h with mps := mps }

/-- A host reset before its event. -/
def resetSeen (down : Bool) (s : State) : State :=
  { hostReset s with hst := { linkAfter down s.hst.mps (hostReset s).hst with linkDownSeen := true } }

theorem linkReset_of_running (hphase : s.glb.phase ≠ .reset) (cause : Nat) (down : Bool) :
    linkReset cause down s = raiseItems 0x0101 4 [(1, cause)] (resetSeen down s) := by
  have hglb : (hostReset s).glb = s.glb := same_glb (hostReset_only s) rfl
  exact if_pos (by simp [running, hglb, hphase])

theorem resetSeen_only (down : Bool) (s : State) :
    changesOnly { outs := true, regs := true, latch := true, halves := true, hst := true, chains := true, lft := true, obs := true } s
      (resetSeen down s) := only_trans (B := { hst := true }) (u := hostReset s) (hostReset_only s) rfl

theorem linkReset_only (cause : Nat) (down : Bool) (s : State) : changesOnly
    { Parts.events with regs := true, latch := true, halves := true, chains := true, lft := true } s (linkReset cause down s) :=
  (does_linkReset cause down (.refl _ s) rfl).only

/-- What a host reset, with its event or without, leaves: HST as fresh, the link down or as it was. -/
structure HostIsReset (down : Bool) (s t : State) : Prop where
  chains : t.chains = []
  regs : ∀ off, off / 65536 = 1 → regGet t off = rwReset off
  polled : t.hst.polled = false
  seen : t.hst.linkDownSeen = true
  unmasked : t.hst.unmasked = []
  bar2 : t.hst.bar2 = []
  bar0 : t.hst.bar0 = 0
  msixEn : t.hst.msixEn = false
  linkUp : t.hst.linkUp = (!down && s.hst.linkUp)

theorem HostIsReset.hstEn {down : Bool} (h : HostIsReset down s t) : hstEn t = false := by
  have hctrl := h.regs 0x10000 (by decide)
  rw [Machine.hstEn, hctrl]
  decide

theorem hostKept_of_keptIn {h g : Hst} (e : hostKeptIn h = hostKeptIn g) : hostKept h = hostKept g :=
  congrArg (fun h : Hst => { h with inflight := [] }) e

theorem hostKept_linkAfter (down : Bool) (mps : Nat) (h : Hst) : hostKept (linkAfter down mps h) = linkAfter down mps (hostKept h) := by
  cases down <;> rfl

/-- The fields of HST that no entry of the ring touches, behind a host reset. -/
theorem linkReset_kept (hphase : s.glb.phase ≠ .reset) (cause : Nat) (down : Bool) : hostKept (linkReset cause down s).hst =
    { linkAfter down s.hst.mps (hostKept (hostFresh s).hst) with linkDownSeen := true } := by
  have hreset : hostKept (resetSeen down s).hst = { hostKept (linkAfter down s.hst.mps (hostReset s).hst) with linkDownSeen := true } := rfl
  rw [linkReset_of_running hphase, hostKept_of_keptIn (raiseItems_kept _ _ _ _), hreset, hostKept_linkAfter, hostReset_kept]

theorem linkReset_resets (hphase : s.glb.phase ≠ .reset) (cause : Nat) (down : Bool) : HostIsReset down s (linkReset cause down s) := by
  have hkept := linkReset_kept hphase cause down
  have hafter : changesOnly { Parts.events with hst := true, lft := true } (hostFresh s) (linkReset cause down s) := by
    rw [linkReset_of_running hphase]
    exact only_raiseItems _ _ _ (only_trans (B := { hst := true }) (u := hostReset s) (hostReset_after_fresh s) rfl)
  have hfield {α : Type} (f : Hst → α) : f (hostKept (linkReset cause down s).hst) =
      f { linkAfter down s.hst.mps (hostKept (hostFresh s).hst) with linkDownSeen := true } := congrArg f hkept
  refine ⟨same_chains hafter rfl, fun off hoff => (regGet_congr (same_regs hafter rfl) off).trans (regGet_hostFresh hoff),
    (hfield Hst.polled).trans ?_, (hfield Hst.linkDownSeen).trans rfl, (hfield Hst.unmasked).trans ?_, (hfield Hst.bar2).trans ?_,
    (hfield Hst.bar0).trans ?_, (hfield Hst.msixEn).trans ?_, (hfield Hst.linkUp).trans ?_⟩
  all_goals cases down <;> rfl

theorem linkReset_reported (hphase : s.glb.phase ≠ .reset) (cause : Nat) (down : Bool) :
    reported 0x0101 4 s (linkReset cause down s) := by
  rw [linkReset_of_running hphase]
  exact reported_between (B := {}) (resetSeen_only down s) rfl

/-- The fall of PERST_N. -/
def perstLow (s : State) : State := { s with pins := { s.pins with perstN := false } }

/-- Settles O14: a link that comes up releases what it opens, and each reset of the host interface is one operation with its event. -/
theorem hostResets : Obligations.HostResets := by
  intro s
  refine ⟨fun rate width mps conf hperst hrst => answers_pcieLinkUp hperst hrst rate width mps conf, ⟨_, rfl, rfl⟩, ?_⟩
  rintro c down (⟨rfl, hperst, rfl⟩ | ⟨cause, rfl, hup, rfl⟩) hphase
  · have h := linkReset_resets (s := perstLow s) hphase 4 true
    have honly := linkReset_only 4 true (perstLow s)
    refine ⟨linkReset 4 true (perstLow s), if_pos hperst, h.chains, h.hstEn, h.regs, h.polled, h.seen, h.unmasked, h.bar2, h.bar0, h.msixEn,
      h.linkUp, fun _ => same_pins honly rfl, fun hne => absurd rfl hne, ?_, only_trans (A := { pins := true }) (u := perstLow s) rfl honly⟩
    exact reported_after (linkReset_reported (s := perstLow s) hphase 4 true) rfl rfl rfl
  · have h := linkReset_resets hphase (cause + 1) (decide (cause.val < 2))
    have honly := linkReset_only (cause + 1) (decide (cause.val < 2)) s
    exact ⟨_, if_pos hup, h.chains, h.hstEn, h.regs, h.polled, h.seen, h.unmasked, h.bar2, h.bar0, h.msixEn, h.linkUp,
      fun hne => (by cases hne), fun _ => same_pins honly rfl, linkReset_reported hphase _ _, only_trans (B := {}) honly rfl⟩

end Sys2Proof.Machine
end

section
/-! PROOFS. Polls of the doorbells, and what a kick does to a chain (R365, R383); O15 and O16. -/

-- One theorem at a time, as under Laws/: the package as one text takes too much memory in many threads.
set_option Elab.async false

namespace Sys2Proof.Machine

variable {s t u : State}

/-! ### Chains beside the registers -/

theorem chEn_congr (h : t.regs = s.regs) (c : Nat) : chEn t c = chEn s c := by rw [chEn, chCtrl, regGet_congr h, chEn, chCtrl]

theorem chHead_congr (h : t.regs = s.regs) (c : Nat) : chHead t c = chHead s c := by
  rw [chHead, regPair, regGet_congr h, regGet_congr h, chHead, regPair]

theorem chainGet_congr (h : t.chains = s.chains) (c : Nat) : chainGet t c = chainGet s c := by rw [chainGet, h, chainGet]

/-! ### A chain starts at a descriptor (R383) -/

/-- A chain that runs at the descriptor at `addr`, whose read is out. -/
def startedChain (addr kick : Nat) (x : Chain) : Chain :=
  { x with
    state := .run, cur := addr, desc := none, reading := true, rereading := false, kickAtRead := kick, line := 0, off := 0,
    burst := none, got := [], landed := false, crcStored := false, withdrawn := false, done := 0, srcUe := false, failed := false }

theorem startDesc_eq (c addr : Nat) (s : State) :
    startDesc c addr s = emit (.hostRead addr 64) (chainSet s c (startedChain addr (kickOf s c) (chainGet s c))) := rfl

@[simp] theorem chainGet_startDesc (c addr : Nat) (s : State) :
    chainGet (startDesc c addr s) c = startedChain addr (kickOf s c) (chainGet s c) := by
  rw [startDesc_eq, chain_emit, chainGet_set]

theorem chainGet_startDesc_ne {c k : Nat} (hk : k ≠ c) (addr : Nat) (s : State) : chainGet (startDesc c addr s) k = chainGet s k := by
  rw [startDesc_eq, chain_emit, chainGet_set_ne _ _ hk]

theorem startDesc_only (c addr : Nat) (s : State) : changesOnly { outs := true, chains := true } s (startDesc c addr s) := rfl

/-! ### The kicks of a poll (R383) -/

section Kick

variable {c v : Nat}

theorem kickChain_first (c v : Nat) (s : State) : kickChain true c v s = chainSet s c { chainGet s c with kickSeen := v } := rfl

/-- A kick that has not changed, or of a chain that is not enabled, does nothing. -/
theorem kickChain_of_same (h : (chainGet s c).kickSeen = v ∨ chEn s c = false) : kickChain false c v s = s := by
  refine if_pos ?_
  rcases h with h | h
  · exact .inr (.inr h)
  · exact .inr (.inl (by simp [h]))

section Changed

variable (hen : chEn s c = true) (howner : (chainGet s c).owner = none) (hkick : (chainGet s c).kickSeen ≠ v)
include hen howner hkick

/-- A changed kick starts an enabled chain that is IDLE or STOPPED. -/
theorem kickChain_starts (hstate : (chainGet s c).state = .idle ∨ (chainGet s c).state = .stopped) :
    kickChain false c v s = startDesc c (chHead s c) (chainSet s c { chainGet s c with kickSeen := v }) := by
  unfold kickChain
  simp only [hen, howner, hkick, Option.isSome_none, Bool.false_eq_true, not_true_eq_false, or_self, if_false]
  rcases hstate with h | h <;> rw [h]

/-- A changed kick makes a chain that waits read its end mark again. -/
theorem kickChain_rereads (hstate : (chainGet s c).state = .wait) (hreread : (chainGet s c).rereading = false) :
    kickChain false c v s =
      emit (.hostRead (chainGet s c).cur 8) (chainSet s c { chainGet s c with rereading := true, kickAtRead := v }) := by
  unfold kickChain
  simp only [hen, howner, hkick, hstate, hreread, Option.isSome_none, Bool.false_eq_true, not_true_eq_false, or_self, if_false]

end Changed

theorem kickChain_only (first : Bool) (c v : Nat) (s : State) : changesOnly { outs := true, chains := true } s (kickChain first c v s) :=
  (does_kickChain first c v (.refl _ s) rfl).only

/-- A kick touches no other chain. -/
theorem chainGet_kickChain_ne (first : Bool) {k : Nat} (hk : k ≠ c) : chainGet (kickChain first c v s) k = chainGet s k := by
  unfold kickChain
  dsimp only
  split
  · exact chainGet_set_ne _ _ hk
  split
  · rfl
  split
  · exact (chainGet_startDesc_ne hk _ _).trans (chainGet_set_ne _ _ hk)
  · exact (chainGet_startDesc_ne hk _ _).trans (chainGet_set_ne _ _ hk)
  · split
    · rfl
    · exact chainGet_set_ne _ _ hk
  · rfl

theorem OutsGrow.kickChain (first : Bool) (c v : Nat) (s : State) : OutsGrow s (kickChain first c v s) := by
  have hemit (o : Output) (u : State) (h : u.outs = s.outs) : OutsGrow s (emit o u) := fun _ ho => List.mem_cons_of_mem _ (h ▸ ho)
  unfold Machine.kickChain
  dsimp only
  split
  · exact of_outs rfl
  split
  · exact refl s
  split
  · exact hemit _ _ rfl
  · exact hemit _ _ rfl
  · exact ite (refl s) (hemit _ _ rfl)
  · exact refl s

end Kick

/-- The kicks of all chains in turn. -/
def kickChains (first : Bool) (kick : Nat → Nat) (l : List Nat) (s : State) : State := l.foldl (fun u c => kickChain first c (kick c) u) s

theorem kickChains_only (first : Bool) (kick : Nat → Nat) (l : List Nat) (s : State) :
    changesOnly { outs := true, chains := true } s (kickChains first kick l s) :=
  (Does.foldl (.refl _ s) fun c _ h => does_kickChain first c (kick c) h rfl).only

theorem OutsGrow.kickChains (first : Bool) (kick : Nat → Nat) (l : List Nat) (s : State) : OutsGrow s (kickChains first kick l s) :=
  foldl (fun c u => OutsGrow.kickChain first c (kick c) u) l s

/-- A chain that is not kicked stays. -/
theorem chainGet_kickChains_of_not_mem (first : Bool) (kick : Nat → Nat) {l : List Nat} {c : Nat} (hc : c ∉ l) (s : State) :
    chainGet (kickChains first kick l s) c = chainGet s c := by
  induction l generalizing s with
  | nil => rfl
  | cons k l ih =>
    obtain ⟨hk, hl⟩ := not_or.1 (mt List.mem_cons.2 hc)
    exact (ih hl _).trans (chainGet_kickChain_ne first hk)

/-- What kicking all chains does to one of them is what its own kick does where the others have been kicked before: at a state that agrees
with the first on the registers, on the host block and on this chain. -/
theorem kickChains_spec (first : Bool) (kick : Nat → Nat) {l : List Nat} (hl : l.Nodup) {c : Nat} (hc : c ∈ l) (s : State) :
    ∃ u, changesOnly { outs := true, chains := true } s u ∧ chainGet u c = chainGet s c ∧
      chainGet (kickChains first kick l s) c = chainGet (kickChain first c (kick c) u) c ∧
      OutsGrow (kickChain first c (kick c) u) (kickChains first kick l s) := by
  induction l generalizing s with
  | nil => cases hc
  | cons k l ih =>
    obtain ⟨hk, hl⟩ := List.nodup_cons.1 hl
    rcases List.mem_cons.1 hc with rfl | hc
    · exact ⟨s, rfl, rfl, chainGet_kickChains_of_not_mem first kick hk _, OutsGrow.kickChains first kick l _⟩
    · obtain ⟨u, honly, hget, hchain, houts⟩ := ih hl hc (kickChain first k (kick k) s)
      have hne : c ≠ k := fun h => hk (h ▸ hc)
      exact ⟨u, only_trans (kickChain_only first k (kick k) s) honly, hget.trans (chainGet_kickChain_ne first hne), hchain, houts⟩

/-! ### A poll (R365) -/

/-- The kick of chain c in the doorbell block. -/
def pollKick (b : List Byte) (c : Nat) : Nat := fld b (0x40 + 4 * c) 4

/-- The host block behind a good poll. -/
def polledState (b : List Byte) (s : State) : State :=
  { s with hst := { s.hst with
    pollOut := false, polled := true, cmdTail := fld b 0 4 % cmdSize s, cplHead := fld b 4 4 % cplSize s,
    kicks := (List.range 16).foldl (fun t c => tset t c (pollKick b c) 0) s.hst.kicks } }

/-- The ring goes on: held entries are written, and a fetch read is issued. -/
def ringGoOn (s : State) : State := issueFetch (overflowReport (drainHold 1024 s))

theorem applyPoll_eq (b : List Byte) (s : State) :
    applyPoll b s = ringGoOn (kickChains (!s.hst.polled) (pollKick b) (List.range 16) (polledState b s)) := rfl

/-- Entries of the ring leave what a poll sets. -/
theorem polled_of_keptIn {h g : Hst} (e : hostKeptIn h = hostKeptIn g) :
    h.pollOut = g.pollOut ∧ h.polled = g.polled ∧ h.cmdTail = g.cmdTail ∧ h.cplHead = g.cplHead ∧ h.kicks = g.kicks := by
  have hfield {α : Type} (f : Hst → α) : f (hostKeptIn h) = f (hostKeptIn g) := congrArg f e
  exact ⟨hfield Hst.pollOut, hfield Hst.polled, hfield Hst.cmdTail, hfield Hst.cplHead, hfield Hst.kicks⟩

/-- The fields of HST that a poll sets stand while the ring goes on, and so do the chains. -/
theorem ringGoOn_kept (s : State) :
    (ringGoOn s).hst.pollOut = s.hst.pollOut ∧ (ringGoOn s).hst.polled = s.hst.polled ∧ (ringGoOn s).hst.cmdTail = s.hst.cmdTail ∧
    (ringGoOn s).hst.cplHead = s.hst.cplHead ∧ (ringGoOn s).hst.kicks = s.hst.kicks ∧ (ringGoOn s).chains = s.chains := by
  have hkept : hostKeptIn (overflowReport (drainHold 1024 s)).hst = hostKeptIn s.hst :=
    (overflowReport_kept _).trans (drainHold_kept _ _)
  have hchains : (overflowReport (drainHold 1024 s)).chains = s.chains :=
    same_chains (does_overflowReport (does_drainHold 1024 (.refl Parts.events s) rfl) rfl).only rfl
  obtain ⟨hpollOut, hpolled, hcmdTail, hcplHead, hkicks, hissue, -⟩ := issue_kept (overflowReport (drainHold 1024 s))
  obtain ⟨hpollOut', hpolled', hcmdTail', hcplHead', hkicks'⟩ := polled_of_keptIn hkept
  exact ⟨hpollOut.trans hpollOut', hpolled.trans hpolled', hcmdTail.trans hcmdTail', hcplHead.trans hcplHead', hkicks.trans hkicks',
    hissue.trans hchains⟩

theorem OutsGrow.ringGoOn (s : State) : OutsGrow s (ringGoOn s) := fun _ => post_mono 1024 s

/-- Setting each key of a list gives each of them its value. -/
theorem tget_foldl_tset {f : Nat → Nat} {l : List Nat} {c : Nat} {d : Tbl Nat} (h : c ∈ l ∨ tget d c 0 = f c) :
    tget (l.foldl (fun d c => tset d c (f c) 0) d) c 0 = f c := by
  induction l generalizing d with
  | nil => exact h.resolve_left List.not_mem_nil
  | cons k l ih =>
    refine ih ?_
    by_cases hk : c = k
    · exact .inr (hk ▸ tget_tset_same _ _ _ _)
    · rw [tget_tset_ne _ _ _ hk]
      exact h.imp_left fun hc => (List.mem_cons.1 hc).resolve_left hk

theorem kickOf_congr (h : t.hst.kicks = s.hst.kicks) (c : Nat) : kickOf t c = kickOf s c := by rw [kickOf, h, kickOf]

theorem kickOf_polledState {c : Nat} (hc : c < 16) (b : List Byte) (s : State) : kickOf (polledState b s) c = pollKick b c :=
  tget_foldl_tset (.inl (List.mem_range.2 hc))

theorem applyPoll_only (b : List Byte) (s : State) : changesOnly { Parts.events with chains := true } s (applyPoll b s) :=
  (does_applyPoll b (.refl _ s) rfl).only

/-- A good poll leaves the fields of HST that it sets. -/
theorem applyPoll_kept (b : List Byte) (s : State) :
    (applyPoll b s).hst.pollOut = false ∧ (applyPoll b s).hst.polled = true ∧ (applyPoll b s).hst.cmdTail = fld b 0 4 % cmdSize s ∧
    (applyPoll b s).hst.cplHead = fld b 4 4 % cplSize s ∧ ∀ c, c < 16 → kickOf (applyPoll b s) c = pollKick b c := by
  rw [applyPoll_eq]
  obtain ⟨hpollOut, hpolled, hcmdTail, hcplHead, hkicks, -⟩ :=
    ringGoOn_kept (kickChains (!s.hst.polled) (pollKick b) (List.range 16) (polledState b s))
  have hhst := same_hst (kickChains_only (!s.hst.polled) (pollKick b) (List.range 16) (polledState b s)) rfl
  rw [hhst] at hpollOut hpolled hcmdTail hcplHead hkicks
  exact ⟨hpollOut, hpolled, hcmdTail, hcplHead, fun c hc => (kickOf_congr hkicks c).trans (kickOf_polledState hc b s)⟩

/-- The read of the doorbell block is out. -/
def pollSent (s : State) : State :=
  emit (.hostRead (regPair s 0x10020 0x10024) 128) { s with hst := { s.hst with pollOut := true } }

theorem exec_doorbellPoll (hen : hstEn s = true) (hlive : linkLive s = true) (hpoll : s.hst.pollOut = false) : exec .doorbellPoll s =
    .next (cntHst 4 none 1 (pollSent s)) :=
  if_pos ⟨hen, hlive, by simp [hpoll]⟩

theorem exec_doorbellPollComplete (hpoll : s.hst.pollOut = true) (b : List Byte) :
    exec (.doorbellPollComplete (some b)) s = withLen b 128 (applyPoll b s) := if_neg (by simp [hpoll])

theorem exec_doorbellPollComplete_failed (hpoll : s.hst.pollOut = true) : exec (.doorbellPollComplete none) s =
    .next (emit .aerReport { s with hst := { s.hst with pollOut := false } }) := if_neg (by simp [hpoll])

theorem withLen_of_length {b : List Byte} {n : Nat} (h : b.length = n) (u : State) : withLen b n u = .next u := if_pos h

theorem exec_goodPoll (hpoll : s.hst.pollOut = true) {b : List Byte} (hlen : b.length = 128) :
    exec (.doorbellPollComplete (some b)) s = .next (applyPoll b s) :=
  (exec_doorbellPollComplete hpoll b).trans (withLen_of_length hlen _)

/-- Settles O15: a poll is one read, and its data set the indices and the kicks before the ring goes on. -/
theorem doorbellPolls : Obligations.DoorbellPolls := by
  intro s
  refine ⟨fun hen hlive hpoll => ⟨_, exec_doorbellPoll hen hlive hpoll, cntHst_hst _ _ _ _, cntHst_outs _ _ _ _, ?_⟩,
    fun hpoll => ⟨_, exec_doorbellPollComplete_failed hpoll, rfl⟩, fun b hpoll hlen => ⟨_, exec_goodPoll hpoll hlen, ?_⟩,
    fun b hpoll hlen => (exec_doorbellPollComplete hpoll b).trans (if_neg hlen)⟩
  · exact only_step (u := pollSent s) rfl (does_cntHst 4 none 1 (.refl { obs := true } _) rfl)
  · obtain ⟨hpollOut, hpolled, hcmdTail, hcplHead, hkicks⟩ := applyPoll_kept b s
    exact ⟨hpollOut, hpolled, hcmdTail, hcplHead, hkicks, applyPoll_only b s⟩

/-- A good poll does to a chain what its kick does, at a state that agrees with the one before on the registers and on this chain. -/
theorem applyPoll_chain {c : Nat} (hc : c < 16) (b : List Byte) (s : State) :
    ∃ u, u.regs = s.regs ∧ chainGet u c = chainGet s c ∧
      chainGet (applyPoll b s) c = chainGet (kickChain (!s.hst.polled) c (pollKick b c) u) c ∧
      OutsGrow (kickChain (!s.hst.polled) c (pollKick b c) u) (applyPoll b s) := by
  obtain ⟨u, honly, hget, hchain, houts⟩ :=
    kickChains_spec (!s.hst.polled) (pollKick b) List.nodup_range (List.mem_range.2 hc) (polledState b s)
  rw [applyPoll_eq]
  obtain ⟨-, -, -, -, -, hchains⟩ := ringGoOn_kept (kickChains (!s.hst.polled) (pollKick b) (List.range 16) (polledState b s))
  exact ⟨u, same_regs (s := polledState b s) honly rfl, hget, (chainGet_congr hchains c).trans hchain, houts.trans (OutsGrow.ringGoOn _)⟩

/-- Settles O16: of all kicks of a poll a chain feels its own. -/
theorem kicksStartChains : Obligations.KicksStartChains := by
  intro s b c hpoll hlen
  refine ⟨_, exec_goodPoll hpoll hlen, ?_⟩
  obtain ⟨u, hregs, hget, hchain, houts⟩ := applyPoll_chain c.isLt b s
  have hen := chEn_congr hregs c
  refine ⟨fun hfirst => ?_, fun hpolled hon howner hkick hstate => ?_, fun hpolled hon howner hkick hstate hreread => ?_,
    fun hpolled hsame => ?_⟩
  · rw [hchain, hfirst, Bool.not_false, kickChain_first, chainGet_set, hget]
    rfl
  · rw [← hget] at howner hkick hstate
    rw [hpolled, Bool.not_true, kickChain_starts (v := pollKick b c) (hen.trans hon) howner hkick hstate] at hchain houts
    rw [hchain, chainGet_startDesc, chHead_congr hregs]
    refine ⟨rfl, rfl, rfl, ?_, houts _ ?_⟩
    · rw [chainGet_set]
      rfl
    · rw [chHead_congr hregs]
      exact List.mem_cons_self
  · rw [← hget] at howner hkick hstate hreread
    rw [hpolled, Bool.not_true, kickChain_rereads (v := pollKick b c) (hen.trans hon) howner hkick hstate hreread] at hchain houts
    refine ⟨hchain.trans ((chainGet_set _ _ _).trans (by rw [hget]; rfl)), houts _ ?_⟩
    rw [← hget]
    exact List.mem_cons_self
  · rw [hchain, hpolled, Bool.not_true, kickChain_of_same (hsame.imp (fun h => hget ▸ h) hen.trans), hget]

end Sys2Proof.Machine
end

section
/-! PROOFS. Fetching and starting commands (R368, R369, R376); O17 and O18. -/

-- One theorem at a time, as under Laws/: the package as one text takes too much memory in many threads.
set_option Elab.async false

namespace Sys2Proof.Machine

variable {s t : State} {id : Nat} {c : Cmd}

/-! ### A command starts (R369) -/

/-- The command `id` has this phase. -/
def inPhase (id : Nat) (ph : CmdPhase) (c : Cmd) : Cmd := if c.id = id then { c with phase := ph } else c

theorem inPhase_id (id : Nat) (ph : CmdPhase) (c : Cmd) : (inPhase id ph c).id = c.id := by
  unfold inPhase
  split <;> rfl

/-- The state with command `id` started. -/
def startedCmd (id : Nat) (s : State) : State := { s with hst := { s.hst with inflight := s.hst.inflight.map (inPhase id .started) } }

theorem startedCmd_only (id : Nat) (s : State) : changesOnly { hst := true } s (startedCmd id s) := rfl

theorem cmdFind_startedCmd (id j : Nat) (s : State) : cmdFind (startedCmd id s) j = (cmdFind s j).map (inPhase id .started) := by
  rw [cmdFind, cmdFind, startedCmd, List.find?_map]
  congr 2
  funext d
  exact congrArg (· == j) (inPhase_id id .started d)

theorem id_of_cmdFind (h : cmdFind s id = some c) : c.id = id := by simpa using List.find?_some h

theorem cmdFind_startedCmd_same (h : cmdFind s id = some c) : cmdFind (startedCmd id s) id = some { c with phase := .started } := by
  rw [cmdFind_startedCmd, h]
  exact congrArg some (if_pos (id_of_cmdFind h))

theorem cmdFind_startedCmd_ne {j : Nat} (hj : j ≠ id) : cmdFind (startedCmd id s) j = cmdFind s j := by
  rw [cmdFind_startedCmd]
  cases h : cmdFind s j with
  | none => rfl
  | some d => exact congrArg some (if_neg fun hd => hj ((id_of_cmdFind h).symm.trans hd))

theorem startCmd_eq (id : Nat) (s : State) : startCmd id s =
    (cmdFind (startedCmd id s) id).elim (startedCmd id s) fun c =>
      if c.opcode > 0x0E then complete id 1 [] (startedCmd id s) else startedCmd id s := by
  show (match cmdFind (startedCmd id s) id with
    | some c => if c.opcode > 0x0E then complete id 1 [] (startedCmd id s) else startedCmd id s
    | none => startedCmd id s) = _
  cases cmdFind (startedCmd id s) id <;> rfl

theorem startCmd_of_known (h : cmdFind s id = some c) (hop : c.opcode ≤ 0x0E) : startCmd id s = startedCmd id s := by
  rw [startCmd_eq, cmdFind_startedCmd_same h]
  exact if_neg (Nat.not_lt.2 hop)

theorem startCmd_of_unknown (h : cmdFind s id = some c) (hop : 0x0E < c.opcode) : startCmd id s = complete id 1 [] (startedCmd id s) := by
  rw [startCmd_eq, cmdFind_startedCmd_same h]
  exact if_pos hop

theorem exec_commandStart (h : cmdFind s id = some c) (hphase : c.phase = .waiting) (hmay : mayStart s c = true) :
    exec (.commandStart id) s = .next (startCmd id s) := by
  show execCommandStart id s = _
  simp only [execCommandStart, h]
  exact if_pos ⟨hphase, hmay⟩

/-- Settles O18: a command of the table is started, and of another it is the completion. -/
theorem commandStarts : Obligations.CommandStarts := by
  intro s id c h hphase hmay
  have hexec := exec_commandStart h hphase hmay
  refine ⟨fun hop => ?_, fun hop => ?_⟩
  · rw [startCmd_of_known h hop] at hexec
    exact ⟨_, hexec, cmdFind_startedCmd_same h, fun j => cmdFind_startedCmd_ne, startedCmd_only id s⟩
  · rw [startCmd_of_unknown h hop] at hexec
    exact ⟨_, hexec, startedCmd id s, [], startedCmd_only id s, rfl⟩

/-! ### Entries are fetched (R368) -/

theorem startCmd_kept (id : Nat) (s : State) : hostKept (startCmd id s).hst = hostKept s.hst := by
  rw [startCmd_eq]
  cases cmdFind (startedCmd id s) id with
  | none => rfl
  | some c =>
    dsimp only [Option.elim]
    split
    · exact complete_kept id 1 [] (startedCmd id s)
    · rfl

/-- A fetched entry is in flight, and the command ring's head one place on. -/
def takenEntry (e : List Byte) (s : State) : State :=
  cntHst 1 none 1 { s with hst := { s.hst with
    inflight := s.hst.inflight ++ [parseCmd s.hst.nextId e], nextId := s.hst.nextId + 1, head := (s.hst.head + 1) % cmdSize s } }

theorem acceptEntry_eq (e : List Byte) (s : State) : acceptEntry e s =
    if mayStart (takenEntry e s) (parseCmd s.hst.nextId e) then startCmd s.hst.nextId (takenEntry e s) else takenEntry e s := rfl

theorem takenEntry_hst (e : List Byte) (s : State) : (takenEntry e s).hst = { s.hst with
    inflight := s.hst.inflight ++ [parseCmd s.hst.nextId e], nextId := s.hst.nextId + 1, head := (s.hst.head + 1) % cmdSize s } :=
  cntHst_hst _ _ _ _

theorem cmdSize_congr (h : t.regs = s.regs) : cmdSize t = cmdSize s := by rw [cmdSize, regGet_congr h, cmdSize]

/-- A taken entry moves the head and the next command's number on, started or not. -/
theorem acceptEntry_indices (e : List Byte) (s : State) : (acceptEntry e s).hst.head = (s.hst.head + 1) % cmdSize s ∧
    (acceptEntry e s).hst.nextId = s.hst.nextId + 1 ∧ cmdSize (acceptEntry e s) = cmdSize s := by
  have hregs : (acceptEntry e s).regs = s.regs := same_regs (does_acceptEntry (F := { outs := true, hst := true, obs := true }) e (.refl _ s) rfl).only rfl
  have hkept : hostKept (acceptEntry e s).hst = hostKept (takenEntry e s).hst := by
    rw [acceptEntry_eq]
    split
    · exact startCmd_kept _ _
    · rfl
  refine ⟨(congrArg Hst.head hkept).trans ?_, (congrArg Hst.nextId hkept).trans ?_, cmdSize_congr hregs⟩
  · rw [takenEntry_hst]
    rfl
  · rw [takenEntry_hst]
    rfl

/-- The fetched entries are taken in order. -/
def acceptAll (l : List (List Byte)) (s : State) : State := l.foldl (fun s e => acceptEntry e s) s

theorem acceptAll_indices (l : List (List Byte)) (hhead : s.hst.head < cmdSize s) :
    (acceptAll l s).hst.head = (s.hst.head + l.length) % cmdSize s ∧ (acceptAll l s).hst.nextId = s.hst.nextId + l.length := by
  induction l generalizing s with
  | nil => exact ⟨(Nat.mod_eq_of_lt hhead).symm, rfl⟩
  | cons e l ih =>
    obtain ⟨hhead', hnext, hsize⟩ := acceptEntry_indices e s
    have hpos : 0 < cmdSize s := Nat.zero_lt_of_lt hhead
    obtain ⟨hall, hid⟩ := ih (s := acceptEntry e s) (by rw [hhead', hsize]; exact Nat.mod_lt _ hpos)
    refine ⟨hall.trans ?_, hid.trans ?_⟩
    · rw [hhead', hsize, Nat.mod_add_mod, List.length_cons]
      congr 1
      omega
    · rw [hnext, List.length_cons]
      omega

theorem length_entriesOf (n : Nat) (b : List Byte) : (entriesOf n b).length = n := by
  induction n generalizing b with
  | zero => rfl
  | succ n ih => rw [entriesOf, List.length_cons, ih]

/-- No fetch is under way. -/
def fetchOver (s : State) : State := { s with hst := { s.hst with fetchLen := 0 } }

theorem exec_commandFetchComplete_idle (h : s.hst.fetchLen = 0) (d : Option (List Byte)) : exec (.commandFetchComplete d) s = .next s := if_pos h

theorem exec_commandFetchComplete_failed (h : 0 < s.hst.fetchLen) :
    exec (.commandFetchComplete none) s = .next (emit .aerReport (fetchOver s)) := if_neg (by omega)

theorem exec_commandFetchComplete {b : List Byte} (h : 0 < s.hst.fetchLen) (hlen : b.length = 64 * s.hst.fetchLen) :
    exec (.commandFetchComplete (some b)) s = .next (issueFetch (acceptAll (entriesOf s.hst.fetchLen b) (fetchOver s))) :=
  (if_neg (by omega)).trans (withLen_of_length hlen _)

/-- A fetched command has the next number. -/
theorem cmdFind_takenEntry (hnew : ∀ d ∈ s.hst.inflight, d.id < s.hst.nextId) (e : List Byte) :
    cmdFind (takenEntry e s) s.hst.nextId = some (parseCmd s.hst.nextId e) := by
  have hnone : s.hst.inflight.find? (fun d => d.id == s.hst.nextId) = none := by
    rw [List.find?_eq_none]
    intro d hd
    have := hnew d hd
    simp only [beq_iff_eq]
    omega
  rw [cmdFind, takenEntry_hst, List.find?_append, hnone, Option.none_or]
  exact List.find?_cons_of_pos (beq_self_eq_true _)

/-- An entry of the table is in flight once it is taken: as it was parsed, but perhaps started. -/
theorem cmdFind_acceptEntry (hnew : ∀ d ∈ s.hst.inflight, d.id < s.hst.nextId) {e : List Byte} (hop : fld e 0 1 ≤ 0x0E) :
    ∃ ph, ph ≠ .running ∧ cmdFind (acceptEntry e s) s.hst.nextId = some { parseCmd s.hst.nextId e with phase := ph } := by
  have htaken := cmdFind_takenEntry hnew e
  rw [acceptEntry_eq]
  split
  · rw [startCmd_of_known htaken hop]
    exact ⟨.started, by decide, cmdFind_startedCmd_same htaken⟩
  · exact ⟨.waiting, by decide, htaken⟩

theorem entriesOf_one {b : List Byte} (hlen : b.length = 64) : entriesOf 1 b = [b] := by
  rw [entriesOf, List.take_of_length_le hlen.le, entriesOf]

/-- Settles O17: a fetch takes its entries one by one, each moving the head and the next number on. -/
theorem commandFetch : Obligations.CommandFetch := by
  refine ⟨fun s d h => exec_commandFetchComplete_idle h d, fun s h => ⟨⟨_, exec_commandFetchComplete_failed h, rfl⟩, fun b hlen hhead => ?_⟩⟩
  have hexec := exec_commandFetchComplete h hlen
  refine ⟨_, hexec, ?_⟩
  obtain ⟨-, -, -, -, -, -, -, hissueHead, hissueId, hissueFlight⟩ := issue_kept (acceptAll (entriesOf s.hst.fetchLen b) (fetchOver s))
  obtain ⟨hallHead, hallId⟩ := acceptAll_indices (s := fetchOver s) (entriesOf s.hst.fetchLen b) hhead
  rw [length_entriesOf] at hallHead hallId
  refine ⟨hissueHead.trans hallHead, hissueId.trans hallId, (does_execCommandFetchComplete (some b) (.refl _ s) rfl _ hexec).only,
    fun hone hnew hop => ?_⟩
  rw [hone] at hlen
  obtain ⟨ph, hph, hfind⟩ := cmdFind_acceptEntry (s := fetchOver s) hnew hop
  refine ⟨{ parseCmd s.hst.nextId b with phase := ph }, ?_, rfl, rfl, rfl, rfl, hph⟩
  rw [cmdFind_congr hissueFlight, hone, entriesOf_one hlen]
  exact hfind

end Sys2Proof.Machine
end

section
/-! PROOFS. The ends of a chain's work (R385, R388, R389): what its status, its stop and its withdrawal leave of it. -/

-- One theorem at a time, as under Laws/: the package as one text takes too much memory in many threads.
set_option Elab.async false

namespace Sys2Proof.Machine

variable {s t u : State} {c : Nat}

/-! ### Counters and completions leave the chains -/

theorem cntHst_only (ev : Nat) (n : Option Nat) (k : Nat) (s : State) : changesOnly { obs := true } s (cntHst ev n k s) :=
  (does_cntHst ev n k (.refl _ s) rfl).only

@[simp] theorem chainGet_cntHst (ev : Nat) (n : Option Nat) (k : Nat) (s : State) (j : Nat) : chainGet (cntHst ev n k s) j = chainGet s j :=
  chainGet_congr (same_chains (cntHst_only ev n k s) rfl) j

@[simp] theorem chainGet_signal (v : Nat) (s : State) (j : Nat) : chainGet (signal v s) j = chainGet s j :=
  chainGet_congr (same_chains (signal_only v s) rfl) j

@[simp] theorem chainGet_raiseItems (code cls : Nat) (l : List (Nat × Nat)) (s : State) (j : Nat) :
    chainGet (raiseItems code cls l s) j = chainGet s j := chainGet_congr (same_chains (raiseItems_only code cls l s) rfl) j

@[simp] theorem chainGet_complete (id st : Nat) (data : List Byte) (s : State) (j : Nat) :
    chainGet (complete id st data s) j = chainGet s j := chainGet_congr (same_chains (complete_only id st data s) rfl) j

/-! ### The status of a descriptor (Table 10-9) -/

/-- A chain whose descriptor has ended with this status. -/
def endedChain (st : Nat) (x : Chain) : Chain := { x with last := st, descs := x.descs + 1, moved := x.moved + x.done }

/-- The write of a descriptor's status. -/
def statusWrite (st : Nat) (x : Chain) : Output := .hostWrite (x.cur + 0x38) (le 8 (x.done * 65536 + st * 256 + 1))

theorem endStatus_eq (c st : Nat) (s : State) : endStatus c st s =
    cntHst 6 (some c) 1 (emit (statusWrite st (chainGet s c)) (chainSet s c (endedChain st (chainGet s c)))) := rfl

theorem chainGet_endStatus (c st : Nat) (s : State) : chainGet (endStatus c st s) c = endedChain st (chainGet s c) := by
  rw [endStatus_eq, chainGet_cntHst, chain_emit, chainGet_set]

theorem chainGet_endStatus_ne {k : Nat} (hk : k ≠ c) (st : Nat) (s : State) : chainGet (endStatus c st s) k = chainGet s k := by
  rw [endStatus_eq, chainGet_cntHst, chain_emit, chainGet_set_ne _ _ hk]

theorem endStatus_outs (c st : Nat) (s : State) : (endStatus c st s).outs = statusWrite st (chainGet s c) :: s.outs := cntHst_outs _ _ _ _

theorem endStatus_only (c st : Nat) (s : State) : changesOnly { outs := true, chains := true, obs := true } s (endStatus c st s) :=
  (does_endStatus c st (.refl _ s) rfl).only

/-! ### The command that owns a chain (R393) -/

theorem ownerStopped_of_none (h : (chainGet s c).owner = none) (st : Nat) : ownerStopped c st s = s := by
  simp only [ownerStopped, h]

theorem ownerStopped_of_some {id : Nat} (h : (chainGet s c).owner = some id) (st : Nat) : ownerStopped c st s =
    complete id 0x41 (sheafResult (chainGet s c) 0 0 0 st) (chainSet s c { chainGet s c with owner := none }) := by
  simp only [ownerStopped, h]

/-- A chain that stops belongs to no command any more. -/
theorem chainGet_ownerStopped (c st : Nat) (s : State) : chainGet (ownerStopped c st s) c = { chainGet s c with owner := none } := by
  cases h : (chainGet s c).owner with
  | none => rw [ownerStopped_of_none h, ← h]
  | some id => rw [ownerStopped_of_some h, chainGet_complete, chainGet_set]

theorem chainGet_ownerStopped_ne {k : Nat} (hk : k ≠ c) (st : Nat) (s : State) : chainGet (ownerStopped c st s) k = chainGet s k := by
  cases h : (chainGet s c).owner with
  | none => rw [ownerStopped_of_none h]
  | some id => rw [ownerStopped_of_some h, chainGet_complete, chainGet_set_ne _ _ hk]

/-! ### A chain stops (R389) -/

/-- A chain in STOPPED, with nothing under way. -/
def stoppedChain (x : Chain) : Chain :=
  { x with state := .stopped, reading := false, rereading := false, burst := none, got := [], landed := false, desc := none }

/-- The chain has written its status and is STOPPED. -/
def chainStopped (c st : Nat) (s : State) : State := chainSet (endStatus c st s) c (stoppedChain (endedChain st (chainGet s c)))

theorem stopChain_eq (c st : Nat) (s : State) : stopChain c st s =
    ownerStopped c st (raiseItems 0x0102 1 [(1, c), (1, st), (8, (chainGet s c).cur), (4, (chainGet s c).user)]
      (signal (2 + c) (chainStopped c st s))) := by
  unfold stopChain chainStopped
  dsimp only
  rw [chainGet_endStatus]
  rfl

theorem chainGet_stopChain (c st : Nat) (s : State) :
    chainGet (stopChain c st s) c = { stoppedChain (endedChain st (chainGet s c)) with owner := none } := by
  rw [stopChain_eq, chainGet_ownerStopped, chainGet_raiseItems, chainGet_signal, chainStopped, chainGet_set]

theorem stopChain_only (c st : Nat) (s : State) : changesOnly { Parts.events with chains := true } s (stopChain c st s) :=
  (does_stopChain c st (.refl _ s) rfl).only

/-- Where no command owns the chain, EV_DMA_STOPPED is the last of its stop. -/
theorem stopChain_reported (howner : (chainGet s c).owner = none) (st : Nat) : reported 0x0102 1 s (stopChain c st s) := by
  have hnone : (chainGet (signal (2 + c) (chainStopped c st s)) c).owner = none := by
    rw [chainGet_signal, chainStopped, chainGet_set]
    exact howner
  have honly : changesOnly { outs := true, hst := true, chains := true, obs := true } s (signal (2 + c) (chainStopped c st s)) :=
    only_trans (u := chainStopped c st s) (only_trans (B := { chains := true }) (u := endStatus c st s) (endStatus_only c st s) rfl
      : changesOnly { outs := true, chains := true, obs := true } _ _) (signal_only _ _)
  rw [stopChain_eq, ownerStopped_of_none (by rw [chainGet_raiseItems]; exact hnone)]
  exact reported_between (B := {}) honly rfl

/-! ### A chain is withdrawn (R385) -/

/-- A chain in IDLE, with nothing under way. -/
def idleChain (x : Chain) : Chain :=
  { x with state := .idle, reading := false, rereading := false, burst := none, got := [], landed := false, desc := none, withdrawn := false }

/-- A descriptor under way ends with ABORTED. -/
def abortDesc (c : Nat) (s : State) : State := if (chainGet s c).state = .run then endStatus c 0x16 s else s

theorem withdrawChain_eq (c : Nat) (s : State) : withdrawChain c s =
    ownerStopped c 0x16 (chainSet (abortDesc c s) c (idleChain (chainGet (abortDesc c s) c))) := rfl

theorem chainGet_abortDesc (c : Nat) (s : State) :
    chainGet (abortDesc c s) c = if (chainGet s c).state = .run then endedChain 0x16 (chainGet s c) else chainGet s c := by
  unfold abortDesc
  split
  · exact chainGet_endStatus c 0x16 s
  · rfl

theorem chainGet_abortDesc_ne {k : Nat} (hk : k ≠ c) (s : State) : chainGet (abortDesc c s) k = chainGet s k := by
  unfold abortDesc
  split
  · exact chainGet_endStatus_ne hk _ _
  · rfl

theorem chainGet_withdrawChain (c : Nat) (s : State) :
    chainGet (withdrawChain c s) c = { idleChain (chainGet (abortDesc c s) c) with owner := none } := by
  rw [withdrawChain_eq, chainGet_ownerStopped, chainGet_set]

theorem chainGet_withdrawChain_ne {k : Nat} (hk : k ≠ c) (s : State) : chainGet (withdrawChain c s) k = chainGet s k := by
  rw [withdrawChain_eq, chainGet_ownerStopped_ne hk, chainGet_set_ne _ _ hk, chainGet_abortDesc_ne hk]

end Sys2Proof.Machine
end

section
/-! PROOFS. HST_CTRL and HST_CHc_CTRL (R365, R371, R385), and O19. -/

-- One theorem at a time, as under Laws/: the package as one text takes too much memory in many threads.
set_option Elab.async false

namespace Sys2Proof.Machine

variable {s t : State}

/-! ### HST_CTRL -/

/-- HST_CTRL holds the value. -/
def hstWritten (v : Nat) (s : State) : State := regSet s 0x10000 (v % 8)

theorem hstEn_hstWritten (v : Nat) (s : State) : hstEn (hstWritten v s) = decide (v % 2 = 1) := by
  rw [hstEn, hstWritten, regGet_regSet_same, bitAt, Nat.testBit_zero]
  congr 1
  rw [eq_iff_iff]
  omega

theorem hstEn_set (v : Nat) (s : State) : hstEn (hstWritten (setBit v 0) s) = true := by
  rw [hstEn_hstWritten, setBit_zero_eq]
  exact decide_eq_true (by omega)

theorem hstEn_clear (v : Nat) (s : State) : hstEn (hstWritten (clearBit v 0) s) = false := by
  rw [hstEn_hstWritten, clearBit_zero_eq]
  exact decide_eq_false (by omega)

/-- Every index of both rings at its start. -/
def ringsStart (s : State) : State :=
  { s with hst := { s.hst with head := 0, tail := 0, cyclePhase := true, polled := false, pollOut := false, fetchLen := 0, cmdTail := 0, cplHead := 0 } }

theorem hstCtrl_of_rise {v : Nat} (hwas : hstEn s = false) (hnow : hstEn (hstWritten v s) = true) :
    hstCtrl v s = ringsStart (hstWritten v s) := if_pos ⟨hnow, by simp [hwas]⟩

theorem hstCtrl_of_no_rise {v : Nat} (h : hstEn (hstWritten v s) = true → hstEn s = true) : hstCtrl v s = hstWritten v s :=
  if_neg fun hrise => hrise.2 (h hrise.1)

theorem regGet_hstWritten_ne {o : Nat} (ho : o ≠ 0x10000) (v : Nat) (s : State) : regGet (hstWritten v s) o = regGet s o :=
  regGet_regSet_ne _ _ ho

section HstCtrl

variable (h : writeReaches 0x10000 s) (v : W32)
include h

theorem answers_hstEnable_rise (hwas : hstEn s = false) : answers (.hstEnable v) s fun t =>
    hstEn t = true ∧ t.hst.head = 0 ∧ t.hst.tail = 0 ∧ t.hst.cyclePhase = true ∧ t.hst.polled = false ∧ t.hst.pollOut = false ∧
    t.hst.fetchLen = 0 ∧ t.hst.hold = s.hst.hold ∧ t.hst.inflight = s.hst.inflight ∧
    (∀ o, o ≠ 0x10000 → regGet t o = regGet s o) ∧ changesOnly { regs := true, hst := true } s t := by
  have hnow := hstEn_set v.toNat s
  refine ⟨_, write_hstEnable v h, ?_⟩
  rw [hstCtrl_of_rise hwas hnow]
  exact ⟨hnow, rfl, rfl, rfl, rfl, rfl, rfl, rfl, rfl, fun o ho => regGet_hstWritten_ne ho _ s, rfl⟩

theorem answers_hstEnable_again (hwas : hstEn s = true) : answers (.hstEnable v) s fun t =>
    hstEn t = true ∧ (∀ o, o ≠ 0x10000 → regGet t o = regGet s o) ∧ changesOnly { regs := true } s t := by
  refine ⟨_, write_hstEnable v h, ?_⟩
  rw [hstCtrl_of_no_rise fun _ => hwas]
  exact ⟨hstEn_set v.toNat s, fun o ho => regGet_hstWritten_ne ho _ s, rfl⟩

theorem answers_hstDisable : answers (.hstDisable v) s fun t =>
    hstEn t = false ∧ (∀ o, o ≠ 0x10000 → regGet t o = regGet s o) ∧ changesOnly { regs := true } s t := by
  have hnow := hstEn_clear v.toNat s
  refine ⟨_, write_hstDisable v h, ?_⟩
  rw [hstCtrl_of_no_rise fun hon => absurd hon (by simp [hnow])]
  exact ⟨hnow, fun o ho => regGet_hstWritten_ne ho _ s, rfl⟩

end HstCtrl

/-! ### HST_CHc_CTRL -/

/-- HST_CHc_CTRL holds the value. -/
def chWritten (c v : Nat) (s : State) : State := regSet s (chBase c) (v &&& 0xFF31)

theorem chEn_chWritten_clear (c v : Nat) (s : State) : chEn (chWritten c (clearBit v 0) s) c = false := by
  have hbit := bitAt_clearBit_same v 0
  rw [bitAt] at hbit
  rw [chEn, chCtrl, chWritten, regGet_regSet_same, bitAt, Nat.testBit_mod_two_pow, Nat.testBit_and, hbit, Bool.false_and, Bool.and_false]

theorem chainCtrl_eq (c v : Nat) (s : State) : chainCtrl c v s =
    if chEn (chWritten c v s) c ∨ (chainGet s c).state = .idle then chWritten c v s
    else if (chainGet s c).burst.isSome then chainSet (chWritten c v s) c { chainGet s c with withdrawn := true }
    else withdrawChain c (chWritten c v s) := rfl

theorem chainGet_chainCtrl_ne {c k : Nat} (hk : k ≠ c) (v : Nat) (s : State) : chainGet (chainCtrl c v s) k = chainGet s k := by
  rw [chainCtrl_eq]
  split
  · rfl
  split
  · exact chainGet_set_ne _ _ hk
  · exact chainGet_withdrawChain_ne hk _

theorem chEn_chainCtrl_clear (c v : Nat) (s : State) : chEn (chainCtrl c (clearBit v 0) s) c = false := by
  have hregs : (chainCtrl c (clearBit v 0) s).regs = (chWritten c (clearBit v 0) s).regs := by
    rw [chainCtrl_eq]
    split
    · rfl
    split
    · rfl
    · exact same_regs (does_withdrawChain c (.refl { outs := true, hst := true, chains := true, obs := true } _) rfl).only rfl
  rw [chEn_congr hregs, chEn_chWritten_clear]

section ChainDisable

variable {c : Nat} (v : Nat)

theorem chainCtrl_of_idle (h : (chainGet s c).state = .idle) : chainCtrl c v s = chWritten c v s := by
  rw [chainCtrl_eq, if_pos (.inr h)]

/-- During a burst the chain is marked to be withdrawn. -/
theorem chainCtrl_of_burst (h : (chainGet s c).state ≠ .idle) (hburst : (chainGet s c).burst.isSome = true) :
    chainGet (chainCtrl c (clearBit v 0) s) c = { chainGet s c with withdrawn := true } := by
  rw [chainCtrl_eq, chEn_chWritten_clear, if_neg (by simp [h]), if_pos hburst, chainGet_set]

/-- Between bursts it is withdrawn. -/
theorem chainCtrl_of_no_burst (h : (chainGet s c).state ≠ .idle) (hburst : (chainGet s c).burst = none) :
    chainGet (chainCtrl c (clearBit v 0) s) c =
      { idleChain (if (chainGet s c).state = .run then endedChain 0x16 (chainGet s c) else chainGet s c) with owner := none } := by
  rw [chainCtrl_eq, chEn_chWritten_clear, if_neg (by simp [h]), if_neg (by simp [hburst]), chainGet_withdrawChain, chainGet_abortDesc]
  rfl

end ChainDisable

/-- Settles O19: the write of each register is one change of the rings, or of its chain by the state that it is in. -/
theorem enablesHost : Obligations.EnablesHost := by
  intro s
  refine ⟨fun h v => ⟨answers_hstEnable_rise h v, answers_hstEnable_again h v, answers_hstDisable h v⟩, fun c v h => ?_⟩
  refine ⟨_, write_chainDisable c v h, chEn_chainCtrl_clear c _ s, (does_chainCtrl c _ (.refl _ s) rfl).only,
    fun k hk => chainGet_chainCtrl_ne hk _ s, fun hidle => ?_, fun hstopped hburst => ?_, fun hstate hburst => ?_, fun hstate hburst => ?_⟩
  · rw [chainCtrl_of_idle _ hidle]
    rfl
  · rw [chainCtrl_of_no_burst _ (by simp [hstopped]) hburst, if_neg (by simp [hstopped])]
    exact ⟨rfl, rfl, rfl⟩
  · exact chainCtrl_of_burst _ (by rcases hstate with h | h <;> simp [h]) hburst
  · rw [chainCtrl_of_no_burst _ (by rcases hstate with h | h <;> simp [h]) hburst]
    refine ⟨rfl, fun hrun => ?_⟩
    rw [if_pos hrun]
    exact ⟨rfl, rfl⟩

end Sys2Proof.Machine
end

section
/-! PROOFS. The descriptors of a chain (R382, R383, R387 to R389); O20 and O24. -/

-- One theorem at a time, as under Laws/: the package as one text takes too much memory in many threads.
set_option Elab.async false

namespace Sys2Proof.Machine

variable {s t : State} {c : Fin 16}

/-! ### A descriptor is read (R382) -/

/-- A chain that has its descriptor; `crc` is its running CRC. -/
def takenDesc (b : List Byte) (crc : Nat) (x : Chain) : Chain :=
  { x with reading := false, desc := some (parseDesc b), user := (parseDesc b).user, crc := crc }

/-- The running CRC from a descriptor on: started anew where a good descriptor says so (R387). -/
def descCrc (s : State) (c : Nat) (b : List Byte) : Nat :=
  if descCheck s c b = 0 ∧ (parseDesc b).crcReset then crcInit (chAlgo s c) else (chainGet s c).crc

/-- The chain has taken the descriptor. -/
def descTaken (c : Nat) (b : List Byte) (s : State) : State := chainSet s c (takenDesc b (descCrc s c b) (chainGet s c))

/-- What a check that fails does before the chain stops: a destination in a held range is reported (R382). -/
def checkNoted (c : Nat) (b : List Byte) (s : State) : State :=
  if descCheck s c b = 0x15 then
    raiseItems 0x0301 1 [(1, c), (8, (chainGet s c).cur), (8, (parseDesc b).dst)] (descTaken c b s)
  else descTaken c b s

section Read

variable (hreading : (chainGet s c).reading = true) (hreread : (chainGet s c).rereading = false)
include hreading hreread

theorem exec_descriptorRead (b : List Byte) (hlen : b.length = 64) : exec (.descriptorReadComplete c (some b)) s =
    .next (if descCheck s c b = 0 then descTaken c b s else stopChain c (descCheck s c b) (checkNoted c b s)) := by
  refine (if_neg (by simp [hreread])).trans ((if_neg (by simp [hreading])).trans ((withLen_of_length hlen _).trans
    (congrArg Host.Outcome.next ?_)))
  refine if_congr Iff.rfl rfl ?_
  unfold checkNoted
  split <;> rfl

theorem exec_descriptorRead_failed : exec (.descriptorReadComplete c none) s = .next (stopChain c 0x10 s) := by
  exact (if_neg (by simp [hreread])).trans (if_neg (by simp [hreading]))

end Read

section Reread

variable (hreread : (chainGet s c).rereading = true)
include hreread

theorem exec_descriptorReread_failed : exec (.descriptorReadComplete c none) s = .next (stopChain c 0x10 s) := if_pos hreread

theorem exec_descriptorReread {b : List Byte} (hlen : b.length = 8) : exec (.descriptorReadComplete c (some b)) s =
    .next (if bitAt (fld b 0 8) 0 then chainSet s c { chainGet s c with rereading := false, kickSeen := (chainGet s c).kickAtRead }
      else startDesc c (fld b 0 8 / 64 * 64) s) := (if_pos hreread).trans (withLen_of_length hlen _)

end Reread

/-- How a chain stops (R389): with this status, accounted, and reported where no command owns it. -/
structure Stops (c : Nat) (st : Nat) (s t : State) : Prop where
  state : (chainGet t c).state = .stopped
  last : (chainGet t c).last = st
  descs : (chainGet t c).descs = (chainGet s c).descs + 1
  user : (chainGet t c).user = (chainGet s c).user
  reported : (chainGet s c).owner = none → reported 0x0102 1 s t
  only : changesOnly { Parts.events with chains := true } s t

theorem stopChain_stops (c st : Nat) (s : State) : Stops c st s (stopChain c st s) := by
  have hchain := chainGet_stopChain c st s
  exact ⟨by rw [hchain]; rfl, by rw [hchain]; rfl, by rw [hchain]; rfl, by rw [hchain]; rfl, fun h => stopChain_reported h st,
    stopChain_only c st s⟩

theorem checkNoted_only (c : Nat) (b : List Byte) (s : State) : changesOnly { Parts.events with chains := true } s (checkNoted c b s) := by
  unfold checkNoted
  split
  · exact only_raiseItems _ _ _ rfl
  · rfl

theorem chainGet_checkNoted (c : Nat) (b : List Byte) (s : State) :
    chainGet (checkNoted c b s) c = takenDesc b (descCrc s c b) (chainGet s c) := by
  unfold checkNoted
  split
  · rw [chainGet_raiseItems, descTaken, chainGet_set]
  · rw [descTaken, chainGet_set]

/-- A descriptor that fails its check stops the chain. -/
theorem answers_descriptorRead_bad (hreading : (chainGet s c).reading = true) (hreread : (chainGet s c).rereading = false) {b : List Byte}
    (hlen : b.length = 64) {st : Nat} (hst : descCheck s c b = st) (hbad : st ≠ 0) : answers (.descriptorReadComplete c (some b)) s fun t =>
      (chainGet t c).state = .stopped ∧ (chainGet t c).last = st ∧ (chainGet t c).descs = (chainGet s c).descs + 1 ∧
      ((chainGet s c).owner = none → st ≠ 0x15 → reported 0x0102 1 s t) ∧ changesOnly { Parts.events with chains := true } s t := by
  have hexec := exec_descriptorRead hreading hreread b hlen
  rw [hst, if_neg hbad] at hexec
  have hstops := stopChain_stops c st (checkNoted c b s)
  have hchain := chainGet_checkNoted c b s
  refine ⟨_, hexec, hstops.state, hstops.last, hstops.descs.trans (by rw [hchain]; rfl), fun howner hheld => ?_,
    only_trans (checkNoted_only c b s) hstops.only⟩
  have htaken : checkNoted c b s = descTaken c b s := if_neg (by rw [hst]; exact hheld)
  rw [htaken] at hstops hchain ⊢
  exact reported_after (hstops.reported (by rw [hchain]; exact howner)) rfl rfl rfl

/-- Settles O20: a good descriptor is one update of its chain, any other read of one is the chain's stop. -/
theorem descriptorReads : Obligations.DescriptorReads := by
  intro s c
  refine ⟨fun hreading hreread => ⟨fun b hlen hgood => ?_, ?_⟩, fun hreread => ⟨?_, fun b hlen => ?_⟩⟩
  · have hexec := exec_descriptorRead hreading hreread b hlen
    rw [if_pos hgood] at hexec
    refine ⟨_, hexec, ?_⟩
    simp only [descTaken, descCrc, hgood, true_and]
    rfl
  · rintro d st (⟨rfl, rfl⟩ | ⟨b, rfl, hlen, hst, hbad⟩)
    · have hstops := stopChain_stops c 0x10 s
      exact ⟨_, exec_descriptorRead_failed hreading hreread, hstops.state, hstops.last, hstops.descs, fun howner _ => hstops.reported howner,
        hstops.only⟩
    · exact answers_descriptorRead_bad hreading hreread hlen hst hbad
  · have hstops := stopChain_stops c 0x10 s
    exact ⟨_, exec_descriptorReread_failed hreread, hstops.state, hstops.last, hstops.user, hstops.reported, hstops.only⟩
  · refine ⟨_, exec_descriptorReread hreread hlen, fun hlast => if_pos hlast, fun hnext => ?_⟩
    rw [if_neg (by simp [hnext]), chainGet_startDesc]
    exact ⟨rfl, rfl, rfl⟩

/-! ### A descriptor ends (R387, R388) -/

/-- The status is written, and the chain's vector signalled under IRQ. -/
def statusSent (c : Nat) (d : Desc) (s : State) : State := if d.irq then signal (2 + c) (endStatus c 0 s) else endStatus c 0 s

theorem chainGet_statusSent (c : Nat) (d : Desc) (s : State) : chainGet (statusSent c d s) c = endedChain 0 (chainGet s c) := by
  unfold statusSent
  split
  · rw [chainGet_signal, chainGet_endStatus]
  · exact chainGet_endStatus c 0 s

theorem statusSent_only (c : Nat) (d : Desc) (s : State) :
    changesOnly { outs := true, hst := true, chains := true, obs := true } s (statusSent c d s) := by
  unfold statusSent
  split
  · exact only_trans (endStatus_only c 0 s) (signal_only _ _)
  · exact only_trans (B := {}) (endStatus_only c 0 s) rfl

theorem statusWrite_mem_statusSent (c : Nat) (d : Desc) (s : State) : statusWrite 0 (chainGet s c) ∈ (statusSent c d s).outs := by
  have hmem : statusWrite 0 (chainGet s c) ∈ (endStatus c 0 s).outs := by
    rw [endStatus_outs]
    exact List.mem_cons_self
  unfold statusSent
  split
  · exact sig_mono _ _ hmem
  · exact hmem

theorem msix_mem_statusSent {c : Nat} {d : Desc} (hirq : d.irq = true) (hopen : vecOpen s (2 + c) = true) :
    Output.msix (2 + c) ∈ (statusSent c d s).outs := by
  have hstill : vecOpen (endStatus c 0 s) (2 + c) = true := (vecOpen_congr (same_hst (endStatus_only c 0 s) rfl) _).trans hopen
  rw [statusSent, if_pos hirq, signal_of_open hstill]
  exact List.mem_cons_self

/-- A chain of no command that waits at the end mark whose descriptor has ended. -/
def waitingChain (x : Chain) : Chain := { endedChain 0 x with state := .wait, desc := none, kickSeen := x.kickAtRead, owner := none }

section Ends

variable {c : Nat} {d : Desc} (hfailed : (chainGet s c).failed = false) (hue : (chainGet s c).srcUe = false)
include hfailed hue

theorem endDescriptor_goes_on (hlast : d.last = false) : endDescriptor c d s = startDesc c d.nextAddr (statusSent c d s) := by
  simp only [endDescriptor, hfailed, hue, hlast, Bool.false_eq_true, if_false, not_false_eq_true, if_true]
  rfl

/-- At the end mark a chain that no command owns waits. -/
theorem endDescriptor_waits (hlast : d.last = true) (howner : (chainGet s c).owner = none) : endDescriptor c d s =
    chainSet (statusSent c d s) c (waitingChain (chainGet s c)) := by
  have howner' : (endedChain 0 (chainGet s c)).owner = none := howner
  have hchain := chainGet_statusSent c d s
  unfold statusSent at hchain ⊢
  simp only [endDescriptor, hfailed, hue, hlast, Bool.false_eq_true, if_false, not_true_eq_false, hchain, howner']
  rfl

end Ends

theorem exec_descriptorEnd {d : Desc} (hdesc : (chainGet s c).desc = some d) (hrun : (chainGet s c).state = .run)
    (hmoved : descMoved (chainGet s c) = true) (hwriting : chainWriting s c = false) :
    exec (.descriptorEnd c) s = .next (endDescriptor c d s) := by
  show execDescriptorEnd c s = _
  simp only [execDescriptorEnd, hdesc]
  exact if_pos ⟨hrun, hmoved, by simp [hwriting]⟩

/-- Settles O24: the status goes out, and the chain starts at the next descriptor or waits. -/
theorem descriptorEnds : Obligations.DescriptorEnds := by
  intro s c d x hdesc hrun hmoved hwriting hfailed hue howner
  refine ⟨_, exec_descriptorEnd hdesc hrun hmoved hwriting, ?_⟩
  have hwrite : Output.hostWrite (x.cur + 0x38) (le 8 (x.done * 65536 + 1)) ∈ (statusSent c d s).outs := by
    have hmem := statusWrite_mem_statusSent c d s
    rwa [statusWrite, Nat.zero_mul, Nat.add_zero] at hmem
  have hchain := chainGet_statusSent c d s
  have honly := statusSent_only c d s
  cases hlast : d.last with
  | true =>
    rw [endDescriptor_waits hfailed hue hlast howner]
    beta_reduce
    rw [chainGet_set]
    exact ⟨rfl, rfl, rfl, hwrite, msix_mem_statusSent, fun _ => ⟨rfl, rfl⟩, fun h => (by cases h), only_trans (B := { chains := true }) honly rfl⟩
  | false =>
    rw [endDescriptor_goes_on hfailed hue hlast]
    beta_reduce
    rw [chainGet_startDesc, hchain]
    exact ⟨rfl, rfl, rfl, List.mem_cons_of_mem _ hwrite, fun hirq hopen => List.mem_cons_of_mem _ (msix_mem_statusSent hirq hopen),
      fun h => (by cases h), fun _ => ⟨rfl, rfl, rfl, List.mem_cons_self⟩, only_trans honly (startDesc_only _ _ _)⟩

end Sys2Proof.Machine
end

section
/-! PROOFS. The bursts of a chain (R385 to R388); O22 and O23. -/

-- One theorem at a time, as under Laws/: the package as one text takes too much memory in many threads.
set_option Elab.async false

namespace Sys2Proof.Machine

variable {s t : State} {x : Chain} {d : Desc}

/-! ### The length of a burst (R385) -/

/-- The host address of a burst, where it has one. -/
def burstHost (x : Chain) (d : Desc) : Nat := if d.dir = 0 then burstSrc x d else burstDst x d

theorem burstLen_copy (h : d.dir = 2) (x : Chain) : burstLen x d = min (d.lineLen - x.off) 4096 := if_pos h

theorem burstLen_host (h : d.dir ≠ 2) (x : Chain) : burstLen x d = min (d.lineLen - x.off) (4096 - burstHost x d % 4096) := if_neg h

/-- A burst has bytes, at most 4,096 of them, and ends with its line at the latest. -/
theorem burstLen_bounds (h : d.lineLen > x.off) : 0 < burstLen x d ∧ burstLen x d ≤ 4096 ∧ burstLen x d ≤ d.lineLen - x.off := by
  by_cases hdir : d.dir = 2
  · rw [burstLen_copy hdir]
    omega
  · rw [burstLen_host hdir]
    omega

/-- A burst stays within its page of host address. -/
theorem burstLen_page (h : d.dir ≠ 2) (x : Chain) : burstHost x d % 4096 + burstLen x d ≤ 4096 := by
  rw [burstLen_host h]
  omega

/-! ### A burst starts (R385, R386) -/

theorem emitAll_outs (os : List Output) (s : State) : (emitAll os s).outs = os.reverse ++ s.outs := by
  induction os generalizing s with
  | nil => rfl
  | cons o os ih => rw [emitAll, List.foldl_cons, ← emitAll, ih, emit_outs, List.reverse_cons, List.append_assoc, List.singleton_append]

theorem readHost_only (a n : Nat) (s : State) : changesOnly { outs := true } s (readHost a n s) := (does_readHost a n (.refl _ s) rfl).only

theorem queueBurst_only (c a n : Nat) (s : State) : changesOnly { lft := true } s (queueBurst c a n s) :=
  (does_queueBurst c a n (.refl _ s) rfl).only

/-- A chain with a burst under way. -/
def burstingChain (d : Desc) (x : Chain) : Chain :=
  { x with burst := some (burstSrc x d, burstLen x d), got := [], landed := false, deferred := false }

/-- The chain has a burst under way. -/
def burstBegun (c : Nat) (d : Desc) (s : State) : State := chainSet s c (burstingChain d (chainGet s c))

/-- The round robin has granted the chain (R386). -/
def granted (c : Nat) (s : State) : State := { s with hst := { s.hst with granted := c } }

/-- The reads of a burst go out: from the host in one request after the other, from the loft block by block. -/
def burstReads (c : Nat) (d : Desc) (x : Chain) (s : State) : State :=
  if d.dir = 0 then readHost (burstSrc x d) (burstLen x d) s else queueBurst c (burstSrc x d) (burstLen x d) s

theorem burstReads_only (c : Nat) (d : Desc) (x : Chain) (s : State) : changesOnly { outs := true, lft := true } s (burstReads c d x s) := by
  unfold burstReads
  split
  · exact only_trans (A := {}) rfl (readHost_only _ _ s)
  · exact only_trans (A := {}) rfl (queueBurst_only _ _ _ s)

theorem burstReads_outs (c : Nat) (d : Desc) (x : Chain) (s : State) : (burstReads c d x s).outs =
    if d.dir = 0 then (readGo (maxRead s) (burstLen x d + 1) (burstSrc x d) (burstLen x d)).reverse ++ s.outs else s.outs := by
  unfold burstReads
  split
  · exact emitAll_outs _ s
  · exact same_outs (queueBurst_only _ _ _ s) rfl

section Start

variable {c : Fin 16} {spaced : BitVec 17} (hdesc : (chainGet s c).desc = some d) (hrun : (chainGet s c).state = .run)
  (hburst : (chainGet s c).burst = none) (hwithdrawn : (chainGet s c).withdrawn = false) (hmoved : descMoved (chainGet s c) = false)
include hdesc hrun hburst hwithdrawn hmoved

/-- A chain that waits for its burst starts it, or is put off. -/
theorem exec_dmaBurstStart_of_ready : exec (.dmaBurstStart ⟨c, spaced⟩) s =
    if d.dir = 2 then .next (burstReads c d (chainGet s c) (burstBegun c d s))
    else if ¬ linkLive s then .next s
    else if ¬ burstGrant s c spaced then .next (deferBurst c s)
    else .next (burstReads c d (chainGet s c) (granted c (burstBegun c d s))) := by
  show execDmaBurstStart ⟨c, spaced⟩ s = _
  unfold execDmaBurstStart
  extract_lets x
  split
  next hnone => cases hnone.symm.trans hdesc
  next e he =>
    obtain rfl := Option.some.inj (he.symm.trans hdesc)
    refine (if_neg (by simp [x, hrun, hburst, hwithdrawn, hmoved])).trans (if_ctx_congr Iff.rfl (fun hdir => ?_) fun _ => rfl)
    rw [burstReads, if_neg (by omega)]
    rfl

/-- A burst between loft ranges needs no grant. -/
theorem exec_dmaBurstStart_copy (hdir : d.dir = 2) : exec (.dmaBurstStart ⟨c, spaced⟩) s =
    .next (burstReads c d (chainGet s c) (burstBegun c d s)) := by
  rw [exec_dmaBurstStart_of_ready hdesc hrun hburst hwithdrawn hmoved, if_pos hdir]

theorem exec_dmaBurstStart_granted (hdir : d.dir ≠ 2) (hlive : linkLive s = true) (hgrant : burstGrant s c spaced = true) :
    exec (.dmaBurstStart ⟨c, spaced⟩) s = .next (burstReads c d (chainGet s c) (granted c (burstBegun c d s))) := by
  rw [exec_dmaBurstStart_of_ready hdesc hrun hburst hwithdrawn hmoved, if_neg hdir, if_neg (by simp [hlive]), if_neg (by simp [hgrant])]

theorem exec_dmaBurstStart_deferred (hdir : d.dir ≠ 2) (hlive : linkLive s = true) (hgrant : burstGrant s c spaced = false) :
    exec (.dmaBurstStart ⟨c, spaced⟩) s = .next (deferBurst c s) := by
  rw [exec_dmaBurstStart_of_ready hdesc hrun hburst hwithdrawn hmoved, if_neg hdir, if_neg (by simp [hlive]), if_pos (by simp [hgrant])]

end Start

/-- What the start of a burst leaves; `g` is the requester granted last. -/
structure BurstStarted (c : Nat) (d : Desc) (g : Nat) (s t : State) : Prop where
  chain : chainGet t c = burstingChain d (chainGet s c)
  granted : t.hst.granted = g
  outs : t.outs = if d.dir = 0 then
    (readGo (maxRead s) (burstLen (chainGet s c) d + 1) (burstSrc (chainGet s c) d) (burstLen (chainGet s c) d)).reverse ++ s.outs else s.outs
  only : changesOnly { outs := true, hst := true, chains := true, lft := true } s t

/-- The reads of a burst start it where no part but the chain and the grant has changed before. -/
theorem burstReads_starts {c : Nat} {u : State} (hchain : chainGet u c = burstingChain d (chainGet s c)) (hmrrs : u.hst.mrrs = s.hst.mrrs)
    (houts : u.outs = s.outs) (honly : changesOnly { hst := true, chains := true } s u) :
    BurstStarted c d u.hst.granted s (burstReads c d (chainGet s c) u) := by
  have hreads := burstReads_only c d (chainGet s c) u
  have hmax : maxRead u = maxRead s := by rw [maxRead, hmrrs, maxRead]
  refine ⟨(chainGet_congr (same_chains hreads rfl) c).trans hchain, by rw [same_hst hreads rfl], ?_, only_trans honly hreads⟩
  rw [burstReads_outs, hmax, houts]

theorem burstBegun_chain (c : Nat) (d : Desc) (s : State) : chainGet (burstBegun c d s) c = burstingChain d (chainGet s c) := chainGet_set _ _ _

theorem burstBegun_only (c : Nat) (d : Desc) (s : State) : changesOnly { chains := true } s (burstBegun c d s) := rfl

theorem granted_only (c : Nat) (s : State) : changesOnly { hst := true } s (granted c s) := rfl

theorem burstStarted_copy (c : Nat) (d : Desc) (s : State) :
    BurstStarted c d s.hst.granted s (burstReads c d (chainGet s c) (burstBegun c d s)) :=
  burstReads_starts (burstBegun_chain c d s) rfl rfl (only_trans (B := {}) (burstBegun_only c d s) rfl)

theorem burstStarted_granted (c : Nat) (d : Desc) (s : State) :
    BurstStarted c d c s (burstReads c d (chainGet s c) (granted c (burstBegun c d s))) :=
  burstReads_starts (u := granted c (burstBegun c d s)) (burstBegun_chain c d s) rfl rfl
    (only_trans (burstBegun_only c d s) (granted_only c _))

/-- A burst that is put off is marked, whether it has been counted already or not. -/
theorem deferBurst_spec (c : Nat) (s : State) :
    chainGet (deferBurst c s) c = { chainGet s c with deferred := true } ∧ changesOnly { chains := true, obs := true } s (deferBurst c s) := by
  refine ⟨?_, (does_deferBurst c (.refl _ s) rfl).only⟩
  unfold deferBurst
  dsimp only
  split
  next h => rw [← h]
  next => rw [chainGet_cntHst, chainGet_set]

/-- Settles O22: a burst begins its chain's next part and issues its reads, or is put off. -/
theorem burstStarts : Obligations.BurstStarts := by
  intro s c d spaced x hdesc hrun hburst hwithdrawn hmoved hline
  obtain ⟨hpos, hmax, hleft⟩ := burstLen_bounds hline
  refine ⟨hpos, hmax, hleft, fun hdir => ?_, fun hdir => ?_, fun hgo => ?_, fun hdir hlive hgrant => ?_⟩
  · have hpage := burstLen_page (by omega : d.dir ≠ 2) x
    rwa [burstHost, if_pos hdir] at hpage
  · have hpage := burstLen_page (by omega : d.dir ≠ 2) x
    rwa [burstHost, if_neg (by omega)] at hpage
  · by_cases hdir : d.dir = 2
    · have hstart := burstStarted_copy c d s
      exact ⟨_, exec_dmaBurstStart_copy hdesc hrun hburst hwithdrawn hmoved hdir, hstart.chain, hstart.granted.trans (if_pos hdir).symm,
        hstart.outs, hstart.only⟩
    · obtain ⟨hlive, hgrant⟩ := hgo.resolve_left hdir
      have hstart := burstStarted_granted c d s
      exact ⟨_, exec_dmaBurstStart_granted hdesc hrun hburst hwithdrawn hmoved hdir hlive hgrant, hstart.chain,
        hstart.granted.trans (if_neg hdir).symm, hstart.outs, hstart.only⟩
  · exact ⟨_, exec_dmaBurstStart_deferred hdesc hrun hburst hwithdrawn hmoved hdir hlive hgrant, deferBurst_spec c s⟩

/-! ### A burst ends (R385, R387, R388) -/

theorem hostLoftWrite_lft (c : Nat) (poison : Bool) (a : Nat) (bs : List Byte) (s : State) :
    (hostLoftWrite c poison a bs s).lft = (loftWrite 1 (some c) poison a bs s).lft := by
  unfold hostLoftWrite
  dsimp only
  generalize loftWrite 1 (some c) poison a bs s = u
  split
  · rfl
  · split <;> rfl

theorem chainGet_hostLoftWrite (c : Nat) (poison : Bool) (a : Nat) (bs : List Byte) (s : State) (k : Nat) :
    chainGet (hostLoftWrite c poison a bs s) k = chainGet s k :=
  chainGet_congr (same_chains (does_hostLoftWrite (F := { Parts.events with pac := true, lft := true }) c poison a bs (.refl _ s) rfl).only rfl) k

theorem feedCrc_only (c : Nat) (d : Desc) (bs : List Byte) (s : State) : changesOnly { chains := true } s (feedCrc c d bs s) :=
  (does_feedCrc c d bs (.refl _ s) rfl).only

/-- Feeding the CRC changes it alone. -/
theorem chainGet_feedCrc (c : Nat) (d : Desc) (bs : List Byte) (s : State) : ∃ k, chainGet (feedCrc c d bs s) c = { chainGet s c with crc := k } := by
  unfold feedCrc
  split
  · exact ⟨_, chainGet_set _ _ _⟩
  · exact ⟨(chainGet s c).crc, rfl⟩

theorem storeCrc_of_none (h : d.crcStore = false) (c : Nat) (s : State) : storeCrc c d s = s := if_neg (by simp [h])

/-- A chain whose burst of n bytes has ended, at the next place of its descriptor. -/
def movedChain (n : Nat) (d : Desc) (x : Chain) : Chain :=
  { x with
    burst := none, got := [], landed := false, srcUe := x.srcUe || burstUe x, done := x.done + n, bytes := (x.bytes + n) % 2 ^ 64,
    line := if decide (x.off + n ≥ d.lineLen) then x.line + 1 else x.line, off := if decide (x.off + n ≥ d.lineLen) then 0 else x.off + n }

/-- The end of a burst, where the chain is not withdrawn and no CRC is stored. -/
theorem burstDone_eq {c : Nat} (hwithdrawn : (chainGet s c).withdrawn = false) (hstore : d.crcStore = false) (n : Nat) :
    burstDone c n d s = cntHst 5 (some c) n (chainSet s c (movedChain n d (chainGet s c))) := by
  have hchain : chainGet (cntHst 5 (some c) n (chainSet s c (movedChain n d (chainGet s c)))) c = movedChain n d (chainGet s c) := by
    rw [chainGet_cntHst, chainGet_set]
  show (if (chainGet (cntHst 5 (some c) n (chainSet s c (movedChain n d (chainGet s c)))) c).withdrawn = true then _ else storeCrc c d _) = _
  rw [hchain, storeCrc_of_none hstore]
  exact if_neg (by simp [movedChain, hwithdrawn])

/-- The fields of a chain that the end of a burst of n bytes moves on, whatever the CRC has become. -/
structure BurstMoved (n : Nat) (d : Desc) (x y : Chain) : Prop where
  burst : y.burst = none
  bytes : y.bytes = (x.bytes + n) % 2 ^ 64
  done : y.done = x.done + n
  line : y.line = if x.off + n ≥ d.lineLen then x.line + 1 else x.line

section BurstDone

variable {c : Nat} {u : State} {n crc : Nat} (hchain : chainGet u c = { chainGet s c with crc := crc })
  (hwithdrawn : (chainGet s c).withdrawn = false) (hstore : d.crcStore = false)
include hchain hwithdrawn hstore

theorem burstDone_moves : BurstMoved n d (chainGet s c) (chainGet (burstDone c n d u) c) ∧
    (burstDone c n d u).outs = u.outs ∧ (burstDone c n d u).lft = u.lft := by
  have hwith : (chainGet u c).withdrawn = false := by
    rw [hchain]
    exact hwithdrawn
  rw [burstDone_eq hwith hstore, chainGet_cntHst, chainGet_set, hchain]
  refine ⟨⟨rfl, rfl, rfl, ?_⟩, cntHst_outs _ _ _ _, same_lft (s := chainSet u c _) (cntHst_only _ _ _ _) rfl⟩
  simp only [movedChain, decide_eq_true_eq]

end BurstDone

theorem chainWriting_congr (h : t.lft = s.lft) (c : Nat) : chainWriting t c = chainWriting s c := by rw [chainWriting, h, chainWriting]

section End

variable {c : Fin 16} {a n : Nat} (hdesc : (chainGet s c).desc = some d) (hburst : (chainGet s c).burst = some (a, n))
  (hlanded : (chainGet s c).landed = false)
include hdesc hburst hlanded

theorem exec_dmaBurstEnd_failed (hdir : d.dir = 0) : exec (.dmaBurstEnd c none) s =
    .next (chainSet s c { chainGet s c with burst := none, failed := true }) := by
  show execDmaBurstEnd c none s = _
  simp only [execDmaBurstEnd, hdesc, hburst, hlanded, hdir, Bool.false_eq_true, if_false, if_true]
  rfl

theorem exec_dmaBurstEnd_host (hdir : d.dir = 0) {b : List Byte} (hlen : b.length = n) : exec (.dmaBurstEnd c (some b)) s =
    .next (burstLanded c n d (feedCrc c d b (hostLoftWrite c false (burstDst (chainGet s c) d) b s))) := by
  show execDmaBurstEnd c (some b) s = _
  simp only [execDmaBurstEnd, hdesc, hburst, hlanded, hdir, Bool.false_eq_true, if_false, if_true]
  exact withLen_of_length hlen _

theorem exec_dmaBurstEnd_toHost (hdir : d.dir = 1) (hread : burstRead (chainGet s c) (burstSrc (chainGet s c) d) n = true) :
    exec (.dmaBurstEnd c none) s =
      .next (burstDone c n d (feedCrc c d (burstBytes (chainGet s c) (burstSrc (chainGet s c) d) n)
        (writeHost (burstDst (chainGet s c) d) (burstBytes (chainGet s c) (burstSrc (chainGet s c) d) n) s))) := by
  show execDmaBurstEnd c none s = _
  simp only [execDmaBurstEnd, hdesc, hburst, hlanded, hdir, hread, Bool.false_eq_true, one_ne_zero, not_true_eq_false, if_false, if_true]
  rfl

theorem exec_dmaBurstEnd_unread (hdir : d.dir ≠ 0) (hread : burstRead (chainGet s c) (burstSrc (chainGet s c) d) n = false) :
    exec (.dmaBurstEnd c none) s = .next s := by
  show execDmaBurstEnd c none s = _
  simp only [execDmaBurstEnd, hdesc, hburst, hlanded, hdir, hread, Bool.false_eq_true, not_false_eq_true, if_false, if_true]
  rfl

end End

theorem writeHost_only (a : Nat) (bs : List Byte) (s : State) : changesOnly { outs := true } s (writeHost a bs s) := rfl

/-- The state of a burst from the host whose bytes have gone to the loft and into the CRC. -/
def burstArrived (c : Nat) (d : Desc) (b : List Byte) (s : State) : State := feedCrc c d b (hostLoftWrite c false (burstDst (chainGet s c) d) b s)

theorem burstArrived_lft (c : Nat) (d : Desc) (b : List Byte) (s : State) :
    (burstArrived c d b s).lft = (loftWrite 1 (some c) false (burstDst (chainGet s c) d) b s).lft :=
  (same_lft (feedCrc_only _ _ _ _) rfl).trans (hostLoftWrite_lft _ _ _ _ _)

theorem chainGet_burstArrived (c : Nat) (d : Desc) (b : List Byte) (s : State) :
    ∃ k, chainGet (burstArrived c d b s) c = { chainGet s c with crc := k } := by
  obtain ⟨k, hk⟩ := chainGet_feedCrc c d b (hostLoftWrite c false (burstDst (chainGet s c) d) b s)
  rw [chainGet_hostLoftWrite] at hk
  exact ⟨k, hk⟩

/-- A burst from the host whose bytes have arrived ends once the loft has taken them, and until then has landed. -/
theorem burstLanded_spec {c : Nat} {a n : Nat} (hburst : (chainGet s c).burst = some (a, n)) (hwithdrawn : (chainGet s c).withdrawn = false)
    (hstore : d.crcStore = false) (b : List Byte) :
    let t := burstLanded c n d (burstArrived c d b s)
    t.lft = (burstArrived c d b s).lft ∧
    (chainWriting t c = false → BurstMoved n d (chainGet s c) (chainGet t c)) ∧
    (chainWriting t c = true → (chainGet t c).burst = some (a, n) ∧ (chainGet t c).landed = true ∧ (chainGet t c).bytes = (chainGet s c).bytes) := by
  obtain ⟨k, hchain⟩ := chainGet_burstArrived c d b s
  generalize burstArrived c d b s = u at hchain
  unfold burstLanded
  split
  next hwriting =>
    refine ⟨rfl, fun hno => absurd (hwriting.symm.trans hno) (by decide), fun _ => ?_⟩
    rw [chainGet_set, hchain]
    exact ⟨hburst, rfl, rfl⟩
  next hwriting =>
    obtain ⟨hmoved, -, hlft⟩ := burstDone_moves (n := n) hchain hwithdrawn hstore
    exact ⟨hlft, fun _ => hmoved, fun hyes => absurd ((chainWriting_congr hlft c).symm.trans hyes) hwriting⟩

/-- Settles O23: the bytes go to the loft or out, and the end of the burst is one update of its chain. -/
theorem burstEnds : Obligations.BurstEnds := by
  intro s c d a n x hdesc hburst hwithdrawn hlanded hstore
  refine ⟨fun hdir => ⟨_, exec_dmaBurstEnd_failed hdesc hburst hlanded hdir, rfl⟩, fun b hdir hlen => ?_, fun hdir hread => ?_,
    fun hdir hread => exec_dmaBurstEnd_unread hdesc hburst hlanded hdir hread⟩
  · obtain ⟨hlft, hdone, hstays⟩ := burstLanded_spec hburst hwithdrawn hstore b
    exact ⟨_, exec_dmaBurstEnd_host hdesc hburst hlanded hdir hlen, hlft.trans (burstArrived_lft _ _ _ _),
      fun h => ⟨(hdone h).burst, (hdone h).bytes, (hdone h).done⟩, hstays⟩
  · have hsent := writeHost_only (burstDst x d) (burstBytes x (burstSrc x d) n) s
    obtain ⟨k, hk⟩ := chainGet_feedCrc c d (burstBytes x (burstSrc x d) n) (writeHost (burstDst x d) (burstBytes x (burstSrc x d) n) s)
    have hfed := feedCrc_only c d (burstBytes x (burstSrc x d) n) (writeHost (burstDst x d) (burstBytes x (burstSrc x d) n) s)
    obtain ⟨hmoved, houts, hlft⟩ := burstDone_moves (s := s) (n := n) hk hwithdrawn hstore
    exact ⟨_, exec_dmaBurstEnd_toHost hdesc hburst hlanded hdir hread, hmoved.burst, hmoved.bytes, hmoved.done, hmoved.line,
      houts.trans (same_outs hfed rfl), hlft.trans ((same_lft hfed rfl).trans (same_lft hsent rfl))⟩

end Sys2Proof.Machine
end

section
/-! PROOFS. The ring commands of the host interface (R367, R376, R392 to R396), and O25. -/

-- One theorem at a time, as under Laws/: the package as one text takes too much memory in many threads.
set_option Elab.async false

namespace Sys2Proof.Machine

variable {s t : State} {id : Nat} {c : Cmd}

theorem cmdOp_of_started (h : cmdFind s id = some c) (hstarted : c.phase = .started) {op : Nat} (hop : c.opcode = op) :
    cmdOp s id op = some c := by
  simp only [cmdOp, h]
  exact if_pos ⟨hop, hstarted⟩

/-! ### Fields of a command (R16) -/

theorem ofLe_lt (bs : List Byte) : ofLe bs < 256 ^ bs.length := by
  induction bs with
  | nil => exact Nat.one_pos
  | cons b bs ih =>
    have hb := b.isLt
    rw [ofLe, List.length_cons, Nat.pow_succ]
    omega

theorem fld_lt (bs : List Byte) (o n : Nat) : fld bs o n < 256 ^ n :=
  (ofLe_lt _).trans_le (Nat.pow_le_pow_right (by decide) (List.length_take_le _ _))

/-! ### NOP (R367) -/

theorem exec_nop (h : cmdOp s id 0 = some c) : exec (.nop id) s = .next (complete id (if c.reserved 0 then 2 else 0) [] s) := by
  show execNop id s = _
  simp only [execNop, h]
  rfl

/-! ### SHEAF_LOAD (R393) -/

/-- A chain that a SHEAF_LOAD takes. -/
def ownedChain (id : Nat) (x : Chain) : Chain := { x with owner := some id, descs := 0, moved := 0 }

/-- The head registers of a chain hold an address. -/
def headWritten (ch a : Nat) (s : State) : State := regSet (regSet s (chBase ch + 8) (a % 2 ^ 32)) (chBase ch + 0xC) (a / 2 ^ 32)

theorem chHead_headWritten (ch : Nat) {a : Nat} (ha : a < 2 ^ 64) (s : State) : chHead (headWritten ch a s) ch = a := by
  rw [chHead, regPair, headWritten, regGet_regSet_same, regGet_regSet_ne _ _ (by omega), regGet_regSet_same]
  omega

/-- The SHEAF_LOAD runs and owns its chain. -/
def loadBegun (id ch a : Nat) (s : State) : State := cmdRun id (chainSet (headWritten ch a s) ch (ownedChain id (chainGet s ch)))

theorem loadBegun_only (id ch a : Nat) (s : State) :
    changesOnly { regs := true, hst := true, chains := true } s (loadBegun id ch a s) := by
  have hhead : changesOnly { regs := true } s (headWritten ch a s) := rfl
  have hchain : changesOnly { chains := true } (headWritten ch a s) (chainSet (headWritten ch a s) ch (ownedChain id (chainGet s ch))) := rfl
  have hrun : changesOnly { hst := true } (chainSet (headWritten ch a s) ch (ownedChain id (chainGet s ch))) (loadBegun id ch a s) := rfl
  have hboth : changesOnly { regs := true, chains := true } s (chainSet (headWritten ch a s) ch (ownedChain id (chainGet s ch))) :=
    only_trans hhead hchain
  exact only_trans hboth hrun

section SheafLoad

variable (h : cmdOp s id 1 = some c) (hres : c.reserved 0x18 = false) (hflags : c.p 0x11 1 < 2) (hzero : c.p 0x12 6 = 0)
  (hch : c.p 0x10 1 < 16) (htrained : s.lft.trained = true)
  (hstate : (chainGet s (c.p 0x10 1)).state = .idle ∨ (chainGet s (c.p 0x10 1)).state = .stopped)
  (howner : (chainGet s (c.p 0x10 1)).owner = none)
include h hres hflags hzero hch htrained hstate howner

/-- A SHEAF_LOAD that passes its checks starts its chain. -/
theorem exec_sheafLoad : exec (.sheafLoad id) s =
    .next (startDesc (c.p 0x10 1) (c.p 0 8 / 64 * 64) (loadBegun id (c.p 0x10 1) (c.p 0 8 / 64 * 64) s)) := by
  have hfree : ¬ ((chainGet s (c.p 0x10 1)).state = .run ∨ (chainGet s (c.p 0x10 1)).state = .wait) := by
    rcases hstate with h | h <;> simp [h]
  show execSheafLoad id s = _
  unfold execSheafLoad
  rw [h]
  dsimp only
  rw [Nat.mod_eq_of_lt hch, if_neg (by simp [hres, hzero]; omega), if_neg (by simp [htrained]),
    if_neg (by rw [← or_assoc]; simpa [howner] using hfree)]
  rfl

theorem answers_sheafLoad : answers (.sheafLoad id) s fun t =>
    let x := chainGet t (c.p 0x10 1)
    let a := c.p 0 8 / 64 * 64
    x.state = .run ∧ x.cur = a ∧ x.owner = some id ∧ x.descs = 0 ∧ x.moved = 0 ∧ chHead t (c.p 0x10 1) = a ∧
    t.outs = .hostRead a 64 :: s.outs ∧ changesOnly { outs := true, regs := true, hst := true, chains := true } s t := by
  have hexec := exec_sheafLoad h hres hflags hzero hch htrained hstate howner
  have hfld : c.p 0 8 < 256 ^ 8 := fld_lt c.params 0 8
  have haddr : c.p 0 8 / 64 * 64 < 2 ^ 64 := by omega
  generalize c.p 0 8 / 64 * 64 = a at hexec haddr
  generalize c.p 0x10 1 = ch at hexec
  have hchain : chainGet (startDesc ch a (loadBegun id ch a s)) ch =
      startedChain a (kickOf (loadBegun id ch a s) ch) (ownedChain id (chainGet s ch)) := by
    rw [chainGet_startDesc]
    exact congrArg _ (chainGet_set (headWritten ch a s) ch _)
  refine ⟨_, hexec, ?_⟩
  dsimp only
  rw [hchain]
  exact ⟨rfl, rfl, rfl, rfl, rfl, (chHead_congr rfl ch).trans (chHead_headWritten ch haddr s), rfl,
    only_trans (loadBegun_only id ch a s) (startDesc_only ch a (loadBegun id ch a s))⟩

end SheafLoad

/-! ### SCAN_CHECK (R356, R392) -/

/-- A read joins the queue of its channel. -/
theorem queueRead_reads (r : LftReq) (s : State) :
    (lftGet (queueRead r s) (coordOf s r.addr).ch).reads =
      (lftGet s (coordOf s r.addr).ch).reads ++ [{ r with seq := (lftGet s (coordOf s r.addr).ch).seq }] := by
  rw [queueRead, lftGet_lftSet_same]

/-- A scan without a unit waits behind the others. -/
def scanWaits (x : Scan) (s : State) : State := { s with chk := { s.chk with waits := s.chk.waits ++ [x] } }

theorem scanStart_of_free {k : Nat} (h : freeUnit s = some k) (x : Scan) : scanStart x s = scanRead k x (scanPut k x s) := by
  simp only [scanStart, h]
  rfl

theorem scanStart_of_busy (h : freeUnit s = none) (x : Scan) : scanStart x s = scanWaits x s := by
  simp only [scanStart, h]
  rfl

/-- The first read of a ring command's scan. -/
theorem scanRead_reads {k : Nat} {x : Scan} (howner : x.owner = 1) (s : State) :
    ∃ r, (lftGet (scanRead k x s) (coordOf s (64 * x.next)).ch).reads = (lftGet s (coordOf s (64 * x.next)).ch).reads ++ [r] ∧
      r.addr = 64 * x.next ∧ r.rank = 3 ∧ r.who = .scan k := by
  have hread : scanRead k x s = queueRead { rank := 3, client := 4, addr := 64 * x.next, who := .scan k } s := by
    simp only [scanRead, howner]
    rfl
  rw [hread]
  exact ⟨_, queueRead_reads { rank := 3, client := 4, addr := 64 * x.next, who := .scan k } s, rfl, rfl, rfl⟩

theorem scanRead_only (k : Nat) (x : Scan) (s : State) : changesOnly { lft := true } s (scanRead k x s) := (does_scanRead k x (.refl _ s) rfl).only

/-- The scan of a SCAN_CHECK without flags. -/
def plainScan (id : Nat) (c : Cmd) : Scan :=
  { owner := 1, tag := c.tag, cmd := id, next := c.p 0 8 / 64, left := c.p 8 8, algo := c.p 0x10 1, stop := false,
    expect := none, crc := crcInit (c.p 0x10 1) }

section ScanCheck

variable (h : cmdOp s id 8 = some c) (hhead : c.headBad = false) (htrained : s.lft.trained = true) (halign : c.p 0 8 % 64 = 0)
  (hwhole : c.p 8 8 % 64 = 0) (hsome : c.p 8 8 ≠ 0) (hrange : c.p 0 8 + c.p 8 8 ≤ loftBytes s) (halgo : c.p 0x10 1 ≤ 3)
  (hflags : c.p 0x11 1 = 0) (hzero : c.p 0x12 6 = 0) (htail : c.tailBad 0x20 = false)
include h hhead htrained halign hwhole hsome hrange halgo hflags hzero htail

theorem exec_scanCheck : exec (.scanCheck id) s = .next (scanStart (plainScan id c) (cmdRun id s)) := by
  show execScanCheck id s = _
  unfold execScanCheck
  rw [h]
  dsimp only
  rw [if_neg (by simp [hhead]), if_neg (by simp [htrained]), if_neg (by omega), if_neg (by simp [hflags, hzero, htail]; omega), hflags]
  rfl

theorem answers_scanCheck (hfind : cmdFind s id = some c) : answers (.scanCheck id) s fun t =>
    cmdFind t id = some { c with phase := .running } ∧
    (∀ k, freeUnit s = some k → tfind t.chk.scans k = some (plainScan id c) ∧ t.chk.waits = s.chk.waits ∧
      ∃ r, (lftGet t (coordOf s (c.p 0 8)).ch).reads = (lftGet s (coordOf s (c.p 0 8)).ch).reads ++ [r] ∧ r.addr = c.p 0 8 ∧ r.rank = 3 ∧
        r.who = .scan k) ∧
    (freeUnit s = none → t.chk = { s.chk with waits := s.chk.waits ++ [plainScan id c] } ∧ t.lft = s.lft) ∧
    changesOnly { hst := true, chk := true, lft := true } s t := by
  have hrun := cmdFind_cmdRun hfind
  have hblk : 64 * (plainScan id c).next = c.p 0 8 := by
    show 64 * (c.p 0 8 / 64) = _
    omega
  refine ⟨_, exec_scanCheck h hhead htrained halign hwhole hsome hrange halgo hflags hzero htail, ?_⟩
  have hunit : freeUnit (cmdRun id s) = freeUnit s := rfl
  cases hfree : freeUnit s with
  | none =>
    rw [scanStart_of_busy (hunit.trans hfree)]
    exact ⟨hrun, fun k hk => (by cases hk), fun _ => ⟨rfl, rfl⟩, rfl⟩
  | some k =>
    rw [scanStart_of_free (hunit.trans hfree)]
    have hread := scanRead_only k (plainScan id c) (scanPut k (plainScan id c) (cmdRun id s))
    have hput : changesOnly { hst := true, chk := true } s (scanPut k (plainScan id c) (cmdRun id s)) := rfl
    obtain ⟨r, hreads, haddr, hrank, hwho⟩ := scanRead_reads (k := k) (x := plainScan id c) rfl (scanPut k (plainScan id c) (cmdRun id s))
    rw [hblk] at hreads haddr
    have hchk := same_chk hread rfl
    refine ⟨(cmdFind_congr (by rw [same_hst hread rfl]; rfl) id).trans hrun, fun j hj => ?_, fun hk => (by cases hk), only_trans hput hread⟩
    obtain rfl := Option.some.inj hj
    rw [hchk]
    exact ⟨tfind_tput_same _ _ _, rfl, r, hreads, haddr, hrank, hwho⟩

end ScanCheck

/-! ### READBACK (R394 to R396) -/

theorem readbackRead_only (j : ReadbackJob) (s : State) : changesOnly { lft := true } s (readbackRead j s) :=
  (does_readbackRead j (.refl _ s) rfl).only

/-- What READBACK takes of the admission `a` and of the versions that apply at its start. -/
def readbackJob (id : Nat) (c : Cmd) (a : Admission) (s : State) : ReadbackJob :=
  { cmd := id, gen := s.dos.gen, adm := a, cur := s.dos.cur, prev := s.dos.prev,
    todo := readbackBlocks a (c.p 4 4) (c.p 8 4) (c.p 0xC 2) (c.p 0xE 2) }

/-- One more READBACK is under way. -/
def readbackAdded (j : ReadbackJob) (s : State) : State := { s with readbacks := s.readbacks ++ [j] }

/-- The rectangle of a READBACK lies in its stripe and has at most 4,194,304 elements (Table 10-18). -/
structure RectFits (c : Cmd) (a : Admission) : Prop where
  right : c.p 4 4 + c.p 0xC 2 ≤ a.hdr.W
  bottom : c.p 8 4 + c.p 0xE 2 ≤ a.hdr.L
  elements : c.p 0xC 2 * c.p 0xE 2 * (passesOf (c.p 0x10 1)).length ≤ 4194304
  wide : 0 < c.p 0xC 2
  high : 0 < c.p 0xE 2
  width : c.p 0xC 2 ≤ 4096
  height : c.p 0xE 2 ≤ 4096

/-- Format, passes and stride of a READBACK are good values (Table 10-18). -/
structure ValuesFit (c : Cmd) (a : Admission) : Prop where
  format : c.p 0x11 1 ≤ 1
  some_pass : c.p 0x10 1 ≠ 0
  passes : c.p 0x10 1 < 2 ^ a.hdr.passes
  stride : c.p 0xC 2 * (if c.p 0x11 1 = 0 then 1 else 16) ≤ c.p 0x14 4

theorem exec_readback {a : Admission} (h : cmdOp s id 9 = some c) (hres : c.reserved 0x20 = false) (hzero : c.p 0x12 2 = 0)
    (hadm : s.pac.adm = some a) (hheld : a.phase = .held) (hnames : c.p 0 4 = 0 ∨ c.p 0 4 = a.id) (hrect : RectFits c a)
    (hvalues : ValuesFit c a) :
    exec (.readback id) s = .next (readbackRead (readbackJob id c a s) (cmdRun id (readbackAdded (readbackJob id c a s) s))) := by
  obtain ⟨hright, hbottom, helements, hwide, hhigh, hwidth, hheight⟩ := hrect
  obtain ⟨hformat, hsome, hpasses, hstride⟩ := hvalues
  show execReadback id s = _
  unfold execReadback
  rw [h]
  dsimp only
  rw [if_neg (by simp [hres, hzero]), hadm]
  dsimp only
  rw [if_neg (by simp [hheld]; omega), if_neg (by omega), if_neg (by omega)]
  rfl

theorem answers_readback {a : Admission} (h : cmdOp s id 9 = some c) (hres : c.reserved 0x20 = false) (hzero : c.p 0x12 2 = 0)
    (hadm : s.pac.adm = some a) (hheld : a.phase = .held) (hnames : c.p 0 4 = 0 ∨ c.p 0 4 = a.id) (hrect : RectFits c a)
    (hvalues : ValuesFit c a) : answers (.readback id) s fun t =>
      t.readbacks = s.readbacks ++ [readbackJob id c a s] ∧ changesOnly { hst := true, lft := true, readbacks := true } s t := by
  have hread := readbackRead_only (readbackJob id c a s) (cmdRun id (readbackAdded (readbackJob id c a s) s))
  have hbegun : changesOnly { hst := true, readbacks := true } s (cmdRun id (readbackAdded (readbackJob id c a s) s)) := rfl
  exact ⟨_, exec_readback h hres hzero hadm hheld hnames hrect hvalues, same_readbacks hread rfl, only_trans hbegun hread⟩

/-- READBACK_COMPLETE leaves the rest of the jobs. -/
def readbacksAfter (r : List ReadbackJob) (s : State) : State := { s with readbacks := r }

theorem readbacksAfter_only (r : List ReadbackJob) (s : State) : changesOnly { readbacks := true } s (readbacksAfter r s) := rfl

theorem foldl_writeHost_only (l : List (Nat × List Byte)) (s : State) :
    changesOnly { outs := true } s (l.foldl (fun s l => writeHost l.1 l.2 s) s) :=
  (Does.foldl (.refl _ s) fun _ _ h => does_writeHost _ _ h rfl).only

/-- The first job, with all its reads back, completes its command once its lines, if any, are out. -/
theorem exec_readbackComplete {j : ReadbackJob} {r : List ReadbackJob} (hjobs : s.readbacks = j :: r) (htodo : j.todo = [])
    (hfind : cmdFind s j.cmd = some c) : ∃ (u : State) (data : List Byte), changesOnly { outs := true } (readbacksAfter r s) u ∧
      exec .readbackComplete s = .next (complete j.cmd (if j.cls ≥ 2 then 5 else 0) data u) := by
  have hfirst : s.readbacks.find? (fun j => j.todo.isEmpty) = some j := by
    rw [hjobs]
    exact List.find?_cons_of_pos (by rw [htodo]; rfl)
  have hrest : s.readbacks.erase j = r := by rw [hjobs, List.erase_cons_head]
  show ∃ u data, _ ∧ execReadbackComplete s = _
  unfold execReadbackComplete
  rw [hfirst]
  dsimp only
  rw [hrest, hfind]
  dsimp only
  split
  · exact ⟨_, [], rfl, rfl⟩
  · exact ⟨_, _, foldl_writeHost_only _ _, rfl⟩

theorem answers_readbackComplete {j : ReadbackJob} {r : List ReadbackJob} (hjobs : s.readbacks = j :: r) (htodo : j.todo = [])
    (hfind : cmdFind s j.cmd = some c) : answers .readbackComplete s fun t =>
      t.readbacks = r ∧ completedWith { outs := true, readbacks := true } j.cmd (if j.cls ≥ 2 then 5 else 0) s t := by
  obtain ⟨u, data, hlines, hexec⟩ := exec_readbackComplete hjobs htodo hfind
  refine ⟨_, hexec, ?_, u, data, only_trans (readbacksAfter_only r s) hlines, rfl⟩
  exact (same_readbacks (complete_only _ _ _ u) rfl).trans (same_readbacks hlines rfl)

/-- Settles O25: each command that passes its checks is one operation, and its completion one more. -/
theorem ringCommands : Obligations.RingCommands := by
  intro s id c hfind hstarted
  have hop {op : Nat} := cmdOp_of_started hfind hstarted (op := op)
  refine ⟨fun h => answers_complete (exec_nop (hop h)), fun h hres hflags hzero hch htrained hstate howner =>
      answers_sheafLoad (hop h) hres hflags hzero hch htrained hstate howner,
    fun h hhead htrained halign hwhole hsome hrange halgo hflags hzero htail =>
      answers_scanCheck (hop h) hhead htrained halign hwhole hsome hrange halgo hflags hzero htail hfind,
    fun a h hres hzero hadm hheld hnames hright hbottom helements hwide hhigh hwidth hheight hformat hpass hpasses hstride =>
      answers_readback (hop h) hres hzero hadm hheld hnames ⟨hright, hbottom, helements, hwide, hhigh, hwidth, hheight⟩
        ⟨hformat, hpass, hpasses, hstride⟩, fun j r hjobs hid htodo => ?_⟩
  subst hid
  exact answers_readbackComplete hjobs htodo hfind

end Sys2Proof.Machine
end

section
/-! PROOFS. The TIM block (11): what events, completions and counters leave of it, and what reads it. -/

-- One theorem at a time, as under Laws/: the package as one text takes too much memory in many threads.
set_option Elab.async false

namespace Sys2Proof.Machine

variable {s t u : State}

/-! ### Operations that leave the TIM block alone -/

@[simp] theorem raiseItems_tim (code cls : Nat) (l : List (Nat × Nat)) (s : State) : (raiseItems code cls l s).tim = s.tim :=
  same_tim (raiseItems_only code cls l s) rfl

@[simp] theorem complete_tim (id status : Nat) (data : List Byte) (s : State) : (complete id status data s).tim = s.tim :=
  same_tim (complete_only id status data s) rfl

theorem cntTim_only (ev : Nat) (unit : Option Nat) (n : Nat) (s : State) : changesOnly { obs := true } s (cntTim ev unit n s) :=
  (does_cntTim ev unit n (.refl _ s) rfl).only

@[simp] theorem cntTim_tim (ev : Nat) (unit : Option Nat) (n : Nat) (s : State) : (cntTim ev unit n s).tim = s.tim :=
  same_tim (cntTim_only ev unit n s) rfl

@[simp] theorem cntTim_outs (ev : Nat) (unit : Option Nat) (n : Nat) (s : State) : (cntTim ev unit n s).outs = s.outs :=
  same_outs (cntTim_only ev unit n s) rfl

@[simp] theorem chkFrame_tim (ev path n : Nat) (s : State) : (chkFrame ev path n s).tim = s.tim :=
  same_tim (chkFrame_only ev path n s) rfl

@[simp] theorem chkFrame_outs (ev path n : Nat) (s : State) : (chkFrame ev path n s).outs = s.outs :=
  same_outs (chkFrame_only ev path n s) rfl

theorem cmdRun_only (id : Nat) (s : State) : changesOnly { hst := true } s (cmdRun id s) := rfl

theorem portSet_only (s : State) (p : Nat) (x : Port) : changesOnly { tim := true } s (portSet s p x) := rfl

theorem domSet_only (s : State) (b : Bool) (x : Dom) : changesOnly { tim := true } s (domSet s b x) := by cases b <;> rfl

/-! ### What reads the TIM block -/

theorem portGet_congr (h : t.tim = s.tim) (p : Nat) : portGet t p = portGet s p := by rw [portGet, h, portGet]

theorem domGet_congr (h : t.tim = s.tim) (b : Bool) : domGet t b = domGet s b := by rw [domGet, h, domGet]

/-- An event is reported from a state whose fault counts and silo stand and whose domain A shows the same time. -/
theorem raiseItems_reported_from (code cls : Nat) (l : List (Nat × Nat)) (hglb : u.glb = s.glb) (hslo : u.slo = s.slo)
    (hnow : u.tim.a.t = s.tim.a.t) : reported code cls s (raiseItems code cls l u) := by
  have h := raiseItems_reported code cls l u
  unfold reported nowA at h ⊢
  rwa [hglb, hslo, hnow] at h

end Sys2Proof.Machine
end

section
/-! PROOFS. The clocks (R405 to R412): the increment and the steps that are written, the tick of a domain, the domain switch, and O53. -/

-- One theorem at a time, as under Laws/: the package as one text takes too much memory in many threads.
set_option Elab.async false

namespace Sys2Proof.Machine

variable {s : State}

/-! ### The increment (R406) -/

/-- The domain with an increment that commits at the next tick, or out of range. -/
def Dom.offered (x : Dom) (inc : Nat) : Dom :=
  if inc < 0x3FEF9DB23 ∨ 0x4010624DD < inc then { x with incrRange := true } else { x with incrNext := some inc }

/-- The low half of an increment: the half that waits at `lo`, or that of the increment in effect. -/
def lowHalf (s : State) (lo : Nat) (x : Dom) : Nat :=
  ((tfind s.halves lo).map (fun h => h.toNat)).getD ((x.incrNext.getD x.incr) % 2 ^ 32)

/-- The half that waits at `lo` is taken. -/
def halfTaken (lo : Nat) (s : State) : State := { s with halves := tdel s.halves lo }

theorem incrHi_eq (d : Fin 2) (v : Nat) (s : State) : incrHi (decide (d.val = 1)) v s =
    domSet (halfTaken (0x150000 + 0x100 * d.val + 0x10) s) (decide (d.val = 1)) ((domGet s (decide (d.val = 1))).offered
      (v % 256 * 2 ^ 32 + lowHalf s (0x150000 + 0x100 * d.val + 0x10) (domGet s (decide (d.val = 1))))) := by
  have hlo : (if decide (d.val = 1) = true then 0x150110 else 0x150010) = 0x150000 + 0x100 * d.val + 0x10 := by
    fin_cases d <;> rfl
  unfold incrHi
  rw [hlo]
  exact (apply_ite (domSet _ _) _ _ _).symm

theorem answers_timIncrHiWrite (d : Fin 2) (v : W32) (h : writeReaches (domBase d + 0x14) s) :
    answers (.timIncrHiWrite d v) s fun t =>
      tfind t.halves (domBase d + 0x10) = none ∧ changesOnly { halves := true, tim := true } s t ∧
      domGet t (!decide (d.val = 1)) = domGet s (!decide (d.val = 1)) ∧
      domGet t (decide (d.val = 1)) = (domGet s (decide (d.val = 1))).offered
        (v.toNat % 256 * 2 ^ 32 + lowHalf s (domBase d + 0x10) (domGet s (decide (d.val = 1)))) := by
  refine ⟨_, write_timIncrHi d v h, ?_⟩
  rw [incrHi_eq]
  exact ⟨tfind_tdel_same _ _, only_trans (u := halfTaken (domBase d + 0x10) s) (A := { halves := true }) rfl (domSet_only _ _ _),
    domGet_domSet_other _ _ _, domGet_domSet_same _ _ _⟩

/-! ### Loads and adjustments (R407) -/

section

variable (d : Fin 2)

/-- The time that a load sets. -/
def loadTime (s : State) : Nat :=
  timeOf (regPair s (domBase d + 0x18) (domBase d + 0x1C)) (regGet s (domBase d + 0x20))

/-- The size of an adjustment. -/
def adjustBy (s : State) : Int := signed 64 (regPair s (domBase d + 0x24) (domBase d + 0x28)) * 65536

/-- What TIMd_CMD makes of the domain. -/
def Dom.commanded (v ns at0 : Nat) (adj : Int) (x : Dom) : Dom :=
  if bitAt v 0 ∧ 1000000000 ≤ ns then { x with refused := true }
  else
    let y : Dom := if bitAt v 0 then { x with load := some at0, adjust := none } else x
    if bitAt v 1 then { y with adjust := some (y.adjust.getD 0 + adj) } else y

theorem timCmd_eq (v : Nat) (s : State) : timCmd (decide (d.val = 1)) v s = domSet s (decide (d.val = 1))
    ((domGet s (decide (d.val = 1))).commanded v (regGet s (domBase d + 0x20)) (loadTime d s) (adjustBy d s)) := by
  have hbase : (if decide (d.val = 1) = true then 0x150100 else 0x150000) = domBase d := by fin_cases d <;> rfl
  unfold timCmd
  rw [hbase]
  exact (apply_ite (domSet _ _) _ _ _).symm

theorem answers_timLoad (v : W32) (h : writeReaches (domBase d + 0x2C) s) : answers (.timLoad d v) s fun t =>
    t = domSet s (decide (d.val = 1)) (if 1000000000 ≤ regGet s (domBase d + 0x20)
      then { domGet s (decide (d.val = 1)) with refused := true }
      else { domGet s (decide (d.val = 1)) with
        load := some (loadTime d s), adjust := if v.toNat.testBit 1 then some (0 + adjustBy d s) else none }) := by
  have hadj : bitAt (setBit v.toNat 0) 1 = v.toNat.testBit 1 := by
    rw [setBit_zero_eq, bitAt, Nat.testBit_succ, Nat.testBit_succ]
    congr 1
    omega
  refine ⟨_, write_timLoad d v h, ?_⟩
  have h0 := bitAt_setBit_same v.toNat 0
  refine (timCmd_eq d _ s).trans (congrArg (domSet s _) ?_)
  rw [Dom.commanded, hadj]
  by_cases hns : 1000000000 ≤ regGet s (domBase d + 0x20)
  · rw [if_pos ⟨h0, hns⟩, if_pos hns]
  · rw [if_neg (fun hc => hns hc.2), if_neg hns, if_pos h0]
    cases v.toNat.testBit 1 <;> rfl

theorem exec_timAdjust (v : W32) (h : writeReaches (domBase d + 0x2C) s) : exec (.timAdjust d v) s =
    .next (domSet s (decide (d.val = 1)) ((domGet s (decide (d.val = 1))).commanded (setBit v.toNat 1)
      (regGet s (domBase d + 0x20)) (loadTime d s) (adjustBy d s))) :=
  (write_timAdjust d v h).trans (congrArg ok (timCmd_eq d _ s))

theorem answers_timAdjust (v : W32) (h : writeReaches (domBase d + 0x2C) s) (hload : v.toNat.testBit 0 = false) :
    answers (.timAdjust d v) s fun t => t = domSet s (decide (d.val = 1)) { domGet s (decide (d.val = 1)) with
      adjust := some ((domGet s (decide (d.val = 1))).adjust.getD 0 + adjustBy d s) } := by
  have h0 : bitAt (setBit v.toNat 1) 0 = false := (bitAt_setBit_of_lt Nat.one_pos _).trans hload
  refine ⟨_, exec_timAdjust d v h, ?_⟩
  simp [Dom.commanded, h0, bitAt_setBit_same]

theorem answers_timAdjust_load (v : W32) (h : writeReaches (domBase d + 0x2C) s) (hload : v.toNat.testBit 0 = true)
    (hns : regGet s (domBase d + 0x20) < 1000000000) :
    answers (.timAdjust d v) s fun t => t = domSet s (decide (d.val = 1)) { domGet s (decide (d.val = 1)) with
      load := some (loadTime d s), adjust := some (0 + adjustBy d s) } := by
  have h0 : bitAt (setBit v.toNat 1) 0 = true := (bitAt_setBit_of_lt Nat.one_pos _).trans hload
  refine ⟨_, exec_timAdjust d v h, ?_⟩
  simp [Dom.commanded, h0, bitAt_setBit_same, Nat.not_le.2 hns]

theorem answers_timAdjust_refused (v : W32) (h : writeReaches (domBase d + 0x2C) s) (hload : v.toNat.testBit 0 = true)
    (hns : 1000000000 ≤ regGet s (domBase d + 0x20)) :
    answers (.timAdjust d v) s fun t => t = domSet s (decide (d.val = 1)) { domGet s (decide (d.val = 1)) with refused := true } := by
  have h0 : bitAt (setBit v.toNat 1) 0 = true := (bitAt_setBit_of_lt Nat.one_pos _).trans hload
  refine ⟨_, exec_timAdjust d v h, ?_⟩
  simp [Dom.commanded, h0, hns]

end

/-! ### The tick of one domain (R405 to R407, R411) -/

/-- The time of the next tick, without a step. -/
def Dom.next (x : Dom) : Nat := (x.t + x.incr) % timeMod

/-- The increment commits, and nothing waits any more. -/
def Dom.taken (x : Dom) : Dom := { x with incr := x.incrNext.getD x.incr, incrNext := none, load := none, adjust := none }

/-- The size of the step that waits. -/
def Dom.leap (x : Dom) : Nat := ((x.stepped x.next : Int) - (x.next : Int)).natAbs

theorem Dom.tick_of_none {x : Dom} (h : x.hasStep = false) (tol : Nat) (bound block : Bool) :
    (x.tick tol bound block).1 = { x.taken with t := x.next } := by
  unfold Dom.tick
  rw [h]
  rfl

theorem Dom.tick_of_refused {x : Dom} (h : x.hasStep = true) {tol : Nat} {bound block : Bool}
    (hr : block = true ∨ bound = true ∧ tol < x.leap) :
    (x.tick tol bound block).1 = { x.taken with t := x.next, refused := true } :=
  congrArg Prod.fst ((if_neg (not_not.2 h)).trans (if_pos hr))

theorem Dom.tick_of_step {x : Dom} (h : x.hasStep = true) {tol : Nat} {bound : Bool} (hfits : bound = false ∨ x.leap ≤ tol) :
    (x.tick tol bound false).1 = { x.taken with t := x.stepped x.next, set := x.set || x.load.isSome } := by
  refine congrArg Prod.fst ((if_neg (not_not.2 h)).trans (if_neg ?_))
  rintro (hblock | ⟨hbound, hfar⟩)
  · exact Bool.false_ne_true hblock
  · exact hfits.elim (fun hfree => Bool.false_ne_true (hfree.symm.trans hbound)) (Nat.not_le.2 hfar)

/-- What a tick makes of domain x: its increment commits, nothing waits any more, and the step takes place or is refused. -/
def Dom.Ticks (tol : Nat) (bound : Bool) (x y : Dom) : Prop :=
  let u := (x.t + x.incr) % timeMod
  let fits := bound = false ∨ ((x.stepped u : Int) - (u : Int)).natAbs ≤ tol
  y.incr = x.incrNext.getD x.incr ∧ y.incrNext = none ∧ y.load = none ∧ y.adjust = none ∧
  (x.hasStep = false → y.t = u ∧ y.refused = x.refused) ∧
  (x.hasStep = true → fits → y.t = x.stepped u ∧ y.set = (x.set || x.load.isSome) ∧ y.refused = x.refused) ∧
  (x.hasStep = true → ¬ fits → y.t = u ∧ y.refused = true ∧ y.set = x.set)

theorem Dom.tick_ticks (tol : Nat) (bound : Bool) (x : Dom) : x.Ticks tol bound (x.tick tol bound false).1 := by
  cases hstep : x.hasStep with
  | false =>
    rw [Dom.tick_of_none hstep]
    have hnot : ¬ x.hasStep = true := fun h => Bool.false_ne_true (hstep.symm.trans h)
    exact ⟨rfl, rfl, rfl, rfl, fun _ => ⟨rfl, rfl⟩, fun h => absurd h hnot, fun h => absurd h hnot⟩
  | true =>
    have hnot : ¬ x.hasStep = false := fun h => Bool.false_ne_true (h.symm.trans hstep)
    by_cases hfits : bound = false ∨ x.leap ≤ tol
    · rw [Dom.tick_of_step hstep hfits]
      exact ⟨rfl, rfl, rfl, rfl, fun h => absurd h hnot, fun _ _ => ⟨rfl, rfl, rfl⟩, fun _ h => absurd hfits h⟩
    · obtain ⟨hbound, hfar⟩ := not_or.1 hfits
      rw [Dom.tick_of_refused hstep (.inr ⟨Bool.of_not_eq_false hbound, Nat.lt_of_not_le hfar⟩)]
      exact ⟨rfl, rfl, rfl, rfl, fun h => absurd h hnot, fun _ h => absurd h hfits, fun _ _ => ⟨rfl, rfl, rfl⟩⟩

/-! ### TIME_TICK -/

/-- Domain B after the tick. -/
def tickedB (s : State) : Dom := (s.tim.b.tick (stepTol s) (profileUses s true) false).1

/-- How far B is ahead of A at the tick (R412). -/
def switchGap (s : State) : Int := ((tickedB s).t : Int) - (s.tim.a.next : Int)

/-- A switch waits and is within the tolerance (R412). -/
def switches (s : State) : Bool := s.tim.switchReq && decide ((switchGap s).natAbs ≤ stepTol s)

/-- Domain A after the tick: its own, or with the time and the increment of B. -/
def tickedA (s : State) : Dom :=
  if switches s then { (s.tim.a.tick (stepTol s) (profileUses s false) true).1 with t := (tickedB s).t, incr := (tickedB s).incr }
  else (s.tim.a.tick (stepTol s) (profileUses s false) false).1

/-- The clocks have moved on, and the switch that waited is settled. -/
def clocksMoved (s : State) : State :=
  { s with tim := { s.tim with
      a := tickedA s, b := tickedB s, switchReq := false, swDone := s.tim.swDone || switches s,
      swRefused := s.tim.swRefused || (s.tim.switchReq && !decide ((switchGap s).natAbs ≤ stepTol s)),
      swStep := if switches s then unsigned 64 (switchGap s / 65536) else s.tim.swStep, core := s.tim.core + 5 } }

/-- What falls due by the tick is due. -/
def tickDue (s : State) : State :=
  tickLaunches (s.tim.a.next) (s.tim.b.tick (stepTol s) (profileUses s true) false).2 (tickGrid s.tim.a.t s.tim.b.t (clocksMoved s))

/-- The tick up to its event. -/
def tickQuiet (s : State) : State :=
  if secOf (tickedA s).t ≠ secOf s.tim.a.t ∨ (tickedA s).t ≠ s.tim.a.next then trcSync (tickSnapshot (tickDue s)) else tickSnapshot (tickDue s)

theorem tickNow_eq (s : State) : tickNow s =
    if switches s then raiseItems 0x1503 0 [(8, unsigned 64 (switchGap s / 65536))] (tickQuiet s) else tickQuiet s := by
  have ha : tickedA s = (if switches s = true then
      { (s.tim.a.tick (stepTol s) (profileUses s false) (switches s)).1 with t := (tickedB s).t, incr := (tickedB s).incr }
      else (s.tim.a.tick (stepTol s) (profileUses s false) (switches s)).1) := by
    unfold tickedA
    cases switches s <;> rfl
  unfold tickQuiet tickDue clocksMoved
  rw [ha]
  rfl

theorem tickQuiet_after (s : State) : changesOnly { obs := true } (tickDue s) (tickQuiet s) := by
  have hsnap := does_tickSnapshot (F := { obs := true }) (.refl _ (tickDue s)) rfl
  unfold tickQuiet
  split
  · exact (does_trcSync hsnap rfl).only
  · exact hsnap.only

theorem tickDue_only (s : State) : changesOnly { tim := true } s (tickDue s) := rfl

theorem tickQuiet_only (s : State) : changesOnly { tim := true, obs := true } s (tickQuiet s) :=
  only_trans (tickDue_only s) (tickQuiet_after s)

theorem tickNow_tim (s : State) : (tickNow s).tim = (tickDue s).tim := by
  rw [tickNow_eq]
  split
  · rw [raiseItems_tim, same_tim (tickQuiet_after s) rfl]
  · exact same_tim (tickQuiet_after s) rfl

theorem domGet_tickNow (s : State) (b : Bool) : domGet (tickNow s) b = if b then tickedB s else tickedA s := by
  rw [domGet_congr (tickNow_tim s)]
  rfl

theorem tickNow_a (s : State) : (tickNow s).tim.a = tickedA s := by rw [tickNow_tim]; rfl

theorem tickNow_b (s : State) : (tickNow s).tim.b = tickedB s := by rw [tickNow_tim]; rfl

theorem tickedA_of_stay (h : switches s = false) : tickedA s = (s.tim.a.tick (stepTol s) (profileUses s false) false).1 := by
  rw [tickedA, h]; rfl

theorem tickedA_of_switch (h : switches s = true) : tickedA s =
    { (s.tim.a.tick (stepTol s) (profileUses s false) true).1 with t := (tickedB s).t, incr := (tickedB s).incr } := if_pos h

theorem switches_of_far (h : stepTol s < (switchGap s).natAbs) : switches s = false := by
  rw [switches, decide_eq_false (Nat.not_le.2 h), Bool.and_false]

/-- Unless domain A switches, both domains tick on their own. -/
theorem tickNow_ticks (b : Bool) (h : b = true ∨ switches s = false) :
    (domGet s b).Ticks (stepTol s) (profileUses s b) (domGet (tickNow s) b) := by
  rw [domGet_tickNow]
  cases b with
  | true => exact Dom.tick_ticks _ _ _
  | false =>
    have hstay : switches s = false := h.resolve_left Bool.false_ne_true
    rw [if_neg Bool.false_ne_true, tickedA_of_stay hstay]
    exact Dom.tick_ticks _ _ _

theorem tickNow_reported (h : switches s = true) : reported 0x1503 0 { s with tim := (tickNow s).tim } (tickNow s) := by
  have htim : (tickQuiet s).tim = (tickNow s).tim := (same_tim (tickQuiet_after s) rfl).trans (tickNow_tim s).symm
  rw [tickNow_eq, if_pos h] at htim ⊢
  refine raiseItems_reported_from _ _ _ (same_glb (tickQuiet_only s) rfl) (same_slo (tickQuiet_only s) rfl) ?_
  rw [htim]

theorem switchGap_eq (s : State) : ((tickNow s).tim.b.t : Int) - (s.tim.a.next : Int) = switchGap s := by rw [tickNow_b]; rfl

/-- A switch within the tolerance gives A the time and the increment of B, and refuses A's own step (R412). -/
theorem tickNow_switches (hreq : s.tim.switchReq = true)
    (hnear : (((tickNow s).tim.b.t : Int) - (s.tim.a.next : Int)).natAbs ≤ stepTol s) :
    (tickNow s).tim.a.t = (tickNow s).tim.b.t ∧ (tickNow s).tim.a.incr = (tickNow s).tim.b.incr ∧ (tickNow s).tim.swDone = true ∧
    (tickNow s).tim.swRefused = s.tim.swRefused ∧
    (tickNow s).tim.swStep = unsigned 64 ((((tickNow s).tim.b.t : Int) - (s.tim.a.next : Int)) / 65536) ∧
    reported 0x1503 0 { s with tim := (tickNow s).tim } (tickNow s) ∧
    (s.tim.a.hasStep = true → (tickNow s).tim.a.refused = true) := by
  rw [switchGap_eq] at hnear
  have hsw : switches s = true := by rw [switches, hreq, decide_eq_true hnear]; rfl
  have ha : (tickNow s).tim.a = _ := (tickNow_a s).trans (tickedA_of_switch hsw)
  refine ⟨?_, ?_, ?_, ?_, ?_, tickNow_reported hsw, fun hstep => ?_⟩
  · rw [ha, tickNow_b]
  · rw [ha, tickNow_b]
  · rw [tickNow_tim]
    exact (congrArg (s.tim.swDone || ·) hsw).trans (Bool.or_true _)
  · rw [tickNow_tim]
    show (s.tim.swRefused || (s.tim.switchReq && !decide ((switchGap s).natAbs ≤ stepTol s))) = _
    rw [decide_eq_true hnear, Bool.not_true, Bool.and_false, Bool.or_false]
  · rw [switchGap_eq, tickNow_tim]
    exact if_pos hsw
  · rw [ha]
    exact congrArg Dom.refused (Dom.tick_of_refused hstep (.inl rfl))

/-- A switch beyond the tolerance is refused (R412). -/
theorem tickNow_refuses_switch (hreq : s.tim.switchReq = true)
    (hfar : stepTol s < (((tickNow s).tim.b.t : Int) - (s.tim.a.next : Int)).natAbs) :
    (tickNow s).tim.swRefused = true ∧ (tickNow s).tim.swDone = s.tim.swDone ∧ (tickNow s).tim.swStep = s.tim.swStep := by
  rw [switchGap_eq] at hfar
  have hstay := switches_of_far hfar
  rw [tickNow_tim]
  refine ⟨?_, ?_, ?_⟩
  · show (s.tim.swRefused || (s.tim.switchReq && !decide ((switchGap s).natAbs ≤ stepTol s))) = true
    rw [hreq, decide_eq_false (Nat.not_le.2 hfar)]
    exact Bool.or_true _
  · exact (congrArg (s.tim.swDone || ·) hstay).trans (Bool.or_false _)
  · exact if_neg (Bool.eq_false_iff.1 hstay)

/-- A launch that the tick finds at or past its time is due after it (R410). -/
theorem tickNow_launch_due {l : Launch} (hl : l ∈ s.tim.launches) (hat : l.at_ ≤ (domGet (tickNow s) l.domB).t) :
    ∃ m ∈ (tickNow s).tim.launches, m.cmd = l.cmd ∧ m.due = true := by
  have hdom : ¬ (domGet (tickGrid s.tim.a.t s.tim.b.t (clocksMoved s)) l.domB).t < l.at_ := by
    rw [domGet_congr (tickNow_tim s)] at hat
    exact Nat.not_lt.2 hat
  rw [tickNow_tim]
  refine ⟨_, List.mem_map_of_mem hl, ?_⟩
  split
  next h => exact ⟨rfl, h.resolve_right hdom⟩
  next => exact ⟨rfl, rfl⟩

theorem tickNow_launches_cmd (s : State) : (tickNow s).tim.launches.map Launch.cmd = s.tim.launches.map Launch.cmd := by
  rw [tickNow_tim]
  show (s.tim.launches.map _).map Launch.cmd = _
  rw [List.map_map]
  refine List.map_congr_left fun l _ => ?_
  dsimp only [Function.comp]
  split <;> rfl

/-- While the profile keeps its domain, its grid goes on behind the last set-point instant (R410; log 79). -/
theorem tickNow_grid (h : s.pac.stripe.any (fun st => st.domB) = s.tim.setDomB) :
    (tickNow s).tim.setLast = max s.tim.setLast ((domGet (tickNow s) (s.pac.stripe.any (fun st => st.domB))).t / gridUnit) ∧
    (tickNow s).tim.setDue = s.tim.setDue +
      ((domGet (tickNow s) (s.pac.stripe.any (fun st => st.domB))).t / gridUnit - s.tim.setLast) := by
  have hsame : ((clocksMoved s).pac.stripe.any (fun st => st.domB) == (clocksMoved s).tim.setDomB) = true := beq_iff_eq.2 h
  have hlast : ∀ k : Nat, (if ((clocksMoved s).pac.stripe.any (fun st => st.domB) == (clocksMoved s).tim.setDomB) = true
      then (clocksMoved s).tim.setLast else k) = s.tim.setLast := fun k => if_pos hsame
  rw [domGet_congr (tickNow_tim s), tickNow_tim]
  simp only [tickDue, tickLaunches, tickGrid, hlast]
  exact ⟨rfl, rfl⟩

theorem exec_timeTick (h : s.glb.clocksOk = true) : exec .timeTick s = .next (tickNow s) := if_pos h

/-- Settles O53: writes of the TIM registers change their domain alone, and a tick moves each domain by itself unless A takes over B. -/
theorem clocks : Obligations.Clocks := by
  intro s
  refine ⟨fun d v => ⟨answers_timIncrHiWrite d v, fun h => ⟨answers_timLoad d v h, answers_timAdjust d v h,
      answers_timAdjust_load d v h, answers_timAdjust_refused d v h⟩⟩, fun h => ⟨_, write_timSwitch h, rfl⟩,
    fun h => ⟨_, exec_timeTick h, (does_tickNow (.refl _ s) rfl).only, by rw [tickNow_tim]; rfl, by rw [tickNow_tim]; rfl,
      fun b hb => tickNow_ticks b ?_, fun hreq => ⟨tickNow_switches hreq, tickNow_refuses_switch hreq⟩, tickNow_grid,
      tickNow_launches_cmd s, fun l => tickNow_launch_due⟩⟩
  refine hb.imp_right fun hstay => hstay.elim (fun hreq => by rw [switches, hreq]; rfl) fun hfar => switches_of_far ?_
  rwa [tickNow_b] at hfar

end Sys2Proof.Machine
end

section
/-! PROOFS. The Ethernet ports and PTP frames (R399 to R404): ports that come up and go down, the slots as bytes, frames received and sent,
and O54. -/

-- One theorem at a time, as under Laws/: the package as one text takes too much memory in many threads.
set_option Elab.async false

namespace Sys2Proof.Machine

variable {s t : State}

/-! ### The bytes of the slots (R401, R402) -/

@[simp] theorem length_le (n v : Nat) : (le n v).length = n := by
  induction n generalizing v with
  | zero => rfl
  | succ n ih => simp [le, ih]

theorem le_ofLe (bs : List Byte) : le bs.length (ofLe bs) = bs := by
  induction bs with
  | nil => rfl
  | cons b bs ih =>
    have hb := b.isLt
    have hlow : BitVec.ofNat 8 (b.toNat + 256 * ofLe bs) = b := by
      refine BitVec.eq_of_toNat_eq ?_
      rw [BitVec.toNat_ofNat]
      omega
    have hrest : (b.toNat + 256 * ofLe bs) / 256 = ofLe bs := by omega
    rw [List.length_cons, ofLe, le, hlow, hrest, ih]

@[simp] theorem length_slotDesc (len go result seq ta tb : Nat) : (slotDesc len go result seq ta tb).length = 48 := by
  simp [slotDesc, stampFields]

theorem tget_foldl_bytes (bs : List Byte) (l : Tbl Byte) (o n k : Nat) :
    tget ((bs.zipIdx n).foldl (fun t (b, i) => tset t (o + i) b 0) l) k 0 =
      if o + n ≤ k ∧ k < o + n + bs.length then bs.getD (k - (o + n)) 0 else tget l k 0 := by
  induction bs generalizing l n with
  | nil => rw [if_neg (by simp)]; rfl
  | cons b bs ih =>
    rw [List.zipIdx_cons, List.foldl_cons, ih, List.length_cons]
    rcases Nat.lt_trichotomy k (o + n) with hlt | rfl | hgt
    · rw [if_neg (by omega), if_neg (by omega), tget_tset_ne _ _ _ (Nat.ne_of_lt hlt)]
    · rw [if_neg (by omega), if_pos (by omega), tget_tset_same, Nat.sub_self]
      rfl
    · have hstep : k - (o + n) = k - (o + (n + 1)) + 1 := by omega
      rw [tget_tset_ne _ _ _ (Nat.ne_of_gt hgt), hstep, List.getD_cons_succ]
      exact if_congr (by omega) rfl rfl

theorem tget_slotWrite (x : Port) (o : Nat) (bs : List Byte) (k : Nat) :
    tget (slotWrite x o bs).slots k 0 = if o ≤ k ∧ k < o + bs.length then bs.getD (k - o) 0 else tget x.slots k 0 :=
  tget_foldl_bytes bs x.slots o 0 k

theorem tget_slotWrite_outside (x : Port) {o : Nat} {bs : List Byte} {k : Nat} (h : k < o ∨ o + bs.length ≤ k) :
    tget (slotWrite x o bs).slots k 0 = tget x.slots k 0 := by
  rw [tget_slotWrite, if_neg (by omega)]

theorem tget_slotWrite_inside (x : Port) {o : Nat} {bs : List Byte} {i : Nat} (h : i < bs.length) :
    tget (slotWrite x o bs).slots (o + i) 0 = bs.getD i 0 := by
  rw [tget_slotWrite, if_pos (by omega), Nat.add_sub_cancel_left]

/-- A read within what was written gives the first bytes of it. -/
theorem slotRead_slotWrite (x : Port) (o : Nat) {bs : List Byte} {n : Nat} (h : n ≤ bs.length) :
    slotRead (slotWrite x o bs) o n = bs.take n := by
  refine List.ext_getElem (by simpa [slotRead] using h) fun i hi _ => ?_
  have hi' : i < n := by simpa [slotRead] using hi
  rw [List.getElem_take, ← List.getD_eq_getElem bs 0 (hi'.trans_le h), ← tget_slotWrite_inside x (o := o) (hi'.trans_le h)]
  simp [slotRead]

theorem slotRead_congr {x y : Port} (h : y.slots = x.slots) (o n : Nat) : slotRead y o n = slotRead x o n := by rw [slotRead, h, slotRead]

/-! ### Ports (R399) -/

theorem answers_ethPortUp {p : Fin 2} (hdown : (portGet s p).up = false) (hen : portEn s p = true) (hloaded : s.grn.loaded = true) :
    answers (.ethPortUp p) s fun t => portGet t p = { portGet s p with up := true, lock := true } ∧ reported 0x1501 0 s t ∧
      changesOnly { Parts.events with tim := true } s t := by
  have hexec : exec (.ethPortUp p) s = .next (raiseItems 0x1501 0 [(1, p.val)] (portSet s p { portGet s p with up := true, lock := true })) :=
    if_neg (by simp [hdown, hen, hloaded])
  refine ⟨_, hexec, ?_, raiseItems_reported_from _ _ _ rfl rfl rfl, only_trans (portSet_only s p _) (raiseItems_only _ _ _ _)⟩
  rw [portGet_congr (raiseItems_tim _ _ _ _), portGet_portSet_same]

theorem answers_ethPortDown {p : Fin 2} (hup : (portGet s p).up = true) : answers (.ethPortDown p) s fun t =>
    portGet t p = { portGet s p with up := false, lock := false, downSeen := true } ∧ reported 0x1502 1 s t ∧
      changesOnly { Parts.events with tim := true } s t := by
  have hexec : exec (.ethPortDown p) s = .next (raiseItems 0x1502 1 [(1, p.val)]
      (portSet s p { portGet s p with up := false, lock := false, downSeen := true })) := congrArg Host.Outcome.next (if_pos hup)
  refine ⟨_, hexec, ?_, raiseItems_reported_from _ _ _ rfl rfl rfl, only_trans (portSet_only s p _) (raiseItems_only _ _ _ _)⟩
  rw [portGet_congr (raiseItems_tim _ _ _ _), portGet_portSet_same]

/-! ### Frames received (R400, R401) -/

theorem frameReceived_only (p : Nat) (s : State) : changesOnly { obs := true } s (frameReceived p s) := cntTim_only _ _ _ _

@[simp] theorem frameReceived_tim (p : Nat) (s : State) : (frameReceived p s).tim = s.tim := cntTim_tim _ _ _ _

@[simp] theorem portGet_frameReceived (q p : Nat) (s : State) : portGet (frameReceived q s) p = portGet s p :=
  portGet_congr (frameReceived_tim q s) p

/-- The port takes a frame, counted at its arrival, by the update `x`. -/
theorem received_only (p : Nat) (x : Port) (s : State) : changesOnly { tim := true, obs := true } s (portSet (frameReceived p s) p x) :=
  only_trans (frameReceived_only p s) (portSet_only _ p x)

theorem discardFrame_frameReceived (p : Nat) (s : State) : discardFrame p (frameReceived p s) =
    portSet (frameReceived p s) p { portGet s p with discard := sat32 ((portGet s p).discard + 1) } := by
  rw [discardFrame, portGet_frameReceived]

/-- The port with one more frame in its receive slots. -/
def Port.filled (x : Port) (seq : Nat) (bs : List Byte) : Port :=
  { slotWrite x (rxSlot ((x.rxOldest + x.rxCount) % 32)) bs with rxCount := x.rxCount + 1, rxSeq := seq }

/-- The descriptor and the frame that a receive slot takes (Table 11-1). -/
def rxBytes (s : State) (p : Nat) (f : List Byte) (st : Stamp) : List Byte :=
  slotDesc f.length 0 (flag (etherType f).2 0 + flag (bitAt (f.getD 0 0).toNat 0) 1) (wrap32 ((portGet s p).rxSeq + 1))
    (rxStamp s p (s.tim.a.at_ st)) (rxStamp s p (s.tim.b.at_ st)) ++ f

section

variable {p : Fin 2} (hup : (portGet s p).up = true) (f : List Byte) (st : Stamp)

include hup

theorem exec_ptpFrameRx : exec (.ptpFrameRx p f st) s = .next (
    if ¬ acceptPtp s p f then discardFrame p (frameReceived p s)
    else if 32 ≤ (portGet s p).rxCount then portSet (frameReceived p s) p { portGet s p with ovf := sat32 ((portGet s p).ovf + 1) }
    else portSet (frameReceived p s) p ((portGet s p).filled (wrap32 ((portGet s p).rxSeq + 1)) (rxBytes s p f st))) := by
  refine (if_neg (not_not.2 hup)).trans ?_
  dsimp only
  rw [portGet_frameReceived]
  split
  · rfl
  · split <;> rfl

theorem answers_ptpFrameRx_discarded (h : acceptPtp s p f = false) : answers (.ptpFrameRx p f st) s fun t =>
    portGet t p = { portGet s p with discard := sat32 ((portGet s p).discard + 1) } ∧ changesOnly { tim := true, obs := true } s t := by
  refine ⟨_, exec_ptpFrameRx hup f st, ?_⟩
  rw [if_pos (by simp [h]), discardFrame_frameReceived]
  exact ⟨portGet_portSet_same _ _ _, received_only _ _ _⟩

theorem answers_ptpFrameRx_overflow (h : acceptPtp s p f = true) (hfull : 32 ≤ (portGet s p).rxCount) :
    answers (.ptpFrameRx p f st) s fun t =>
      portGet t p = { portGet s p with ovf := sat32 ((portGet s p).ovf + 1) } ∧ changesOnly { tim := true, obs := true } s t := by
  refine ⟨_, exec_ptpFrameRx hup f st, ?_⟩
  rw [if_neg (not_not.2 h), if_pos hfull]
  exact ⟨portGet_portSet_same _ _ _, received_only _ _ _⟩

theorem exec_ptpFrameRx_taken (h : acceptPtp s p f = true) (hroom : (portGet s p).rxCount < 32) : exec (.ptpFrameRx p f st) s =
    .next (portSet (frameReceived p s) p ((portGet s p).filled (wrap32 ((portGet s p).rxSeq + 1)) (rxBytes s p f st))) := by
  rw [exec_ptpFrameRx hup, if_neg (not_not.2 h), if_neg (Nat.not_le.2 hroom)]

end

/-- A receive slot holds what was put into it, and the other bytes stand. -/
theorem Port.filled_slots (x : Port) (seq : Nat) (bs : List Byte) :
    slotRead (x.filled seq bs) (512 * ((x.rxOldest + x.rxCount) % 32)) bs.length = bs ∧
    ∀ o, o < 512 * ((x.rxOldest + x.rxCount) % 32) ∨ 512 * ((x.rxOldest + x.rxCount) % 32) + bs.length ≤ o →
      tget (x.filled seq bs).slots o 0 = tget x.slots o 0 :=
  ⟨(slotRead_slotWrite x _ (Nat.le_refl _)).trans (List.take_length ..), fun _ => tget_slotWrite_outside x⟩

theorem Port.filled_counts (x : Port) (seq : Nat) (bs : List Byte) : (x.filled seq bs).rxCount = x.rxCount + 1 ∧
    (x.filled seq bs).rxOldest = x.rxOldest ∧ (x.filled seq bs).rxSeq = seq := ⟨rfl, rfl, rfl⟩

theorem answers_ptpFrameRx {p : Fin 2} (hup : (portGet s p).up = true) (f : List Byte) (st : Stamp) (h : acceptPtp s p f = true)
    (hroom : (portGet s p).rxCount < 32) : answers (.ptpFrameRx p f st) s fun t =>
      (portGet t p).rxCount = (portGet s p).rxCount + 1 ∧ (portGet t p).rxOldest = (portGet s p).rxOldest ∧
      (portGet t p).rxSeq = wrap32 ((portGet s p).rxSeq + 1) ∧
      slotRead (portGet t p) (512 * (((portGet s p).rxOldest + (portGet s p).rxCount) % 32)) (48 + f.length) = rxBytes s p f st ∧
      (∀ o, (o < 512 * (((portGet s p).rxOldest + (portGet s p).rxCount) % 32) ∨
          512 * (((portGet s p).rxOldest + (portGet s p).rxCount) % 32) + 48 + f.length ≤ o) →
        tget (portGet t p).slots o 0 = tget (portGet s p).slots o 0) ∧
      changesOnly { tim := true, obs := true } s t := by
  have hlen : (rxBytes s p f st).length = 48 + f.length := by simp [rxBytes]
  obtain ⟨hread, hrest⟩ := (portGet s p).filled_slots (wrap32 ((portGet s p).rxSeq + 1)) (rxBytes s p f st)
  rw [hlen] at hread hrest
  obtain ⟨hcount, holdest, hseq⟩ := (portGet s p).filled_counts (wrap32 ((portGet s p).rxSeq + 1)) (rxBytes s p f st)
  refine ⟨_, exec_ptpFrameRx_taken hup f st h hroom, ?_⟩
  dsimp only
  rw [portGet_portSet_same]
  exact ⟨hcount, holdest, hseq, hread, fun o ho => hrest o (ho.imp_right fun h => by omega), received_only _ _ _⟩

theorem answers_ethFrameDiscard {p : Fin 2} (hup : (portGet s p).up = true) (badFcs : Bool) : answers (.ethFrameDiscard p badFcs) s fun t =>
    portGet t p = (if badFcs then { portGet s p with badFcs := sat32 ((portGet s p).badFcs + 1) }
      else { portGet s p with discard := sat32 ((portGet s p).discard + 1) }) ∧ changesOnly { tim := true, obs := true } s t := by
  have hexec : exec (.ethFrameDiscard p badFcs) s = .next (portSet (frameReceived p s) p
      (if badFcs then { portGet s p with badFcs := sat32 ((portGet s p).badFcs + 1) }
        else { portGet s p with discard := sat32 ((portGet s p).discard + 1) })) := by
    refine (if_neg (not_not.2 hup)).trans ?_
    dsimp only
    rw [discardFrame_frameReceived, portGet_frameReceived]
    cases badFcs <;> rfl
  exact ⟨_, hexec, portGet_portSet_same _ _ _, received_only _ _ _⟩

/-! ### A transmit slot is given (R402; log 91) -/

/-- The first dword of a descriptor with `go` set. -/
theorem le_goSet (a b c d : Byte) :
    le 4 ((ofLe [a, b, c, d] - bits (ofLe [a, b, c, d]) 23 16 * 65536 + 65536) &&& max32) = [a, b, 1, d] := by
  have ha := a.isLt
  have hb := b.isLt
  have hc := c.isLt
  have hd := d.isLt
  have hgo : bits (ofLe [a, b, c, d]) 23 16 = c.toNat := by
    simp only [bits, ofLe, Nat.shiftRight_eq_div_pow]
    omega
  have hval : ofLe [a, b, c, d] - bits (ofLe [a, b, c, d]) 23 16 * 65536 + 65536 = ofLe [a, b, 1, d] := by
    have hone : (1 : Byte).toNat = 1 := rfl
    rw [hgo]
    simp only [ofLe, hone]
    omega
  have hmask : ofLe [a, b, 1, d] &&& max32 = ofLe [a, b, 1, d] := by
    have hlt : ofLe [a, b, 1, d] < 2 ^ 32 := (ofLe_lt _).trans_eq (by norm_num)
    have hmax : max32 = 2 ^ 32 - 1 := by norm_num [max32]
    rw [hmax, Nat.and_two_pow_sub_one_eq_mod, Nat.mod_eq_of_lt hlt]
  rw [hval, hmask]
  exact le_ofLe [a, b, 1, d]

/-- The port with `go` set in the descriptor of transmit slot i. -/
def Port.given (x : Port) (i : Nat) : Port :=
  slotWrite x (txSlot i) [tget x.slots (txSlot i) 0, tget x.slots (txSlot i + 1) 0, 1, tget x.slots (txSlot i + 3) 0]

theorem Port.given_slots (x : Port) (i o : Nat) :
    tget (x.given i).slots o 0 = if o = 0x4000 + 512 * i + 2 then 1 else tget x.slots o 0 := by
  by_cases h : txSlot i ≤ o ∧ o < txSlot i + 4
  · obtain ⟨j, rfl⟩ := Nat.exists_eq_add_of_le h.1
    have hj : j < 4 := by omega
    rw [Port.given, tget_slotWrite_inside x (by exact hj), txSlot]
    interval_cases j <;> simp
  · have hother : ¬ o = 0x4000 + 512 * i + 2 := by
      rw [txSlot] at h
      omega
    have hout : o < txSlot i ∨ txSlot i + 4 ≤ o := by omega
    rw [Port.given, if_neg hother]
    exact tget_slotWrite_outside x hout

theorem slotWrite_given (x : Port) (i : Nat) :
    slotWrite x (txSlot i) (le 4 ((ofLe (slotRead x (txSlot i) 4) - bits (ofLe (slotRead x (txSlot i) 4)) 23 16 * 65536 + 65536) &&& max32)) =
      x.given i :=
  congrArg (slotWrite x (txSlot i)) (le_goSet _ _ _ _)

/-- `go` of slot i stands in the port, and the slot waits to be sent. -/
theorem slotGo_given (p i : Nat) (x : Port) (s : State) :
    portGet (slotGo p i (portSet s p (x.given i))) p =
      { x.given i with goOrder := if i ∈ x.goOrder then x.goOrder else x.goOrder ++ [i] } := by
  have hgo : tget (x.given i).slots (txSlot i + 2) 0 = 1 := (x.given_slots i _).trans (if_pos rfl)
  have hkeep : (x.given i).goOrder = x.goOrder := rfl
  simp only [slotGo, portGet_portSet_same, hgo, hkeep]
  by_cases hin : i ∈ x.goOrder
  · simp only [hin, decide_true, List.contains_eq_mem, not_true, and_false, false_and, if_true, if_false, portGet_portSet_same]
    rfl
  · simp only [hin, decide_true, decide_false, List.contains_eq_mem, Bool.false_eq_true, not_false_eq_true, and_self, if_true, if_false,
      portGet_portSet_same]

section

variable (p : Fin 2) (i : Fin 16)

/-- The offset of the descriptor of transmit slot i of port p (Table 11-1). -/
def txOff : Nat := 0x154000 + 0x6000 * p.val + txSlot i

theorem txOff_eq : txOff p i = 0x158000 + 0x6000 * p.val + 512 * i.val := by
  rw [txOff, txSlot]
  omega

theorem txOff_block : txOff p i / 65536 = 0x15 ∧ txOff p i % 65536 = 0x8000 + 0x6000 * p.val + 512 * i.val := by
  rw [txOff_eq]
  omega

theorem txOff_shown (s : State) : (regShow s (txOff p i)).isSome = true := by
  obtain ⟨hb, ho⟩ := txOff_block p i
  have hshow : regShow s (txOff p i) = showTim s (0x8000 + 0x6000 * p.val + 512 * i.val) := by
    simp [regShow, hb, ho]
  have hslot : (showTim s (0x8000 + 0x6000 * p.val + 512 * i.val)).isSome = true := by
    unfold showTim
    repeat rw [if_neg (by omega)]
    rw [if_pos (by omega)]
    rfl
  rw [hshow, hslot]

theorem txOff_own (v req : Nat) (s : State) : ownWrite (txOff p i) v req s = some (slotsWrite p (txSlot i) v s) := by
  have hp := p.isLt
  have hi := i.isLt
  obtain ⟨hb, ho⟩ := txOff_block p i
  have hoff := txOff_eq p i
  have hport : (0x8000 + 0x6000 * p.val + 512 * i.val - 0x4000) / 0x6000 = p.val := by omega
  have hslot : (0x8000 + 0x6000 * p.val + 512 * i.val - 0x4000) % 0x6000 = txSlot i := by
    rw [txSlot]
    omega
  unfold ownWrite
  simp only [hb, ho]
  repeat rw [if_neg (by omega)]
  rw [if_pos trivial]
  repeat rw [if_neg (by omega)]
  rw [if_pos (by omega), hport, hslot]

theorem txOff_range (v : Nat) : outOfRange (txOff p i) v = false := by
  have hlow : 0x158000 ≤ txOff p i := by
    rw [txOff_eq]
    omega
  unfold outOfRange
  simp only [decide_eq_true_eq]
  repeat rw [if_neg (by omega)]

theorem exec_ptpTxGo (h : writeReaches (txOff p i) s) : exec (.ptpTxGo p i) s =
    .next (slotGo p i (portSet s p ((portGet s p).given i))) := by
  have hi := i.isLt
  have hoff := txOff_eq p i
  have hrwp : isRwp (txOff p i) = false := by
    simp [isRwp]
    omega
  have hhalf : holdsHalf (txOff p i) = false := by
    simp [holdsHalf]
    omega
  have hwrite := fun v => (busWrite_reaches v 0 h (txOff_shown p i s)).trans
    (writeReg_own hrwp hhalf (txOff_range p i _) (txOff_own p i v 0 s))
  have hlow : ¬ txSlot i < 0x4000 := by rw [txSlot]; omega
  have hmask : slotMask (txSlot i % 512) = max32 := by
    have hzero : txSlot i % 512 = 0 := by rw [txSlot]; omega
    rw [hzero]
    rfl
  have hslot : (txSlot i - 0x4000) / 512 = i.val := by rw [txSlot]; omega
  refine congrArg ok ((hwrite _).trans ?_)
  rw [slotsWrite, if_neg hlow, hmask, hslot, slotWrite_given]

theorem answers_ptpTxGo (h : writeReaches (txOff p i) s) : answers (.ptpTxGo p i) s fun t =>
    (portGet t p).goOrder = (if i.val ∈ (portGet s p).goOrder then (portGet s p).goOrder else (portGet s p).goOrder ++ [i.val]) ∧
    (∀ o, tget (portGet t p).slots o 0 = if o = 0x4000 + 512 * i.val + 2 then 1 else tget (portGet s p).slots o 0) ∧
    changesOnly { tim := true } s t := by
  refine ⟨_, exec_ptpTxGo p i h, ?_⟩
  dsimp only
  rw [slotGo_given]
  exact ⟨rfl, (portGet s p).given_slots i, (does_slotGo p i (does_portSet p _ (.refl _ s) rfl) rfl).only⟩

end

/-! ### A transmit slot is done (R402, R403) -/

/-- The length that the descriptor of transmit slot i gives. -/
def Port.txLen (x : Port) (i : Nat) : Nat := ofLe (slotRead x (txSlot i) 2)

/-- The result of transmit slot i. -/
def Port.txRes (x : Port) (i : Nat) : Nat := txResult x (x.txLen i) (slotRead x (txSlot i + 0x30) 18)

/-- The port with the descriptor of transmit slot i written back, and the slots `r` still to be sent. -/
def Port.done (x : Port) (i seq ta tb : Nat) (r : List Nat) : Port :=
  { slotWrite x (txSlot i) (slotDesc (x.txLen i) 0 (x.txRes i) seq ta tb) with goOrder := r, txSeq := seq }

theorem Port.done_slots (x : Port) (i seq ta tb : Nat) (r : List Nat) : (x.done i seq ta tb r).slots =
    (slotWrite x (txSlot i) (slotDesc (x.txLen i) 0 (x.txRes i) seq ta tb)).slots := by rw [Port.done]

theorem Port.done_goOrder (x : Port) (i seq ta tb : Nat) (r : List Nat) : (x.done i seq ta tb r).goOrder = r := by rw [Port.done]

theorem Port.done_txSeq (x : Port) (i seq ta tb : Nat) (r : List Nat) : (x.done i seq ta tb r).txSeq = seq := by rw [Port.done]

/-- The first eight bytes of a descriptor. -/
theorem slotDesc_head (len go result seq ta tb : Nat) : slotDesc len go result seq ta tb =
    (le 2 len ++ le 1 go ++ le 1 result ++ le 4 seq) ++ (stampFields ta ++ stampFields tb ++ List.replicate 8 0) := by
  simp only [slotDesc, List.append_assoc]

theorem getD_slotDesc_head (len go result seq ta tb : Nat) {k : Nat} (hk : k < 8) :
    (slotDesc len go result seq ta tb).getD k 0 = (le 2 len ++ le 1 go ++ le 1 result ++ le 4 seq).getD k 0 := by
  rw [slotDesc_head, List.getD_append _ _ _ _ (by simpa using hk)]

theorem Port.done_result (x : Port) (i seq ta tb : Nat) (r : List Nat) :
    tget (x.done i seq ta tb r).slots (txSlot i + 2) 0 = 0 ∧
    tget (x.done i seq ta tb r).slots (txSlot i + 3) 0 = BitVec.ofNat 8 (x.txRes i) := by
  have hbyte : ∀ k, k < 8 → tget (x.done i seq ta tb r).slots (txSlot i + k) 0 =
      (le 2 (x.txLen i) ++ le 1 0 ++ le 1 (x.txRes i) ++ le 4 seq).getD k 0 := fun k hk => by
    rw [Port.done_slots, tget_slotWrite_inside x (by rw [length_slotDesc]; omega), getD_slotDesc_head _ _ _ _ _ _ hk]
  exact ⟨hbyte 2 (by decide), hbyte 3 (by decide)⟩

theorem Port.done_read (x : Port) (i seq ta tb : Nat) (r : List Nat) {n : Nat} (hn : n ≤ 48) :
    slotRead (x.done i seq ta tb r) (txSlot i) n = (slotDesc (x.txLen i) 0 (x.txRes i) seq ta tb).take n :=
  (slotRead_congr (Port.done_slots x i seq ta tb r) _ _).trans (slotRead_slotWrite x _ (by rwa [length_slotDesc]))

theorem Port.done_read_head (x : Port) (i seq ta tb : Nat) (r : List Nat) :
    slotRead (x.done i seq ta tb r) (txSlot i) 8 = le 2 (x.txLen i) ++ le 1 0 ++ le 1 (x.txRes i) ++ le 4 seq := by
  rw [Port.done_read _ _ _ _ _ _ (by decide), slotDesc_head, List.take_left' (by simp)]

theorem slotWrite_txSeq (x : Port) (o : Nat) (bs : List Byte) : (slotWrite x o bs).txSeq = x.txSeq := rfl

theorem Port.txLen_le {x : Port} {i : Nat} (h : x.txRes i = 0) : x.txLen i ≤ 256 := by
  by_contra hlong
  rw [Port.txRes, txResult, if_pos (Or.inr (Nat.lt_of_not_le hlong))] at h
  split at h
  · cases h
  · split at h <;> cases h

section

variable {p : Fin 2} {i : Nat} {r : List Nat} (hgo : (portGet s p).goOrder = i :: r) (st : Stamp)

include hgo

theorem exec_ptpTxDone_sent (hres : (portGet s p).txRes i = 0) (hfree : portGuarded s p = false) : exec (.ptpTxDone p st) s =
    .next (cntTim 2 (some p.val) 1 (emit (.ethFrame p (slotRead (portGet s p) (txSlot i + 0x30) ((portGet s p).txLen i) ++
        List.replicate (60 - (portGet s p).txLen i) 0))
      (portSet s p ((portGet s p).done i (wrap32 ((portGet s p).txSeq + 1)) (txStamp s p (s.tim.a.at_ st))
        (txStamp s p (s.tim.b.at_ st)) r)))) := by
  have hmin : min ((portGet s p).txLen i) 464 = (portGet s p).txLen i :=
    Nat.min_eq_left ((Port.txLen_le hres).trans (by decide))
  have hlen : ∀ o n, (slotRead (portGet s p) o n).length = n := fun o n => by simp [slotRead]
  show execPtpTxDone p st s = _
  unfold execPtpTxDone
  simp only [hgo]
  refine (if_pos hres).trans ((if_neg (by simp [hfree])).trans ?_)
  unfold Port.done
  rw [hres, ← Port.txLen, hmin, hlen]
  rfl

theorem exec_ptpTxDone_refused (hres : (portGet s p).txRes i ≠ 0) : ∃ ta tb, exec (.ptpTxDone p st) s =
    .next (portSet { s with free := s.free + 4 } p ((portGet s p).done i (portGet s p).txSeq ta tb r)) := by
  refine ⟨(freeTime s).1, (freeTime (freeTime s).2).1, ?_⟩
  show execPtpTxDone p st s = _
  unfold execPtpTxDone Port.done
  simp only [hgo, slotWrite_txSeq]
  exact if_neg hres

/-- A slot that is done: its descriptor tells the result, and a frame went out unless the slot is refused. -/
theorem answers_ptpTxDone (h : (portGet s p).txRes i ≠ 0 ∨ portGuarded s p = false) : answers (.ptpTxDone p st) s fun t =>
    (portGet t p).goOrder = r ∧ tget (portGet t p).slots (txSlot i + 2) 0 = 0 ∧
    tget (portGet t p).slots (txSlot i + 3) 0 = BitVec.ofNat 8 ((portGet s p).txRes i) ∧
    ((portGet s p).txRes i = 0 → (portGet t p).txSeq = wrap32 ((portGet s p).txSeq + 1) ∧
      t.outs = .ethFrame p (slotRead (portGet s p) (txSlot i + 0x30) ((portGet s p).txLen i) ++
        List.replicate (60 - (portGet s p).txLen i) 0) :: s.outs ∧
      slotRead (portGet t p) (txSlot i) 48 = slotDesc ((portGet s p).txLen i) 0 0 (wrap32 ((portGet s p).txSeq + 1))
        (txStamp s p (s.tim.a.at_ st)) (txStamp s p (s.tim.b.at_ st))) ∧
    ((portGet s p).txRes i ≠ 0 → (portGet t p).txSeq = (portGet s p).txSeq ∧ t.outs = s.outs ∧
      slotRead (portGet t p) (txSlot i) 8 =
        le 2 ((portGet s p).txLen i) ++ le 1 0 ++ le 1 ((portGet s p).txRes i) ++ le 4 (portGet s p).txSeq) ∧
    changesOnly { outs := true, free := true, tim := true, obs := true } s t := by
  by_cases hres : (portGet s p).txRes i = 0
  · refine ⟨_, exec_ptpTxDone_sent hgo st hres (h.resolve_left (not_not.2 hres)), ?_⟩
    dsimp only
    rw [portGet_congr (cntTim_tim _ _ _ _), portGet_congr (emit_tim _ _), portGet_portSet_same, cntTim_outs]
    obtain ⟨hflag, hresult⟩ := (portGet s p).done_result i (wrap32 ((portGet s p).txSeq + 1)) (txStamp s p (s.tim.a.at_ st))
      (txStamp s p (s.tim.b.at_ st)) r
    refine ⟨Port.done_goOrder _ _ _ _ _ _, hflag, hresult, fun _ => ⟨Port.done_txSeq _ _ _ _ _ _, rfl, ?_⟩,
      fun hnot => absurd hres hnot, (does_cntTim _ _ _ (does_emit _ (does_portSet p _ (.refl _ s) rfl) rfl) rfl).only⟩
    rw [Port.done_read _ _ _ _ _ _ (Nat.le_refl _), hres]
    refine List.take_of_length_le ?_
    rw [length_slotDesc]
  · obtain ⟨ta, tb, hexec⟩ := exec_ptpTxDone_refused hgo st hres
    refine ⟨_, hexec, ?_⟩
    dsimp only
    rw [portGet_portSet_same]
    obtain ⟨hflag, hresult⟩ := (portGet s p).done_result i (portGet s p).txSeq ta tb r
    exact ⟨Port.done_goOrder _ _ _ _ _ _, hflag, hresult, fun hyes => absurd hyes hres,
      fun _ => ⟨Port.done_txSeq _ _ _ _ _ _, rfl, Port.done_read_head _ _ _ _ _ _⟩,
      only_trans (u := { s with free := s.free + 4 }) (A := { free := true }) rfl (portSet_only _ _ _)⟩

end

/-! ### A receive slot is freed (R401) -/

theorem answers_timRxPop {p : Fin 2} (h : writeReaches (0x150428 + 0x100 * p) s) : answers (.timRxPop p) s fun t =>
    (0 < (portGet s p).rxCount →
      t = portSet s p { portGet s p with rxCount := (portGet s p).rxCount - 1, rxOldest := ((portGet s p).rxOldest + 1) % 32 }) ∧
    ((portGet s p).rxCount = 0 → t = s) :=
  ⟨_, write_timRxPop p h, fun hsome => if_pos ⟨rfl, hsome⟩, fun hnone => if_neg fun hc => Nat.ne_of_gt hc.2 hnone⟩

/-- Settles O54: each row is one update of its port, and the bytes of the slots read back as they were written. -/
theorem ethernetPorts : Obligations.EthernetPorts := by
  intro s p
  refine ⟨answers_ethPortUp, answers_ethPortDown, fun hup => ⟨fun f st => ⟨answers_ptpFrameRx_discarded hup f st,
      answers_ptpFrameRx_overflow hup f st, answers_ptpFrameRx hup f st⟩, answers_ethFrameDiscard hup⟩, fun i h => answers_ptpTxGo p i ?_,
    fun i r st hgo => answers_ptpTxDone hgo st, answers_timRxPop⟩
  rwa [txOff_eq]

end Sys2Proof.Machine
end

section
/-! PROOFS. Gang frames sent (R413 to R415, R418 to R420): what a frame that is sent and the ABORT frames that waited leave of TIM, and the
launches from their command to their frame. -/

-- One theorem at a time, as under Laws/: the package as one text takes too much memory in many threads.
set_option Elab.async false

namespace Sys2Proof.Machine

variable {s t u : State}

/-! ### Frames leave the launches and the frames on their way alone -/

/-- Of TIM at most the ports, the sequence number of gang frames and the ABORT frames that wait differ. -/
def GangSends (s t : State) : Prop := ∃ q ps as, t.tim = { s.tim with txSeq := q, ports := ps, aborts := as }

namespace GangSends

theorem of_tim (h : t.tim = s.tim) : GangSends s t := ⟨_, _, _, h⟩

theorem trans (h : GangSends s t) (g : GangSends t u) : GangSends s u := by
  obtain ⟨_, _, _, h⟩ := h
  obtain ⟨q, ps, as, g⟩ := g
  exact ⟨q, ps, as, by rw [g, h]⟩

theorem ite {c : Prop} [Decidable c] (h : GangSends s t) (g : GangSends s u) : GangSends s (if c then t else u) := by split <;> assumption

theorem foldl {α : Type} {f : State → α → State} (hf : ∀ a u, GangSends u (f u a)) (l : List α) (s : State) : GangSends s (l.foldl f s) := by
  induction l generalizing s with
  | nil => exact of_tim rfl
  | cons a l ih => exact (hf a s).trans (ih _)

theorem portSet (s : State) (p : Nat) (x : Port) : GangSends s (portSet s p x) := ⟨_, _, _, rfl⟩

theorem launches (h : GangSends s t) : t.tim.launches = s.tim.launches := by
  obtain ⟨q, ps, as, h⟩ := h
  rw [h]

theorem sent (h : GangSends s t) : t.tim.sent = s.tim.sent := by
  obtain ⟨q, ps, as, h⟩ := h
  rw [h]

end GangSends

/-! ### One frame on one port, and on each of several (R414, R415) -/

section

variable (kind seq sec ns : Nat) (body : List Byte)

theorem gangOnPort_tim (late : Bool) (p : Nat) (s : State) : (gangOnPort kind seq sec ns late body p s).tim =
    (portSet s p { portGet s p with alive := ((portGet s p).alive + 1) % 65536 }).tim := by simp [gangOnPort]

theorem gangOnPort_outs (late : Bool) (p : Nat) (s : State) : ∃ f, (gangOnPort kind seq sec ns late body p s).outs = .ethFrame p f :: s.outs := by
  simp [gangOnPort]

theorem gangOnPort_sends (late : Bool) (p : Nat) (s : State) : GangSends s (gangOnPort kind seq sec ns late body p s) :=
  (GangSends.portSet s p _).trans (.of_tim (gangOnPort_tim kind seq sec ns body late p s))

theorem gangOnPort_grow (late : Bool) (p : Nat) (s : State) : OutsGrow s (gangOnPort kind seq sec ns late body p s) := fun o ho => by
  obtain ⟨f, h⟩ := gangOnPort_outs kind seq sec ns body late p s
  rw [h]
  exact List.mem_cons_of_mem _ ho

/-- The frame on each port of a list, one after the other. -/
def gangOnPorts (late : Nat → Bool) (on : List Nat) (s : State) : State :=
  on.foldl (fun s p => gangOnPort kind seq sec ns (late p) body p s) s

theorem gangOnPorts_tim (late : Nat → Bool) (on : List Nat) (s : State) :
    ∃ ps, (gangOnPorts kind seq sec ns body late on s).tim = { s.tim with ports := ps } := by
  induction on generalizing s with
  | nil => exact ⟨_, rfl⟩
  | cons p on ih =>
    obtain ⟨ps, h⟩ := ih (gangOnPort kind seq sec ns (late p) body p s)
    refine ⟨ps, h.trans ?_⟩
    rw [gangOnPort_tim]
    rfl

theorem gangOnPorts_frames (late : Nat → Bool) {on : List Nat} {p : Nat} (hp : p ∈ on) (s : State) :
    ∃ f, Output.ethFrame p f ∈ (gangOnPorts kind seq sec ns body late on s).outs := by
  induction on generalizing s with
  | nil => cases hp
  | cons q on ih =>
    rcases List.mem_cons.1 hp with rfl | hin
    · obtain ⟨f, h⟩ := gangOnPort_outs kind seq sec ns body (late p) p s
      refine ⟨f, OutsGrow.foldl (fun q u => gangOnPort_grow kind seq sec ns body (late q) q u) on _ _ ?_⟩
      rw [h]
      exact List.mem_cons_self
    · exact ih hin _

end

/-- The number of the next gang frame (R415). -/
def gangNext (s : State) : Nat := if s.tim.txSeq = max32 then 1 else s.tim.txSeq + 1

/-- The next number is taken. -/
def gangNumbered (s : State) : State := { s with tim := { s.tim with txSeq := gangNext s } }

theorem gangSend_eq {on : List Nat} (hon : on ≠ []) (kind : Nat) (late : Nat → Bool) (sec ns : Nat) (body : List Byte) (s : State) :
    gangSend kind late sec ns body none on s = (gangOnPorts kind (gangNext s) sec ns body late on (gangNumbered s), gangNext s) :=
  if_neg (by simpa using hon)

theorem gangSend_sends (kind : Nat) (late : Nat → Bool) (sec ns : Nat) (body : List Byte) (given : Option Nat) (on : List Nat) (s : State) :
    GangSends s (gangSend kind late sec ns body given on s).1 := by
  unfold gangSend
  split
  · exact .of_tim rfl
  · refine GangSends.trans ?_ (.foldl (fun p u => gangOnPort_sends _ _ _ _ _ _ p u) on _)
    exact .ite (.of_tim rfl) ⟨_, _, _, rfl⟩

/-! ### ABORT frames that waited (R418, R419) -/

theorem abortFrame_sends (w : WaitAbort) (s : State) : GangSends s (abortFrame w s) := by
  unfold abortFrame
  extract_lets up now held
  have hsend := gangSend_sends 2 (fun _ => false) 0 0 (le 1 w.cause) w.seq now s
  split
  next s0 q heq =>
    rw [heq] at hsend
    have hnow : GangSends s (now.foldl (fun s p => portSet s p { portGet s p with abortTill := s.tim.core + 88 }) s0) :=
      hsend.trans (.foldl (fun p u => .portSet u p _) now s0)
    exact .ite hnow (hnow.trans ⟨_, _, _, rfl⟩)

theorem flushAborts_sends (s : State) : GangSends s (flushAborts s) := by
  unfold flushAborts
  exact .ite (GangSends.trans ⟨_, _, _, rfl⟩ (.foldl (fun w u => abortFrame_sends w u) _ _)) ⟨_, _, _, rfl⟩

theorem flushAborts_only (s : State) : changesOnly { outs := true, tim := true, obs := true } s (flushAborts s) :=
  (does_flushAborts (.refl _ s) rfl).only

/-- Where no ABORT frame waits, nothing goes on. -/
theorem flushAborts_of_none (h : s.tim.aborts = []) : flushAborts s = s := by
  have htim : ({ s.tim with aborts := [] } : Tim) = s.tim := by rw [← h]
  simp only [flushAborts, h, htim, List.foldl_nil, ite_self]

/-! ### Commands that complete behind a launch (R370, R420) -/

theorem complete_inflight (id st : Nat) (data : List Byte) (s : State) :
    (complete id st data s).hst.inflight = s.hst.inflight.filter (fun d => d.id != id) := by
  unfold complete
  split
  next h =>
    refine (List.filter_eq_self.2 fun d hd => ?_).symm
    have hne := List.find?_eq_none.1 h d hd
    simpa using hne
  next => exact pushEntry_inflight _ _

/-- A command that is not in flight stays out of it. -/
theorem cmdFind_complete_of_none {j : Nat} (h : cmdFind s j = none) (id st : Nat) (data : List Byte) :
    cmdFind (complete id st data s) j = none := by
  rw [cmdFind, complete_inflight]
  exact List.find?_eq_none.2 fun d hd => List.find?_eq_none.1 h d (List.mem_of_mem_filter hd)

theorem cmdFind_flushAborts (s : State) (id : Nat) : cmdFind (flushAborts s) id = cmdFind s id :=
  cmdFind_congr (congrArg Hst.inflight (same_hst (flushAborts_only s) rfl)) id

/-- A command completes, and what waited behind it goes on. -/
def launchEnds (id st : Nat) (data : List Byte) (s : State) : State := flushAborts (complete id st data s)

section

variable (id st : Nat) (data : List Byte) (s : State)

theorem cmdFind_launchEnds : cmdFind (launchEnds id st data s) id = none := (cmdFind_flushAborts _ _).trans (cmdFind_complete _ _ _ _)

theorem launchEnds_sends : GangSends s (launchEnds id st data s) := (GangSends.of_tim (complete_tim _ _ _ _)).trans (flushAborts_sends _)

theorem launchEnds_only : changesOnly { outs := true, hst := true, tim := true, obs := true } s (launchEnds id st data s) :=
  only_trans (complete_only id st data s) (flushAborts_only _)

end

theorem launchEnds_of_none (h : s.tim.aborts = []) (id st : Nat) (data : List Byte) : launchEnds id st data s = complete id st data s :=
  flushAborts_of_none ((congrArg Tim.aborts (complete_tim id st data s)).trans h)

/-! ### GANG_CTRL without EN (R420) -/

/-- The launches of a list complete, one after the other. -/
def launchesEnd (ls : List Launch) (s : State) : State := ls.foldl (fun s l => complete l.cmd 0x42 [] s) s

theorem launchesEnd_only (ls : List Launch) (s : State) : changesOnly { outs := true, hst := true, obs := true } s (launchesEnd ls s) :=
  (Does.foldl (.refl _ s) fun l _ h => does_complete l.cmd 0x42 [] h rfl).only

theorem cmdFind_launchesEnd_of_none {j : Nat} (ls : List Launch) (h : cmdFind s j = none) : cmdFind (launchesEnd ls s) j = none := by
  induction ls generalizing s with
  | nil => exact h
  | cons l ls ih => exact ih (cmdFind_complete_of_none h _ _ _)

theorem cmdFind_launchesEnd {ls : List Launch} {l : Launch} (hl : l ∈ ls) (s : State) : cmdFind (launchesEnd ls s) l.cmd = none := by
  induction ls generalizing s with
  | nil => cases hl
  | cons m ls ih =>
    rcases List.mem_cons.1 hl with rfl | hin
    · exact cmdFind_launchesEnd_of_none ls (cmdFind_complete _ _ _ s)
    · exact ih hin _

/-- The gang protocol is off, and nothing is queued. -/
def gangStopped (v : Nat) (s : State) : State :=
  { regSet s 0x150230 v with tim := { s.tim with launches := [], aborts := [] } }

theorem gangOn_gangStopped {v : Nat} (h : bitAt v 2 = false) (s : State) : gangOn (gangStopped (v % 8) s) = false := by
  have hreg : regGet (gangStopped (v % 8) s) 0x150230 = v % 8 :=
    (regGet_regSet_same s 0x150230 (v % 8)).trans (Nat.mod_eq_of_lt ((Nat.mod_lt _ (by decide)).trans (by decide)))
  rw [gangOn, gangCtrl, hreg, bitAt, show 8 = 2 ^ 3 from rfl, Nat.testBit_mod_two_pow]
  exact h

theorem gangCtrlOp_off {v : Nat} (h : bitAt v 2 = false) (s : State) :
    gangCtrlOp v s = launchesEnd s.tim.launches (gangStopped (v % 8) s) :=
  if_neg (Bool.eq_false_iff.1 (gangOn_gangStopped h s))

theorem answers_gangDisable (v : W32) (h : writeReaches 0x150230 s) : answers (.gangDisable v) s fun t =>
    gangOn t = false ∧ t.tim = { s.tim with launches := [], aborts := [] } ∧ (∀ l ∈ s.tim.launches, cmdFind t l.cmd = none) ∧
    changesOnly { outs := true, regs := true, hst := true, tim := true, obs := true } s t := by
  have hoff := bitAt_clearBit_same v.toNat 2
  have hends := launchesEnd_only s.tim.launches (gangStopped (clearBit v.toNat 2 % 8) s)
  have hstop : changesOnly { regs := true, tim := true } s (gangStopped (clearBit v.toNat 2 % 8) s) := rfl
  refine ⟨_, (write_gangDisable v h).trans (congrArg ok (gangCtrlOp_off hoff s)), ?_, same_tim hends rfl, fun l hl => cmdFind_launchesEnd hl _,
    only_trans hstop hends⟩
  have hreg := regGet_congr (same_regs hends rfl) 0x150230
  have hstopped := gangOn_gangStopped hoff s
  rw [gangOn, gangCtrl] at hstopped ⊢
  rwa [hreg]

/-! ### The frame of a launch starts (R419, R420) -/

theorem upPorts_congr (h : t.tim.ports = s.tim.ports) (m : Nat) : upPorts m t = upPorts m s := by
  simp only [upPorts, portGet, h]

theorem startLaunch_of_none {l : Launch} (h : upPorts l.ports s = []) (timed : Bool) : startLaunch l timed s = launchEnds l.cmd 0x43 [] s := by
  unfold startLaunch
  rw [h]
  rfl

section

variable {l : Launch} (h : upPorts l.ports s ≠ []) (timed : Bool)

/-- A launch's frame on its way: LATE where it is timed and late, or held up on a port. -/
def sentLaunch (l : Launch) (timed : Bool) (s : State) : Sent :=
  { cmd := l.cmd, seq := gangNext s, ports := portMask (upPorts l.ports s),
    late := (upPorts l.ports s).any fun p => timed && (l.late || portBusy s p) }

/-- The frame of a launch stands on its ports. -/
def launchFrames (l : Launch) (timed : Bool) (s : State) : State :=
  gangOnPorts l.kind (gangNext s) (if timed then l.sec else 0) (if timed then l.ns + flag l.domB 31 else 0) l.body
    (fun p => timed && (l.late || portBusy s p)) (upPorts l.ports s) (gangNumbered s)

include h

theorem startLaunch_eq : startLaunch l timed s = { launchFrames l timed s with
    tim := { (launchFrames l timed s).tim with sent := (launchFrames l timed s).tim.sent ++ [sentLaunch l timed s] } } := by
  unfold startLaunch
  extract_lets up late ns
  have hup : up ≠ [] := h
  rw [gangSend_eq hup]
  exact if_neg (by simpa using hup)

theorem startLaunch_tim : ∃ ps, (startLaunch l timed s).tim =
    { s.tim with txSeq := gangNext s, ports := ps, sent := s.tim.sent ++ [sentLaunch l timed s] } := by
  obtain ⟨ps, hps⟩ : ∃ ps, (launchFrames l timed s).tim = { (gangNumbered s).tim with ports := ps } := gangOnPorts_tim ..
  rw [startLaunch_eq h, hps]
  exact ⟨ps, rfl⟩

theorem startLaunch_frames {p : Nat} (hp : p ∈ upPorts l.ports s) : ∃ f, Output.ethFrame p f ∈ (startLaunch l timed s).outs := by
  rw [startLaunch_eq h]
  exact gangOnPorts_frames _ _ _ _ _ _ hp _

end

theorem startLaunch_only (l : Launch) (timed : Bool) (s : State) :
    changesOnly { outs := true, hst := true, tim := true, obs := true } s (startLaunch l timed s) := (does_startLaunch l timed (.refl _ s) rfl).only

/-! ### GANG_LAUNCH (R420) -/

/-- Launch `l` leaves the queue. -/
def launchTaken (l : Launch) (s : State) : State :=
  { s with tim := { s.tim with launches := s.tim.launches.filter (fun m => m.cmd != l.cmd) } }

theorem launchTaken_only (l : Launch) (s : State) : changesOnly { tim := true } s (launchTaken l s) := rfl

/-- The launch of a command. -/
def launchOf (id : Nat) (c : Cmd) (s : State) : Launch :=
  { cmd := id, tag := c.tag, kind := c.p 0 1, ports := c.p 2 1, domB := bitAt (c.p 1 1) 1, at_ := timeOf (c.p 8 8) (c.p 0x10 4),
    sec := c.p 8 8, ns := c.p 0x10 4, body := (c.params.drop 0x18).take 24,
    late := decide (timeOf (c.p 8 8) (c.p 0x10 4) < (domGet s (bitAt (c.p 1 1) 1)).t), due := false }

/-- The row is that of the command's kind; USER also takes the kinds that do not exist. -/
def launchesAs (row : Instr) (id : Nat) (c : Cmd) : Prop :=
  row = .gangLaunchCancel id ∧ c.p 0 1 = 0 ∨ row = .gangLaunchStart id ∧ c.p 0 1 = 1 ∨ row = .gangLaunchAbort id ∧ c.p 0 1 = 2 ∨
    row = .gangLaunchUser id ∧ 3 ≤ c.p 0 1

theorem launchesAs_cancel {row : Instr} {id : Nat} {c : Cmd} (h : launchesAs row id c) (hk : c.p 0 1 = 0) : row = .gangLaunchCancel id := by
  rcases h with ⟨h, -⟩ | ⟨-, h⟩ | ⟨-, h⟩ | ⟨-, h⟩
  · exact h
  all_goals omega

section

variable {id : Nat} {c : Cmd} {row : Instr} (hc : cmdOp s id 0x0D = some c) (hrow : launchesAs row id c)

include hc

theorem launchRow_eq {mine : Nat → Bool} (h : mine (c.p 0 1) = true) : launchRow id mine s = launchOp id c s := by
  unfold launchRow
  rw [hc]
  exact if_pos h

theorem exec_cancel_refused (h : c.p 0 1 = 0) (hst : launchStatus s c ≠ 0) :
    exec (.gangLaunchCancel id) s = .next (complete id (launchStatus s c) [] s) := by
  show execGangLaunchCancel id s = _
  unfold execGangLaunchCancel
  rw [hc]
  exact (if_neg (not_not.2 h)).trans (if_pos hst)

include hrow

/-- START, ABORT and USER are one operation. -/
theorem exec_launchOp (h : c.p 0 1 ≠ 0) : exec row s = .next (launchOp id c s) := by
  rcases hrow with ⟨rfl, hk⟩ | ⟨rfl, hk⟩ | ⟨rfl, hk⟩ | ⟨rfl, hk⟩
  · exact absurd hk h
  · exact congrArg ok (launchRow_eq hc (by rw [hk]; rfl))
  · exact congrArg ok (launchRow_eq hc (by rw [hk]; rfl))
  · exact congrArg ok (launchRow_eq hc (decide_eq_true hk))

theorem answers_launch_refused (hst : launchStatus s c ≠ 0) : answers row s fun t => completedWith {} id (launchStatus s c) s t := by
  refine answers_complete ?_
  by_cases hk : c.p 0 1 = 0
  · obtain rfl := launchesAs_cancel hrow hk
    exact exec_cancel_refused hc hk hst
  · rw [exec_launchOp hc hrow hk]
    exact congrArg Host.Outcome.next (if_pos hst)

section

variable (hst : launchStatus s c = 0) (hk : c.p 0 1 ≠ 0)

include hst hk

theorem exec_launch_now (hnow : bitAt (c.p 1 1) 0 = false) : exec row s = .next (startLaunch (launchOf id c s) false (cmdRun id s)) := by
  refine (exec_launchOp hc hrow hk).trans (congrArg Host.Outcome.next ?_)
  exact (if_neg (not_not.2 hst)).trans (if_pos (by simp [hnow]))

theorem answers_launch_nowhere (hnow : bitAt (c.p 1 1) 0 = false) (hup : upPorts (c.p 2 1) s = []) : answers row s fun t =>
    cmdFind t id = none ∧ t.tim.sent = s.tim.sent ∧ (s.tim.aborts = [] → completedWith { hst := true } id 0x43 s t) ∧
    changesOnly { outs := true, hst := true, tim := true, obs := true } s t := by
  have hends : startLaunch (launchOf id c s) false (cmdRun id s) = launchEnds id 0x43 [] (cmdRun id s) :=
    startLaunch_of_none (l := launchOf id c s) (s := cmdRun id s) ((upPorts_congr rfl _).trans hup) false
  refine ⟨_, exec_launch_now hc hrow hst hk hnow, ?_⟩
  rw [hends]
  exact ⟨cmdFind_launchEnds _ _ _ _, (launchEnds_sends id 0x43 [] (cmdRun id s)).sent,
    fun hnone => ⟨cmdRun id s, [], cmdRun_only id s, launchEnds_of_none (s := cmdRun id s) hnone _ _ _⟩,
    only_trans (cmdRun_only id s) (launchEnds_only _ _ _ _)⟩

theorem answers_launch_now (hnow : bitAt (c.p 1 1) 0 = false) (hup : upPorts (c.p 2 1) s ≠ []) : answers row s fun t =>
    t.tim.txSeq = gangNext s ∧
    t.tim.sent = s.tim.sent ++ [{ cmd := id, seq := gangNext s, ports := portMask (upPorts (c.p 2 1) s), late := false }] ∧
    (∀ p ∈ upPorts (c.p 2 1) s, ∃ f, Output.ethFrame p f ∈ t.outs) ∧
    changesOnly { outs := true, hst := true, tim := true, obs := true } s t := by
  have hports : upPorts (launchOf id c s).ports (cmdRun id s) = upPorts (c.p 2 1) s := upPorts_congr rfl _
  have hsome : upPorts (launchOf id c s).ports (cmdRun id s) ≠ [] := fun h => hup (hports.symm.trans h)
  have hsent : sentLaunch (launchOf id c s) false (cmdRun id s) =
      { cmd := id, seq := gangNext s, ports := portMask (upPorts (c.p 2 1) s), late := false } := by
    rw [sentLaunch, hports]
    simp only [Bool.false_and, List.any_eq_false.2 (fun _ _ => Bool.false_ne_true)]
    rfl
  obtain ⟨ps, htim⟩ := startLaunch_tim hsome false
  refine ⟨_, exec_launch_now hc hrow hst hk hnow, ?_⟩
  dsimp only
  rw [htim, hsent]
  exact ⟨rfl, rfl, fun p hp => startLaunch_frames hsome false (by rwa [hports]), only_trans (cmdRun_only id s) (startLaunch_only _ _ _)⟩

theorem answers_launch_full (htimed : bitAt (c.p 1 1) 0 = true) (hfull : 8 ≤ s.tim.launches.length) :
    answers row s fun t => completedWith {} id 0x41 s t := by
  refine answers_complete ((exec_launchOp hc hrow hk).trans (congrArg Host.Outcome.next ?_))
  exact (if_neg (not_not.2 hst)).trans ((if_neg (not_not.2 htimed)).trans (if_pos hfull))

theorem answers_launch_queued (htimed : bitAt (c.p 1 1) 0 = true) (hroom : s.tim.launches.length < 8) : answers row s fun t =>
    changesOnly { hst := true, tim := true } s t ∧ t.tim = { s.tim with launches := s.tim.launches ++ [launchOf id c s] } := by
  have hop : launchOp id c s = cmdRun id { s with tim := { s.tim with launches := s.tim.launches ++ [launchOf id c s] } } :=
    (if_neg (not_not.2 hst)).trans ((if_neg (not_not.2 htimed)).trans (if_neg (Nat.not_le.2 hroom)))
  refine ⟨_, exec_launchOp hc hrow hk, ?_⟩
  rw [hop]
  exact ⟨rfl, rfl⟩

end

end

section

variable {id : Nat} {c : Cmd} (hc : cmdOp s id 0x0D = some c) (hst : launchStatus s c = 0) (hk : c.p 0 1 = 0)

include hc hst hk

theorem exec_cancel_unknown (hfind : s.tim.launches.find? (fun l => l.tag == c.p 4 2) = none) :
    exec (.gangLaunchCancel id) s = .next (complete id 0x45 [] s) := by
  show execGangLaunchCancel id s = _
  unfold execGangLaunchCancel
  rw [hc]
  dsimp only
  rw [if_neg (not_not.2 hk), if_neg (not_not.2 hst), hfind]
  rfl

theorem exec_cancel {l : Launch} (hfind : s.tim.launches.find? (fun l => l.tag == c.p 4 2) = some l) :
    exec (.gangLaunchCancel id) s = .next (launchEnds id 0 [] (complete l.cmd 0x44 [] (launchTaken l s))) := by
  show execGangLaunchCancel id s = _
  unfold execGangLaunchCancel
  rw [hc]
  dsimp only
  rw [if_neg (not_not.2 hk), if_neg (not_not.2 hst), hfind]
  rfl

theorem answers_cancel {l : Launch} (hfind : s.tim.launches.find? (fun l => l.tag == c.p 4 2) = some l) :
    answers (.gangLaunchCancel id) s fun t =>
      t.tim.launches = s.tim.launches.filter (fun m => m.cmd != l.cmd) ∧ cmdFind t id = none ∧ cmdFind t l.cmd = none ∧
      changesOnly { outs := true, hst := true, tim := true, obs := true } s t := by
  refine ⟨_, exec_cancel hc hst hk hfind, ?_, cmdFind_launchEnds _ _ _ _, ?_, ?_⟩
  · rw [(launchEnds_sends _ _ _ _).launches, complete_tim]
    rfl
  · exact (cmdFind_flushAborts _ _).trans (cmdFind_complete_of_none (cmdFind_complete _ _ _ _) _ _ _)
  · exact only_trans (A := { outs := true, hst := true, tim := true, obs := true })
      (only_trans (launchTaken_only l s) (complete_only l.cmd 0x44 [] _)) (launchEnds_only _ _ _ _)

end

/-! ### A launch that is due, and a frame that has ended (R403, R419, R420) -/

theorem exec_gangLaunchDue {l : Launch} (h : nextLaunch s = some l) : exec .gangLaunchDue s = .next (startLaunch l true (launchTaken l s)) := by
  show execGangLaunchDue s = _
  unfold execGangLaunchDue
  rw [h]
  rfl

/-- A frame is late where its launch was, or where an earlier frame holds it up (R419; log 81). -/
theorem sentLaunch_late {l : Launch} (hup : upPorts l.ports s ≠ [])
    (h : l.late = true ∨ ∃ p ∈ upPorts l.ports s, portBusy s p = true) : (sentLaunch l true s).late = true := by
  refine List.any_eq_true.2 ?_
  rcases h with hlate | ⟨p, hp, hbusy⟩
  · obtain ⟨p, hp⟩ := List.exists_mem_of_ne_nil _ hup
    exact ⟨p, hp, by rw [hlate]; rfl⟩
  · exact ⟨p, hp, by rw [hbusy, Bool.or_true]; rfl⟩

theorem answers_gangLaunchDue {l : Launch} (h : nextLaunch s = some l) : answers .gangLaunchDue s fun t =>
    t.tim.launches = s.tim.launches.filter (fun m => m.cmd != l.cmd) ∧ changesOnly { outs := true, hst := true, tim := true, obs := true } s t ∧
    (upPorts l.ports s = [] → t.tim.sent = s.tim.sent ∧ cmdFind t l.cmd = none) ∧
    (upPorts l.ports s ≠ [] → ∃ x, t.tim.sent = s.tim.sent ++ [x] ∧ x.cmd = l.cmd ∧ x.ports = portMask (upPorts l.ports s) ∧
      x.seq = t.tim.txSeq ∧ (l.late = true ∨ (∃ p ∈ upPorts l.ports s, portBusy s p = true) → x.late = true)) := by
  have honly : changesOnly { outs := true, hst := true, tim := true, obs := true } s (startLaunch l true (launchTaken l s)) :=
    only_trans (launchTaken_only l s) (startLaunch_only l true _)
  refine ⟨_, exec_gangLaunchDue h, ?_⟩
  by_cases hup : upPorts l.ports s = []
  · have hends := startLaunch_of_none (s := launchTaken l s) hup true
    have hsends := launchEnds_sends l.cmd 0x43 [] (launchTaken l s)
    rw [hends] at honly ⊢
    exact ⟨hsends.launches, honly, fun _ => ⟨hsends.sent, cmdFind_launchEnds _ _ _ _⟩, fun hnot => absurd hup hnot⟩
  · obtain ⟨ps, htim⟩ := startLaunch_tim (s := launchTaken l s) hup true
    rw [htim]
    exact ⟨rfl, honly, fun hyes => absurd hyes hup,
      fun _ => ⟨sentLaunch l true (launchTaken l s), rfl, rfl, rfl, rfl, sentLaunch_late (s := launchTaken l s) hup⟩⟩

/-- The result of a launch whose frame has ended (Table 11-5). -/
def sentResult (x : Sent) (a b : Stamp) (s : State) : List Byte :=
  let t0 := if bitAt x.ports 0 then txStamp s 0 (s.tim.a.at_ a) else 0
  let t1 := if bitAt x.ports 1 then txStamp s 1 (s.tim.a.at_ b) else 0
  le 4 x.seq ++ le 1 (flag x.late 2 + x.ports) ++ [0, 0, 0] ++ le 8 (ringTime t0) ++ le 8 (ringTime t1) ++ le 2 (fracOf t0) ++ le 2 (fracOf t1)

/-- The frames `r` are still on their way. -/
def sentRest (r : List Sent) (s : State) : State := { s with tim := { s.tim with sent := r } }

theorem sentRest_only (r : List Sent) (s : State) : changesOnly { tim := true } s (sentRest r s) := rfl

theorem exec_gangFrameSent {x : Sent} {r : List Sent} (h : s.tim.sent = x :: r) (a b : Stamp) :
    exec (.gangFrameSent a b) s = .next (launchEnds x.cmd 0 (sentResult x a b s) (sentRest r s)) := by
  show execGangFrameSent a b s = _
  unfold execGangFrameSent
  rw [h]
  rfl

theorem answers_gangFrameSent {x : Sent} {r : List Sent} (h : s.tim.sent = x :: r) (a b : Stamp) : answers (.gangFrameSent a b) s fun t =>
    t.tim.sent = r ∧ cmdFind t x.cmd = none ∧ (s.tim.aborts = [] → completedWith { tim := true } x.cmd 0 s t) ∧
    changesOnly { outs := true, hst := true, tim := true, obs := true } s t :=
  ⟨_, exec_gangFrameSent h a b, (launchEnds_sends _ _ _ (sentRest r s)).sent, cmdFind_launchEnds _ _ _ _,
    fun hnone => ⟨sentRest r s, sentResult x a b s, sentRest_only r s, launchEnds_of_none (s := sentRest r s) hnone _ _ _⟩,
    only_trans (sentRest_only r s) (launchEnds_only _ _ _ _)⟩

end Sys2Proof.Machine
end

section
/-! PROOFS. Gang frames received (R416, R417): frames that are discarded, that clash, that are old or new, what an ABORT does to the stripe,
and O55. -/

-- One theorem at a time, as under Laws/: the package as one text takes too much memory in many threads.
set_option Elab.async false

namespace Sys2Proof.Machine

variable {s t u : State}

/-! ### The end of a stripe leaves TIM alone where no ABORT frame spreads (R187, R197, R417) -/

theorem releaseCoefs_tim (s : State) : (releaseCoefs s).tim = s.tim :=
  same_tim (does_releaseCoefs (.refl { outs := true, hst := true, enc := true, obs := true } s) rfl).only rfl

theorem closeCut_tim (rest : Bool) (s : State) : (closeCut rest s).tim = s.tim :=
  same_tim (does_closeCut rest (.refl { Parts.events with pac := true, store := true } s) rfl).only rfl

theorem discardStripe_tim (keep : Bool) (status : Nat) (s : State) : (discardStripe keep status s).tim = s.tim :=
  same_tim (does_discardStripe (F := { Parts.ending with tim := false }) keep status (.refl _ s) rfl).only rfl

theorem abortRunning_tim (cause : Nat) (gc : Option Nat) (run : Bool) (s : State) : (abortRunning cause gc run false s).tim = s.tim := by
  unfold abortRunning
  split
  · rfl
  next st _ =>
    split
    · rfl
    · extract_lets limit nu shown
      split
      next x v a m _ =>
        extract_lets stop st' s1 s2 s3
        have h2 : s2.tim = s.tim := (closeCut_tim _ _).trans (raiseItems_tim _ _ _ s1)
        have h3 : s3.tim = s.tim := by
          simp only [s3]
          split
          · exact (same_tim (dxpSend_only _ _ _ _) rfl).trans h2
          · exact h2
        exact (releaseCoefs_tim _).trans h3

theorem abortOrDiscard_tim (cause : Nat) (event : Bool) (armStatus : Nat) (s : State) :
    (abortOrDiscard cause false event armStatus s).tim = s.tim := by
  unfold abortOrDiscard
  split
  · rfl
  · split
    · exact abortRunning_tim _ _ _ _
    · split
      · rfl
      · dsimp only
        split
        · exact (raiseItems_tim _ _ _ _).trans (discardStripe_tim _ _ _)
        · exact discardStripe_tim _ _ _

/-! ### A received ABORT acts on the stripe that is held (R417; log 84) -/

theorem gangAbortIn_tim (s : State) : (gangAbortIn s).tim = s.tim := by
  unfold gangAbortIn
  split
  · split
    · exact abortOrDiscard_tim _ _ _ { s with free := s.free + 1 }
    · exact abortOrDiscard_tim _ _ _ _
  · rfl

section

variable {st : Stripe} (hst : s.pac.stripe = some st)

include hst

theorem gangAbortIn_of_moving (hmoving : st.state.moving = true) :
    ∃ st', (gangAbortIn s).pac.stripe = some st' ∧ st'.state = .stopping := by
  have harming : st.state ≠ .arming := fun h => by rw [h] at hmoving; cases hmoving
  have habort : gangAbortIn s = abortRunning 4 none true false s := by simp [gangAbortIn, abortOrDiscard, hst, hmoving, harming]
  obtain ⟨st', hst', hstate, -⟩ := abortRunning_stops hst hmoving 4 true false
  exact ⟨st', by rw [habort, hst'], hstate⟩

theorem gangAbortIn_of_standing (hstate : st.state = .arming ∨ st.state = .armed) : (gangAbortIn s).pac.stripe = none := by
  unfold gangAbortIn
  rw [hst]
  dsimp only
  split
  · exact abortOrDiscard_of_standing (s := { s with free := s.free + 1 }) hst hstate 4 false true _
  · exact abortOrDiscard_of_standing hst hstate 4 false true 0

theorem holdsAny_of_stripe (hstate : st.state ≠ .stopping) : holdsAny s = true := by
  rw [holdsAny, hst]
  exact decide_eq_true hstate

end

/-! ### A new frame acts by its kind (R417) -/

/-- The items of EV_GANG_ABORT. -/
def abortItems (f : GangFrame) (acts : Bool) : List (Nat × Nat) :=
  [(2, f.src.toNat), (4, f.seq.toNat), (1, fld f.body 0 1), (1, if acts then 1 else 0)]

section

variable {f : GangFrame}

theorem gangAct_start (h : f.kind.toNat = 1) (s : State) : gangAct f s = raiseItems 0x1504 0 (startItems s f) s :=
  if_pos (BitVec.eq_of_toNat_eq h)

theorem gangAct_user (h : f.kind.toNat = 3) (s : State) : gangAct f s =
    raiseItems 0x1505 0 [(2, f.src.toNat), (4, f.seq.toNat), (24, ofLe (fit 24 f.body))] s := by
  have hk : f.kind = 3 := BitVec.eq_of_toNat_eq h
  rw [gangAct, hk]
  rfl

theorem gangAct_abort (h : f.kind.toNat = 2) (s : State) : gangAct f s =
    if bitAt (gangCtrl s) 0 && holdsAny s then gangAbortIn (raiseItems 0x1506 4 (abortItems f true) s)
    else raiseItems 0x1506 4 (abortItems f false) s := by
  have hk : f.kind = 2 := BitVec.eq_of_toNat_eq h
  rw [gangAct, hk]
  dsimp only
  rw [if_neg (by decide), if_neg (by decide), if_pos rfl]
  unfold abortItems
  cases bitAt (gangCtrl s) 0 && holdsAny s <;> simp only [if_true, if_false, Bool.false_eq_true]

theorem gangAct_other (h : f.kind.toNat = 0 ∨ 3 < f.kind.toNat) (s : State) : gangAct f s = s := by
  have hne : ∀ k : Byte, k.toNat ≠ 0 → k.toNat ≤ 3 → f.kind ≠ k := fun k h0 h3 hk => by
    rw [hk] at h
    omega
  rw [gangAct, if_neg (hne 1 (by decide) (by decide)), if_neg (hne 3 (by decide) (by decide)), if_neg (hne 2 (by decide) (by decide))]

theorem gangAct_tim (f : GangFrame) (s : State) : (gangAct f s).tim = s.tim := by
  unfold gangAct
  split
  · exact raiseItems_tim _ _ _ _
  · split
    · exact raiseItems_tim _ _ _ _
    · split
      · dsimp only
        split
        · exact (gangAbortIn_tim _).trans (raiseItems_tim _ _ _ _)
        · exact raiseItems_tim _ _ _ _
      · rfl

end

/-! ### What becomes of a frame (R400, R416) -/

/-- What is kept of the frame's source. -/
def srcKept (s : State) (f : GangFrame) : Src :=
  ((tfind s.tim.srcs f.src.toNat).getD { seq := f.seq.toNat }).setAlive f.port f.alive.toNat

/-- The frame is counted at its arrival, and `x` is kept of its source. -/
def srcSeen (f : GangFrame) (x : Src) (s : State) : State :=
  { frameReceived f.port s with tim := { (frameReceived f.port s).tim with srcs := tput (frameReceived f.port s).tim.srcs f.src.toNat x } }

/-- A frame that is not new is counted (R416). -/
def dupCounted (s : State) : State := cntTim 4 none 1 { s with tim := { s.tim with dup := sat32 (s.tim.dup + 1) } }

/-- A new frame is counted with the frames that were missed before it (R416). -/
def gapCounted (n : Nat) (s : State) : State := cntTim 3 none 1 { s with tim := { s.tim with gap := sat32 (s.tim.gap + n) } }

/-- A new frame before it acts. -/
def newSeen (f : GangFrame) (s : State) : State :=
  gapCounted (aliveGap (tfind s.tim.srcs f.src.toNat) f) (srcSeen f { srcKept s f with seq := f.seq.toNat } s)

theorem srcSeen_tim (f : GangFrame) (x : Src) (s : State) : (srcSeen f x s).tim = { s.tim with srcs := tput s.tim.srcs f.src.toNat x } := by
  simp [srcSeen]

theorem srcSeen_only (f : GangFrame) (x : Src) (s : State) : changesOnly { tim := true, obs := true } s (srcSeen f x s) :=
  only_trans (frameReceived_only f.port s) (B := { tim := true }) rfl

theorem dupCounted_only (s : State) : changesOnly { tim := true, obs := true } s (dupCounted s) :=
  only_trans (u := { s with tim := { s.tim with dup := sat32 (s.tim.dup + 1) } }) (A := { tim := true }) rfl (cntTim_only _ _ _ _)

theorem gapCounted_only (n : Nat) (s : State) : changesOnly { tim := true, obs := true } s (gapCounted n s) :=
  only_trans (u := { s with tim := { s.tim with gap := sat32 (s.tim.gap + n) } }) (A := { tim := true }) rfl (cntTim_only _ _ _ _)

theorem newSeen_only (f : GangFrame) (s : State) : changesOnly { tim := true, obs := true } s (newSeen f s) :=
  only_trans (srcSeen_only f _ s) (gapCounted_only _ _)

theorem newSeen_tim (f : GangFrame) (s : State) : (newSeen f s).tim = { s.tim with
    srcs := tput s.tim.srcs f.src.toNat { srcKept s f with seq := f.seq.toNat },
    gap := sat32 (s.tim.gap + aliveGap (tfind s.tim.srcs f.src.toNat) f) } := by
  rw [newSeen, gapCounted, cntTim_tim, srcSeen_tim]

section

variable {f : GangFrame} (hup : (portGet s f.port).up = true)

include hup

theorem gangRx_unfit (h : gangFits s f = false) : ∃ u, changesOnly { obs := true } s u ∧ gangRx f s = discardFrame f.port u := by
  refine ⟨if isGang s f ∧ ¬ f.crcGood then chkFrame 2 (129 + f.port) f.alive.toNat (frameReceived f.port s)
    else frameReceived f.port s, ?_, ?_⟩
  · split
    · exact only_trans (frameReceived_only _ _) (chkFrame_only _ _ _ _)
    · exact frameReceived_only _ _
  · exact (if_neg (not_not.2 hup)).trans (if_pos (Bool.eq_false_iff.1 h))

theorem gangRx_own (h : gangFits s f = true) (hown : f.src.toNat = regGet s 0x150220 % 4096) : gangRx f s =
    if s.tim.clash then frameReceived f.port s
    else raiseItems 0x1507 1 [(1, f.port), (8, ofLe f.mac)]
      { frameReceived f.port s with tim := { (frameReceived f.port s).tim with clash := true } } :=
  (if_neg (not_not.2 hup)).trans ((if_neg (not_not.2 h)).trans (if_pos hown))

variable (h : gangFits s f = true) (hother : f.src.toNat ≠ regGet s 0x150220 % 4096)

include h hother

theorem gangRx_old (hold : gangNew (tfind s.tim.srcs f.src.toNat) f = false) :
    gangRx f s = dupCounted (srcSeen f (srcKept s f) s) := by
  refine (if_neg (not_not.2 hup)).trans ((if_neg (not_not.2 h)).trans ((if_neg hother).trans ?_))
  dsimp only
  rw [hold]
  exact if_pos Bool.false_ne_true

theorem gangRx_new (hnew : gangNew (tfind s.tim.srcs f.src.toNat) f = true) : gangRx f s = gangAct f (newSeen f s) := by
  refine (if_neg (not_not.2 hup)).trans ((if_neg (not_not.2 h)).trans ((if_neg hother).trans ?_))
  dsimp only
  rw [hnew]
  exact if_neg (not_not.2 rfl)

end

/-! ### The rows of received frames -/

/-- The row is one of those that receive frame `f`. -/
def receives (row : Instr) (f : GangFrame) : Prop :=
  row = .gangStartRx f ∨ row = .gangUserRx f ∨ row = .gangAbortRx f ∨ row = .gangIdClash f ∨ row = .gangFrameRefused f

theorem exec_gangRx {f : GangFrame} {row : Instr} (h : receives row f) (s : State) : exec row s = .next (gangRx f s) := by
  rcases h with rfl | rfl | rfl | rfl | rfl <;> rfl

section

variable {f : GangFrame} {row : Instr} (hrow : receives row f) (hup : (portGet s f.port).up = true)

include hrow hup

theorem answers_gangRx_unfit (h : gangFits s f = false) : answers row s fun t =>
    portGet t f.port = { portGet s f.port with discard := sat32 ((portGet s f.port).discard + 1) } ∧
    changesOnly { tim := true, obs := true } s t := by
  obtain ⟨u, hu, hrx⟩ := gangRx_unfit hup h
  refine ⟨_, exec_gangRx hrow s, ?_⟩
  rw [hrx, discardFrame, portGet_congr (same_tim hu rfl)]
  exact ⟨portGet_portSet_same _ _ _, only_trans hu (portSet_only _ _ _)⟩

theorem answers_gangRx_own (h : gangFits s f = true) (hown : f.src.toNat = regGet s 0x150220 % 4096) : answers row s fun t =>
    t.tim = { s.tim with clash := true } ∧ (s.tim.clash = false → reported 0x1507 1 s t) ∧
    changesOnly { Parts.events with tim := true } s t := by
  refine ⟨_, exec_gangRx hrow s, ?_⟩
  rw [gangRx_own hup h hown]
  have hrec := frameReceived_only f.port s
  cases hclash : s.tim.clash with
  | true =>
    have hset : ({ s.tim with clash := true } : Tim) = s.tim := by rw [← hclash]
    rw [if_pos rfl, hset]
    exact ⟨frameReceived_tim _ _, fun hno => absurd hno.symm Bool.false_ne_true, only_trans hrec (B := {}) rfl⟩
  | false =>
    rw [if_neg Bool.false_ne_true, frameReceived_tim]
    have hclashed : changesOnly { tim := true, obs := true } s { frameReceived f.port s with tim := { s.tim with clash := true } } :=
      only_trans hrec (B := { tim := true }) rfl
    exact ⟨raiseItems_tim _ _ _ _, fun _ => raiseItems_reported_from _ _ _ (same_glb hclashed rfl) (same_slo hclashed rfl) rfl,
      only_trans hclashed (raiseItems_only _ _ _ _)⟩

variable (h : gangFits s f = true) (hother : f.src.toNat ≠ regGet s 0x150220 % 4096)

include h hother

theorem answers_gangRx_old (hold : gangNew (tfind s.tim.srcs f.src.toNat) f = false) : answers row s fun t =>
    t.tim.dup = sat32 (s.tim.dup + 1) ∧ t.tim.gap = s.tim.gap ∧ changesOnly { tim := true, obs := true } s t := by
  refine ⟨_, exec_gangRx hrow s, ?_⟩
  rw [gangRx_old hup h hother hold]
  have htim : (dupCounted (srcSeen f (srcKept s f) s)).tim =
      { s.tim with srcs := tput s.tim.srcs f.src.toNat (srcKept s f), dup := sat32 (s.tim.dup + 1) } := by
    rw [dupCounted, cntTim_tim, srcSeen_tim]
  dsimp only
  rw [htim]
  exact ⟨rfl, rfl, only_trans (srcSeen_only f _ s) (dupCounted_only _)⟩

end

/-- An event that a new frame raises is reported, with its frame. -/
theorem newSeen_raises (f : GangFrame) (code cls : Nat) (l : List (Nat × Nat)) (s : State) :
    reported code cls s (raiseItems code cls l (newSeen f s)) ∧
    changesOnly { Parts.events with tim := true } s (raiseItems code cls l (newSeen f s)) := by
  have honly := newSeen_only f s
  exact ⟨raiseItems_reported_from _ _ _ (same_glb honly rfl) (same_slo honly rfl) (by rw [newSeen_tim]),
    only_trans honly (raiseItems_only _ _ _ _)⟩

theorem newSeen_acts (f : GangFrame) (s : State) :
    (bitAt (gangCtrl (newSeen f s)) 0 && holdsAny (newSeen f s)) = (bitAt (gangCtrl s) 0 && holdsAny s) := by
  have honly := newSeen_only f s
  rw [gangCtrl, regGet_congr (same_regs honly rfl), holdsAny, same_pac honly rfl]
  rfl

section

variable {f : GangFrame} (hkind : f.kind.toNat = 2)

include hkind

/-- An ABORT that acts on no stripe is reported alone. -/
theorem gangAct_newSeen_idle (hidle : bitAt (gangCtrl s) 0 = false ∨ holdsAny s = false) :
    gangAct f (newSeen f s) = raiseItems 0x1506 4 (abortItems f false) (newSeen f s) := by
  have hno : (bitAt (gangCtrl s) 0 && holdsAny s) = false := by
    rcases hidle with h | h <;> rw [h]
    · exact Bool.false_and _
    · exact Bool.and_false _
  rw [gangAct_abort hkind, newSeen_acts, hno]
  rfl

/-- An ABORT that acts ends the stripe that is held. -/
theorem gangAct_newSeen_acts (hacts : bitAt (gangCtrl s) 0 = true) {st : Stripe} (hst : s.pac.stripe = some st)
    (hstate : st.state ≠ .stopping) : ∃ u, u.pac.stripe = some st ∧ gangAct f (newSeen f s) = gangAbortIn u := by
  refine ⟨raiseItems 0x1506 4 (abortItems f true) (newSeen f s), ?_, ?_⟩
  · rw [raiseItems_pac, same_pac (newSeen_only f s) rfl, hst]
  · rw [gangAct_abort hkind, newSeen_acts, hacts, holdsAny_of_stripe hst hstate]
    rfl

end

theorem answers_gangRx_new {f : GangFrame} {row : Instr} (hrow : receives row f) (hup : (portGet s f.port).up = true)
    (h : gangFits s f = true) (hother : f.src.toNat ≠ regGet s 0x150220 % 4096)
    (hnew : gangNew (tfind s.tim.srcs f.src.toNat) f = true) : answers row s fun t =>
      t.tim.gap = sat32 (s.tim.gap + aliveGap (tfind s.tim.srcs f.src.toNat) f) ∧ t.tim.dup = s.tim.dup ∧
      (tfind t.tim.srcs f.src.toNat).map Src.seq = some f.seq.toNat ∧
      (f.kind.toNat = 1 → reported 0x1504 0 s t ∧ changesOnly { Parts.events with tim := true } s t) ∧
      (f.kind.toNat = 3 → reported 0x1505 0 s t ∧ changesOnly { Parts.events with tim := true } s t) ∧
      (f.kind.toNat = 2 → bitAt (gangCtrl s) 0 = false ∨ holdsAny s = false →
        reported 0x1506 4 s t ∧ changesOnly { Parts.events with tim := true } s t) ∧
      (f.kind.toNat = 0 ∨ 3 < f.kind.toNat → changesOnly { tim := true, obs := true } s t) ∧
      (f.kind.toNat = 2 → bitAt (gangCtrl s) 0 = true →
        (∀ st, s.pac.stripe = some st → st.state.moving = true → ∃ st', t.pac.stripe = some st' ∧ st'.state = .stopping) ∧
        (∀ st, s.pac.stripe = some st → st.state = .arming ∨ st.state = .armed → t.pac.stripe = none)) := by
  refine ⟨gangAct f (newSeen f s), (exec_gangRx hrow s).trans (congrArg Host.Outcome.next (gangRx_new hup h hother hnew)), ?_⟩
  have htim := (gangAct_tim f (newSeen f s)).trans (newSeen_tim f s)
  refine ⟨by rw [htim], by rw [htim], by rw [htim, tfind_tput_same]; rfl, fun hkind => ?_, fun hkind => ?_, fun hkind hidle => ?_,
    fun hkind => ?_, fun hkind hacts => ⟨fun st hst hmoving => ?_, fun st hst hstate => ?_⟩⟩
  · rw [gangAct_start hkind]
    exact newSeen_raises f _ _ _ s
  · rw [gangAct_user hkind]
    exact newSeen_raises f _ _ _ s
  · rw [gangAct_newSeen_idle hkind hidle]
    exact newSeen_raises f _ _ _ s
  · rw [gangAct_other hkind]
    exact newSeen_only f s
  · obtain ⟨u, hu, hact⟩ := gangAct_newSeen_acts hkind hacts hst (fun hstop => by rw [hstop] at hmoving; cases hmoving)
    rw [hact]
    exact gangAbortIn_of_moving hu hmoving
  · obtain ⟨u, hu, hact⟩ := gangAct_newSeen_acts hkind hacts hst (by rcases hstate with h | h <;> rw [h] <;> decide)
    rw [hact]
    exact gangAbortIn_of_standing hu hstate

/-- Settles O55: a launch ends, starts or waits by its checks, and a received frame acts once, when it is new and another member's. -/
theorem gangFrames : Obligations.GangFrames := by
  intro s
  refine ⟨answers_gangDisable, fun id c row hc hrow => ⟨answers_launch_refused hc hrow, fun hst hk hnow =>
      ⟨answers_launch_nowhere hc hrow hst hk hnow, answers_launch_now hc hrow hst hk hnow⟩, fun hst hk htimed =>
      ⟨answers_launch_full hc hrow hst hk htimed, fun hroom => ?_⟩, fun hst hk => ?_⟩,
    fun l => answers_gangLaunchDue, fun x r a b h => answers_gangFrameSent h a b, fun f row hup hrow =>
      ⟨answers_gangRx_unfit hrow hup, answers_gangRx_own hrow hup, fun h hother =>
        ⟨answers_gangRx_old hrow hup h hother, answers_gangRx_new hrow hup h hother⟩⟩⟩
  · obtain ⟨t, hexec, honly, htim⟩ := answers_launch_queued hc hrow hst hk htimed hroom
    exact ⟨t, hexec, honly, launchOf id c s, htim, rfl, rfl, rfl, rfl, rfl, rfl, rfl⟩
  · obtain rfl := launchesAs_cancel hrow hk
    exact ⟨fun hfind => answers_complete (exec_cancel_unknown hc hst hk hfind), fun l => answers_cancel hc hst hk⟩

end Sys2Proof.Machine
end
